-- ==== Sys2Proof/Word.lean ====
section
/-! DEFINITION. The 36-bit word and the byte of the device (R16). -/
namespace Sys2Proof

/-- A word: 36 bits, numbered 35 down to 0 (R16). -/
abbrev Word := BitVec 36

/-- A byte: 8 bits (R16). -/
abbrev Byte := BitVec 8

end Sys2Proof
end

