-- ==== Sys2Proof/Syntax.lean ====
section
/-! DEFINITION. The commands of the block: what its engines execute and what reaches it from outside. -/
namespace Sys2Proof

/-- A register field of an instruction: w0 to w31 (R162). -/
abbrev RegNo := BitVec 5

/-- The engines that execute ashlar code (R34): two command engines, one map engine per tree, the plinth processor. -/
inductive Eng where
  | cmd (c : Fin 2)
  | map (t : Fin 64)
  | plinth
  deriving DecidableEq, Repr

/-- Format A with its fn field (R162). -/
structure FmtA where
  d : RegNo
  a : RegNo
  b : RegNo
  fn : BitVec 15
  deriving DecidableEq, Repr

/-- Format X, both words (R162). -/
structure FmtX where
  d : RegNo
  a : RegNo
  b : RegNo
  tid : BitVec 8
  fn : BitVec 7
  c : RegNo
  n : RegNo
  imm : BitVec 26
  deriving DecidableEq, Repr

/-- A domain: the mortar core, or a quoin (R23). Quoin q is written `quoin (q - 1)`. -/
inductive Dom where
  | core
  | quoin (q : Fin 25)
  deriving DecidableEq, Repr

/-- Why a domain failed to wake (R118, FAILCAUSE 1 to 3). -/
inductive FailCause where
  | supply
  | clock
  | saved
  deriving DecidableEq, Repr

/-- How a read of host memory failed (R153). -/
inductive HostErr where
  /-- The completion timeout expired. -/
  | timeout
  /-- A poisoned completion or an ECRC error. -/
  | poisoned
  /-- Unsupported Request or Completer Abort. -/
  | rejected
  deriving DecidableEq, Repr

/-- What a transfer of an image delivered: its 64-bit slots, or a failed read, or nothing within the bound (R112, R203). -/
inductive Transfer where
  | slots (ws : List (BitVec 64))
  | failed (err : HostErr)
  | absent
  deriving DecidableEq, Repr

/-- A packet as it arrives at a port (R331, R351): its port index, the terminal and XGEM port of a tree, and its bytes
with the 4-byte FCS. On a bond link the terminal field holds the CLASS of its first flit (R492). -/
structure Packet where
  port : Nat
  term : Fin 256
  gem : BitVec 16
  bytes : List Byte
  /-- The line reported the packet bad before its end (a truncated burst or frame, R390). -/
  truncated : Bool
  deriving DecidableEq, Repr

/-- One upstream XGEM frame of a burst that carries a whole packet (R436 to R439). -/
structure UpFrame where
  gem : BitVec 16
  /-- Key index of the frame header: 0 for a clear frame. -/
  keyIndex : BitVec 2
  bytes : List Byte
  /-- The frame is of the management channel and carries an integrity code that matches. -/
  omci : Option Bool
  deriving DecidableEq, Repr

/-- The decoded content of a burst (R253, R279 to R281). -/
structure Burst where
  /-- The found delimiter end less D, in equalisation units (R253). -/
  offset : Int
  /-- The burst header passed its check. -/
  headerOk : Bool
  /-- The ONU-ID the header names. -/
  onuId : BitVec 10
  /-- The serial number a discovery response carries: vendor identifier and vendor-specific number. -/
  serial : BitVec 64
  /-- The PLOAM messages of 48 bytes, the last 8 of each the integrity code. -/
  ploams : List (List Byte)
  /-- Status reports: allocation index and occupancy (R190). -/
  reports : List (BitVec 12 × BitVec 24)
  corrected : Nat
  uncorrectable : Nat
  /-- With FEC off: the trailer check passed (R267). -/
  trailerOk : Bool
  frames : List UpFrame
  deriving DecidableEq, Repr

/-- A CAPS message of a bond peer (R493, R495). -/
structure CapsMsg where
  offer : BitVec 2
  sysid : BitVec 16
  devid : BitVec 10
  bundle : Fin 4
  /-- The data lanes in use at both ends. -/
  lanes : BitVec 4
  deriving DecidableEq, Repr

/-- A CREDIT message: the cumulative count of flits that left the peer's buffer, per pool (R493, R496). -/
structure CreditMsg where
  counts : List Nat
  deriving DecidableEq, Repr

/-- A TIME message: the peer's time-stamps of its own first bit and of the last message it received, and the ingress
time-stamp of this one, all in units of 2^-16 ns (R500). -/
structure TimeMsg where
  sent : Int
  lastReceived : Int
  received : Int
  deriving DecidableEq, Repr

/-- An RMT message: a request or a reply (R498). -/
inductive RmtMsg where
  | request (src dst : BitVec 10) (hops : Nat) (write : Bool) (offset : BitVec 24) (data : Word)
  | reply (dst : BitVec 10) (hops : Nat) (status : BitVec 8) (data : Word)
  deriving DecidableEq, Repr


/-- The commands: one constructor per row of the table of commands, with the row's operands. -/
inductive Instr where
  /-- ADD: Register-form addition d = a + b, setting Z N C V (R180). -/
  | add (e : Eng) (d a b : RegNo)
  /-- ADC: Addition with carry d = a + b + C (R180). -/
  | adc (e : Eng) (d a b : RegNo)
  /-- SUB: Subtraction d = a - b with borrow in C (R180). -/
  | sub (e : Eng) (d a b : RegNo)
  /-- SBC: Subtraction with borrow d = a - b - C (R180). -/
  | sbc (e : Eng) (d a b : RegNo)
  /-- AND: Bitwise AND of two registers (R180). -/
  | and_ (e : Eng) (d a b : RegNo)
  /-- OR: Bitwise OR of two registers (R180). -/
  | or_ (e : Eng) (d a b : RegNo)
  /-- XOR: Bitwise XOR of two registers (R180). -/
  | xor (e : Eng) (d a b : RegNo)
  /-- ANDN: d = a and not b (R180). -/
  | andn (e : Eng) (d a b : RegNo)
  /-- SHL: Logical shift left by b[5:0], with the edge cases of R182 (R180). -/
  | shl (e : Eng) (d a b : RegNo)
  /-- SHR: Logical shift right by b[5:0] (R180). -/
  | shr (e : Eng) (d a b : RegNo)
  /-- SAR: Arithmetic shift right by b[5:0] (R180). -/
  | sar (e : Eng) (d a b : RegNo)
  /-- ROR: Rotate right by b[5:0] mod 36 (R180). -/
  | ror (e : Eng) (d a b : RegNo)
  /-- MUL: Low 36 bits of the product, 4 microcycles (R180). -/
  | mul (e : Eng) (d a b : RegNo)
  /-- MULHU: High 36 bits of the unsigned 72-bit product (R180). -/
  | mulhu (e : Eng) (d a b : RegNo)
  /-- MINU: Unsigned minimum of two registers (R180). -/
  | minu (e : Eng) (d a b : RegNo)
  /-- MAXU: Unsigned maximum of two registers (R180). -/
  | maxu (e : Eng) (d a b : RegNo)
  /-- CMP: Compares a with b, setting flags only (R180). -/
  | cmp (e : Eng) (d a b : RegNo)
  /-- TST: Tests a and b, setting Z and N only (R180). -/
  | tst (e : Eng) (d a b : RegNo)
  /-- CLZ: Counts the leading zero bits of a (R180). -/
  | clz (e : Eng) (d a b : RegNo)
  /-- POPC: Counts the one bits of a (R180). -/
  | popc (e : Eng) (d a b : RegNo)
  /-- DIVU: Unsigned division; division by zero gives all ones with V set (R182). -/
  | divu (e : Eng) (d a b : RegNo)
  /-- REMU: Unsigned remainder; remainder by zero gives a with V set (R182). -/
  | remu (e : Eng) (d a b : RegNo)
  /-- ADDI: Adds a sign-extended imm20 to a register (R181). -/
  | addi (e : Eng) (d a : RegNo) (imm : BitVec 20)
  /-- CMPI: Compares a register with a sign-extended imm20 (R181). -/
  | cmpi (e : Eng) (d a : RegNo) (imm : BitVec 20)
  /-- ANDI: AND with a zero-extended imm20 (R181). -/
  | andi (e : Eng) (d a : RegNo) (imm : BitVec 20)
  /-- ORI: OR with a zero-extended imm20 (R181). -/
  | ori (e : Eng) (d a : RegNo) (imm : BitVec 20)
  /-- XORI: XOR with a zero-extended imm20 (R181). -/
  | xori (e : Eng) (d a : RegNo) (imm : BitVec 20)
  /-- SHI: Shift or rotate by an immediate amount; ERANGE above 35 (R181). -/
  | shi (e : Eng) (d a : RegNo) (imm : BitVec 20)
  /-- LIL: Loads a zero-extended imm25 into a register (R181). -/
  | lil (e : Eng) (d : RegNo) (imm : BitVec 25)
  /-- LIH: Loads imm25[10:0] into d[35:25], keeping d[24:0] (R181). -/
  | lih (e : Eng) (d : RegNo) (imm : BitVec 25)
  /-- BFX: Extracts a bit field of a, zero-extended (R181). -/
  | bfx (e : Eng) (d a : RegNo) (imm : BitVec 20)
  /-- BFI: Inserts the low bits of a into a field of d (R181). -/
  | bfi (e : Eng) (d a : RegNo) (imm : BitVec 20)
  /-- LD: Loads an engine-memory word into a register (R183). -/
  | ld (e : Eng) (d a : RegNo) (imm : BitVec 20)
  /-- ST: Stores a register into engine memory, with the protection of R175 (R183). -/
  | st (e : Eng) (d a : RegNo) (imm : BitVec 20)
  /-- RST: Writes a result word to the host result buffer as a posted write (R184). -/
  | rst (e : Eng) (d a : RegNo) (imm : BitVec 20)
  /-- MFSR: Reads a special register into a word register (R168). -/
  | mfsr (e : Eng) (d a : RegNo) (imm : BitVec 20)
  /-- MTSR: Writes FLAGS, or TVEC in the plinth context (R169). -/
  | mtsr (e : Eng) (d a : RegNo) (imm : BitVec 20)
  /-- SEL: Selects a or b according to a condition code (R183). -/
  | sel (e : Eng) (f : FmtA)
  /-- BR: Conditional PC-relative branch (R185). -/
  | br (e : Eng) (d : RegNo) (imm : BitVec 25)
  /-- JAL: Jump and link, PC-relative (R185). -/
  | jal (e : Eng) (d : RegNo) (imm : BitVec 25)
  /-- JALR: Jump and link to a register plus offset (R185). -/
  | jalr (e : Eng) (d a : RegNo) (imm : BitVec 20)
  /-- END: Ends the program: completes a fragment, commits a map, or returns from a plinth event routine (R185). -/
  | end_ (e : Eng) (f : FmtA)
  /-- WAIT: Starts a wait until a time word, completing at once if the target is not later than NOW (R186). -/
  | wait (e : Eng) (d a : RegNo) (imm : BitVec 20)
  /-- WAIT_DONE: A pending WAIT completes in the first microcycle at which NOW reaches its target (R186). -/
  | waitDone (e : Eng)
  /-- TRAP: Completes with the coded non-OK status and the context outcome of R173 (R187). -/
  | trap (e : Eng) (d a : RegNo) (imm : BitVec 20)
  /-- DBNZ: Decrements a register and branches while it is non-zero (R185). -/
  | dbnz (e : Eng) (d a : RegNo) (imm : BitVec 20)
  /-- GRANT: Appends one allocation structure to the map under construction (R188). -/
  | grant (e : Eng) (f : FmtX)
  /-- RPT: Returns the next status report of the tree's report queue (R190). -/
  | rpt (e : Eng) (f : FmtX)
  /-- ARD: Reads an allocation's four-word entry into four registers (R188). -/
  | ard (e : Eng) (f : FmtX)
  /-- TRD: Reads a terminal's one-word summary (R276). -/
  | trd (e : Eng) (f : FmtX)
  /-- QUIET: Opens a discovery or ranging quiet window and appends or holds its structure (R278). -/
  | quiet (e : Eng) (f : FmtX)
  /-- RSSI: Arms RSSI_TRIG for the burst of the most recent structure (R258). -/
  | rssi (e : Eng) (f : FmtX)
  /-- TWRITE: Issues an asynchronous write of a table entry image (R193). -/
  | twrite (e : Eng) (f : FmtX)
  /-- TREAD: Issues an asynchronous consistent read of a table entry (R192). -/
  | tread (e : Eng) (f : FmtX)
  /-- TINSERT: Issues an asynchronous insertion by key with cuckoo relocation and stash (R356). -/
  | tinsert (e : Eng) (f : FmtX)
  /-- TDELETE: Issues an asynchronous removal of an entry by key (R359). -/
  | tdelete (e : Eng) (f : FmtX)
  /-- TLOOKUP: Issues an asynchronous lookup as a packet would (R192). -/
  | tlookup (e : Eng) (f : FmtX)
  /-- TABLE_OP_FINISH: An outstanding asynchronous table operation finishes, writing its d register and destination words (R178). -/
  | tableOpFinish (e : Eng) (k : Nat)
  /-- TBANK: Makes the named rule bank the one packets use and starts the drain of the other (R196). -/
  | tbank (e : Eng) (f : FmtX)
  /-- BANK_DRAIN_END: The last packet tagged with the vacated bank completes classification and the swap ends (R342). -/
  | bankDrainEnd
  /-- FENCE: Starts a drain of packets that looked up before this point (R195). -/
  | fence (e : Eng) (f : FmtX)
  /-- FENCE_DONE: Every packet that looked up before the fence has left or been dropped, and FENCE completes (R195). -/
  | fenceDone (e : Eng)
  /-- TGEN: Sets the engine's generation tag for a table (R372). -/
  | tgen (e : Eng) (f : FmtX)
  /-- QSET: Configures a queue from a 7-word image (R403). -/
  | qset (e : Eng) (f : FmtA)
  /-- QREAD: Reads a queue's depth or head-of-queue delay (R197). -/
  | qread (e : Eng) (f : FmtA)
  /-- CSET: Configures a course and puts it in use (R406). -/
  | cset (e : Eng) (f : FmtA)
  /-- CLINK: Links a child course under a parent course (R407). -/
  | clink (e : Eng) (f : FmtA)
  /-- CDEL: Unlinks and frees an empty course (R407). -/
  | cdel (e : Eng) (f : FmtA)
  /-- MSET: Configures a meter and resets its buckets to full (R415). -/
  | mset (e : Eng) (f : FmtA)
  /-- MREAD: Writes a meter's configuration and bucket state to engine memory (R415). -/
  | mread (e : Eng) (f : FmtA)
  /-- CNTRD: Reads a 72-bit statistics counter atomically, optionally clearing it (R198). -/
  | cntrd (e : Eng) (f : FmtA)
  /-- TCMP: Compares two time words by signed difference (R200). -/
  | tcmp (e : Eng) (f : FmtA)
  /-- TGET: Writes four words of a clock latched at one instant (R199). -/
  | tget (e : Eng) (f : FmtA)
  /-- TTRIG: Sets the pending instant of a trigger output (R201). -/
  | ttrig (e : Eng) (f : FmtA)
  /-- TTRIG_CANCEL: Clears any pending instant of a trigger output (R201). -/
  | ttrigCancel (e : Eng) (f : FmtA)
  /-- TCAP: Takes the latest captured edge of a capture input (R199). -/
  | tcap (e : Eng) (f : FmtA)
  /-- RDREG: Reads a BAR0 register from ashlar code as the host would (R204). -/
  | rdreg (e : Eng) (d a b : RegNo)
  /-- WRREG: Writes a BAR0 register from ashlar code as the host would (R204). -/
  | wrreg (e : Eng) (d a b : RegNo)
  /-- PATCH: Loads, checks and installs or stages a microcode patch (R232). -/
  | patch (e : Eng) (d a b : RegNo) (src : Transfer)
  /-- GPLOAD: Writes a grant program image into a halted map engine's local memory (R203). -/
  | gpload (e : Eng) (d a b : RegNo) (src : Transfer)
  /-- FBMAP: Replaces a tree's fallback map from the next frame boundary (R318). -/
  | fbmap (e : Eng) (d a b : RegNo) (src : Transfer)
  /-- ENGCTL_HALT: Requests a map engine halt that takes effect at the end of the current frame (R202). -/
  | engctlHalt (e : Eng) (d a b : RegNo)
  /-- ENGCTL_HALT_DONE: At the frame boundary after the halt request the engine becomes HALTED and ENGCTL completes (R221). -/
  | engctlHaltDone (t : Fin 64)
  /-- ENGCTL_START: Starts a map engine at an entry word, STARTING until the next frame boundary (R202). -/
  | engctlStart (e : Eng) (d a b : RegNo)
  /-- UNIT_ENABLE: Enables a tree, uplink port or bond bundle and wakes its domain (R202). -/
  | unitEnable (e : Eng) (d a b : RegNo)
  /-- UNIT_DISABLE: Disables a tree, uplink port or bond bundle (R202). -/
  | unitDisable (e : Eng) (d a b : RegNo)
  /-- PCSEL: Programs a performance counter and clears its value and sticky bit (R543). -/
  | pcsel (e : Eng) (d a b : RegNo)
  /-- PCRD: Reads a performance counter's value and wrap-sticky bit (R546). -/
  | pcrd (e : Eng) (d a b : RegNo)
  /-- TMACT: Activates a terminal into RANGING or RESTORED from a context image (R274). -/
  | tmact (e : Eng) (d a b : RegNo)
  /-- TMDEACT: Deactivates a terminal, zeroes its context and withdraws its allocations (R275). -/
  | tmdeact (e : Eng) (d a b : RegNo)
  /-- TMEQD: Sets a terminal's equalisation delay, entering OPERATING where applicable (R275). -/
  | tmeqd (e : Eng) (d a b : RegNo)
  /-- PLSEND: Queues a downstream PLOAM message with its integrity code (R286). -/
  | plsend (e : Eng) (d a b : RegNo)
  /-- PLRECV: Takes the oldest upstream PLOAM message that passed its check (R280). -/
  | plrecv (e : Eng) (d a b : RegNo)
  /-- KLOAD: Loads a key image into a key slot (R434). -/
  | kload (e : Eng) (d a b : RegNo)
  /-- KCLR: Clears a key slot to EMPTY (R434). -/
  | kclr (e : Eng) (d a b : RegNo)
  /-- CVAL: Computes or verifies a CMAC or GMAC check value (R442). -/
  | cval (e : Eng) (d a b : RegNo)
  /-- SENSE: Plinth reads a temperature sensor or voltage monitor (R206). -/
  | sense (e : Eng) (d a b : RegNo)
  /-- LOGW: Plinth appends a record to the event log (R532). -/
  | logw (e : Eng) (d a b : RegNo)
  /-- FLASH: Plinth reads, programs or erases SPI flash (R534). -/
  | flash (e : Eng) (d a b : RegNo) (responds : Bool)
  /-- UPDATE_CHECK: Checks every image of a flash slot (R537). -/
  | updateCheck (e : Eng) (d a b : RegNo)
  /-- UPDATE_STAGE: Checks a slot and writes a directory naming it as TRIAL (R537). -/
  | updateStage (e : Eng) (d a b : RegNo)
  /-- UPDATE_CONFIRM: Makes the running trial slot ACTIVE (R537). -/
  | updateConfirm (e : Eng) (d a b : RegNo)
  /-- UPDATE_REVOKE: Checks a revocation record and programs a key-revocation fuse (R537). -/
  | updateRevoke (e : Eng) (d a b : RegNo)
  /-- DEADLINE: At cycle 143,079 a map engine still running is trapped, its map discarded and MAP_OVERRUN counted (R215). -/
  | deadline (t : Fin 64)
  /-- TICK: Every 1 ms of a fragment's execution the command engine takes its TICK service trap (R221). -/
  | tick (c : Fin 2)
  /-- PATCH_SCRUB: Each engine reads every patch RAM word once every 100 ms, correcting single-bit errors (R208). -/
  | patchScrub (e : Eng) (corrected : Bool)
  /-- DOORBELL: A write of HCI_RING_TAIL posts descriptors, or is ignored with ERANGE if it would overfill (R146). -/
  | doorbell (r : Fin 16) (v : Word)
  /-- RING_ENABLE: A write setting HCI_RING_CTRL.EN enables a ring, or is held or refused (R144). -/
  | ringEnable (r : Fin 16) (v : Word)
  /-- RING_DISABLE: A write clearing EN stops fetching and abandons unfetched descriptors (R144). -/
  | ringDisable (r : Fin 16) (v : Word)
  /-- DESCRIPTOR_FETCH: An idle command engine takes the next ready descriptor, checks it and fetches the whole fragment (R137). -/
  | descriptorFetch (c : Fin 2) (desc frag : List (BitVec 64))
  /-- FRAGMENT_COMPLETION: Once all its table operations finish, a fragment's result words and completion entry are written (R151). -/
  | fragmentCompletion (c : Fin 2)
  /-- FRAGMENT_TIMEOUT: A fragment exceeds LIMIT and completes with ETIMEOUT at the executing instruction (R152). -/
  | fragmentTimeout (c : Fin 2)
  /-- HOST_MEMORY_ERROR: A descriptor or fragment read fails; the ring completes the descriptor and HALTs (R153). -/
  | hostMemoryError (c : Fin 2) (desc : List (BitVec 64)) (err : HostErr)
  /-- RING_INTERRUPT: ITIME expires after the first uncounted completion and the ring signals its vector (R160). -/
  | ringInterrupt (r : Fin 16)
  /-- NEGOTIATE: Writing HCI_NEGOTIATE.REQ selects the highest common command-interface version (R127). -/
  | negotiate (v : Word)
  /-- BUS_MASTER_DISABLE: Clearing Bus Master Enable or entering D3hot stops fetching and holds result writes (R133). -/
  | busMasterDisable (d3hot : Bool)
  /-- BUS_MASTER_ENABLE: Returning to D0 with Bus Master Enable writes held results in order and resumes fetching (R133). -/
  | busMasterEnable
  /-- PCIE_PERST_N: PCIE_PERST_N low aborts DMA, disables rings and returns the version to none (R107). -/
  | pciePerstN
  /-- FUNCTION_LEVEL_RESET: A Function Level Reset has PCIE_PERST_N's effects with the link kept trained (R107). -/
  | functionLevelReset
  /-- REGISTER_WRITE: A BAR0 write to a register with no row of its own, including rejections and badly sized writes (R18). -/
  | registerWrite (off size : Nat) (v : BitVec 64)
  /-- POWER_ON: The VDD_AON detector causes a power-on reset, clearing always-on memory (R104). -/
  | powerOn
  /-- RESET_N_ASSERT: RESET_N held low puts the whole device in full reset (R105). -/
  | resetNAssert (widthNs : Nat)
  /-- RESET_N_RELEASE: RESET_N rising latches the straps and starts the always-on power-on reset (R70). -/
  | resetNRelease (boot : BitVec 2) (i2ca : BitVec 3)
  /-- POR_DONE: The always-on domain finishes its internal reset, raises POR_DONE and starts the start-up sequence (R64). -/
  | porDone
  /-- SOFT_RESET: Writing 0xA5C3 to RST_CTRL.KEY starts a full reset within 1 us (R109). -/
  | softReset (v : Word)
  /-- PHASE_FUSES: Start-up phase FUSES ends after reading identity, keys and repair data (R111). -/
  | phaseFuses (ok : Bool)
  /-- PHASE_CLOCKS: The time-base PLL locks, quoin 24 is READY and the frame count starts (R111). -/
  | phaseClocks (ok : Bool)
  /-- PHASE_SRAM: SRAM is cleared, the mortar core is READY at PL0 and configuration requests are answered (R111). -/
  | phaseSram (ok : Bool)
  /-- PHASE_STACKMEM: The memory stacks finish training, or quoin 22 is marked FAILED (R111). -/
  | phaseStackmem (ok : Bool)
  /-- PHASE_FIRMWARE: The plinth patch image is loaded and checked from the boot source (R112). -/
  | phaseFirmware (src : Transfer)
  /-- BOOT_IMAGE_TIMEOUT: No management-port image arrives within 10 s and the phase completes with ETIMEOUT (R112). -/
  | bootImageTimeout
  /-- PHASE_PATCH: Microcode patches are loaded into every engine and READY is set at DONE (R111). -/
  | phasePatch (map cmd : Transfer)
  /-- SUPPLY_LOST: A supply-good detector drops while its domain is READY, failing the domain or entering the safe state (R103). -/
  | supplyLost (q : Dom)
  /-- AON_BROWNOUT: VDD_AON falls below 0.60 V; quoin 25 asserts the safe state and holds power-on reset (R103). -/
  | aonBrownout
  /-- WAKE_COMPLETE: A waking domain reports READY and its stalled accesses proceed (R119). -/
  | wakeComplete (q : Dom)
  /-- WAKE_FAIL: The wake timeout expires, the domain becomes FAILED and stalled accesses complete with EWAKE (R122). -/
  | wakeFail (q : Dom) (cause : FailCause)
  /-- STAGE_STALL: A mortar-core stage's progress watch expires after 1 ms and a stall record is written (R45). -/
  | stageStall (stage : Nat)
  /-- SENSOR_UPDATE: Every 100 us each temperature sensor's reading is updated and its thresholds judged (R97). -/
  | sensorUpdate (temps : List (Option (BitVec 12)))
  /-- THROTTLE_STEP: Every 1 ms while throttle persists the level falls one further step (R94). -/
  | throttleStep
  /-- VMON_UPDATE: Every 100 us each voltage monitor updates and sets ALARM after 3 readings out of band (R531). -/
  | vmonUpdate (mvs : List (Option (BitVec 12)))
  /-- SAFE_REQ_N: A qualified low on SAFE_REQ_N enters the safe state (R67). -/
  | safeReqN (widthNs : Nat)
  /-- SAFEKEY: Writing 0x3C5A to FLT_CTRL.SAFEKEY enters the safe state with a fatal record (R528). -/
  | safekey (v : Word)
  /-- FLT_REC_SEL: Writing FLT_REC_SEL latches one fault record into FLT_REC as a snapshot (R524). -/
  | fltRecSel (v : Word)
  /-- WATCHDOG_EXPIRY: The plinth watchdog reaches TIMEOUT and the plinth restarts from ROM (R530). -/
  | watchdogExpiry
  /-- KICK: Plinth firmware writes KICK to restart the watchdog count (R530). -/
  | kick (v : Word)
  /-- PLINTH_TICK: Every 1 ms the plinth event 2 is raised to image firmware (R536). -/
  | plinthTick
  /-- LOG_MIRROR: The plinth mirrors new event-log records to the flash log region (R533). -/
  | logMirror (ok : Bool)
  /-- HREQ: The host posts a mailbox message to the plinth (R535). -/
  | hreq (v : Word)
  /-- ACK: The host releases a mailbox reply, clearing PRSP (R535). -/
  | ack (v : Word)
  /-- INFO: Mailbox command returning plinth state and versions (R535). -/
  | info
  /-- LOGREAD: Mailbox command returning up to 10 event-log records (R535). -/
  | logread
  /-- SENSORS: Mailbox command returning up to 60 SENSE words (R535). -/
  | sensors
  /-- LOGWRITE: Mailbox command appending a host record to the event log (R535). -/
  | logwrite
  /-- IMGWRITE: Mailbox command writing image words to boot memory or the inactive slot (R535). -/
  | imgwrite
  /-- IMGDONE: Mailbox command checking a delivered image, ending WAIT_HOST or staging a slot (R535). -/
  | imgdone
  /-- CONFIRM: Mailbox command performing UPDATE CONFIRM (R535). -/
  | confirm
  /-- RESET: Mailbox command starting a plinth full reset after a mirror (R535). -/
  | reset
  /-- MIRROR: Mailbox command mirroring the event log to flash (R535). -/
  | mirror (ok : Bool)
  /-- WAKE: A management-port WAKE datagram makes the plinth set PWRREQ (R535). -/
  | wake
  /-- MGMT_FRAME: A frame received on the management port reaches plinth memory (R535). -/
  | mgmtFrame (frame : List Byte)
  /-- BMC_POWER_RESTORED: Board controller CMD 0x01 clears PWRREQ (R535). -/
  | bmcPowerRestored
  /-- BMC_WAKE_REQUEST: Board controller CMD 0x02 requests a wake from Deep (R535). -/
  | bmcWakeRequest
  /-- BMC_RESET: Board controller CMD 0x5A requests a full reset as RESET (R535). -/
  | bmcReset
  /-- FRAME_BOUNDARY: Every 155,520 cycles of quoin 24 a frame begins and the per-frame work runs (R567). -/
  | frameBoundary
  /-- VDD_STEP: The device sends the next set-point frame to the VDD_CORE regulator (R503). -/
  | vddStep
  /-- LT_STEP: Every 10 ms while the ceiling condition persists the thermal level LT steps down or up (R507). -/
  | ltStep
  /-- PWR_GOV_EN: Writing PWR_GOV_CTRL.EN starts the governor, or clearing it returns VDD_CORE to PL0 (R503). -/
  | pwrGovEn (v : Word)
  /-- WATTS: Writing PWR_BUDGET.WATTS sets the budget and resets the energy debt (R508). -/
  | watts (v : Word)
  /-- DOZE: A quoin with no work for DLY us enters DOZE (R512). -/
  | doze (q : Fin 25)
  /-- REST: Writing REST saves and turns off every idle quoin among 1 to 22 (R513). -/
  | rest (v : Word)
  /-- DEEP: Writing DEEP disables every unit and starts Deep entry (R515). -/
  | deep (v : Word)
  /-- DEEP_SAVE: When no handle is held or 3 ms pass, registers are saved and Deep is reported ready (R515). -/
  | deepSave
  /-- DEEP_WAKE: Group B rails become good and the start-up phases run again with saved registers restored (R516). -/
  | deepWake
  /-- BURST_RST: The BURST_RST pulse before a burst is driven, truncated or skipped (R256). -/
  | burstRst (t : Fin 64)
  /-- RSSI_TRIG: The armed RSSI_TRIG pulse is produced at its offset in the burst (R258). -/
  | rssiTrig (t : Fin 64)
  /-- BURST_RECEIVED: A burst's delimiter is found and its content decoded, reports, PLOAM and packets taken (R253). -/
  | burstReceived (t : Fin 64) (b : Burst)
  /-- DRIFT_HOLDOFF_END: The hold-off count after a drift correction ends and averaging resumes (R284). -/
  | driftHoldoffEnd (t : Fin 64) (u : Fin 256)
  /-- BURST_MISSING: No delimiter is found by D + DWIN; the burst is MISSING, counted, and LOSI may set (R253). -/
  | burstMissing (t : Fin 64)
  /-- SD_CHANGE: SD counts a new level after 4 equal samples (R259). -/
  | sdChange (t : Fin 64) (level : Bool)
  /-- CONT: SD high for 77,760 consecutive receiver cycles sets CONT (R289). -/
  | cont (t : Fin 64)
  /-- LOS: FRAMES consecutive dark upstream frames set upstream loss of signal (R259). -/
  | los (t : Fin 64)
  /-- ALIGN_CHECK: The alignment machine checks the PSBd pattern at a candidate position, moving between HUNT, PRESYNC and SYNC (R261). -/
  | alignCheck (t : Fin 64) (pos : Nat) (errs : Nat) (count : Nat)
  /-- PON_DS_CTRL: A write of MODE or LBMODE changes the tree's mode or loopback, invalidating profiles on a mode change (R239). -/
  | ponDsCtrl (t : Fin 64) (v : Word)
  /-- PON_BOND_CTRL: A write forming or dissolving a channel-bonding group (R263). -/
  | ponBondCtrl (t : Fin 64) (v : Word)
  /-- PON_PM_CTRL: A write changing EN15, EN24 or OFFSET clears every bin of the tree (R269). -/
  | ponPmCtrl (t : Fin 64) (v : Word)
  /-- PON_PM_SEL: A write latches one performance bin into PON_PM_DATA0 and DATA1 (R270). -/
  | ponPmSel (t : Fin 64) (v : Word)
  /-- PM_SECOND: Each second of the time base is judged errored or severely errored and the bins updated (R267). -/
  | pmSecond
  /-- PROT_EN: A write setting or clearing PON_PROT_CTRL.EN forms or dissolves a protection pair (R292). -/
  | protEn (t : Fin 64) (v : Word)
  /-- SWITCH: Writing SWITCH, or LOS with AUTO, starts a protection switchover (R296). -/
  | switch (t : Fin 64) (v : Word)
  /-- PORT_EXCHANGE: At the first boundary after the standby lane is ready the ports are exchanged and contexts restored (R296). -/
  | portExchange (t : Fin 64)
  /-- PROT_LANE_TIMEOUT: The standby lane is not ready within WAKE_TIMEOUT and the pair becomes FAILED (R296). -/
  | protLaneTimeout (t : Fin 64)
  /-- RWAIT_EXPIRY: A RESTORED terminal not confirmed within RWAIT returns to RANGING (R296). -/
  | rwaitExpiry (t : Fin 64) (u : Fin 256)
  /-- DONE: Writing DONE ends host restoration of a switchover (R295). -/
  | done (t : Fin 64) (v : Word)
  /-- PACKET_ARRIVAL: A packet from a port is parsed, classified, looked up, metered and admitted (R331). -/
  | packetArrival (p : Packet)
  /-- LEARN_REQUEST: The learning engine takes a queued learn or move and applies it to the entry as it stands (R368). -/
  | learnRequest
  /-- FREEZE_HOLD_END: A frozen entry's HOLD time ends, clearing FROZEN (R369). -/
  | freezeHoldEnd (key : BitVec 64)
  /-- AGE_TICK: Every TICK ms the coarse time advances and the ager removes expired dynamic entries (R370). -/
  | ageTick
  /-- FWD_FLUSH: Writing FWD_FLUSH.GO starts a bulk removal of exact-match entries (R371). -/
  | fwdFlush (v : Word)
  /-- FWD_FLUSH_DONE: A forwarding flush completes and BUSY clears (R371). -/
  | fwdFlushDone
  /-- RESEQ_RELEASE: A resequencer releases a packet once its port's watermark allows, and it is enqueued (R388). -/
  | reseqRelease (out : Fin 14) (port : Nat)
  /-- SELECTION: An egress that can take a packet selects one through the course hierarchy and dequeues it (R409). -/
  | selection (egress : Nat)
  /-- HANDLE_RELEASE: A packet's last word leaves, its handle returns and its buffer count falls (R379). -/
  | handleRelease (h : Nat)
  /-- BUF_THR: A write of a pool threshold that is evaluated at once (R381). -/
  | bufThr (p : Fin 5) (k : Fin 4) (v : Word)
  /-- BUF_FLUSH: Writing BUF_FLUSH.GO flushes the queues of a port that is up (R392). -/
  | bufFlush (v : Word)
  /-- PORT_FLUSH_DONE: A port flush completes and the next pending flush starts (R392). -/
  | portFlushDone
  /-- AUDIT_GO: Writing BUF_AUDIT_CTRL.GO starts an audit pass (R394). -/
  | auditGo (v : Word)
  /-- AUDIT_PERIOD: PERIOD seconds after a pass started, the next audit pass starts (R394). -/
  | auditPeriod
  /-- AUDIT_VISIT: The auditor classifies one buffer as leaked, lost or suspect and may reclaim it (R393). -/
  | auditVisit (pool : Fin 4) (index : Nat)
  /-- CLS_EXQ_CTRL: A write setting or clearing an exception queue's EN (R344). -/
  | clsExqCtrl (q : Fin 8) (v : Word)
  /-- CLS_EXQ_HEAD: A write of an exception queue's HEAD returning consumed slots (R345). -/
  | clsExqHead (q : Fin 8) (v : Word)
  /-- COMMIT: Writing GATE_CTRL.COMMIT makes the administrative gate list pending with its start instant (R421). -/
  | commit (g : Fin 128) (v : Word)
  /-- CANCEL: Writing GATE_CTRL.CANCEL discards a pending gate list (R420). -/
  | cancel (g : Fin 128) (v : Word)
  /-- GATE_DISABLE: Writing GATE_CTRL.EN from 1 to 0 opens every class and discards the lists (R420). -/
  | gateDisable (g : Fin 128) (v : Word)
  /-- GATE_LIST_START: At its start instant a pending gate list becomes operational at entry 0 (R421). -/
  | gateListStart (g : Fin 128)
  /-- GATE_ENTRY: An operational list moves to its next entry or next cycle (R422). -/
  | gateEntry (g : Fin 128)
  /-- QUEUE_SAMPLE: At a sampling instant each queue's depth and maxima are sampled for the stream (R429). -/
  | queueSample (q : Fin 262144)
  /-- CIP_NONCE_EPOCH: A write of the GMAC nonce EPOCH, accepted once per full reset (R443). -/
  | cipNonceEpoch (v : Word)
  /-- MEASUREMENT: Writing TIME_DOM_GO submits an offset measurement to a domain's servo (R451). -/
  | measurement (d : Fin 2) (v : Word)
  /-- DHOLD: A LOCKED domain with no measurement for HOLD enters HOLDOVER (R452). -/
  | dhold (d : Fin 2)
  /-- WTR_EXPIRY: The primary has been LOCKED for WTR seconds and SEL reverts to it (R455). -/
  | wtrExpiry
  /-- REQUAL: Writing REQUAL returns a domain to ACQUIRING (R450). -/
  | requal (d : Fin 2) (v : Word)
  /-- STEP: Writing TIME_CTRL.STEP steps the time base to the followed domain (R448). -/
  | step (v : Word)
  /-- TIME_SNAP: Writing TIME_SNAP.GO latches a clock now or arms a superframe latch (R456). -/
  | timeSnap (v : Word)
  /-- SFDONE: The PSBd of the named superframe leaves the balls and the snapshot is latched (R463). -/
  | sfdone
  /-- FREQ_SOURCE_LOSS: The frequency source is lost and the loop enters holdover (R457). -/
  | freqSourceLoss
  /-- FREQ_SOURCE_RETURN: The source has been present for 1 s and the loop returns to ACQUIRING (R457). -/
  | freqSourceReturn
  /-- PPS_OUT: At each whole second of the time base a PPS_OUT pulse starts (R464). -/
  | ppsOut (i : Fin 2)
  /-- TOD_TX: A byte written to TIME_TOD_TX is appended to the transmit FIFO (R465). -/
  | todTx (i : Fin 2) (v : Word)
  /-- TOD_RX: A character is received on a time-of-day UART into its FIFO (R465). -/
  | todRx (i : Fin 2) (byte : Byte) (stopOk : Bool)
  /-- TRIGGER_FIRE: A pending trigger instant arrives and TRIG_OUT pulses (R466). -/
  | triggerFire (i : Fin 4)
  /-- CAPTURE: A programmed edge on a capture input is time-stamped (R467). -/
  | capture (i : Fin 6) (rising : Bool)
  /-- TIME_CAP_DATA: A host read of TIME_CAP_DATA takes the capture and clears NEW (R467). -/
  | timeCapData (i : Fin 6)
  /-- PC_FRZ_ARM: Writing ARM arms a performance-counter freeze at AT (R548). -/
  | pcFrzArm (v : Word)
  /-- PC_FREEZE: NOW reaches AT and every counter with FRZ stops (R548). -/
  | pcFreeze
  /-- RESUME: Writing RESUME ends or cancels a freeze (R548). -/
  | resume (v : Word)
  /-- TEL_EN: A write of TEL_CTRL.EN starts or stops the sillage stream (R557). -/
  | telEn (v : Word)
  /-- TEL_RD: A write of TEL_RD returns consumed stream bytes (R557). -/
  | telRd (v : Word)
  /-- INJ1: Writing INJ1 inverts one transmitted pattern bit (R474). -/
  | inj1 (k : Fin 148) (v : Word)
  /-- CLR: Writing CLR clears the pattern checker's counts (R474). -/
  | clr (k : Fin 148) (v : Word)
  /-- SER_PRBS_CTRL: A write of GEN, CHK or LASER starts or stops pattern generation and checking (R474). -/
  | serPrbsCtrl (k : Fin 148) (v : Word)
  /-- PRBS_LOCK_LOSS: Over 1/8 of a 65,536-bit window in error, the checker loses lock (R475). -/
  | prbsLockLoss (k : Fin 148)
  /-- LANE_EXIT_DONE: A lane leaving DEEP finishes EXITING and becomes ACTIVE (R471). -/
  | laneExitDone (k : Fin 148)
  /-- UPL_PORT_CTRL: A write defining an uplink port's first lane and width (R478). -/
  | uplPortCtrl (l : Fin 40) (v : Word)
  /-- LINK_UP: The PCS reports link OK for UPHOLD ms and the port comes up (R479). -/
  | linkUp (l : Fin 40)
  /-- LINK_DOWN: PCS link fail or a remote fault raises the link-down event (R479). -/
  | linkDown (l : Fin 40) (remote : Bool)
  /-- TRAINING_RESTART: Every 500 ms while the link is down training restarts (R479). -/
  | trainingRestart (l : Fin 40)
  /-- UPL_FC_CTRL: A write of the flow-control MODE, releasing pauses of the old mode (R482). -/
  | uplFcCtrl (l : Fin 40) (v : Word)
  /-- PAUSE_REFRESH: Every REFRESH us a pause in force is sent again (R482). -/
  | pauseRefresh (l : Fin 40)
  /-- PAUSE: A received PAUSE frame makes the egress unready for its quanta (R484). -/
  | pause (l : Fin 40) (quanta : BitVec 16)
  /-- PFC: A received priority-flow-control frame holds its enabled classes (R484). -/
  | pfc (l : Fin 40) (classes : BitVec 8) (quanta : List (BitVec 16))
  /-- PAUSE_EXPIRY: The quanta of a received pause run out and the egress or class is released (R484). -/
  | pauseExpiry (l : Fin 40) (c : Fin 8)
  /-- UPL_FRER_CTRL: A write forming a replication pair or enabling TXEN or RXEN, resetting its sequences (R485). -/
  | uplFrerCtrl (j : Fin 8) (v : Word)
  /-- FRER_RESET: A stream's recovery timer reaches RESET ms and takeany is set (R487). -/
  | frerReset (j c : Fin 8)
  /-- BOND_TRAIN_DONE: A bundle locks to the forwarded clock and deskews, entering NEGOTIATE (R495). -/
  | bondTrainDone (b : Fin 4)
  /-- CAPS: A received CAPS message negotiates the version and brings the bundle UP or keeps it DOWN (R495). -/
  | caps (b : Fin 4) (m : CapsMsg)
  /-- BOND_RETRAIN: Every 100 ms while enabled and down the bundle retrains (R494). -/
  | bondRetrain (b : Fin 4)
  /-- FLIT_ERROR: A DATA flit fails its CRC or arrives out of sequence and NAK is sent (R494). -/
  | flitError (b : Fin 4)
  /-- NAK: A received NAK makes the sender replay from the named flit (R494). -/
  | nak (b : Fin 4) (seq : BitVec 10)
  /-- CREDIT: A received CREDIT message returns receive-buffer credit (R496). -/
  | credit (b : Fin 4) (m : CreditMsg)
  /-- STOP: A received STOP withdraws credit for its classes (R496). -/
  | stop (b : Fin 4) (classes : BitVec 8)
  /-- GO: A received GO returns credit for its classes (R496). -/
  | go (b : Fin 4) (classes : BitVec 8)
  /-- DOWN: A received DOWN message takes the bundle down (R494). -/
  | down (b : Fin 4)
  /-- TIME: A received TIME message completes an exchange and the offset is measured (R500). -/
  | time (b : Fin 4) (m : TimeMsg)
  /-- TIME_EXCHANGE: Every 62.5 ms each UP bundle sends a TIME message (R500). -/
  | timeExchange (b : Fin 4)
  /-- RMT: A received RMT request or reply is served, forwarded or completed (R498). -/
  | rmt (b : Fin 4) (m : RmtMsg)
  /-- SYS_RMT_GO: Writing SYS_RMT_CTRL.GO starts a remote register access (R498). -/
  | sysRmtGo (v : Word)
  /-- REMOTE_TIMEOUT: No reply within 200 us and the remote access completes with ETIMEOUT (R498). -/
  | remoteTimeout
  /-- SYS_ID: A write of SYS_ID setting the system and device identifiers (R489). -/
  | sysId (v : Word)
  /-- REGISTER_READ: A host BAR0 read that wakes an OFF or DOZE domain, clears RC fields, latches paired counters or removes a FIFO byte (R119). -/
  | registerRead (off size : Nat)
  /-- PCIE_PERST_N_RELEASE: PCIE_PERST_N rises and the endpoint begins link training within 20 ms, answering configuration requests with retry status until phase SRAM ends (R115). -/
  | pciePerstNRelease
  /-- PRBS_LOCK: The pattern checker receives 64 consecutive matching bits and sets LOCK (R475). -/
  | prbsLock (k : Fin 148)
  /-- FORWARDED_CLOCK_LOSS: The forwarded clock of a bond bundle is lost and the bundle's link-down event is raised (R494). -/
  | forwardedClockLoss (b : Fin 4)
  /-- FLIT_ALIGNMENT_LOSS: A bond data lane loses flit alignment, degrading a version-2 bundle to three lanes or taking it down (R495). -/
  | flitAlignmentLoss (b : Fin 4) (lane : Fin 4)
  /-- LINK_TRAINING_FAILED: Uplink link training or Clause 73 negotiation ends in failure, leaving the link down and setting LTFAIL or ANFAIL (R479). -/
  | linkTrainingFailed (l : Fin 40) (an : Bool)
  /-- FREQUENCY_LOOP_LOCK: The time-base frequency loop moves from ACQUIRING to LOCKED on its source (R457). -/
  | frequencyLoopLock
  /-- RCLK_OUT_RESUME: One second after its lane's link comes back up, RCLK_OUT stops being squelched (R458). -/
  | rclkOutResume
  /-- CONSOLE_RX: A character arrives on the plinth console UART and is taken or discarded as a framing error (R90). -/
  | consoleRx (byte : Byte) (stopOk : Bool)
  /-- I2C_TIMEOUT: A target's clock stretching outlasts the master's timeout, so the master sends STOP and completes the operation with ETIMEOUT (R87). -/
  | i2cTimeout (bus : Nat)
  /-- ALIVE_TOGGLE: Every 500 us after POR_DONE, while healthy, quoin 25 toggles the ALIVE output (R65). -/
  | aliveToggle
  /-- PERF_COUNTER_WRAP: A performance counter counting cycles or level cycles passes from 2^35 - 1 to 0, setting its sticky bit and PC_WRAP (R546). -/
  | perfCounterWrap (i : Fin 256)
  /-- VDD_CORE_SETTLED: Twenty microseconds after a set-point frame the VDD_CORE step completes, LEVEL changes and MOVING clears (R503). -/
  | vddCoreSettled
  /-- RECEIVER_ADAPTED: After a lane is enabled its receiver finishes adaptation and RXREADY sets, within 8 ms on a PON lane (R471). -/
  | receiverAdapted (k : Fin 148)
  deriving DecidableEq, Repr

end Sys2Proof
end

