-- ==== Sys2Proof/Decode.lean ====
section
/-! DEFINITION. The commands that words spell. The table of commands gives no row any bits, so no word spells one. -/
namespace Sys2Proof

/-- The command that a word spells by the table's bits: none, since no row has bits (log 1). -/
def decodeTableWord (nbits w : Nat) : Option Instr :=
  match nbits, w with
  | _, _ => none

end Sys2Proof
end

