-- ==== Sys2Proof/Machine/Bits.lean ====
section
/-! DEFINITION. Bit fields, sign extension, saturation and byte order: the arithmetic shared by every chapter. -/
namespace Sys2Proof.Machine

/-- Bits [hi:lo] of a number (R16). -/
def bits (w hi lo : Nat) : Nat := (w >>> lo) % 2 ^ (hi + 1 - lo)

/-- Bit n of a number. -/
def bit (w n : Nat) : Bool := w.testBit n

/-- A number with bits [hi:lo] replaced by v, cut to the field's width. -/
def putBits (w hi lo v : Nat) : Nat :=
  w - bits w hi lo * 2 ^ lo + v % 2 ^ (hi + 1 - lo) * 2 ^ lo

/-- Bits [hi:lo] of a word (R16). -/
def wbits (w : Word) (hi lo : Nat) : Nat := bits w.toNat hi lo

/-- A word with bits [hi:lo] replaced by v. -/
def wput (w : Word) (hi lo v : Nat) : Word := BitVec.ofNat 36 (putBits w.toNat hi lo v)

/-- 1 for true. -/
def b2n (b : Bool) : Nat := if b then 1 else 0

/-- The two's-complement value of an n-bit number. -/
def signed (n v : Nat) : Int := if v % 2 ^ n < 2 ^ (n - 1) then ((v % 2 ^ n : Nat) : Int) else ((v % 2 ^ n : Nat) : Int) - (2 ^ n : Nat)

/-- An integer as an n-bit two's-complement number. -/
def unsignedOf (n : Nat) (v : Int) : Nat := (v % ((2 ^ n : Nat) : Int)).toNat

/-- Addition that stops at a maximum. -/
def satAdd (max a b : Nat) : Nat := min max (a + b)

/-- An integer kept within lo and hi. -/
def clampInt (lo hi v : Int) : Int := max lo (min hi v)

/-- Ceiling division. -/
def ceilDiv (a b : Nat) : Nat := if b = 0 then 0 else (a + b - 1) / b

/-- A big-endian number from bytes: the first byte is the most significant. -/
def beNat (bs : List Byte) : Nat := bs.foldl (fun a b => a * 256 + b.toNat) 0

/-- n bytes of a number, the most significant first. -/
def beBytes : Nat → Nat → List Byte
  | 0, _ => []
  | n + 1, v => BitVec.ofNat 8 (v / 256 ^ n) :: beBytes n v

/-- n bytes of a number, the least significant first (R134). -/
def leBytes : Nat → Nat → List Byte
  | 0, _ => []
  | n + 1, v => BitVec.ofNat 8 v :: leBytes n (v / 256)

/-- The i-th element of a list, or d beyond its end. -/
def nth {α : Type} (d : α) : List α → Nat → α
  | [], _ => d
  | x :: _, 0 => x
  | _ :: xs, i + 1 => nth d xs i

/-- A list with its i-th element replaced; unchanged beyond its end. -/
def setNth {α : Type} (v : α) : List α → Nat → List α
  | [], _ => []
  | _ :: xs, 0 => v :: xs
  | x :: xs, i + 1 => x :: setNth v xs i

/-- The numbers from a, n of them. -/
def range' : Nat → Nat → List Nat
  | _, 0 => []
  | a, n + 1 => a :: range' (a + 1) n

/-- The first index at which p holds. -/
def findIdx {α : Type} (p : α → Bool) : List α → Nat → Option (Nat × α)
  | [], _ => none
  | x :: xs, i => if p x then some (i, x) else findIdx p xs (i + 1)

/-- The number of 1 bits among the low n bits. -/
def popcount : Nat → Nat → Nat
  | 0, _ => 0
  | n + 1, v => v % 2 + popcount n (v / 2)

/-- The leading zero bits of an n-bit number. -/
def leadingZeros : Nat → Nat → Nat
  | 0, _ => 0
  | n + 1, v => if v.testBit n then 0 else 1 + leadingZeros n v

/-- The position of the lowest 1 bit among n bits, or n. -/
def lowestBit : Nat → Nat → Nat
  | 0, _ => 0
  | n + 1, v => if v % 2 = 1 then 0 else 1 + lowestBit n (v / 2)

end Sys2Proof.Machine
end

