-- ==== Sys2Proof/Machine/Crypto.lean ====
section
/-! DEFINITION. AES (FIPS 197) with 128-bit and 256-bit keys, CMAC (NIST SP 800-38B) and GMAC (SP 800-38D): what the
check-value service computes (R431, R441). -/
namespace Sys2Proof.Machine

/-! The field of the cipher: bytes as polynomials modulo x^8 + x^4 + x^3 + x + 1. -/

/-- Multiplication by x. -/
def aesX (a : Nat) : Nat := if 128 ≤ a then (2 * a) ^^^ 0x11B else 2 * a

/-- The product of two bytes, over n bits of the second. -/
def aesMulN : Nat → Nat → Nat → Nat
  | 0, _, _ => 0
  | n + 1, a, b => (if b % 2 = 1 then a else 0) ^^^ aesMulN n (aesX a) (b / 2)

def aesMul (a b : Nat) : Nat := aesMulN 8 a b

/-- The multiplicative inverse, 0 for 0: a^254. -/
def aesInv (a : Nat) : Nat :=
  let a2 := aesMul a a
  let a4 := aesMul a2 a2
  let a8 := aesMul a4 a4
  let a16 := aesMul a8 a8
  let a32 := aesMul a16 a16
  let a64 := aesMul a32 a32
  let a128 := aesMul a64 a64
  aesMul a128 (aesMul a64 (aesMul a32 (aesMul a16 (aesMul a8 (aesMul a4 a2)))))

/-- A byte rotated left. -/
def rotl8 (a n : Nat) : Nat := (a * 2 ^ n + a / 2 ^ (8 - n)) % 256

/-- SubBytes of one byte. -/
def aesSub (a : Nat) : Nat :=
  let b := aesInv a
  b ^^^ rotl8 b 1 ^^^ rotl8 b 2 ^^^ rotl8 b 3 ^^^ rotl8 b 4 ^^^ 0x63

/-! Key expansion: words of four bytes. -/

def xorList (a b : List Nat) : List Nat := (a.zip b).map (fun p => p.1 ^^^ p.2)

/-- A round constant. -/
def aesRcon : Nat → Nat
  | 0 => 1
  | n + 1 => aesX (aesRcon n)

/-- The next words of an expanded key of nk words, the newest first; n more. -/
def aesExpand (nk : Nat) : Nat → List (List Nat) → List (List Nat)
  | 0, ws => ws
  | n + 1, ws =>
    let i := ws.length
    let prev := nth [] ws 0
    let t :=
      if i % nk = 0 then
        xorList ((prev.drop 1 ++ prev.take 1).map aesSub) [aesRcon (i / nk - 1), 0, 0, 0]
      else if 6 < nk ∧ i % nk = 4 then prev.map aesSub
      else prev
    aesExpand nk n (xorList (nth [] ws (nk - 1)) t :: ws)

/-- Bytes in groups of n. -/
def groups (n : Nat) : Nat → List Nat → List (List Nat)
  | 0, _ => []
  | k + 1, xs => xs.take n :: groups n k (xs.drop n)

/-- The round keys of 16 bytes of a key of 16 or 32 bytes. -/
def aesRoundKeys (key : List Nat) : List (List Nat) :=
  let nk := key.length / 4
  let rounds := nk + 6
  let ws := (aesExpand nk (4 * (rounds + 1) - nk) (groups 4 nk key).reverse).reverse
  groups 16 (rounds + 1) ws.flatten

/-! Rounds: a state of 16 bytes, column by column. -/

def aesShiftRows (st : List Nat) : List Nat := (range' 0 16).map (fun i => nth 0 st ((i + 4 * (i % 4)) % 16))

def aesMixColumn (c : List Nat) : List Nat :=
  (range' 0 4).map (fun r =>
    let x := fun k => nth 0 c ((r + k) % 4)
    aesX (x 0) ^^^ aesX (x 1) ^^^ x 1 ^^^ x 2 ^^^ x 3)

def aesMixColumns (st : List Nat) : List Nat := ((groups 4 4 st).map aesMixColumn).flatten

/-- The rounds after the first key addition. -/
def aesRounds : List (List Nat) → List Nat → List Nat
  | [], st => st
  | [k], st => xorList (aesShiftRows (st.map aesSub)) k
  | k :: ks, st => aesRounds ks (xorList (aesMixColumns (aesShiftRows (st.map aesSub))) k)

/-- The encryption of a block of 16 bytes under a key of 16 or 32. -/
def aes (key blk : List Nat) : List Nat :=
  match aesRoundKeys key with
  | [] => blk
  | k :: ks => aesRounds ks (xorList blk k)

/-! CMAC. -/

/-- A block as a number, its first byte the most significant, and back. -/
def blkNat (b : List Nat) : Nat := b.foldl (fun a x => a * 256 + x) 0
def natBlk (v : Nat) : List Nat := (beBytes 16 v).map BitVec.toNat

/-- Doubling in the field of CMAC. -/
def cmacDouble (v : Nat) : Nat := if 2 ^ 127 ≤ v then (2 * v % 2 ^ 128) ^^^ 0x87 else 2 * v

/-- The chaining over whole blocks and the last one, which is already masked. -/
def cmacChain (key : List Nat) : List (List Nat) → List Nat → List Nat
  | [], c => c
  | b :: bs, c => cmacChain key bs (aes key (xorList c b))

/-- The 16-byte CMAC of a message. -/
def cmac (key msg : List Nat) : List Nat :=
  let k1 := cmacDouble (blkNat (aes key (List.replicate 16 0)))
  let k2 := cmacDouble k1
  let n := max 1 (ceilDiv msg.length 16)
  let bs := groups 16 n msg
  let last := nth [] bs (n - 1)
  let mlast :=
    if last.length = 16 then xorList last (natBlk k1)
    else xorList (last ++ 0x80 :: List.replicate (15 - last.length) 0) (natBlk k2)
  cmacChain key (bs.take (n - 1) ++ [mlast]) (List.replicate 16 0)

/-! GMAC. -/

/-- The product in the field of GHASH: bit 127 of a number is the coefficient of 1; n bits of x from the top. -/
def ghashMul : Nat → Nat → Nat → Nat
  | 0, _, _ => 0
  | n + 1, x, v =>
    (if x.testBit n then v else 0) ^^^ ghashMul n x (if v % 2 = 1 then (v / 2) ^^^ (0xE1 * 2 ^ 120) else v / 2)

/-- GHASH over blocks. -/
def ghash (h : Nat) (bs : List Nat) : Nat := bs.foldl (fun y b => ghashMul 128 (y ^^^ b) h) 0

/-- The 16-byte GMAC of a message under a nonce of 12 bytes: the message is the additional authenticated data and there
is no plaintext. -/
def gmac (key nonce msg : List Nat) : List Nat :=
  let h := blkNat (aes key (List.replicate 16 0))
  let n := ceilDiv msg.length 16
  let bs := (groups 16 n msg).map (fun b => blkNat (b ++ List.replicate (16 - b.length) 0))
  let s := ghash h (bs ++ [msg.length * 8 * 2 ^ 64])
  xorList (natBlk s) (aes key (nonce ++ [0, 0, 0, 1]))

end Sys2Proof.Machine
end

