-- ==== Sys2Proof/Config.lean ====
section
/-! DEFINITION. What one part fixes at manufacture, and the values the manual leaves open. Every constant here is
opaque: no proof can see its value. -/
namespace Sys2Proof

/-- The Device Serial Number in the fuses (R564, R565). -/
opaque Config.serial : BitVec 64
/-- KCRM, the fused calibration factor of the completion-rate monitor (R501, R505). -/
opaque Config.kcrm : BitVec 16
/-- The four fuse keys against which images are checked (R231); no register reads them. -/
opaque Config.fuseKey : Fin 4 → BitVec 256
/-- Bit k: fuse key k is programmed at shipment (R235). -/
opaque Config.keysPresent : BitVec 4
/-- Bit k: fuse key k is revoked at shipment (R235). -/
opaque Config.keysRevoked : BitVec 4
/-- The standard's default PLOAM integrity key, which the device holds internally (R279). -/
opaque Config.ploamDefaultKey : BitVec 128
/-- The integrity code of a PLOAM message under a key: the standard's function, outside this manual (R286, R287). -/
opaque Config.ploamMic : BitVec 128 → List Byte → BitVec 64
/-- A fresh word wherever the manual leaves a value open; applied to the step's counter of such values. -/
opaque Config.freeWord : Nat → Word
/-- A fresh natural number wherever the manual leaves a choice of index open. -/
opaque Config.freeNat : Nat → Nat
/-- A fresh answer wherever the manual leaves open which of two things happens. -/
opaque Config.freeBool : Nat → Bool
/-- Bytes of the framing-sublayer header at the start of a downstream frame (R243): the standard's figure, outside this
manual. -/
opaque Config.framingHeader : Nat
/-- A management-channel message with its integrity code written under a key: ITU-T G.988, outside this manual (R440). -/
opaque Config.omciFrame : BitVec 128 → List Byte → List Byte
/-- A downstream PLOAM message with its sequence-number field filled: the standard's layout, outside this manual (R286). -/
opaque Config.ploamNumbered : List Byte → Nat → List Byte
/-- The Ranging_Time message for a terminal and an equalisation delay, without its integrity code: the standard's, outside
this manual (R284). -/
opaque Config.rangingTime : Nat → Nat → List Byte
/-- GrantSize of a structure from its payload in words, DBRu and PLOAMu, in 50G-PON mode (true) or XGS-PON mode: as the
standards define (R300). -/
opaque Config.grantSize : Bool → Nat → Bool → Bool → BitVec 16
/-- The HEC of a structure's other 51 bits (R300): the standards' code. -/
opaque Config.mapHec : BitVec 51 → BitVec 13

/-- The ROM of the plinth processor, by word address (R529); the manual does not give its contents. -/
opaque Config.plinthRom : Nat → Word
/-- The index at the start of an image slot (R534), from the slot's bytes that are not erased, by offset: for each image its
kind (0 the plinth's), and its offset and length in words. The manual does not give the index's layout. -/
opaque Config.slotIndex : List (Nat × Byte) → List (Nat × Nat × Nat)
/-- The same for boot memory, from the words the host delivered, by word offset (R535). -/
opaque Config.bootIndex : List (Nat × Word) → List (Nat × Nat × Nat)
/-- Subsystem vendor and ID in the platform data region of flash (R129), from its bytes that are not erased, by address; the
manual does not give the region's layout. -/
opaque Config.subsystemIds : List (Nat × Byte) → Nat × Nat

end Sys2Proof
end

