-- ==== Sys2Proof/Machine/Chip.lean ====
section
/-! DEFINITION. The identity of a part: its variant, stepping and fuses, and the units present (R1 to R8, R13). -/
namespace Sys2Proof.Machine

/-- The ordering codes of the family (R1). -/
inductive Variant where
  | gk6450fb
  | gk6450fbx
  | gk4850fb
  | gk3250fb
  | gk3210fe
  deriving DecidableEq, Repr

/-- The steppings (R13). -/
inductive Stepping where
  | a1
  | b0
  deriving DecidableEq, Repr

/-- What is fixed in one part. Only key revocation ever changes (R537). -/
structure Chip where
  variant : Variant
  stepping : Stepping
  /-- Device Serial Number (R564). -/
  serial : BitVec 64
  /-- Fuse keys programmed and revoked (R235). -/
  keysPresent : BitVec 4
  keysRevoked : BitVec 4
  /-- KCRM (R501). -/
  kcrm : BitVec 16
  deriving DecidableEq, Repr

/-- ID_DEVICE (R1). -/
def Chip.device (c : Chip) : Nat :=
  match c.variant with
  | .gk6450fb | .gk6450fbx => 0x6450
  | .gk4850fb => 0x4850
  | .gk3250fb => 0x3250
  | .gk3210fe => 0x3210

/-- Trees present (R1, R2). -/
def Chip.trees (c : Chip) : Nat :=
  match c.variant with
  | .gk6450fb | .gk6450fbx => 64
  | .gk4850fb => 48
  | .gk3250fb | .gk3210fe => 32

/-- Uplink lanes present (R1, R2). -/
def Chip.uplanes (c : Chip) : Nat :=
  match c.variant with
  | .gk6450fb | .gk6450fbx => 40
  | .gk4850fb => 32
  | .gk3250fb => 24
  | .gk3210fe => 16

/-- Extended junction range (R7). -/
def Chip.extj (c : Chip) : Bool := c.variant = .gk6450fbx
/-- Trees support 50G-PON mode (R7). -/
def Chip.pon50 (c : Chip) : Bool := c.variant ≠ .gk3210fe
/-- The plinth is present (R7). -/
def Chip.plinth (c : Chip) : Bool := c.variant ≠ .gk3210fe
/-- Stacked memory and pool 3 are present (R7). -/
def Chip.stackmem (c : Chip) : Bool := c.variant ≠ .gk3210fe
/-- Bond links are present (R7). -/
def Chip.bond (c : Chip) : Bool :=
  match c.variant with
  | .gk6450fb | .gk6450fbx | .gk4850fb => true
  | .gk3250fb | .gk3210fe => false
/-- Time gates are present (R7). -/
def Chip.gates (c : Chip) : Bool := c.variant ≠ .gk3210fe
/-- Longest-prefix match tables are present (R7). -/
def Chip.lpm (c : Chip) : Bool := c.variant ≠ .gk3210fe

/-- Buffers of pools 0 to 3, and the handles as pool 4 (R3, R376, R378). -/
def Chip.poolCount (c : Chip) (p : Nat) : Nat :=
  if p = 0 then 262144 else if p = 1 then 32768 else if p = 2 then 6144
  else if p = 3 then
    match c.variant with
    | .gk6450fb | .gk6450fbx | .gk4850fb => 3276800
    | .gk3250fb => 1638400
    | .gk3210fe => 0
  else 1048576

/-- A quoin, numbered 1 to 25, is absent on the variant (R117). -/
def Chip.quoinAbsent (c : Chip) (q : Nat) : Bool :=
  match c.variant with
  | .gk6450fb | .gk6450fbx => false
  | .gk4850fb => q = 7 || q = 8 || q = 15 || q = 16
  | .gk3250fb => (5 ≤ q && q ≤ 8) || (13 ≤ q && q ≤ 16) || q = 20 || q = 21
  | .gk3210fe => (5 ≤ q && q ≤ 8) || (13 ≤ q && q ≤ 16) || (19 ≤ q && q ≤ 22)

/-- STATE of quoin q (1 to 25) from the start of a full reset (R116). -/
def Chip.quoinReset (c : Chip) (q : Nat) : Nat :=
  if c.quoinAbsent q then 0 else if q = 25 then 3 else if q ≤ 21 then 1 else 2

/-- ROMVER of engine e, 64 and 65 being the command engines (R234). -/
def Chip.romver (c : Chip) (e : Nat) : Nat :=
  match c.stepping with
  | .a1 => if e < 64 then 0x0A11 else 0x0A12
  | .b0 => if e < 64 then 0x0B01 else 0x0B02

/-- Reset value of PWR_PEST[l], in 0.1 W: the device typical figures with the rails of R83 scaled (R501, R82 to R84). -/
def Chip.pest (c : Chip) (l : Nat) : Nat :=
  let base := if l = 0 then 1490 else if l = 1 then 1560 else if l = 2 then 1650 else if l = 3 then 1750
    else if l = 4 then 1870 else if l = 5 then 2000 else if l = 6 then 2150 else 2330
  let pon := 460 - 460 * c.trees / 64
  let upl := 190 - 190 * c.uplanes / 40
  let bnd := if c.bond then 0 else 85
  let mem := if c.stackmem then 0 else 240
  base - pon - upl - bnd - mem

/-- Outputs of the switch core with a present unit (R387, R389). -/
def Chip.swcPresent (c : Chip) : Nat :=
  2 ^ (c.trees / 8) - 1 + (if 0 < c.uplanes then 2 ^ 8 else 0) + (if 10 < c.uplanes then 2 ^ 9 else 0)
    + (if 20 < c.uplanes then 2 ^ 10 else 0) + (if 30 < c.uplanes then 2 ^ 11 else 0)
    + (if c.bond then 2 ^ 12 else 0) + 2 ^ 13

end Sys2Proof.Machine
end

