-- ==== Sys2Proof/Machine/RegTable.lean ====
section
/-! DEFINITION. The registers of BAR0: names, places, access codes, reset values and fields, from the register tables of
every chapter (R17 to R19, R561, R566). -/
namespace Sys2Proof.Machine

/-- The register names (R566). -/
inductive RegId where
  | ID_DEVICE
  | ID_STEP
  | ID_FEATURE
  | ID_STRAP
  | ID_SERIAL_LO
  | ID_SERIAL_HI
  | RST_CAUSE
  | RST_CTRL
  | BOOT_STATUS
  | WAKE_TIMEOUT
  | PWR_CORE_STATUS
  | QUOIN_STATUS
  | THERM_SUMMARY
  | THERM_TEMP
  | HCI_VER_SUPPORTED
  | HCI_NEGOTIATE
  | HCI_GLOBAL_STATUS
  | HCI_FRAG_TIMEOUT
  | HCI_REJECT_COUNT
  | HCI_REJECT
  | HCI_DESC_LO
  | HCI_DESC_HI
  | HCI_CPL_LO
  | HCI_CPL_HI
  | HCI_RING_CTRL
  | HCI_RING_TAIL
  | HCI_RING_HEAD
  | HCI_RING_STATUS
  | HCI_RING_PERM
  | HCI_INT_MAP
  | MCODE_VERSION
  | MCODE_KEYSTAT
  | MAP_ENG_STATUS
  | CMD_ENG_STATUS
  | MAP_EVT_CNT
  | MAP_INT_CAUSE
  | MAP_INT_EN
  | MAP_PEND_LO
  | MAP_PEND_HI
  | MCODE_SAVE
  | MAP_LINE_CNT
  | MAP_FB_INFO
  | PON_DS_CTRL
  | PON_DS_PONID
  | PON_US_CTRL
  | PON_OPT_CTRL
  | PON_RSSI_CTRL
  | PON_LOS_CTRL
  | PON_TREE_STATUS
  | PON_ALIGN_CTRL
  | PON_ALIGN_STATUS
  | PON_BOND_CTRL
  | PON_BOND_SKEW
  | PON_PM_CTRL
  | PON_PM_SEL
  | PON_PM_DATA0
  | PON_PM_DATA1
  | PON_EVT_CNT
  | PON_RNG_CTRL
  | PON_RNG_LIMIT
  | PON_DRIFT_CTRL
  | PON_ROGUE_CTRL
  | PON_ROGUE_STATUS
  | PON_PROT_CTRL
  | PON_PROT_STATUS
  | PON_PROT_DELTA
  | PON_PROT_MEAS
  | PON_ACT_CNT
  | PON_TERM_STATE
  | PON_TERM_VID
  | PON_TERM_VSSN
  | PON_TERM_EQD
  | CLS_START
  | CLS_MISS_ACT
  | CLS_MARK_ACT
  | CLS_BANK_STATUS
  | CLS_EVT_STATUS
  | CLS_EXQ_BASE_LO
  | CLS_EXQ_BASE_HI
  | CLS_EXQ_CTRL
  | CLS_EXQ_TAIL
  | CLS_EXQ_HEAD
  | CLS_EXQ_RATE
  | CLS_EXQ_STATUS
  | CLS_EXQ_CNT
  | FWD_STATUS
  | FWD_EM_KEY
  | FWD_EM_MISS
  | FWD_LPM_KEY
  | FWD_LPM_MISS
  | FWD_HASH_SEED0
  | FWD_HASH_SEED1
  | FWD_LRN_CTRL
  | FWD_LRN_GEN
  | FWD_AGE_CTRL
  | FWD_AGE_STATUS
  | FWD_FLUSH
  | FWD_PERR
  | FWD_MOVE_LAST
  | FWD_EVT_CNT0
  | FWD_EVT_CNT1
  | FWD_EVT_CNT2
  | FWD_OCC0
  | FWD_OCC1
  | FWD_OCC2
  | FWD_GEN_MARK
  | FWD_LRN_PORT
  | BUF_STATUS
  | BUF_SEL_CTRL
  | BUF_EVT_CNT
  | BUF_DFREE
  | BUF_AUDIT_CTRL
  | BUF_AUDIT_STATUS
  | BUF_LEAK
  | BUF_FLUSH
  | SWC_STATUS
  | SWC_RESEQ_MAX
  | BUF_THR
  | BUF_ACT
  | BUF_POOL_STATUS
  | BUF_POOL_CTRL
  | BUF_POOL_CNT
  | BUF_PORT_STATE
  | SCH_STATUS
  | SCH_CAP_CTRL
  | SCH_CAP_STATUS
  | SCH_COMMIT_DS
  | SCH_SAMP_PER
  | SCH_SAMP_LOAD
  | SCH_EVT_CNT
  | GATE_CTRL
  | GATE_BASE_SEC
  | GATE_BASE_NS
  | GATE_CYCLE
  | GATE_STATUS
  | GATE_START_SEC
  | GATE_START_NS
  | GATE_CNT
  | CIP_STATUS
  | CIP_NONCE_FIXED
  | CIP_NONCE_EPOCH
  | CIP_NONCE_CNT
  | CIP_TREE_CNT
  | CIP_TERM_KEY
  | TIME_CTRL
  | TIME_STATUS
  | TIME_RATE
  | TIME_SNAP
  | TIME_SNAP_SF
  | TIME_SNAP_W0
  | TIME_SNAP_W1
  | TIME_SNAP_W2
  | TIME_SNAP_W3
  | TIME_FREQ_CTRL
  | TIME_FREQ_STATUS
  | TIME_RCLK_CTRL
  | TIME_EVT_CAUSE
  | TIME_EVT_EN
  | TIME_DOM_CTRL
  | TIME_DOM_OFS
  | TIME_DOM_MTIME
  | TIME_DOM_GO
  | TIME_DOM_STATUS
  | TIME_DOM_FREQ
  | TIME_DOM_GAP
  | TIME_CAP_CTRL
  | TIME_CAP_STAT
  | TIME_CAP_DATA
  | TIME_TRIG_CTRL
  | TIME_TRIG_TIME
  | TIME_PPS_CTRL
  | TIME_TOD_CTRL
  | TIME_TOD_TX
  | TIME_TOD_RX
  | TIME_TOD_STAT
  | TIME_PORT_CTRL
  | TIME_PORT_RXDLY
  | TIME_PORT_TXDLY
  | TIME_PORT_ASYM
  | TIME_TREE_FIB
  | TIME_TREE_RESP
  | SER_LANE_CTRL
  | SER_LANE_STATUS
  | SER_LANE_FFE
  | SER_PRBS_CTRL
  | SER_PRBS_ERR
  | SER_PRBS_BITS
  | UPL_PORT_CTRL
  | UPL_PORT_STATUS
  | UPL_FC_CTRL
  | UPL_FC_STATUS
  | UPL_FEC_CNT
  | UPL_RX_CNT
  | UPL_FRER_CTRL
  | UPL_FRER_CFG
  | UPL_FRER_CNT0
  | UPL_FRER_CNT1
  | SER_STATUS
  | SYS_ID
  | SYS_STATUS
  | SYS_RMT_CTRL
  | SYS_RMT_ADDR
  | SYS_RMT_DATA
  | BND_CTRL
  | BND_STATUS
  | BND_CNT
  | BND_TIME
  | SYS_ROUTE
  | PWR_GOV_CTRL
  | PWR_BUDGET
  | PWR_GOV_STATUS
  | PWR_COMMIT
  | PWR_CRM
  | PWR_DEMAND
  | PWR_VREG
  | PWR_SLEEP_CTRL
  | PWR_SLEEP_STATUS
  | PWR_DOZE_DLY
  | PWR_INT_CAUSE
  | PWR_INT_EN
  | PWR_SHORT_CNT
  | PWR_VID
  | PWR_PEST
  | PWR_RES_PL_LO
  | PWR_RES_PL_HI
  | PWR_RES_ST_LO
  | PWR_RES_ST_HI
  | FLT_STATUS
  | FLT_CTRL
  | FLT_CNT
  | FLT_RING
  | FLT_REC_SEL
  | FLT_REC
  | FLT_INT_CAUSE
  | FLT_INT_EN
  | FLT_FIRST
  | FLT_VMON
  | PLN_STATUS
  | PLN_WDOG
  | PLN_LOG_CTRL
  | PLN_MBOX_CTRL
  | PLN_MBOX_H2P
  | PLN_MBOX_P2H
  | TEL_STATUS
  | TEL_CTRL
  | TEL_WR
  | TEL_RD
  | TEL_ITHR
  | TEL_UPL
  | TEL_DMAC_HI
  | TEL_DMAC_LO
  | TEL_CNT
  | PC_FRZ_AT
  | PC_FRZ_CTRL
  | PC_WRAP
  | PC_WRAP_EN
  | TEL_PORT_MAC_HI
  | TEL_PORT_MAC_LO
  deriving DecidableEq, Repr

/-- A register: its name and the indices of its instance. -/
structure Reg where
  id : RegId
  i : Nat := 0
  j : Nat := 0
  k : Nat := 0
  deriving DecidableEq, Repr

/-- A field of a register. -/
structure Fld where
  id : RegId
  hi : Nat
  lo : Nat
  deriving DecidableEq, Repr

/-- Where a register lies and how it is reached: base offset, three index ranges with their strides, the bits software
may write (RW), the bits cleared by writing 1 (W1C), the bits a read clears (RC), and the fixed reset value. -/
structure RegDesc where
  base : Nat
  n1 : Nat := 1
  s1 : Nat := 0
  n2 : Nat := 1
  s2 : Nat := 0
  n3 : Nat := 1
  s3 : Nat := 0
  rw : Nat := 0
  w1c : Nat := 0
  rc : Nat := 0
  reset : Nat := 0
  deriving DecidableEq, Repr

/-- The register tables. -/
def RegId.desc : RegId → RegDesc
  | .ID_DEVICE => { base := 0x0000000 }
  | .ID_STEP => { base := 0x0000008 }
  | .ID_FEATURE => { base := 0x0000010 }
  | .ID_STRAP => { base := 0x0000018 }
  | .ID_SERIAL_LO => { base := 0x0000020 }
  | .ID_SERIAL_HI => { base := 0x0000028 }
  | .RST_CAUSE => { base := 0x0D00000, w1c := 0x00000003F, reset := 0x000000001 }
  | .RST_CTRL => { base := 0x0D00008 }
  | .BOOT_STATUS => { base := 0x0D00010, reset := 0x000000001 }
  | .WAKE_TIMEOUT => { base := 0x0D00018, rw := 0x000000FFF, reset := 0x0000000C8 }
  | .PWR_CORE_STATUS => { base := 0x0D00020, reset := 0x000000002 }
  | .QUOIN_STATUS => { base := 0x0D00400, n1 := 25, s1 := 0x8 }
  | .THERM_SUMMARY => { base := 0x0D00100 }
  | .THERM_TEMP => { base := 0x0D00200, n1 := 64, s1 := 0x8 }
  | .HCI_VER_SUPPORTED => { base := 0x0100000, reset := 0x000000003 }
  | .HCI_NEGOTIATE => { base := 0x0100008, rw := 0x0000000FF }
  | .HCI_GLOBAL_STATUS => { base := 0x0100010 }
  | .HCI_FRAG_TIMEOUT => { base := 0x0100018, rw := 0x0000FFFFF, reset := 0x000000064 }
  | .HCI_REJECT_COUNT => { base := 0x0100020, rc := 0x00000FFFF }
  | .HCI_REJECT => { base := 0x0100100, n1 := 16, s1 := 0x8 }
  | .HCI_DESC_LO => { base := 0x0101000, n1 := 16, s1 := 0x80, rw := 0x0FFFFF000 }
  | .HCI_DESC_HI => { base := 0x0101008, n1 := 16, s1 := 0x80, rw := 0x0FFFFFFFF }
  | .HCI_CPL_LO => { base := 0x0101010, n1 := 16, s1 := 0x80, rw := 0x0FFFFF000 }
  | .HCI_CPL_HI => { base := 0x0101018, n1 := 16, s1 := 0x80, rw := 0x0FFFFFFFF }
  | .HCI_RING_CTRL => { base := 0x0101020, n1 := 16, s1 := 0x80, rw := 0x8FC0FFCFF, reset := 0x060000001 }
  | .HCI_RING_TAIL => { base := 0x0101028, n1 := 16, s1 := 0x80, rw := 0x000001FFF }
  | .HCI_RING_HEAD => { base := 0x0101030, n1 := 16, s1 := 0x80 }
  | .HCI_RING_STATUS => { base := 0x0101038, n1 := 16, s1 := 0x80, w1c := 0x000FF0000, reset := 0x000000002 }
  | .HCI_RING_PERM => { base := 0x0101040, n1 := 16, s1 := 0x80, rw := 0x00000003F, reset := 0x00000003F }
  | .HCI_INT_MAP => { base := 0x010A000, n1 := 32, s1 := 0x8, rw := 0x00000013F }
  | .MCODE_VERSION => { base := 0x0200000, n1 := 66, s1 := 0x8 }
  | .MCODE_KEYSTAT => { base := 0x0200400 }
  | .MAP_ENG_STATUS => { base := 0x0201000, n1 := 64, s1 := 0x8, w1c := 0x0F0000000 }
  | .CMD_ENG_STATUS => { base := 0x0201400, n1 := 2, s1 := 0x8, w1c := 0x0C0000000, reset := 0x100000000 }
  | .MAP_EVT_CNT => { base := 0x0202000, n1 := 64, s1 := 0x8, rc := 0xFFFFFFFFF }
  | .MAP_INT_CAUSE => { base := 0x0203000, w1c := 0x00000000F }
  | .MAP_INT_EN => { base := 0x0203008, rw := 0x00000000F, reset := 0x00000000D }
  | .MAP_PEND_LO => { base := 0x0203010 }
  | .MAP_PEND_HI => { base := 0x0203018 }
  | .MCODE_SAVE => { base := 0x0208000, n1 := 66, s1 := 0x100, n2 := 2, s2 := 0x80, n3 := 16, s3 := 0x8 }
  | .MAP_LINE_CNT => { base := 0x0204000, n1 := 64, s1 := 0x8, rc := 0xFFFFFFFFF }
  | .MAP_FB_INFO => { base := 0x0204800, n1 := 64, s1 := 0x8 }
  | .PON_DS_CTRL => { base := 0x0400000, n1 := 64, s1 := 0x4000, rw := 0x000000C10 }
  | .PON_DS_PONID => { base := 0x0400008, n1 := 64, s1 := 0x4000, rw := 0x0FFFFFFFF }
  | .PON_US_CTRL => { base := 0x0400010, n1 := 64, s1 := 0x4000, rw := 0xFF007FFFF, reset := 0x100061A80 }
  | .PON_OPT_CTRL => { base := 0x0400018, n1 := 64, s1 := 0x4000, rw := 0x8FFFFFFFF, reset := 0x818100408 }
  | .PON_RSSI_CTRL => { base := 0x0400020, n1 := 64, s1 := 0x4000, rw := 0x8000000FF, reset := 0x800000040 }
  | .PON_LOS_CTRL => { base := 0x0400028, n1 := 64, s1 := 0x4000, rw := 0x0000000FF, reset := 0x000000008 }
  | .PON_TREE_STATUS => { base := 0x0400030, n1 := 64, s1 := 0x4000, w1c := 0xFF000003C }
  | .PON_ALIGN_CTRL => { base := 0x0400038, n1 := 64, s1 := 0x4000, rw := 0x000000007, reset := 0x000000002 }
  | .PON_ALIGN_STATUS => { base := 0x0400040, n1 := 64, s1 := 0x4000, rc := 0xFFFFFFF00 }
  | .PON_BOND_CTRL => { base := 0x0400048, n1 := 64, s1 := 0x4000, rw := 0x8000000FF }
  | .PON_BOND_SKEW => { base := 0x0400050, n1 := 64, s1 := 0x4000, w1c := 0x800000000 }
  | .PON_PM_CTRL => { base := 0x0400058, n1 := 64, s1 := 0x4000, rw := 0xC0001FFFF, reset := 0x800000000 }
  | .PON_PM_SEL => { base := 0x0400060, n1 := 64, s1 := 0x4000, rw := 0x00001FFFF, reset := 0x000010000 }
  | .PON_PM_DATA0 => { base := 0x0400068, n1 := 64, s1 := 0x4000 }
  | .PON_PM_DATA1 => { base := 0x0400070, n1 := 64, s1 := 0x4000 }
  | .PON_EVT_CNT => { base := 0x0400078, n1 := 64, s1 := 0x4000, rc := 0xFFFFFFFFF }
  | .PON_RNG_CTRL => { base := 0x0400800, n1 := 64, s1 := 0x4000, rw := 0x00FF7FFFF, reset := 0x001000000 }
  | .PON_RNG_LIMIT => { base := 0x0400808, n1 := 64, s1 := 0x4000, reset := 0x001CD52D6 }
  | .PON_DRIFT_CTRL => { base := 0x0400810, n1 := 64, s1 := 0x4000, rw := 0xC00FF07FF, reset := 0xC00200190 }
  | .PON_ROGUE_CTRL => { base := 0x0400818, n1 := 64, s1 := 0x4000, rw := 0x800FFFF00, reset := 0x800080400 }
  | .PON_ROGUE_STATUS => { base := 0x0400820, n1 := 64, s1 := 0x4000, w1c := 0xE00000000 }
  | .PON_PROT_CTRL => { base := 0x0400828, n1 := 64, s1 := 0x4000, rw := 0xC70FF003F, reset := 0x040280000 }
  | .PON_PROT_STATUS => { base := 0x0400830, n1 := 64, s1 := 0x4000 }
  | .PON_PROT_DELTA => { base := 0x0400838, n1 := 64, s1 := 0x4000, rw := 0x003FFFFFF }
  | .PON_PROT_MEAS => { base := 0x0400840, n1 := 64, s1 := 0x4000 }
  | .PON_ACT_CNT => { base := 0x0400848, n1 := 64, s1 := 0x4000, rc := 0xFFFFFFFFF }
  | .PON_TERM_STATE => { base := 0x0401000, n1 := 64, s1 := 0x4000, n2 := 256, s2 := 0x20, w1c := 0x038000000 }
  | .PON_TERM_VID => { base := 0x0401008, n1 := 64, s1 := 0x4000, n2 := 256, s2 := 0x20 }
  | .PON_TERM_VSSN => { base := 0x0401010, n1 := 64, s1 := 0x4000, n2 := 256, s2 := 0x20 }
  | .PON_TERM_EQD => { base := 0x0401018, n1 := 64, s1 := 0x4000, n2 := 256, s2 := 0x20 }
  | .CLS_START => { base := 0x0500000, rw := 0x007FFFFFF }
  | .CLS_MISS_ACT => { base := 0x0500008, rw := 0xFFFC3FFFF, reset := 0x010000000 }
  | .CLS_MARK_ACT => { base := 0x0500010, rw := 0x00003FFFF, reset := 0x000008217 }
  | .CLS_BANK_STATUS => { base := 0x0500018 }
  | .CLS_EVT_STATUS => { base := 0x0500020, w1c := 0xFF000000F }
  | .CLS_EXQ_BASE_LO => { base := 0x0500100, n1 := 8, s1 := 0x40, rw := 0x0FFFFF000 }
  | .CLS_EXQ_BASE_HI => { base := 0x0500108, n1 := 8, s1 := 0x40, rw := 0x0FFFFFFFF }
  | .CLS_EXQ_CTRL => { base := 0x0500110, n1 := 8, s1 := 0x40, rw := 0xBF0000000, reset := 0x160000000 }
  | .CLS_EXQ_TAIL => { base := 0x0500118, n1 := 8, s1 := 0x40 }
  | .CLS_EXQ_HEAD => { base := 0x0500120, n1 := 8, s1 := 0x40, rw := 0x00000FFFF }
  | .CLS_EXQ_RATE => { base := 0x0500128, n1 := 8, s1 := 0x40, rw := 0xFFFFFFFFF, reset := 0x003E80040 }
  | .CLS_EXQ_STATUS => { base := 0x0500130, n1 := 8, s1 := 0x40, w1c := 0xFF0000006 }
  | .CLS_EXQ_CNT => { base := 0x0500138, n1 := 8, s1 := 0x40, rc := 0xFFFFFFFFF }
  | .FWD_STATUS => { base := 0x0600000, w1c := 0xFF000000F }
  | .FWD_EM_KEY => { base := 0x0600008, rw := 0xFFFFFFFF0, reset := 0x00FFF9770 }
  | .FWD_EM_MISS => { base := 0x0600010, rw := 0xF8003FFFF }
  | .FWD_LPM_KEY => { base := 0x0600018, rw := 0xFFFFFFC00, reset := 0x000007000 }
  | .FWD_LPM_MISS => { base := 0x0600020, rw := 0xF8003FFFF }
  | .FWD_HASH_SEED0 => { base := 0x0600028, rw := 0x0FFFFFFFF }
  | .FWD_HASH_SEED1 => { base := 0x0600030, rw := 0x0FFFFFFFF }
  | .FWD_LRN_CTRL => { base := 0x0600038, rw := 0xFFFFFF800, reset := 0xA1101E000 }
  | .FWD_LRN_GEN => { base := 0x0600040, rw := 0x00000FFFF }
  | .FWD_AGE_CTRL => { base := 0x0600048, rw := 0x8FFFF7FFF, reset := 0x803E8012C }
  | .FWD_AGE_STATUS => { base := 0x0600050 }
  | .FWD_FLUSH => { base := 0x0600058, rw := 0x38FF0FFFF }
  | .FWD_PERR => { base := 0x0600060, w1c := 0x800000000 }
  | .FWD_MOVE_LAST => { base := 0x0600068 }
  | .FWD_EVT_CNT0 => { base := 0x0600070, rc := 0xFFFFFFFFF }
  | .FWD_EVT_CNT1 => { base := 0x0600078, rc := 0xFFFFFFFFF }
  | .FWD_EVT_CNT2 => { base := 0x0600080, rc := 0xFFFFFFFFF }
  | .FWD_OCC0 => { base := 0x0600088 }
  | .FWD_OCC1 => { base := 0x0600090 }
  | .FWD_OCC2 => { base := 0x0600098 }
  | .FWD_GEN_MARK => { base := 0x0600100, n1 := 3, s1 := 0x20, n2 := 3, s2 := 0x8 }
  | .FWD_LRN_PORT => { base := 0x0600400, n1 := 132, s1 := 0x8, rw := 0xF00E3FFFF, reset := 0xC00000000 }
  | .BUF_STATUS => { base := 0x0700000, w1c := 0xFF000001C }
  | .BUF_SEL_CTRL => { base := 0x0700008, rw := 0x000000003 }
  | .BUF_EVT_CNT => { base := 0x0700010, rc := 0xFFFFFFFFF }
  | .BUF_DFREE => { base := 0x0700018, w1c := 0x800000000 }
  | .BUF_AUDIT_CTRL => { base := 0x0700020, rw := 0x4000000FF, reset := 0x00000000A }
  | .BUF_AUDIT_STATUS => { base := 0x0700028 }
  | .BUF_LEAK => { base := 0x0700030, w1c := 0x800000000 }
  | .BUF_FLUSH => { base := 0x0700038, rw := 0x00FF00000 }
  | .SWC_STATUS => { base := 0x0700040 }
  | .SWC_RESEQ_MAX => { base := 0x0700048, rc := 0x00FF01FFF }
  | .BUF_THR => { base := 0x0700100, n1 := 5, s1 := 0x40, n2 := 4, s2 := 0x8, rw := 0xFFFFFFFFF }
  | .BUF_ACT => { base := 0x0700120, n1 := 5, s1 := 0x40, n2 := 4, s2 := 0x8, rw := 0xF800000FF }
  | .BUF_POOL_STATUS => { base := 0x0700300, n1 := 5, s1 := 0x20 }
  | .BUF_POOL_CTRL => { base := 0x0700308, n1 := 5, s1 := 0x20, rw := 0x800000000 }
  | .BUF_POOL_CNT => { base := 0x0700310, n1 := 5, s1 := 0x20, rc := 0xFFFFFFFFF }
  | .BUF_PORT_STATE => { base := 0x0700800, n1 := 132, s1 := 0x8, rc := 0x0000FFFFF }
  | .SCH_STATUS => { base := 0x0800000, w1c := 0xFF0000003 }
  | .SCH_CAP_CTRL => { base := 0x0800008, rw := 0x0000001FF, reset := 0x000000080 }
  | .SCH_CAP_STATUS => { base := 0x0800010 }
  | .SCH_COMMIT_DS => { base := 0x0800018 }
  | .SCH_SAMP_PER => { base := 0x0800020, n1 := 8, s1 := 0x8, rw := 0x83FFFFFFF, reset := 0x8000F4240 }
  | .SCH_SAMP_LOAD => { base := 0x0800060 }
  | .SCH_EVT_CNT => { base := 0x0800068, rc := 0xFFFFFFFFF }
  | .GATE_CTRL => { base := 0x0801000, n1 := 128, s1 := 0x40, rw := 0x901FF0000, reset := 0x000010000 }
  | .GATE_BASE_SEC => { base := 0x0801008, n1 := 128, s1 := 0x40, rw := 0xFFFFFFFFF }
  | .GATE_BASE_NS => { base := 0x0801010, n1 := 128, s1 := 0x40, rw := 0x03FFFFFFF }
  | .GATE_CYCLE => { base := 0x0801018, n1 := 128, s1 := 0x40, rw := 0x03FFFFFFF, reset := 0x0000F4240 }
  | .GATE_STATUS => { base := 0x0801020, n1 := 128, s1 := 0x40, w1c := 0x180000000, reset := 0x0000000FF }
  | .GATE_START_SEC => { base := 0x0801028, n1 := 128, s1 := 0x40 }
  | .GATE_START_NS => { base := 0x0801030, n1 := 128, s1 := 0x40 }
  | .GATE_CNT => { base := 0x0801038, n1 := 128, s1 := 0x40, rc := 0xFFFFFFFFF }
  | .CIP_STATUS => { base := 0x0900000, w1c := 0xFF0000003 }
  | .CIP_NONCE_FIXED => { base := 0x0900008 }
  | .CIP_NONCE_EPOCH => { base := 0x0900010, rw := 0x0FFFFFFFF }
  | .CIP_NONCE_CNT => { base := 0x0900018 }
  | .CIP_TREE_CNT => { base := 0x0900800, n1 := 64, s1 := 0x8, rc := 0xFFFFFFFFF }
  | .CIP_TERM_KEY => { base := 0x0910000, n1 := 64, s1 := 0x800, n2 := 256, s2 := 0x8, rw := 0xF00007FFF }
  | .TIME_CTRL => { base := 0x0A00000, rw := 0x7FFFFFFFF, reset := 0x73C0640A3 }
  | .TIME_STATUS => { base := 0x0A00008, w1c := 0xFF0000000 }
  | .TIME_RATE => { base := 0x0A00010 }
  | .TIME_SNAP => { base := 0x0A00018, rw := 0x2FF000000 }
  | .TIME_SNAP_SF => { base := 0x0A00020, rw := 0xFFFFFFFFF }
  | .TIME_SNAP_W0 => { base := 0x0A00028 }
  | .TIME_SNAP_W1 => { base := 0x0A00030 }
  | .TIME_SNAP_W2 => { base := 0x0A00038 }
  | .TIME_SNAP_W3 => { base := 0x0A00040 }
  | .TIME_FREQ_CTRL => { base := 0x0A00048, rw := 0xFFF800000 }
  | .TIME_FREQ_STATUS => { base := 0x0A00050 }
  | .TIME_RCLK_CTRL => { base := 0x0A00058, rw := 0xCFC000000 }
  | .TIME_EVT_CAUSE => { base := 0x0A00060, w1c := 0x00000FFFF }
  | .TIME_EVT_EN => { base := 0x0A00068, rw := 0x00000FFFF, reset := 0x00000001E }
  | .TIME_DOM_CTRL => { base := 0x0A00100, n1 := 2, s1 := 0x40, rw := 0x80FFFFFFF, reset := 0x000040814 }
  | .TIME_DOM_OFS => { base := 0x0A00108, n1 := 2, s1 := 0x40, rw := 0xFFFFFFFFF }
  | .TIME_DOM_MTIME => { base := 0x0A00110, n1 := 2, s1 := 0x40, rw := 0xFFFFFFFFF }
  | .TIME_DOM_GO => { base := 0x0A00118, n1 := 2, s1 := 0x40, rw := 0x00000FFFF }
  | .TIME_DOM_STATUS => { base := 0x0A00120, n1 := 2, s1 := 0x40 }
  | .TIME_DOM_FREQ => { base := 0x0A00128, n1 := 2, s1 := 0x40 }
  | .TIME_DOM_GAP => { base := 0x0A00130, n1 := 2, s1 := 0x40 }
  | .TIME_CAP_CTRL => { base := 0x0A00200, n1 := 6, s1 := 0x20, rw := 0xE00000000, reset := 0x200000000 }
  | .TIME_CAP_STAT => { base := 0x0A00208, n1 := 6, s1 := 0x20, w1c := 0x400000000 }
  | .TIME_CAP_DATA => { base := 0x0A00210, n1 := 6, s1 := 0x20, rc := 0xFFFFFFFFF }
  | .TIME_TRIG_CTRL => { base := 0x0A00300, n1 := 4, s1 := 0x10, rw := 0x8007FFFFF, reset := 0x800000064 }
  | .TIME_TRIG_TIME => { base := 0x0A00308, n1 := 4, s1 := 0x10 }
  | .TIME_PPS_CTRL => { base := 0x0A00380, n1 := 2, s1 := 0x8, rw := 0xC3FFFFFFF, reset := 0x4000186A0 }
  | .TIME_TOD_CTRL => { base := 0x0A00400, n1 := 2, s1 := 0x20, rw := 0xC000FFFFF, reset := 0x000002580 }
  | .TIME_TOD_TX => { base := 0x0A00408, n1 := 2, s1 := 0x20 }
  | .TIME_TOD_RX => { base := 0x0A00410, n1 := 2, s1 := 0x20, rc := 0x8000000FF }
  | .TIME_TOD_STAT => { base := 0x0A00418, n1 := 2, s1 := 0x20, w1c := 0xC00000000 }
  | .TIME_PORT_CTRL => { base := 0x0A01000, n1 := 132, s1 := 0x20, rw := 0xC00000000 }
  | .TIME_PORT_RXDLY => { base := 0x0A01008, n1 := 132, s1 := 0x20, rw := 0x000FFFFFF }
  | .TIME_PORT_TXDLY => { base := 0x0A01010, n1 := 132, s1 := 0x20, rw := 0x000FFFFFF }
  | .TIME_PORT_ASYM => { base := 0x0A01018, n1 := 132, s1 := 0x20, rw := 0x000FFFFFF }
  | .TIME_TREE_FIB => { base := 0x0A03000, n1 := 64, s1 := 0x10, rw := 0x000FFFFFF }
  | .TIME_TREE_RESP => { base := 0x0A03008, n1 := 64, s1 := 0x10, rw := 0x0001FFFFF, reset := 0x0001A9400 }
  | .SER_LANE_CTRL => { base := 0x0B00000, n1 := 148, s1 := 0x40, rw := 0xF00000000 }
  | .SER_LANE_STATUS => { base := 0x0B00008, n1 := 148, s1 := 0x40, rc := 0x000000FFF }
  | .SER_LANE_FFE => { base := 0x0B00010, n1 := 148, s1 := 0x40, rw := 0x000FFFFC0, reset := 0x000F33E00 }
  | .SER_PRBS_CTRL => { base := 0x0B00018, n1 := 148, s1 := 0x40, rw := 0xFCFE00000, rc := 0x0000FFF00, reset := 0x280000000 }
  | .SER_PRBS_ERR => { base := 0x0B00020, n1 := 148, s1 := 0x40 }
  | .SER_PRBS_BITS => { base := 0x0B00028, n1 := 148, s1 := 0x40 }
  | .UPL_PORT_CTRL => { base := 0x0B04000, n1 := 40, s1 := 0x40, rw := 0xFFFFFFE00, reset := 0x1CC001400 }
  | .UPL_PORT_STATUS => { base := 0x0B04008, n1 := 40, s1 := 0x40, w1c := 0x780000000, rc := 0x000000FFF }
  | .UPL_FC_CTRL => { base := 0x0B04010, n1 := 40, s1 := 0x40, rw := 0xFFFFFFFFF, reset := 0x3FFFFFC14 }
  | .UPL_FC_STATUS => { base := 0x0B04018, n1 := 40, s1 := 0x40 }
  | .UPL_FEC_CNT => { base := 0x0B04020, n1 := 40, s1 := 0x40, rc := 0xFFFFFFFFF }
  | .UPL_RX_CNT => { base := 0x0B04028, n1 := 40, s1 := 0x40, rc := 0xFFFFFFFFF }
  | .UPL_FRER_CTRL => { base := 0x0B06000, n1 := 8, s1 := 0x20, rw := 0xEFFF3FFFF }
  | .UPL_FRER_CFG => { base := 0x0B06008, n1 := 8, s1 := 0x20, rw := 0x03FFFF000, reset := 0x0200C8000 }
  | .UPL_FRER_CNT0 => { base := 0x0B06010, n1 := 8, s1 := 0x20, rc := 0xFFFFFFFFF }
  | .UPL_FRER_CNT1 => { base := 0x0B06018, n1 := 8, s1 := 0x20, rc := 0xFFFFFFFFF }
  | .SER_STATUS => { base := 0x0B07000, w1c := 0xFF0000000 }
  | .SYS_ID => { base := 0x0C00000, rw := 0x003FFFFFF }
  | .SYS_STATUS => { base := 0x0C00008, w1c := 0xFF0000000 }
  | .SYS_RMT_CTRL => { base := 0x0C00010, rw := 0x2000003FF }
  | .SYS_RMT_ADDR => { base := 0x0C00018, rw := 0x000FFFFFF }
  | .SYS_RMT_DATA => { base := 0x0C00020, rw := 0xFFFFFFFFF }
  | .BND_CTRL => { base := 0x0C00100, n1 := 4, s1 := 0x40, rw := 0xF00000000, reset := 0xC00000000 }
  | .BND_STATUS => { base := 0x0C00108, n1 := 4, s1 := 0x40, w1c := 0x01E000000 }
  | .BND_CNT => { base := 0x0C00110, n1 := 4, s1 := 0x40, rc := 0xFFFFFFFFF }
  | .BND_TIME => { base := 0x0C00118, n1 := 4, s1 := 0x40 }
  | .SYS_ROUTE => { base := 0x0C02000, n1 := 1024, s1 := 0x8, rw := 0x800000003 }
  | .PWR_GOV_CTRL => { base := 0x0D00030, rw := 0xFFFFFFFFF, reset := 0x764200840 }
  | .PWR_BUDGET => { base := 0x0D00038, rw := 0x000000FFF, reset := 0x000000104 }
  | .PWR_GOV_STATUS => { base := 0x0D00040 }
  | .PWR_COMMIT => { base := 0x0D00048 }
  | .PWR_CRM => { base := 0x0D00050 }
  | .PWR_DEMAND => { base := 0x0D00058 }
  | .PWR_VREG => { base := 0x0D00068, rw := 0xFFE00FFFF }
  | .PWR_SLEEP_CTRL => { base := 0x0D00070, rw := 0x200000000, reset := 0x200000000 }
  | .PWR_SLEEP_STATUS => { base := 0x0D00078, w1c := 0x0FF00C000 }
  | .PWR_DOZE_DLY => { base := 0x0D00080, rw := 0x00000FFFF, reset := 0x000000064 }
  | .PWR_INT_CAUSE => { base := 0x0D00088, w1c := 0x00000000F }
  | .PWR_INT_EN => { base := 0x0D00090, rw := 0x00000000F, reset := 0x00000000F }
  | .PWR_SHORT_CNT => { base := 0x0D00098, rc := 0xFFFFFFFFF }
  | .PWR_VID => { base := 0x0D00500, n1 := 8, s1 := 0x8, rw := 0x00000FFFF }
  | .PWR_PEST => { base := 0x0D00540, n1 := 8, s1 := 0x8, rw := 0x000000FFF }
  | .PWR_RES_PL_LO => { base := 0x0D00600, n1 := 8, s1 := 0x10 }
  | .PWR_RES_PL_HI => { base := 0x0D00608, n1 := 8, s1 := 0x10 }
  | .PWR_RES_ST_LO => { base := 0x0D00680, n1 := 4, s1 := 0x10 }
  | .PWR_RES_ST_HI => { base := 0x0D00688, n1 := 4, s1 := 0x10 }
  | .FLT_STATUS => { base := 0x0E00000, w1c := 0xFF000000F }
  | .FLT_CTRL => { base := 0x0E00008 }
  | .FLT_CNT => { base := 0x0E00010, rc := 0xFFFFFFFFF }
  | .FLT_RING => { base := 0x0E00018 }
  | .FLT_REC_SEL => { base := 0x0E00020, rw := 0x0000000FF }
  | .FLT_REC => { base := 0x0E00028, n1 := 5, s1 := 0x8 }
  | .FLT_INT_CAUSE => { base := 0x0E00050, w1c := 0x00000000F }
  | .FLT_INT_EN => { base := 0x0E00058, rw := 0x00000000F, reset := 0x00000000E }
  | .FLT_FIRST => { base := 0x0E00100, n1 := 3, s1 := 0x40, n2 := 6, s2 := 0x8 }
  | .FLT_VMON => { base := 0x0E00200, n1 := 24, s1 := 0x8, w1c := 0x800000000, reset := 0x400000000 }
  | .PLN_STATUS => { base := 0x0E00300, w1c := 0x000000080, rc := 0x00000FF00, reset := 0x100000000 }
  | .PLN_WDOG => { base := 0x0E00308, rw := 0x80000FFFF, reset := 0x8000003E8 }
  | .PLN_LOG_CTRL => { base := 0x0E00310, rw := 0x0000000FF, rc := 0x00000FF00, reset := 0x00000000A }
  | .PLN_MBOX_CTRL => { base := 0x0E00318 }
  | .PLN_MBOX_H2P => { base := 0x0E00400, n1 := 64, s1 := 0x8, rw := 0xFFFFFFFFF }
  | .PLN_MBOX_P2H => { base := 0x0E00600, n1 := 64, s1 := 0x8 }
  | .TEL_STATUS => { base := 0x0F00000, w1c := 0xFF0000006 }
  | .TEL_CTRL => { base := 0x0F00008, rw := 0xFFFFF0000, reset := 0x020000000 }
  | .TEL_WR => { base := 0x0F00010 }
  | .TEL_RD => { base := 0x0F00018, rw := 0x01FFFFFFF }
  | .TEL_ITHR => { base := 0x0F00020, rw := 0x01FFFFFFF, reset := 0x000100000 }
  | .TEL_UPL => { base := 0x0F00028, rw := 0xFFFFFFFFC }
  | .TEL_DMAC_HI => { base := 0x0F00030, rw := 0x00000FFFF }
  | .TEL_DMAC_LO => { base := 0x0F00038, rw := 0x0FFFFFFFF }
  | .TEL_CNT => { base := 0x0F00040, rc := 0xFFFFFFFFF }
  | .PC_FRZ_AT => { base := 0x0F00100, rw := 0xFFFFFFFFF }
  | .PC_FRZ_CTRL => { base := 0x0F00108 }
  | .PC_WRAP => { base := 0x0F00200, n1 := 8, s1 := 0x8, w1c := 0x0FFFFFFFF }
  | .PC_WRAP_EN => { base := 0x0F00240, n1 := 8, s1 := 0x8, rw := 0x0FFFFFFFF }
  | .TEL_PORT_MAC_HI => { base := 0x0F01000, n1 := 40, s1 := 0x10, rw := 0x00000FFFF }
  | .TEL_PORT_MAC_LO => { base := 0x0F01008, n1 := 40, s1 := 0x10, rw := 0x0FFFFFFFF }

/-- The BAR0 byte offset of a register. -/
def Reg.offset (r : Reg) : Nat :=
  r.id.desc.base + r.i * r.id.desc.s1 + r.j * r.id.desc.s2 + r.k * r.id.desc.s3

/-- The indices lie within the register's ranges. -/
def Reg.inRange (r : Reg) : Bool :=
  r.i < r.id.desc.n1 && r.j < r.id.desc.n2 && r.k < r.id.desc.n3

/-- The instance of register id that lies at an offset, if one does. -/
def RegId.at (id : RegId) (off : Nat) : Option Reg :=
  let d := id.desc
  if off < d.base then none
  else
    let x := off - d.base
    let x1 := if d.n1 = 1 then x else x % d.s1
    let i := if d.n1 = 1 then 0 else x / d.s1
    let x2 := if d.n2 = 1 then x1 else x1 % d.s2
    let j := if d.n2 = 1 then 0 else x1 / d.s2
    let x3 := if d.n3 = 1 then x2 else x2 % d.s3
    let k := if d.n3 = 1 then 0 else x2 / d.s3
    if x3 = 0 ∧ i < d.n1 ∧ j < d.n2 ∧ k < d.n3 then some { id, i, j, k } else none

/-- The registers of each block of R561, by the block's number. -/
def blockRegs (b : Nat) : List RegId :=
  match b with
  | 0 => [.ID_DEVICE, .ID_STEP, .ID_FEATURE, .ID_STRAP, .ID_SERIAL_LO, .ID_SERIAL_HI]
  | 1 => [.HCI_VER_SUPPORTED, .HCI_NEGOTIATE, .HCI_GLOBAL_STATUS, .HCI_FRAG_TIMEOUT, .HCI_REJECT_COUNT, .HCI_REJECT, .HCI_DESC_LO, .HCI_DESC_HI, .HCI_CPL_LO, .HCI_CPL_HI, .HCI_RING_CTRL, .HCI_RING_TAIL, .HCI_RING_HEAD, .HCI_RING_STATUS, .HCI_RING_PERM, .HCI_INT_MAP]
  | 2 => [.MCODE_VERSION, .MCODE_KEYSTAT, .MAP_ENG_STATUS, .CMD_ENG_STATUS, .MAP_EVT_CNT, .MAP_INT_CAUSE, .MAP_INT_EN, .MAP_PEND_LO, .MAP_PEND_HI, .MCODE_SAVE, .MAP_LINE_CNT, .MAP_FB_INFO]
  | 4 => [.PON_DS_CTRL, .PON_DS_PONID, .PON_US_CTRL, .PON_OPT_CTRL, .PON_RSSI_CTRL, .PON_LOS_CTRL, .PON_TREE_STATUS, .PON_ALIGN_CTRL, .PON_ALIGN_STATUS, .PON_BOND_CTRL, .PON_BOND_SKEW, .PON_PM_CTRL, .PON_PM_SEL, .PON_PM_DATA0, .PON_PM_DATA1, .PON_EVT_CNT, .PON_RNG_CTRL, .PON_RNG_LIMIT, .PON_DRIFT_CTRL, .PON_ROGUE_CTRL, .PON_ROGUE_STATUS, .PON_PROT_CTRL, .PON_PROT_STATUS, .PON_PROT_DELTA, .PON_PROT_MEAS, .PON_ACT_CNT, .PON_TERM_STATE, .PON_TERM_VID, .PON_TERM_VSSN, .PON_TERM_EQD]
  | 5 => [.CLS_START, .CLS_MISS_ACT, .CLS_MARK_ACT, .CLS_BANK_STATUS, .CLS_EVT_STATUS, .CLS_EXQ_BASE_LO, .CLS_EXQ_BASE_HI, .CLS_EXQ_CTRL, .CLS_EXQ_TAIL, .CLS_EXQ_HEAD, .CLS_EXQ_RATE, .CLS_EXQ_STATUS, .CLS_EXQ_CNT]
  | 6 => [.FWD_STATUS, .FWD_EM_KEY, .FWD_EM_MISS, .FWD_LPM_KEY, .FWD_LPM_MISS, .FWD_HASH_SEED0, .FWD_HASH_SEED1, .FWD_LRN_CTRL, .FWD_LRN_GEN, .FWD_AGE_CTRL, .FWD_AGE_STATUS, .FWD_FLUSH, .FWD_PERR, .FWD_MOVE_LAST, .FWD_EVT_CNT0, .FWD_EVT_CNT1, .FWD_EVT_CNT2, .FWD_OCC0, .FWD_OCC1, .FWD_OCC2, .FWD_GEN_MARK, .FWD_LRN_PORT]
  | 7 => [.BUF_STATUS, .BUF_SEL_CTRL, .BUF_EVT_CNT, .BUF_DFREE, .BUF_AUDIT_CTRL, .BUF_AUDIT_STATUS, .BUF_LEAK, .BUF_FLUSH, .SWC_STATUS, .SWC_RESEQ_MAX, .BUF_THR, .BUF_ACT, .BUF_POOL_STATUS, .BUF_POOL_CTRL, .BUF_POOL_CNT, .BUF_PORT_STATE]
  | 8 => [.SCH_STATUS, .SCH_CAP_CTRL, .SCH_CAP_STATUS, .SCH_COMMIT_DS, .SCH_SAMP_PER, .SCH_SAMP_LOAD, .SCH_EVT_CNT, .GATE_CTRL, .GATE_BASE_SEC, .GATE_BASE_NS, .GATE_CYCLE, .GATE_STATUS, .GATE_START_SEC, .GATE_START_NS, .GATE_CNT]
  | 9 => [.CIP_STATUS, .CIP_NONCE_FIXED, .CIP_NONCE_EPOCH, .CIP_NONCE_CNT, .CIP_TREE_CNT, .CIP_TERM_KEY]
  | 10 => [.TIME_CTRL, .TIME_STATUS, .TIME_RATE, .TIME_SNAP, .TIME_SNAP_SF, .TIME_SNAP_W0, .TIME_SNAP_W1, .TIME_SNAP_W2, .TIME_SNAP_W3, .TIME_FREQ_CTRL, .TIME_FREQ_STATUS, .TIME_RCLK_CTRL, .TIME_EVT_CAUSE, .TIME_EVT_EN, .TIME_DOM_CTRL, .TIME_DOM_OFS, .TIME_DOM_MTIME, .TIME_DOM_GO, .TIME_DOM_STATUS, .TIME_DOM_FREQ, .TIME_DOM_GAP, .TIME_CAP_CTRL, .TIME_CAP_STAT, .TIME_CAP_DATA, .TIME_TRIG_CTRL, .TIME_TRIG_TIME, .TIME_PPS_CTRL, .TIME_TOD_CTRL, .TIME_TOD_TX, .TIME_TOD_RX, .TIME_TOD_STAT, .TIME_PORT_CTRL, .TIME_PORT_RXDLY, .TIME_PORT_TXDLY, .TIME_PORT_ASYM, .TIME_TREE_FIB, .TIME_TREE_RESP]
  | 11 => [.SER_LANE_CTRL, .SER_LANE_STATUS, .SER_LANE_FFE, .SER_PRBS_CTRL, .SER_PRBS_ERR, .SER_PRBS_BITS, .UPL_PORT_CTRL, .UPL_PORT_STATUS, .UPL_FC_CTRL, .UPL_FC_STATUS, .UPL_FEC_CNT, .UPL_RX_CNT, .UPL_FRER_CTRL, .UPL_FRER_CFG, .UPL_FRER_CNT0, .UPL_FRER_CNT1, .SER_STATUS]
  | 12 => [.SYS_ID, .SYS_STATUS, .SYS_RMT_CTRL, .SYS_RMT_ADDR, .SYS_RMT_DATA, .BND_CTRL, .BND_STATUS, .BND_CNT, .BND_TIME, .SYS_ROUTE]
  | 13 => [.RST_CAUSE, .RST_CTRL, .BOOT_STATUS, .WAKE_TIMEOUT, .PWR_CORE_STATUS, .QUOIN_STATUS, .THERM_SUMMARY, .THERM_TEMP, .PWR_GOV_CTRL, .PWR_BUDGET, .PWR_GOV_STATUS, .PWR_COMMIT, .PWR_CRM, .PWR_DEMAND, .PWR_VREG, .PWR_SLEEP_CTRL, .PWR_SLEEP_STATUS, .PWR_DOZE_DLY, .PWR_INT_CAUSE, .PWR_INT_EN, .PWR_SHORT_CNT, .PWR_VID, .PWR_PEST, .PWR_RES_PL_LO, .PWR_RES_PL_HI, .PWR_RES_ST_LO, .PWR_RES_ST_HI]
  | 14 => [.FLT_STATUS, .FLT_CTRL, .FLT_CNT, .FLT_RING, .FLT_REC_SEL, .FLT_REC, .FLT_INT_CAUSE, .FLT_INT_EN, .FLT_FIRST, .FLT_VMON, .PLN_STATUS, .PLN_WDOG, .PLN_LOG_CTRL, .PLN_MBOX_CTRL, .PLN_MBOX_H2P, .PLN_MBOX_P2H]
  | 15 => [.TEL_STATUS, .TEL_CTRL, .TEL_WR, .TEL_RD, .TEL_ITHR, .TEL_UPL, .TEL_DMAC_HI, .TEL_DMAC_LO, .TEL_CNT, .PC_FRZ_AT, .PC_FRZ_CTRL, .PC_WRAP, .PC_WRAP_EN, .TEL_PORT_MAC_HI, .TEL_PORT_MAC_LO]
  | _ => []

/-- The first of the given registers with an instance at the offset. -/
def findReg : List RegId → Nat → Option Reg
  | [], _ => none
  | id :: ids, off =>
    match id.at off with
    | some r => some r
    | none => findReg ids off

/-- The register at a BAR0 byte offset; none where no chapter assigns one (R561). -/
def Reg.ofOffset (off : Nat) : Option Reg := findReg (blockRegs (off / 0x100000)) off

/-- The value a register holds after a full reset: the fixed reset value, or what the variant, the stepping, the fuses
or the register's index give. -/
def Reg.reset (c : Chip) (r : Reg) : Nat :=
  match r.id with
  | .ID_DEVICE => r.id.desc.reset + (c.device)
  | .ID_STEP => r.id.desc.reset + ((match c.stepping with | .a1 => 0xA | .b0 => 0xB)) * 2 ^ 4 + ((match c.stepping with | .a1 => 1 | .b0 => 0))
  | .ID_FEATURE => r.id.desc.reset + (c.uplanes) * 2 ^ 24 + (c.trees) * 2 ^ 16 + (b2n c.extj) * 2 ^ 7 + (b2n c.pon50) * 2 ^ 6 + (b2n c.plinth) * 2 ^ 4 + (b2n c.stackmem) * 2 ^ 3 + (b2n c.bond) * 2 ^ 2 + (b2n c.gates) * 2 ^ 1 + (b2n c.lpm)
  | .ID_SERIAL_LO => r.id.desc.reset + (c.serial.toNat % 2 ^ 32)
  | .ID_SERIAL_HI => r.id.desc.reset + (c.serial.toNat / 2 ^ 32)
  | .QUOIN_STATUS => r.id.desc.reset + (c.quoinReset (r.i + 1))
  | .HCI_INT_MAP => r.id.desc.reset + (r.i)
  | .MCODE_VERSION => r.id.desc.reset + (c.romver r.i)
  | .MCODE_KEYSTAT => r.id.desc.reset + (c.keysRevoked.toNat) * 2 ^ 4 + (c.keysPresent.toNat)
  | .MAP_ENG_STATUS => r.id.desc.reset + (1) * 2 ^ 32
  | .PON_DS_CTRL => r.id.desc.reset + (b2n c.pon50) * 2 ^ 4
  | .PON_PROT_STATUS => r.id.desc.reset + (r.i) * 2 ^ 18
  | .FWD_LRN_PORT => r.id.desc.reset + ((if r.i < 64 ∨ 128 ≤ r.i then 1 else 0)) * 2 ^ 33
  | .BUF_SEL_CTRL => r.id.desc.reset + ((if c.stackmem then 0 else 2))
  | .SWC_STATUS => r.id.desc.reset + (c.swcPresent)
  | .BUF_THR => r.id.desc.reset + (c.poolCount r.i / 512) * 2 ^ 22 + ((c.poolCount r.i * (if r.j = 0 then 12 else if r.j = 1 then 14 else if r.j = 2 then 15 else 16) / 16))
  | .BUF_ACT => r.id.desc.reset + ((if 2 ≤ r.j then 1 else 0)) * 2 ^ 35 + ((if 2 ≤ r.j then 1 else 0)) * 2 ^ 34 + ((if 1 ≤ r.j then 1 else 0)) * 2 ^ 33 + ((if r.j ≤ 1 then 1 else 0)) * 2 ^ 32 + ((if r.j = 1 then 1 else 0)) * 2 ^ 31 + ((if r.j = 0 then 0x03 else if r.j = 1 then 0x3F else 0xFF))
  | .CIP_NONCE_FIXED => r.id.desc.reset + (c.serial.toNat % 2 ^ 32)
  | .TIME_DOM_CTRL => r.id.desc.reset + ((if r.i = 0 then 0x18 else 0x2C)) * 2 ^ 20
  | .TIME_CAP_CTRL => r.id.desc.reset + ((if 4 ≤ r.i then 1 else 0)) * 2 ^ 35
  | .SER_LANE_STATUS => r.id.desc.reset + (1) * 2 ^ 32
  | .UPL_PORT_CTRL => r.id.desc.reset + ((if r.i < c.uplanes then 1 else 0)) * 2 ^ 35
  | .BND_STATUS => r.id.desc.reset + (1) * 2 ^ 32
  | .PWR_CRM => r.id.desc.reset + (c.kcrm.toNat) * 2 ^ 20
  | .PWR_PEST => r.id.desc.reset + (c.pest r.i)
  | .TEL_CTRL => r.id.desc.reset + ((if c.stackmem then 4 else 0)) * 2 ^ 30
  | _ => r.id.desc.reset

/-! Fields by name. -/

/-- ID_DEVICE [15:0] RO (R564). -/
def F.ID_DEVICE_DEVICE : Fld := ⟨.ID_DEVICE, 15, 0⟩
/-- ID_STEP [7:4] RO (R13). -/
def F.ID_STEP_LETTER : Fld := ⟨.ID_STEP, 7, 4⟩
/-- ID_STEP [3:0] RO (R13). -/
def F.ID_STEP_DIGIT : Fld := ⟨.ID_STEP, 3, 0⟩
/-- ID_FEATURE [31:24] RO (R7). -/
def F.ID_FEATURE_UPLANES : Fld := ⟨.ID_FEATURE, 31, 24⟩
/-- ID_FEATURE [23:16] RO (R7). -/
def F.ID_FEATURE_TREES : Fld := ⟨.ID_FEATURE, 23, 16⟩
/-- ID_FEATURE [7:7] RO (R7). -/
def F.ID_FEATURE_EXTJ : Fld := ⟨.ID_FEATURE, 7, 7⟩
/-- ID_FEATURE [6:6] RO (R7). -/
def F.ID_FEATURE_PON50 : Fld := ⟨.ID_FEATURE, 6, 6⟩
/-- ID_FEATURE [4:4] RO (R7). -/
def F.ID_FEATURE_PLINTH : Fld := ⟨.ID_FEATURE, 4, 4⟩
/-- ID_FEATURE [3:3] RO (R7). -/
def F.ID_FEATURE_STACKMEM : Fld := ⟨.ID_FEATURE, 3, 3⟩
/-- ID_FEATURE [2:2] RO (R7). -/
def F.ID_FEATURE_BOND : Fld := ⟨.ID_FEATURE, 2, 2⟩
/-- ID_FEATURE [1:1] RO (R7). -/
def F.ID_FEATURE_GATES : Fld := ⟨.ID_FEATURE, 1, 1⟩
/-- ID_FEATURE [0:0] RO (R7). -/
def F.ID_FEATURE_LPM : Fld := ⟨.ID_FEATURE, 0, 0⟩
/-- ID_STRAP [6:6] RO (R73). -/
def F.ID_STRAP_BADSTRAP : Fld := ⟨.ID_STRAP, 6, 6⟩
/-- ID_STRAP [5:5] RO (R73). -/
def F.ID_STRAP_IGNORED : Fld := ⟨.ID_STRAP, 5, 5⟩
/-- ID_STRAP [4:3] RO (R73). -/
def F.ID_STRAP_BOOT : Fld := ⟨.ID_STRAP, 4, 3⟩
/-- ID_STRAP [2:0] RO (R73). -/
def F.ID_STRAP_I2CA : Fld := ⟨.ID_STRAP, 2, 0⟩
/-- ID_SERIAL_LO [31:0] RO (R564). -/
def F.ID_SERIAL_LO_DSN : Fld := ⟨.ID_SERIAL_LO, 31, 0⟩
/-- ID_SERIAL_HI [31:0] RO (R564). -/
def F.ID_SERIAL_HI_DSN : Fld := ⟨.ID_SERIAL_HI, 31, 0⟩
/-- RST_CAUSE [15:8] RO (R108). -/
def F.RST_CAUSE_COUNT : Fld := ⟨.RST_CAUSE, 15, 8⟩
/-- RST_CAUSE [5:5] W1C (R108). -/
def F.RST_CAUSE_SAFE : Fld := ⟨.RST_CAUSE, 5, 5⟩
/-- RST_CAUSE [4:4] W1C (R108). -/
def F.RST_CAUSE_PLINTH : Fld := ⟨.RST_CAUSE, 4, 4⟩
/-- RST_CAUSE [3:3] W1C (R108). -/
def F.RST_CAUSE_SOFT : Fld := ⟨.RST_CAUSE, 3, 3⟩
/-- RST_CAUSE [2:2] W1C (R108). -/
def F.RST_CAUSE_PIN : Fld := ⟨.RST_CAUSE, 2, 2⟩
/-- RST_CAUSE [1:1] W1C (R108). -/
def F.RST_CAUSE_BROWN : Fld := ⟨.RST_CAUSE, 1, 1⟩
/-- RST_CAUSE [0:0] W1C (R108). -/
def F.RST_CAUSE_POR : Fld := ⟨.RST_CAUSE, 0, 0⟩
/-- RST_CTRL [15:0] WO (R109). -/
def F.RST_CTRL_KEY : Fld := ⟨.RST_CTRL, 15, 0⟩
/-- BOOT_STATUS [23:16] RO (R114). -/
def F.BOOT_STATUS_STATUS : Fld := ⟨.BOOT_STATUS, 23, 16⟩
/-- BOOT_STATUS [7:7] RO (R114). -/
def F.BOOT_STATUS_READY : Fld := ⟨.BOOT_STATUS, 7, 7⟩
/-- BOOT_STATUS [6:6] RO (R114). -/
def F.BOOT_STATUS_PATCHED : Fld := ⟨.BOOT_STATUS, 6, 6⟩
/-- BOOT_STATUS [5:5] RO (R114). -/
def F.BOOT_STATUS_DEGRADED : Fld := ⟨.BOOT_STATUS, 5, 5⟩
/-- BOOT_STATUS [3:0] RO (R114). -/
def F.BOOT_STATUS_PHASE : Fld := ⟨.BOOT_STATUS, 3, 0⟩
/-- WAKE_TIMEOUT [11:0] RW (R121). -/
def F.WAKE_TIMEOUT_TIMEOUT : Fld := ⟨.WAKE_TIMEOUT, 11, 0⟩
/-- PWR_CORE_STATUS [23:16] RO (R118). -/
def F.PWR_CORE_STATUS_WAKESTAT : Fld := ⟨.PWR_CORE_STATUS, 23, 16⟩
/-- PWR_CORE_STATUS [10:8] RO (R118). -/
def F.PWR_CORE_STATUS_FAILCAUSE : Fld := ⟨.PWR_CORE_STATUS, 10, 8⟩
/-- PWR_CORE_STATUS [3:0] RO (R118). -/
def F.PWR_CORE_STATUS_STATE : Fld := ⟨.PWR_CORE_STATUS, 3, 0⟩
/-- QUOIN_STATUS [23:16] RO (R118). -/
def F.QUOIN_STATUS_WAKESTAT : Fld := ⟨.QUOIN_STATUS, 23, 16⟩
/-- QUOIN_STATUS [10:8] RO (R118). -/
def F.QUOIN_STATUS_FAILCAUSE : Fld := ⟨.QUOIN_STATUS, 10, 8⟩
/-- QUOIN_STATUS [3:0] RO (R118). -/
def F.QUOIN_STATUS_STATE : Fld := ⟨.QUOIN_STATUS, 3, 0⟩
/-- THERM_SUMMARY [22:22] RO (R97). -/
def F.THERM_SUMMARY_TRIP : Fld := ⟨.THERM_SUMMARY, 22, 22⟩
/-- THERM_SUMMARY [21:21] RO (R97). -/
def F.THERM_SUMMARY_THROTTLE : Fld := ⟨.THERM_SUMMARY, 21, 21⟩
/-- THERM_SUMMARY [20:20] RO (R97). -/
def F.THERM_SUMMARY_SFAIL : Fld := ⟨.THERM_SUMMARY, 20, 20⟩
/-- THERM_SUMMARY [19:14] RO (R97). -/
def F.THERM_SUMMARY_HOTTEST : Fld := ⟨.THERM_SUMMARY, 19, 14⟩
/-- THERM_SUMMARY [11:0] RO (R97). -/
def F.THERM_SUMMARY_TEMP : Fld := ⟨.THERM_SUMMARY, 11, 0⟩
/-- THERM_TEMP [35:35] RO (R97). -/
def F.THERM_TEMP_FAILED : Fld := ⟨.THERM_TEMP, 35, 35⟩
/-- THERM_TEMP [11:0] RO (R97). -/
def F.THERM_TEMP_TEMP : Fld := ⟨.THERM_TEMP, 11, 0⟩
/-- HCI_VER_SUPPORTED [7:0] RO (R125). -/
def F.HCI_VER_SUPPORTED_VERSIONS : Fld := ⟨.HCI_VER_SUPPORTED, 7, 0⟩
/-- HCI_NEGOTIATE [35:35] W1S (R126). -/
def F.HCI_NEGOTIATE_REQ : Fld := ⟨.HCI_NEGOTIATE, 35, 35⟩
/-- HCI_NEGOTIATE [31:24] RO (R126). -/
def F.HCI_NEGOTIATE_STATUS : Fld := ⟨.HCI_NEGOTIATE, 31, 24⟩
/-- HCI_NEGOTIATE [23:16] RO (R126). -/
def F.HCI_NEGOTIATE_MAJOR : Fld := ⟨.HCI_NEGOTIATE, 23, 16⟩
/-- HCI_NEGOTIATE [15:8] RO (R126). -/
def F.HCI_NEGOTIATE_MINOR : Fld := ⟨.HCI_NEGOTIATE, 15, 8⟩
/-- HCI_NEGOTIATE [7:0] RW (R126). -/
def F.HCI_NEGOTIATE_OFFER : Fld := ⟨.HCI_NEGOTIATE, 7, 0⟩
/-- HCI_GLOBAL_STATUS [27:24] RO (R154). -/
def F.HCI_GLOBAL_STATUS_RING1 : Fld := ⟨.HCI_GLOBAL_STATUS, 27, 24⟩
/-- HCI_GLOBAL_STATUS [23:20] RO (R154). -/
def F.HCI_GLOBAL_STATUS_RING0 : Fld := ⟨.HCI_GLOBAL_STATUS, 23, 20⟩
/-- HCI_GLOBAL_STATUS [19:19] RO (R154). -/
def F.HCI_GLOBAL_STATUS_BUSY1 : Fld := ⟨.HCI_GLOBAL_STATUS, 19, 19⟩
/-- HCI_GLOBAL_STATUS [18:18] RO (R154). -/
def F.HCI_GLOBAL_STATUS_BUSY0 : Fld := ⟨.HCI_GLOBAL_STATUS, 18, 18⟩
/-- HCI_GLOBAL_STATUS [17:17] RO (R154). -/
def F.HCI_GLOBAL_STATUS_TOPSTALL : Fld := ⟨.HCI_GLOBAL_STATUS, 17, 17⟩
/-- HCI_GLOBAL_STATUS [10:0] RO (R154). -/
def F.HCI_GLOBAL_STATUS_OUTSTANDING : Fld := ⟨.HCI_GLOBAL_STATUS, 10, 0⟩
/-- HCI_FRAG_TIMEOUT [19:0] RW (R152). -/
def F.HCI_FRAG_TIMEOUT_LIMIT : Fld := ⟨.HCI_FRAG_TIMEOUT, 19, 0⟩
/-- HCI_REJECT_COUNT [19:16] RO (R158). -/
def F.HCI_REJECT_COUNT_NEXT : Fld := ⟨.HCI_REJECT_COUNT, 19, 16⟩
/-- HCI_REJECT_COUNT [15:0] RC (R158). -/
def F.HCI_REJECT_COUNT_COUNT : Fld := ⟨.HCI_REJECT_COUNT, 15, 0⟩
/-- HCI_REJECT [35:35] RO (R158). -/
def F.HCI_REJECT_VALID : Fld := ⟨.HCI_REJECT, 35, 35⟩
/-- HCI_REJECT [34:34] RO (R158). -/
def F.HCI_REJECT_REG : Fld := ⟨.HCI_REJECT, 34, 34⟩
/-- HCI_REJECT [33:30] RO (R158). -/
def F.HCI_REJECT_RING : Fld := ⟨.HCI_REJECT, 33, 30⟩
/-- HCI_REJECT [29:22] RO (R158). -/
def F.HCI_REJECT_STATUS : Fld := ⟨.HCI_REJECT, 29, 22⟩
/-- HCI_REJECT [21:16] RO (R158). -/
def F.HCI_REJECT_OPCODE : Fld := ⟨.HCI_REJECT, 21, 16⟩
/-- HCI_REJECT [15:15] RO (R158). -/
def F.HCI_REJECT_RINGV : Fld := ⟨.HCI_REJECT, 15, 15⟩
/-- HCI_REJECT [11:0] RO (R158). -/
def F.HCI_REJECT_INDEX : Fld := ⟨.HCI_REJECT, 11, 0⟩
/-- HCI_DESC_LO [31:12] RW (R140). -/
def F.HCI_DESC_LO_ADDR : Fld := ⟨.HCI_DESC_LO, 31, 12⟩
/-- HCI_DESC_HI [31:0] RW (R140). -/
def F.HCI_DESC_HI_ADDR : Fld := ⟨.HCI_DESC_HI, 31, 0⟩
/-- HCI_CPL_LO [31:12] RW (R140). -/
def F.HCI_CPL_LO_ADDR : Fld := ⟨.HCI_CPL_LO, 31, 12⟩
/-- HCI_CPL_HI [31:0] RW (R140). -/
def F.HCI_CPL_HI_ADDR : Fld := ⟨.HCI_CPL_HI, 31, 0⟩
/-- HCI_RING_CTRL [35:35] RW (R141). -/
def F.HCI_RING_CTRL_EN : Fld := ⟨.HCI_RING_CTRL, 35, 35⟩
/-- HCI_RING_CTRL [31:28] RW (R141). -/
def F.HCI_RING_CTRL_SIZE : Fld := ⟨.HCI_RING_CTRL, 31, 28⟩
/-- HCI_RING_CTRL [27:26] RW (R141). -/
def F.HCI_RING_CTRL_PRIO : Fld := ⟨.HCI_RING_CTRL, 27, 26⟩
/-- HCI_RING_CTRL [19:10] RW (R141). -/
def F.HCI_RING_CTRL_ITIME : Fld := ⟨.HCI_RING_CTRL, 19, 10⟩
/-- HCI_RING_CTRL [7:0] RW (R141). -/
def F.HCI_RING_CTRL_ICOUNT : Fld := ⟨.HCI_RING_CTRL, 7, 0⟩
/-- HCI_RING_TAIL [12:0] RW (R142). -/
def F.HCI_RING_TAIL_TAIL : Fld := ⟨.HCI_RING_TAIL, 12, 0⟩
/-- HCI_RING_HEAD [12:0] RO (R142). -/
def F.HCI_RING_HEAD_HEAD : Fld := ⟨.HCI_RING_HEAD, 12, 0⟩
/-- HCI_RING_STATUS [23:16] W1C (R143). -/
def F.HCI_RING_STATUS_ERR : Fld := ⟨.HCI_RING_STATUS, 23, 16⟩
/-- HCI_RING_STATUS [3:3] RO (R143). -/
def F.HCI_RING_STATUS_HALTED : Fld := ⟨.HCI_RING_STATUS, 3, 3⟩
/-- HCI_RING_STATUS [2:2] RO (R143). -/
def F.HCI_RING_STATUS_ACTIVE : Fld := ⟨.HCI_RING_STATUS, 2, 2⟩
/-- HCI_RING_STATUS [1:1] RO (R143). -/
def F.HCI_RING_STATUS_EMPTY : Fld := ⟨.HCI_RING_STATUS, 1, 1⟩
/-- HCI_RING_STATUS [0:0] RO (R143). -/
def F.HCI_RING_STATUS_ENABLED : Fld := ⟨.HCI_RING_STATUS, 0, 0⟩
/-- HCI_RING_PERM [5:5] RW (R155). -/
def F.HCI_RING_PERM_SYS : Fld := ⟨.HCI_RING_PERM, 5, 5⟩
/-- HCI_RING_PERM [4:4] RW (R155). -/
def F.HCI_RING_PERM_KEY : Fld := ⟨.HCI_RING_PERM, 4, 4⟩
/-- HCI_RING_PERM [3:3] RW (R155). -/
def F.HCI_RING_PERM_TERM : Fld := ⟨.HCI_RING_PERM, 3, 3⟩
/-- HCI_RING_PERM [2:2] RW (R155). -/
def F.HCI_RING_PERM_TIME : Fld := ⟨.HCI_RING_PERM, 2, 2⟩
/-- HCI_RING_PERM [1:1] RW (R155). -/
def F.HCI_RING_PERM_QUEUE : Fld := ⟨.HCI_RING_PERM, 1, 1⟩
/-- HCI_RING_PERM [0:0] RW (R155). -/
def F.HCI_RING_PERM_TABLE : Fld := ⟨.HCI_RING_PERM, 0, 0⟩
/-- HCI_INT_MAP [8:8] RW (R159). -/
def F.HCI_INT_MAP_EN : Fld := ⟨.HCI_INT_MAP, 8, 8⟩
/-- HCI_INT_MAP [5:0] RW (R159). -/
def F.HCI_INT_MAP_VECTOR : Fld := ⟨.HCI_INT_MAP, 5, 0⟩
/-- MCODE_VERSION [35:32] RO (R234). -/
def F.MCODE_VERSION_CHK : Fld := ⟨.MCODE_VERSION, 35, 32⟩
/-- MCODE_VERSION [31:16] RO (R234). -/
def F.MCODE_VERSION_PATCHVER : Fld := ⟨.MCODE_VERSION, 31, 16⟩
/-- MCODE_VERSION [15:0] RO (R234). -/
def F.MCODE_VERSION_ROMVER : Fld := ⟨.MCODE_VERSION, 15, 0⟩
/-- MCODE_KEYSTAT [7:4] RO (R235). -/
def F.MCODE_KEYSTAT_REVOKED : Fld := ⟨.MCODE_KEYSTAT, 7, 4⟩
/-- MCODE_KEYSTAT [3:0] RO (R235). -/
def F.MCODE_KEYSTAT_PRESENT : Fld := ⟨.MCODE_KEYSTAT, 3, 0⟩
/-- MAP_ENG_STATUS [35:32] RO (R226). -/
def F.MAP_ENG_STATUS_STATE : Fld := ⟨.MAP_ENG_STATUS, 35, 32⟩
/-- MAP_ENG_STATUS [31:31] W1C (R226). -/
def F.MAP_ENG_STATUS_OVR : Fld := ⟨.MAP_ENG_STATUS, 31, 31⟩
/-- MAP_ENG_STATUS [30:30] W1C (R226). -/
def F.MAP_ENG_STATUS_TRUNC : Fld := ⟨.MAP_ENG_STATUS, 30, 30⟩
/-- MAP_ENG_STATUS [29:29] W1C (R226). -/
def F.MAP_ENG_STATUS_FLT : Fld := ⟨.MAP_ENG_STATUS, 29, 29⟩
/-- MAP_ENG_STATUS [28:28] W1C (R226). -/
def F.MAP_ENG_STATUS_CSCE : Fld := ⟨.MAP_ENG_STATUS, 28, 28⟩
/-- MAP_ENG_STATUS [27:20] RO (R226). -/
def F.MAP_ENG_STATUS_LASTSTAT : Fld := ⟨.MAP_ENG_STATUS, 27, 20⟩
/-- MAP_ENG_STATUS [19:16] RO (R226). -/
def F.MAP_ENG_STATUS_LASTVEC : Fld := ⟨.MAP_ENG_STATUS, 19, 16⟩
/-- MAP_ENG_STATUS [15:0] RO (R226). -/
def F.MAP_ENG_STATUS_ENTRY : Fld := ⟨.MAP_ENG_STATUS, 15, 0⟩
/-- CMD_ENG_STATUS [35:32] RO (R227). -/
def F.CMD_ENG_STATUS_STATE : Fld := ⟨.CMD_ENG_STATUS, 35, 32⟩
/-- CMD_ENG_STATUS [31:31] W1C (R227). -/
def F.CMD_ENG_STATUS_FLT : Fld := ⟨.CMD_ENG_STATUS, 31, 31⟩
/-- CMD_ENG_STATUS [30:30] W1C (R227). -/
def F.CMD_ENG_STATUS_CSCE : Fld := ⟨.CMD_ENG_STATUS, 30, 30⟩
/-- CMD_ENG_STATUS [19:16] RO (R227). -/
def F.CMD_ENG_STATUS_LASTVEC : Fld := ⟨.CMD_ENG_STATUS, 19, 16⟩
/-- MAP_EVT_CNT [35:24] RC (R228). -/
def F.MAP_EVT_CNT_FAULTS : Fld := ⟨.MAP_EVT_CNT, 35, 24⟩
/-- MAP_EVT_CNT [23:12] RC (R228). -/
def F.MAP_EVT_CNT_TRUNC : Fld := ⟨.MAP_EVT_CNT, 23, 12⟩
/-- MAP_EVT_CNT [11:0] RC (R228). -/
def F.MAP_EVT_CNT_OVERRUN : Fld := ⟨.MAP_EVT_CNT, 11, 0⟩
/-- MAP_INT_CAUSE [3:3] W1C (R229). -/
def F.MAP_INT_CAUSE_CMDFLT : Fld := ⟨.MAP_INT_CAUSE, 3, 3⟩
/-- MAP_INT_CAUSE [2:2] W1C (R229). -/
def F.MAP_INT_CAUSE_FLT : Fld := ⟨.MAP_INT_CAUSE, 2, 2⟩
/-- MAP_INT_CAUSE [1:1] W1C (R229). -/
def F.MAP_INT_CAUSE_TRUNC : Fld := ⟨.MAP_INT_CAUSE, 1, 1⟩
/-- MAP_INT_CAUSE [0:0] W1C (R229). -/
def F.MAP_INT_CAUSE_OVERRUN : Fld := ⟨.MAP_INT_CAUSE, 0, 0⟩
/-- MAP_INT_EN [3:0] RW (R229). -/
def F.MAP_INT_EN_EN : Fld := ⟨.MAP_INT_EN, 3, 0⟩
/-- MAP_PEND_LO [31:0] RO (R229). -/
def F.MAP_PEND_LO_TREES : Fld := ⟨.MAP_PEND_LO, 31, 0⟩
/-- MAP_PEND_HI [31:0] RO (R229). -/
def F.MAP_PEND_HI_TREES : Fld := ⟨.MAP_PEND_HI, 31, 0⟩
/-- MCODE_SAVE [35:0] RO (R224). -/
def F.MCODE_SAVE_WORD : Fld := ⟨.MCODE_SAVE, 35, 0⟩
/-- MAP_LINE_CNT [35:24] RC (R320). -/
def F.MAP_LINE_CNT_FBSENT : Fld := ⟨.MAP_LINE_CNT, 35, 24⟩
/-- MAP_LINE_CNT [23:12] RC (R320). -/
def F.MAP_LINE_CNT_OMIT : Fld := ⟨.MAP_LINE_CNT, 23, 12⟩
/-- MAP_LINE_CNT [11:0] RC (R320). -/
def F.MAP_LINE_CNT_QDROP : Fld := ⟨.MAP_LINE_CNT, 11, 0⟩
/-- MAP_FB_INFO [10:0] RO (R321). -/
def F.MAP_FB_INFO_COUNT : Fld := ⟨.MAP_FB_INFO, 10, 0⟩
/-- PON_DS_CTRL [11:10] RW (R238). -/
def F.PON_DS_CTRL_LBMODE : Fld := ⟨.PON_DS_CTRL, 11, 10⟩
/-- PON_DS_CTRL [4:4] RW (R238). -/
def F.PON_DS_CTRL_MODE : Fld := ⟨.PON_DS_CTRL, 4, 4⟩
/-- PON_DS_PONID [31:0] RW (R238). -/
def F.PON_DS_PONID_PONID : Fld := ⟨.PON_DS_PONID, 31, 0⟩
/-- PON_US_CTRL [35:28] RW (R250). -/
def F.PON_US_CTRL_DWIN : Fld := ⟨.PON_US_CTRL, 35, 28⟩
/-- PON_US_CTRL [18:0] RW (R250). -/
def F.PON_US_CTRL_ORIGIN : Fld := ⟨.PON_US_CTRL, 18, 0⟩
/-- PON_OPT_CTRL [35:35] RW (R256). -/
def F.PON_OPT_CTRL_BPOL : Fld := ⟨.PON_OPT_CTRL, 35, 35⟩
/-- PON_OPT_CTRL [31:24] RW (R256). -/
def F.PON_OPT_CTRL_LEAD : Fld := ⟨.PON_OPT_CTRL, 31, 24⟩
/-- PON_OPT_CTRL [23:16] RW (R256). -/
def F.PON_OPT_CTRL_WIDTH : Fld := ⟨.PON_OPT_CTRL, 23, 16⟩
/-- PON_OPT_CTRL [15:8] RW (R256). -/
def F.PON_OPT_CTRL_HOLD : Fld := ⟨.PON_OPT_CTRL, 15, 8⟩
/-- PON_OPT_CTRL [7:0] RW (R256). -/
def F.PON_OPT_CTRL_MINW : Fld := ⟨.PON_OPT_CTRL, 7, 0⟩
/-- PON_RSSI_CTRL [35:35] RW (R258). -/
def F.PON_RSSI_CTRL_RPOL : Fld := ⟨.PON_RSSI_CTRL, 35, 35⟩
/-- PON_RSSI_CTRL [7:0] RW (R258). -/
def F.PON_RSSI_CTRL_WIDTH : Fld := ⟨.PON_RSSI_CTRL, 7, 0⟩
/-- PON_LOS_CTRL [7:0] RW (R259). -/
def F.PON_LOS_CTRL_FRAMES : Fld := ⟨.PON_LOS_CTRL, 7, 0⟩
/-- PON_TREE_STATUS [35:28] W1C (R240). -/
def F.PON_TREE_STATUS_ERR : Fld := ⟨.PON_TREE_STATUS, 35, 28⟩
/-- PON_TREE_STATUS [7:7] RO (R240). -/
def F.PON_TREE_STATUS_BONDDEG : Fld := ⟨.PON_TREE_STATUS, 7, 7⟩
/-- PON_TREE_STATUS [6:6] RO (R240). -/
def F.PON_TREE_STATUS_LOS : Fld := ⟨.PON_TREE_STATUS, 6, 6⟩
/-- PON_TREE_STATUS [5:5] W1C (R240). -/
def F.PON_TREE_STATUS_STRAY : Fld := ⟨.PON_TREE_STATUS, 5, 5⟩
/-- PON_TREE_STATUS [4:4] W1C (R240). -/
def F.PON_TREE_STATUS_SKIP : Fld := ⟨.PON_TREE_STATUS, 4, 4⟩
/-- PON_TREE_STATUS [3:3] W1C (R240). -/
def F.PON_TREE_STATUS_LOF : Fld := ⟨.PON_TREE_STATUS, 3, 3⟩
/-- PON_TREE_STATUS [2:2] W1C (R240). -/
def F.PON_TREE_STATUS_MISS : Fld := ⟨.PON_TREE_STATUS, 2, 2⟩
/-- PON_TREE_STATUS [1:1] RO (R240). -/
def F.PON_TREE_STATUS_TXON : Fld := ⟨.PON_TREE_STATUS, 1, 1⟩
/-- PON_TREE_STATUS [0:0] RO (R240). -/
def F.PON_TREE_STATUS_ENABLED : Fld := ⟨.PON_TREE_STATUS, 0, 0⟩
/-- PON_ALIGN_CTRL [2:0] RW (R262). -/
def F.PON_ALIGN_CTRL_TOL : Fld := ⟨.PON_ALIGN_CTRL, 2, 0⟩
/-- PON_ALIGN_STATUS [35:24] RC (R262). -/
def F.PON_ALIGN_STATUS_LOFCNT : Fld := ⟨.PON_ALIGN_STATUS, 35, 24⟩
/-- PON_ALIGN_STATUS [23:8] RC (R262). -/
def F.PON_ALIGN_STATUS_REJECT : Fld := ⟨.PON_ALIGN_STATUS, 23, 8⟩
/-- PON_ALIGN_STATUS [3:2] RO (R262). -/
def F.PON_ALIGN_STATUS_MISSES : Fld := ⟨.PON_ALIGN_STATUS, 3, 2⟩
/-- PON_ALIGN_STATUS [1:0] RO (R262). -/
def F.PON_ALIGN_STATUS_STATE : Fld := ⟨.PON_ALIGN_STATUS, 1, 0⟩
/-- PON_BOND_CTRL [35:35] RW (R263). -/
def F.PON_BOND_CTRL_EN : Fld := ⟨.PON_BOND_CTRL, 35, 35⟩
/-- PON_BOND_CTRL [7:0] RW (R263). -/
def F.PON_BOND_CTRL_MASK : Fld := ⟨.PON_BOND_CTRL, 7, 0⟩
/-- PON_BOND_SKEW [35:35] W1C (R265). -/
def F.PON_BOND_SKEW_EXCL : Fld := ⟨.PON_BOND_SKEW, 35, 35⟩
/-- PON_BOND_SKEW [12:0] RO (R265). -/
def F.PON_BOND_SKEW_MAXSKEW : Fld := ⟨.PON_BOND_SKEW, 12, 0⟩
/-- PON_PM_CTRL [35:35] RW (R269). -/
def F.PON_PM_CTRL_EN15 : Fld := ⟨.PON_PM_CTRL, 35, 35⟩
/-- PON_PM_CTRL [34:34] RW (R269). -/
def F.PON_PM_CTRL_EN24 : Fld := ⟨.PON_PM_CTRL, 34, 34⟩
/-- PON_PM_CTRL [16:0] RW (R269). -/
def F.PON_PM_CTRL_OFFSET : Fld := ⟨.PON_PM_CTRL, 16, 0⟩
/-- PON_PM_SEL [16:8] RW (R270). -/
def F.PON_PM_SEL_TERM : Fld := ⟨.PON_PM_SEL, 16, 8⟩
/-- PON_PM_SEL [7:7] RW (R270). -/
def F.PON_PM_SEL_KIND : Fld := ⟨.PON_PM_SEL, 7, 7⟩
/-- PON_PM_SEL [6:0] RW (R270). -/
def F.PON_PM_SEL_AGE : Fld := ⟨.PON_PM_SEL, 6, 0⟩
/-- PON_PM_DATA0 [35:35] RO (R270). -/
def F.PON_PM_DATA0_VALID : Fld := ⟨.PON_PM_DATA0, 35, 35⟩
/-- PON_PM_DATA0 [34:34] RO (R270). -/
def F.PON_PM_DATA0_SUSPECT : Fld := ⟨.PON_PM_DATA0, 34, 34⟩
/-- PON_PM_DATA0 [33:17] RO (R270). -/
def F.PON_PM_DATA0_SES : Fld := ⟨.PON_PM_DATA0, 33, 17⟩
/-- PON_PM_DATA0 [16:0] RO (R270). -/
def F.PON_PM_DATA0_ES : Fld := ⟨.PON_PM_DATA0, 16, 0⟩
/-- PON_PM_DATA1 [35:35] RO (R270). -/
def F.PON_PM_DATA1_COMPLETE : Fld := ⟨.PON_PM_DATA1, 35, 35⟩
/-- PON_PM_DATA1 [16:0] RO (R270). -/
def F.PON_PM_DATA1_UAS : Fld := ⟨.PON_PM_DATA1, 16, 0⟩
/-- PON_EVT_CNT [35:27] RC (R241). -/
def F.PON_EVT_CNT_MISSING : Fld := ⟨.PON_EVT_CNT, 35, 27⟩
/-- PON_EVT_CNT [26:18] RC (R241). -/
def F.PON_EVT_CNT_SKIPPED : Fld := ⟨.PON_EVT_CNT, 26, 18⟩
/-- PON_EVT_CNT [17:9] RC (R241). -/
def F.PON_EVT_CNT_STRAYS : Fld := ⟨.PON_EVT_CNT, 17, 9⟩
/-- PON_EVT_CNT [8:0] RC (R241). -/
def F.PON_EVT_CNT_BADPROF : Fld := ⟨.PON_EVT_CNT, 8, 0⟩
/-- PON_RNG_CTRL [27:20] RW (R277). -/
def F.PON_RNG_CTRL_LOSIN : Fld := ⟨.PON_RNG_CTRL, 27, 20⟩
/-- PON_RNG_CTRL [18:0] RW (R277). -/
def F.PON_RNG_CTRL_PRE : Fld := ⟨.PON_RNG_CTRL, 18, 0⟩
/-- PON_RNG_LIMIT [24:0] RO (R282). -/
def F.PON_RNG_LIMIT_EQDLIM : Fld := ⟨.PON_RNG_LIMIT, 24, 0⟩
/-- PON_DRIFT_CTRL [35:35] RW (R284). -/
def F.PON_DRIFT_CTRL_EN : Fld := ⟨.PON_DRIFT_CTRL, 35, 35⟩
/-- PON_DRIFT_CTRL [34:34] RW (R284). -/
def F.PON_DRIFT_CTRL_AUTO : Fld := ⟨.PON_DRIFT_CTRL, 34, 34⟩
/-- PON_DRIFT_CTRL [23:16] RW (R284). -/
def F.PON_DRIFT_CTRL_HOLDOFF : Fld := ⟨.PON_DRIFT_CTRL, 23, 16⟩
/-- PON_DRIFT_CTRL [10:0] RW (R284). -/
def F.PON_DRIFT_CTRL_THRESH : Fld := ⟨.PON_DRIFT_CTRL, 10, 0⟩
/-- PON_ROGUE_CTRL [35:35] RW (R288). -/
def F.PON_ROGUE_CTRL_EN : Fld := ⟨.PON_ROGUE_CTRL, 35, 35⟩
/-- PON_ROGUE_CTRL [23:16] RW (R288). -/
def F.PON_ROGUE_CTRL_WINDOW : Fld := ⟨.PON_ROGUE_CTRL, 23, 16⟩
/-- PON_ROGUE_CTRL [15:8] RW (R288). -/
def F.PON_ROGUE_CTRL_THRESH : Fld := ⟨.PON_ROGUE_CTRL, 15, 8⟩
/-- PON_ROGUE_STATUS [35:35] W1C (R289). -/
def F.PON_ROGUE_STATUS_ROGUE : Fld := ⟨.PON_ROGUE_STATUS, 35, 35⟩
/-- PON_ROGUE_STATUS [34:34] W1C (R289). -/
def F.PON_ROGUE_STATUS_CONT : Fld := ⟨.PON_ROGUE_STATUS, 34, 34⟩
/-- PON_ROGUE_STATUS [33:33] W1C (R289). -/
def F.PON_ROGUE_STATUS_SUSPV : Fld := ⟨.PON_ROGUE_STATUS, 33, 33⟩
/-- PON_ROGUE_STATUS [31:24] RO (R289). -/
def F.PON_ROGUE_STATUS_SUSPECT : Fld := ⟨.PON_ROGUE_STATUS, 31, 24⟩
/-- PON_ROGUE_STATUS [23:0] RO (R289). -/
def F.PON_ROGUE_STATUS_ONSET : Fld := ⟨.PON_ROGUE_STATUS, 23, 0⟩
/-- PON_PROT_CTRL [35:35] RW (R292). -/
def F.PON_PROT_CTRL_EN : Fld := ⟨.PON_PROT_CTRL, 35, 35⟩
/-- PON_PROT_CTRL [34:34] RW (R292). -/
def F.PON_PROT_CTRL_AUTO : Fld := ⟨.PON_PROT_CTRL, 34, 34⟩
/-- PON_PROT_CTRL [33:33] W1S (R292). -/
def F.PON_PROT_CTRL_SWITCH : Fld := ⟨.PON_PROT_CTRL, 33, 33⟩
/-- PON_PROT_CTRL [32:32] W1S (R292). -/
def F.PON_PROT_CTRL_DONE : Fld := ⟨.PON_PROT_CTRL, 32, 32⟩
/-- PON_PROT_CTRL [30:28] RW (R292). -/
def F.PON_PROT_CTRL_SLOT : Fld := ⟨.PON_PROT_CTRL, 30, 28⟩
/-- PON_PROT_CTRL [23:16] RW (R292). -/
def F.PON_PROT_CTRL_RWAIT : Fld := ⟨.PON_PROT_CTRL, 23, 16⟩
/-- PON_PROT_CTRL [5:0] RW (R292). -/
def F.PON_PROT_CTRL_PEER : Fld := ⟨.PON_PROT_CTRL, 5, 0⟩
/-- PON_PROT_STATUS [35:32] RO (R294). -/
def F.PON_PROT_STATUS_STATE : Fld := ⟨.PON_PROT_STATUS, 35, 32⟩
/-- PON_PROT_STATUS [31:24] RO (R294). -/
def F.PON_PROT_STATUS_STATUS : Fld := ⟨.PON_PROT_STATUS, 31, 24⟩
/-- PON_PROT_STATUS [23:18] RO (R294). -/
def F.PON_PROT_STATUS_PORT : Fld := ⟨.PON_PROT_STATUS, 23, 18⟩
/-- PON_PROT_STATUS [17:9] RO (R294). -/
def F.PON_PROT_STATUS_NOK : Fld := ⟨.PON_PROT_STATUS, 17, 9⟩
/-- PON_PROT_STATUS [8:0] RO (R294). -/
def F.PON_PROT_STATUS_TIME : Fld := ⟨.PON_PROT_STATUS, 8, 0⟩
/-- PON_PROT_DELTA [25:0] RW (R292). -/
def F.PON_PROT_DELTA_DELTA : Fld := ⟨.PON_PROT_DELTA, 25, 0⟩
/-- PON_PROT_MEAS [25:0] RO (R294). -/
def F.PON_PROT_MEAS_MEAN : Fld := ⟨.PON_PROT_MEAS, 25, 0⟩
/-- PON_ACT_CNT [35:27] RC (R294). -/
def F.PON_ACT_CNT_DISCRESP : Fld := ⟨.PON_ACT_CNT, 35, 27⟩
/-- PON_ACT_CNT [26:18] RC (R294). -/
def F.PON_ACT_CNT_DISCCOLL : Fld := ⟨.PON_ACT_CNT, 26, 18⟩
/-- PON_ACT_CNT [17:9] RC (R294). -/
def F.PON_ACT_CNT_MICFAIL : Fld := ⟨.PON_ACT_CNT, 17, 9⟩
/-- PON_ACT_CNT [8:0] RC (R294). -/
def F.PON_ACT_CNT_PLQDROP : Fld := ⟨.PON_ACT_CNT, 8, 0⟩
/-- PON_TERM_STATE [35:32] RO (R273). -/
def F.PON_TERM_STATE_STATE : Fld := ⟨.PON_TERM_STATE, 35, 32⟩
/-- PON_TERM_STATE [31:31] RO (R273). -/
def F.PON_TERM_STATE_RANGED : Fld := ⟨.PON_TERM_STATE, 31, 31⟩
/-- PON_TERM_STATE [30:30] RO (R273). -/
def F.PON_TERM_STATE_LOSI : Fld := ⟨.PON_TERM_STATE, 30, 30⟩
/-- PON_TERM_STATE [29:29] W1C (R273). -/
def F.PON_TERM_STATE_DRIFT : Fld := ⟨.PON_TERM_STATE, 29, 29⟩
/-- PON_TERM_STATE [28:28] W1C (R273). -/
def F.PON_TERM_STATE_REACH : Fld := ⟨.PON_TERM_STATE, 28, 28⟩
/-- PON_TERM_STATE [27:27] W1C (R273). -/
def F.PON_TERM_STATE_MICF : Fld := ⟨.PON_TERM_STATE, 27, 27⟩
/-- PON_TERM_STATE [25:24] RO (R273). -/
def F.PON_TERM_STATE_PROF : Fld := ⟨.PON_TERM_STATE, 25, 24⟩
/-- PON_TERM_STATE [14:0] RO (R273). -/
def F.PON_TERM_STATE_PIKSLOT : Fld := ⟨.PON_TERM_STATE, 14, 0⟩
/-- PON_TERM_VID [31:0] RO (R273). -/
def F.PON_TERM_VID_VID : Fld := ⟨.PON_TERM_VID, 31, 0⟩
/-- PON_TERM_VSSN [31:0] RO (R273). -/
def F.PON_TERM_VSSN_VSSN : Fld := ⟨.PON_TERM_VSSN, 31, 0⟩
/-- PON_TERM_EQD [35:25] RO (R273). -/
def F.PON_TERM_EQD_AVG : Fld := ⟨.PON_TERM_EQD, 35, 25⟩
/-- PON_TERM_EQD [24:0] RO (R273). -/
def F.PON_TERM_EQD_EQD : Fld := ⟨.PON_TERM_EQD, 24, 0⟩
/-- CLS_START [26:18] RW (R327). -/
def F.CLS_START_UPL : Fld := ⟨.CLS_START, 26, 18⟩
/-- CLS_START [17:9] RW (R327). -/
def F.CLS_START_TREE : Fld := ⟨.CLS_START, 17, 9⟩
/-- CLS_START [8:0] RW (R327). -/
def F.CLS_START_BOND : Fld := ⟨.CLS_START, 8, 0⟩
/-- CLS_MISS_ACT [35:34] RW (R341). -/
def F.CLS_MISS_ACT_COLOUR : Fld := ⟨.CLS_MISS_ACT, 35, 34⟩
/-- CLS_MISS_ACT [33:31] RW (R341). -/
def F.CLS_MISS_ACT_CLASS : Fld := ⟨.CLS_MISS_ACT, 33, 31⟩
/-- CLS_MISS_ACT [30:28] RW (R341). -/
def F.CLS_MISS_ACT_DISP : Fld := ⟨.CLS_MISS_ACT, 30, 28⟩
/-- CLS_MISS_ACT [27:25] RW (R341). -/
def F.CLS_MISS_ACT_EXQ : Fld := ⟨.CLS_MISS_ACT, 27, 25⟩
/-- CLS_MISS_ACT [24:23] RW (R341). -/
def F.CLS_MISS_ACT_LKUP : Fld := ⟨.CLS_MISS_ACT, 24, 23⟩
/-- CLS_MISS_ACT [22:22] RW (R341). -/
def F.CLS_MISS_ACT_QREL : Fld := ⟨.CLS_MISS_ACT, 22, 22⟩
/-- CLS_MISS_ACT [17:0] RW (R341). -/
def F.CLS_MISS_ACT_QUEUE : Fld := ⟨.CLS_MISS_ACT, 17, 0⟩
/-- CLS_MARK_ACT [17:12] RW (R341). -/
def F.CLS_MARK_ACT_LENCONF : Fld := ⟨.CLS_MARK_ACT, 17, 12⟩
/-- CLS_MARK_ACT [11:6] RW (R341). -/
def F.CLS_MARK_ACT_PERR : Fld := ⟨.CLS_MARK_ACT, 11, 6⟩
/-- CLS_MARK_ACT [5:0] RW (R341). -/
def F.CLS_MARK_ACT_DEPTH : Fld := ⟨.CLS_MARK_ACT, 5, 0⟩
/-- CLS_BANK_STATUS [35:35] RO (R343). -/
def F.CLS_BANK_STATUS_SWAP : Fld := ⟨.CLS_BANK_STATUS, 35, 35⟩
/-- CLS_BANK_STATUS [32:32] RO (R343). -/
def F.CLS_BANK_STATUS_ACTIVE : Fld := ⟨.CLS_BANK_STATUS, 32, 32⟩
/-- CLS_BANK_STATUS [19:0] RO (R343). -/
def F.CLS_BANK_STATUS_OLDCNT : Fld := ⟨.CLS_BANK_STATUS, 19, 0⟩
/-- CLS_EVT_STATUS [35:28] W1C (R324). -/
def F.CLS_EVT_STATUS_ERR : Fld := ⟨.CLS_EVT_STATUS, 35, 28⟩
/-- CLS_EVT_STATUS [3:3] W1C (R324). -/
def F.CLS_EVT_STATUS_RCDROP : Fld := ⟨.CLS_EVT_STATUS, 3, 3⟩
/-- CLS_EVT_STATUS [2:2] W1C (R324). -/
def F.CLS_EVT_STATUS_DEPTH : Fld := ⟨.CLS_EVT_STATUS, 2, 2⟩
/-- CLS_EVT_STATUS [1:1] W1C (R324). -/
def F.CLS_EVT_STATUS_PERR : Fld := ⟨.CLS_EVT_STATUS, 1, 1⟩
/-- CLS_EVT_STATUS [0:0] W1C (R324). -/
def F.CLS_EVT_STATUS_LENCONF : Fld := ⟨.CLS_EVT_STATUS, 0, 0⟩
/-- CLS_EXQ_BASE_LO [31:12] RW (R344). -/
def F.CLS_EXQ_BASE_LO_ADDR : Fld := ⟨.CLS_EXQ_BASE_LO, 31, 12⟩
/-- CLS_EXQ_BASE_HI [31:0] RW (R344). -/
def F.CLS_EXQ_BASE_HI_ADDR : Fld := ⟨.CLS_EXQ_BASE_HI, 31, 0⟩
/-- CLS_EXQ_CTRL [35:35] RW (R344). -/
def F.CLS_EXQ_CTRL_EN : Fld := ⟨.CLS_EXQ_CTRL, 35, 35⟩
/-- CLS_EXQ_CTRL [33:32] RW (R344). -/
def F.CLS_EXQ_CTRL_SLOTSZ : Fld := ⟨.CLS_EXQ_CTRL, 33, 32⟩
/-- CLS_EXQ_CTRL [31:28] RW (R344). -/
def F.CLS_EXQ_CTRL_SIZE : Fld := ⟨.CLS_EXQ_CTRL, 31, 28⟩
/-- CLS_EXQ_TAIL [15:0] RO (R345). -/
def F.CLS_EXQ_TAIL_TAIL : Fld := ⟨.CLS_EXQ_TAIL, 15, 0⟩
/-- CLS_EXQ_HEAD [15:0] RW (R345). -/
def F.CLS_EXQ_HEAD_HEAD : Fld := ⟨.CLS_EXQ_HEAD, 15, 0⟩
/-- CLS_EXQ_RATE [35:16] RW (R347). -/
def F.CLS_EXQ_RATE_RATE : Fld := ⟨.CLS_EXQ_RATE, 35, 16⟩
/-- CLS_EXQ_RATE [15:0] RW (R347). -/
def F.CLS_EXQ_RATE_BURST : Fld := ⟨.CLS_EXQ_RATE, 15, 0⟩
/-- CLS_EXQ_STATUS [35:28] W1C (R347). -/
def F.CLS_EXQ_STATUS_ERR : Fld := ⟨.CLS_EXQ_STATUS, 35, 28⟩
/-- CLS_EXQ_STATUS [2:2] W1C (R347). -/
def F.CLS_EXQ_STATUS_FULL : Fld := ⟨.CLS_EXQ_STATUS, 2, 2⟩
/-- CLS_EXQ_STATUS [1:1] W1C (R347). -/
def F.CLS_EXQ_STATUS_NEW : Fld := ⟨.CLS_EXQ_STATUS, 1, 1⟩
/-- CLS_EXQ_STATUS [0:0] RO (R347). -/
def F.CLS_EXQ_STATUS_ENABLED : Fld := ⟨.CLS_EXQ_STATUS, 0, 0⟩
/-- CLS_EXQ_CNT [35:18] RC (R347). -/
def F.CLS_EXQ_CNT_FULLDROP : Fld := ⟨.CLS_EXQ_CNT, 35, 18⟩
/-- CLS_EXQ_CNT [17:0] RC (R347). -/
def F.CLS_EXQ_CNT_RATEDROP : Fld := ⟨.CLS_EXQ_CNT, 17, 0⟩
/-- FWD_STATUS [35:28] W1C (R373). -/
def F.FWD_STATUS_ERR : Fld := ⟨.FWD_STATUS, 35, 28⟩
/-- FWD_STATUS [5:5] RO (R373). -/
def F.FWD_STATUS_STASHFULL : Fld := ⟨.FWD_STATUS, 5, 5⟩
/-- FWD_STATUS [4:4] RO (R373). -/
def F.FWD_STATUS_FLUSH : Fld := ⟨.FWD_STATUS, 4, 4⟩
/-- FWD_STATUS [3:3] W1C (R373). -/
def F.FWD_STATUS_PERR : Fld := ⟨.FWD_STATUS, 3, 3⟩
/-- FWD_STATUS [2:2] W1C (R373). -/
def F.FWD_STATUS_FLAP : Fld := ⟨.FWD_STATUS, 2, 2⟩
/-- FWD_STATUS [1:1] W1C (R373). -/
def F.FWD_STATUS_MOVE : Fld := ⟨.FWD_STATUS, 1, 1⟩
/-- FWD_STATUS [0:0] W1C (R373). -/
def F.FWD_STATUS_LRNFULL : Fld := ⟨.FWD_STATUS, 0, 0⟩
/-- FWD_EM_KEY [35:33] RW (R352). -/
def F.FWD_EM_KEY_DSLOT : Fld := ⟨.FWD_EM_KEY, 35, 33⟩
/-- FWD_EM_KEY [32:32] RW (R352). -/
def F.FWD_EM_KEY_DHALF : Fld := ⟨.FWD_EM_KEY, 32, 32⟩
/-- FWD_EM_KEY [31:16] RW (R352). -/
def F.FWD_EM_KEY_DMASK : Fld := ⟨.FWD_EM_KEY, 31, 16⟩
/-- FWD_EM_KEY [15:13] RW (R352). -/
def F.FWD_EM_KEY_DAHI : Fld := ⟨.FWD_EM_KEY, 15, 13⟩
/-- FWD_EM_KEY [12:10] RW (R352). -/
def F.FWD_EM_KEY_DALO : Fld := ⟨.FWD_EM_KEY, 12, 10⟩
/-- FWD_EM_KEY [9:7] RW (R352). -/
def F.FWD_EM_KEY_SAHI : Fld := ⟨.FWD_EM_KEY, 9, 7⟩
/-- FWD_EM_KEY [6:4] RW (R352). -/
def F.FWD_EM_KEY_SALO : Fld := ⟨.FWD_EM_KEY, 6, 4⟩
/-- FWD_EM_MISS [35:34] RW (R360). -/
def F.FWD_EM_MISS_ACT : Fld := ⟨.FWD_EM_MISS, 35, 34⟩
/-- FWD_EM_MISS [33:31] RW (R360). -/
def F.FWD_EM_MISS_EXQ : Fld := ⟨.FWD_EM_MISS, 33, 31⟩
/-- FWD_EM_MISS [17:0] RW (R360). -/
def F.FWD_EM_MISS_QBASE : Fld := ⟨.FWD_EM_MISS, 17, 0⟩
/-- FWD_LPM_KEY [35:33] RW (R364). -/
def F.FWD_LPM_KEY_VSLOT : Fld := ⟨.FWD_LPM_KEY, 35, 33⟩
/-- FWD_LPM_KEY [32:32] RW (R364). -/
def F.FWD_LPM_KEY_VHALF : Fld := ⟨.FWD_LPM_KEY, 32, 32⟩
/-- FWD_LPM_KEY [31:16] RW (R364). -/
def F.FWD_LPM_KEY_VMASK : Fld := ⟨.FWD_LPM_KEY, 31, 16⟩
/-- FWD_LPM_KEY [15:13] RW (R364). -/
def F.FWD_LPM_KEY_A4SLOT : Fld := ⟨.FWD_LPM_KEY, 15, 13⟩
/-- FWD_LPM_KEY [12:10] RW (R364). -/
def F.FWD_LPM_KEY_A6SLOT : Fld := ⟨.FWD_LPM_KEY, 12, 10⟩
/-- FWD_LPM_MISS [35:34] RW (R365). -/
def F.FWD_LPM_MISS_ACT : Fld := ⟨.FWD_LPM_MISS, 35, 34⟩
/-- FWD_LPM_MISS [33:31] RW (R365). -/
def F.FWD_LPM_MISS_EXQ : Fld := ⟨.FWD_LPM_MISS, 33, 31⟩
/-- FWD_LPM_MISS [17:0] RW (R365). -/
def F.FWD_LPM_MISS_QBASE : Fld := ⟨.FWD_LPM_MISS, 17, 0⟩
/-- FWD_HASH_SEED0 [31:0] RW (R355). -/
def F.FWD_HASH_SEED0_SEED : Fld := ⟨.FWD_HASH_SEED0, 31, 0⟩
/-- FWD_HASH_SEED1 [31:0] RW (R355). -/
def F.FWD_HASH_SEED1_SEED : Fld := ⟨.FWD_HASH_SEED1, 31, 0⟩
/-- FWD_LRN_CTRL [35:35] RW (R366). -/
def F.FWD_LRN_CTRL_EN : Fld := ⟨.FWD_LRN_CTRL, 35, 35⟩
/-- FWD_LRN_CTRL [34:33] RW (R366). -/
def F.FWD_LRN_CTRL_SCACT : Fld := ⟨.FWD_LRN_CTRL, 34, 33⟩
/-- FWD_LRN_CTRL [32:30] RW (R366). -/
def F.FWD_LRN_CTRL_SCEXQ : Fld := ⟨.FWD_LRN_CTRL, 32, 30⟩
/-- FWD_LRN_CTRL [29:28] RW (R366). -/
def F.FWD_LRN_CTRL_PCACT : Fld := ⟨.FWD_LRN_CTRL, 29, 28⟩
/-- FWD_LRN_CTRL [27:25] RW (R366). -/
def F.FWD_LRN_CTRL_PCEXQ : Fld := ⟨.FWD_LRN_CTRL, 27, 25⟩
/-- FWD_LRN_CTRL [24:21] RW (R366). -/
def F.FWD_LRN_CTRL_FLAPN : Fld := ⟨.FWD_LRN_CTRL, 24, 21⟩
/-- FWD_LRN_CTRL [20:11] RW (R366). -/
def F.FWD_LRN_CTRL_HOLD : Fld := ⟨.FWD_LRN_CTRL, 20, 11⟩
/-- FWD_LRN_GEN [15:0] RW (R366). -/
def F.FWD_LRN_GEN_LGEN : Fld := ⟨.FWD_LRN_GEN, 15, 0⟩
/-- FWD_AGE_CTRL [35:35] RW (R370). -/
def F.FWD_AGE_CTRL_EN : Fld := ⟨.FWD_AGE_CTRL, 35, 35⟩
/-- FWD_AGE_CTRL [31:16] RW (R370). -/
def F.FWD_AGE_CTRL_TICK : Fld := ⟨.FWD_AGE_CTRL, 31, 16⟩
/-- FWD_AGE_CTRL [14:0] RW (R370). -/
def F.FWD_AGE_CTRL_LIMIT : Fld := ⟨.FWD_AGE_CTRL, 14, 0⟩
/-- FWD_AGE_STATUS [31:16] RO (R370). -/
def F.FWD_AGE_STATUS_SWEEPS : Fld := ⟨.FWD_AGE_STATUS, 31, 16⟩
/-- FWD_AGE_STATUS [15:0] RO (R370). -/
def F.FWD_AGE_STATUS_NOW : Fld := ⟨.FWD_AGE_STATUS, 15, 0⟩
/-- FWD_FLUSH [35:35] W1S (R371). -/
def F.FWD_FLUSH_GO : Fld := ⟨.FWD_FLUSH, 35, 35⟩
/-- FWD_FLUSH [34:34] RO (R371). -/
def F.FWD_FLUSH_BUSY : Fld := ⟨.FWD_FLUSH, 34, 34⟩
/-- FWD_FLUSH [33:33] RW (R371). -/
def F.FWD_FLUSH_INCLSTATIC : Fld := ⟨.FWD_FLUSH, 33, 33⟩
/-- FWD_FLUSH [32:32] RW (R371). -/
def F.FWD_FLUSH_BYPORT : Fld := ⟨.FWD_FLUSH, 32, 32⟩
/-- FWD_FLUSH [31:31] RW (R371). -/
def F.FWD_FLUSH_BYGEN : Fld := ⟨.FWD_FLUSH, 31, 31⟩
/-- FWD_FLUSH [27:20] RW (R371). -/
def F.FWD_FLUSH_PORT : Fld := ⟨.FWD_FLUSH, 27, 20⟩
/-- FWD_FLUSH [15:0] RW (R371). -/
def F.FWD_FLUSH_GEN : Fld := ⟨.FWD_FLUSH, 15, 0⟩
/-- FWD_PERR [35:35] W1C (R362). -/
def F.FWD_PERR_VALID : Fld := ⟨.FWD_PERR, 35, 35⟩
/-- FWD_PERR [34:33] RO (R362). -/
def F.FWD_PERR_TABLE : Fld := ⟨.FWD_PERR, 34, 33⟩
/-- FWD_PERR [20:0] RO (R362). -/
def F.FWD_PERR_INDEX : Fld := ⟨.FWD_PERR, 20, 0⟩
/-- FWD_MOVE_LAST [35:35] RO (R369). -/
def F.FWD_MOVE_LAST_VALID : Fld := ⟨.FWD_MOVE_LAST, 35, 35⟩
/-- FWD_MOVE_LAST [34:34] RO (R369). -/
def F.FWD_MOVE_LAST_FLAP : Fld := ⟨.FWD_MOVE_LAST, 34, 34⟩
/-- FWD_MOVE_LAST [33:33] RO (R369). -/
def F.FWD_MOVE_LAST_STASH : Fld := ⟨.FWD_MOVE_LAST, 33, 33⟩
/-- FWD_MOVE_LAST [20:0] RO (R369). -/
def F.FWD_MOVE_LAST_INDEX : Fld := ⟨.FWD_MOVE_LAST, 20, 0⟩
/-- FWD_EVT_CNT0 [35:18] RC (R373). -/
def F.FWD_EVT_CNT0_MOVES : Fld := ⟨.FWD_EVT_CNT0, 35, 18⟩
/-- FWD_EVT_CNT0 [17:0] RC (R373). -/
def F.FWD_EVT_CNT0_LEARNS : Fld := ⟨.FWD_EVT_CNT0, 17, 0⟩
/-- FWD_EVT_CNT1 [35:18] RC (R373). -/
def F.FWD_EVT_CNT1_AGED : Fld := ⟨.FWD_EVT_CNT1, 35, 18⟩
/-- FWD_EVT_CNT1 [17:0] RC (R373). -/
def F.FWD_EVT_CNT1_LRNDROP : Fld := ⟨.FWD_EVT_CNT1, 17, 0⟩
/-- FWD_EVT_CNT2 [35:27] RC (R373). -/
def F.FWD_EVT_CNT2_SCONF : Fld := ⟨.FWD_EVT_CNT2, 35, 27⟩
/-- FWD_EVT_CNT2 [26:18] RC (R373). -/
def F.FWD_EVT_CNT2_PCONF : Fld := ⟨.FWD_EVT_CNT2, 26, 18⟩
/-- FWD_EVT_CNT2 [17:9] RC (R373). -/
def F.FWD_EVT_CNT2_FLAPS : Fld := ⟨.FWD_EVT_CNT2, 17, 9⟩
/-- FWD_EVT_CNT2 [8:0] RC (R373). -/
def F.FWD_EVT_CNT2_PERR : Fld := ⟨.FWD_EVT_CNT2, 8, 0⟩
/-- FWD_OCC0 [35:29] RO (R373). -/
def F.FWD_OCC0_STASH : Fld := ⟨.FWD_OCC0, 35, 29⟩
/-- FWD_OCC0 [21:0] RO (R373). -/
def F.FWD_OCC0_COUNT : Fld := ⟨.FWD_OCC0, 21, 0⟩
/-- FWD_OCC1 [20:0] RO (R373). -/
def F.FWD_OCC1_COUNT : Fld := ⟨.FWD_OCC1, 20, 0⟩
/-- FWD_OCC2 [18:0] RO (R373). -/
def F.FWD_OCC2_COUNT : Fld := ⟨.FWD_OCC2, 18, 0⟩
/-- FWD_GEN_MARK [35:35] RO (R372). -/
def F.FWD_GEN_MARK_VALID : Fld := ⟨.FWD_GEN_MARK, 35, 35⟩
/-- FWD_GEN_MARK [15:0] RO (R372). -/
def F.FWD_GEN_MARK_GEN : Fld := ⟨.FWD_GEN_MARK, 15, 0⟩
/-- FWD_LRN_PORT [35:35] RW (R366). -/
def F.FWD_LRN_PORT_LEARN : Fld := ⟨.FWD_LRN_PORT, 35, 35⟩
/-- FWD_LRN_PORT [34:34] RW (R366). -/
def F.FWD_LRN_PORT_MOVE : Fld := ⟨.FWD_LRN_PORT, 34, 34⟩
/-- FWD_LRN_PORT [33:33] RW (R366). -/
def F.FWD_LRN_PORT_PRIV : Fld := ⟨.FWD_LRN_PORT, 33, 33⟩
/-- FWD_LRN_PORT [32:32] RW (R366). -/
def F.FWD_LRN_PORT_DNFLUSH : Fld := ⟨.FWD_LRN_PORT, 32, 32⟩
/-- FWD_LRN_PORT [23:21] RW (R366). -/
def F.FWD_LRN_PORT_QSHIFT : Fld := ⟨.FWD_LRN_PORT, 23, 21⟩
/-- FWD_LRN_PORT [17:0] RW (R366). -/
def F.FWD_LRN_PORT_QBASE : Fld := ⟨.FWD_LRN_PORT, 17, 0⟩
/-- BUF_STATUS [35:28] W1C (R375). -/
def F.BUF_STATUS_ERR : Fld := ⟨.BUF_STATUS, 35, 28⟩
/-- BUF_STATUS [4:4] W1C (R375). -/
def F.BUF_STATUS_LEAK : Fld := ⟨.BUF_STATUS, 4, 4⟩
/-- BUF_STATUS [3:3] W1C (R375). -/
def F.BUF_STATUS_DALLOC : Fld := ⟨.BUF_STATUS, 3, 3⟩
/-- BUF_STATUS [2:2] W1C (R375). -/
def F.BUF_STATUS_DFREE : Fld := ⟨.BUF_STATUS, 2, 2⟩
/-- BUF_STATUS [1:1] RO (R375). -/
def F.BUF_STATUS_AUDIT : Fld := ⟨.BUF_STATUS, 1, 1⟩
/-- BUF_STATUS [0:0] RO (R375). -/
def F.BUF_STATUS_FLUSH : Fld := ⟨.BUF_STATUS, 0, 0⟩
/-- BUF_SEL_CTRL [1:0] RW (R377). -/
def F.BUF_SEL_CTRL_P3MODE : Fld := ⟨.BUF_SEL_CTRL, 1, 0⟩
/-- BUF_EVT_CNT [35:27] RC (R394). -/
def F.BUF_EVT_CNT_DFREE : Fld := ⟨.BUF_EVT_CNT, 35, 27⟩
/-- BUF_EVT_CNT [26:18] RC (R394). -/
def F.BUF_EVT_CNT_DALLOC : Fld := ⟨.BUF_EVT_CNT, 26, 18⟩
/-- BUF_EVT_CNT [17:9] RC (R394). -/
def F.BUF_EVT_CNT_LEAKED : Fld := ⟨.BUF_EVT_CNT, 17, 9⟩
/-- BUF_EVT_CNT [8:0] RC (R394). -/
def F.BUF_EVT_CNT_LOST : Fld := ⟨.BUF_EVT_CNT, 8, 0⟩
/-- BUF_DFREE [35:35] W1C (R386). -/
def F.BUF_DFREE_VALID : Fld := ⟨.BUF_DFREE, 35, 35⟩
/-- BUF_DFREE [34:34] RO (R386). -/
def F.BUF_DFREE_KIND : Fld := ⟨.BUF_DFREE, 34, 34⟩
/-- BUF_DFREE [33:31] RO (R386). -/
def F.BUF_DFREE_POOL : Fld := ⟨.BUF_DFREE, 33, 31⟩
/-- BUF_DFREE [30:27] RO (R386). -/
def F.BUF_DFREE_SOURCE : Fld := ⟨.BUF_DFREE, 30, 27⟩
/-- BUF_DFREE [21:0] RO (R386). -/
def F.BUF_DFREE_INDEX : Fld := ⟨.BUF_DFREE, 21, 0⟩
/-- BUF_AUDIT_CTRL [35:35] W1S (R394). -/
def F.BUF_AUDIT_CTRL_GO : Fld := ⟨.BUF_AUDIT_CTRL, 35, 35⟩
/-- BUF_AUDIT_CTRL [34:34] RW (R394). -/
def F.BUF_AUDIT_CTRL_RECLAIM : Fld := ⟨.BUF_AUDIT_CTRL, 34, 34⟩
/-- BUF_AUDIT_CTRL [7:0] RW (R394). -/
def F.BUF_AUDIT_CTRL_PERIOD : Fld := ⟨.BUF_AUDIT_CTRL, 7, 0⟩
/-- BUF_AUDIT_STATUS [35:35] RO (R394). -/
def F.BUF_AUDIT_STATUS_BUSY : Fld := ⟨.BUF_AUDIT_STATUS, 35, 35⟩
/-- BUF_AUDIT_STATUS [34:32] RO (R394). -/
def F.BUF_AUDIT_STATUS_POOL : Fld := ⟨.BUF_AUDIT_STATUS, 34, 32⟩
/-- BUF_AUDIT_STATUS [31:16] RO (R394). -/
def F.BUF_AUDIT_STATUS_PASSES : Fld := ⟨.BUF_AUDIT_STATUS, 31, 16⟩
/-- BUF_LEAK [35:35] W1C (R394). -/
def F.BUF_LEAK_VALID : Fld := ⟨.BUF_LEAK, 35, 35⟩
/-- BUF_LEAK [34:34] RO (R394). -/
def F.BUF_LEAK_KIND : Fld := ⟨.BUF_LEAK, 34, 34⟩
/-- BUF_LEAK [33:31] RO (R394). -/
def F.BUF_LEAK_POOL : Fld := ⟨.BUF_LEAK, 33, 31⟩
/-- BUF_LEAK [21:0] RO (R394). -/
def F.BUF_LEAK_INDEX : Fld := ⟨.BUF_LEAK, 21, 0⟩
/-- BUF_FLUSH [35:35] W1S (R392). -/
def F.BUF_FLUSH_GO : Fld := ⟨.BUF_FLUSH, 35, 35⟩
/-- BUF_FLUSH [34:34] RO (R392). -/
def F.BUF_FLUSH_BUSY : Fld := ⟨.BUF_FLUSH, 34, 34⟩
/-- BUF_FLUSH [27:20] RW (R392). -/
def F.BUF_FLUSH_PORT : Fld := ⟨.BUF_FLUSH, 27, 20⟩
/-- BUF_FLUSH [19:0] RO (R392). -/
def F.BUF_FLUSH_COUNT : Fld := ⟨.BUF_FLUSH, 19, 0⟩
/-- SWC_STATUS [15:0] RO (R389). -/
def F.SWC_STATUS_PRESENT : Fld := ⟨.SWC_STATUS, 15, 0⟩
/-- SWC_RESEQ_MAX [27:20] RC (R389). -/
def F.SWC_RESEQ_MAX_PORT : Fld := ⟨.SWC_RESEQ_MAX, 27, 20⟩
/-- SWC_RESEQ_MAX [12:0] RC (R389). -/
def F.SWC_RESEQ_MAX_MAXWIN : Fld := ⟨.SWC_RESEQ_MAX, 12, 0⟩
/-- BUF_THR [35:22] RW (R381). -/
def F.BUF_THR_HYST : Fld := ⟨.BUF_THR, 35, 22⟩
/-- BUF_THR [21:0] RW (R381). -/
def F.BUF_THR_LEVEL : Fld := ⟨.BUF_THR, 21, 0⟩
/-- BUF_ACT [35:35] RW (R382). -/
def F.BUF_ACT_PAUSE : Fld := ⟨.BUF_ACT, 35, 35⟩
/-- BUF_ACT [34:34] RW (R382). -/
def F.BUF_ACT_BOND : Fld := ⟨.BUF_ACT, 34, 34⟩
/-- BUF_ACT [33:33] RW (R382). -/
def F.BUF_ACT_GRANT : Fld := ⟨.BUF_ACT, 33, 33⟩
/-- BUF_ACT [32:32] RW (R382). -/
def F.BUF_ACT_DROPRED : Fld := ⟨.BUF_ACT, 32, 32⟩
/-- BUF_ACT [31:31] RW (R382). -/
def F.BUF_ACT_DROPYEL : Fld := ⟨.BUF_ACT, 31, 31⟩
/-- BUF_ACT [7:0] RW (R382). -/
def F.BUF_ACT_PFC : Fld := ⟨.BUF_ACT, 7, 0⟩
/-- BUF_POOL_STATUS [35:32] RO (R385). -/
def F.BUF_POOL_STATUS_STATE : Fld := ⟨.BUF_POOL_STATUS, 35, 32⟩
/-- BUF_POOL_STATUS [21:0] RO (R385). -/
def F.BUF_POOL_STATUS_INUSE : Fld := ⟨.BUF_POOL_STATUS, 21, 0⟩
/-- BUF_POOL_CTRL [35:35] RW (R379). -/
def F.BUF_POOL_CTRL_SPILL : Fld := ⟨.BUF_POOL_CTRL, 35, 35⟩
/-- BUF_POOL_CNT [35:18] RC (R380). -/
def F.BUF_POOL_CNT_EMPTY : Fld := ⟨.BUF_POOL_CNT, 35, 18⟩
/-- BUF_POOL_CNT [17:0] RC (R380). -/
def F.BUF_POOL_CNT_SPILLS : Fld := ⟨.BUF_POOL_CNT, 17, 0⟩
/-- BUF_PORT_STATE [35:35] RO (R392). -/
def F.BUF_PORT_STATE_UP : Fld := ⟨.BUF_PORT_STATE, 35, 35⟩
/-- BUF_PORT_STATE [34:34] RO (R392). -/
def F.BUF_PORT_STATE_FLUSHING : Fld := ⟨.BUF_PORT_STATE, 34, 34⟩
/-- BUF_PORT_STATE [33:33] RO (R392). -/
def F.BUF_PORT_STATE_PEND : Fld := ⟨.BUF_PORT_STATE, 33, 33⟩
/-- BUF_PORT_STATE [19:0] RC (R392). -/
def F.BUF_PORT_STATE_FLUSHED : Fld := ⟨.BUF_PORT_STATE, 19, 0⟩
/-- SCH_STATUS [35:28] W1C (R395). -/
def F.SCH_STATUS_ERR : Fld := ⟨.SCH_STATUS, 35, 28⟩
/-- SCH_STATUS [1:1] W1C (R395). -/
def F.SCH_STATUS_UNROOT : Fld := ⟨.SCH_STATUS, 1, 1⟩
/-- SCH_STATUS [0:0] W1C (R395). -/
def F.SCH_STATUS_CAPHIT : Fld := ⟨.SCH_STATUS, 0, 0⟩
/-- SCH_CAP_CTRL [8:0] RW (R413). -/
def F.SCH_CAP_CTRL_DSSHARE : Fld := ⟨.SCH_CAP_CTRL, 8, 0⟩
/-- SCH_CAP_STATUS [35:35] RO (R413). -/
def F.SCH_CAP_STATUS_HIT : Fld := ⟨.SCH_CAP_STATUS, 35, 35⟩
/-- SCH_CAP_STATUS [20:0] RO (R413). -/
def F.SCH_CAP_STATUS_DLIM : Fld := ⟨.SCH_CAP_STATUS, 20, 0⟩
/-- SCH_COMMIT_DS [35:0] RO (R413). -/
def F.SCH_COMMIT_DS_KBPS : Fld := ⟨.SCH_COMMIT_DS, 35, 0⟩
/-- SCH_SAMP_PER [35:35] RW (R428). -/
def F.SCH_SAMP_PER_FRAME : Fld := ⟨.SCH_SAMP_PER, 35, 35⟩
/-- SCH_SAMP_PER [29:0] RW (R428). -/
def F.SCH_SAMP_PER_PERIOD : Fld := ⟨.SCH_SAMP_PER, 29, 0⟩
/-- SCH_SAMP_LOAD [19:0] RO (R430). -/
def F.SCH_SAMP_LOAD_LOAD : Fld := ⟨.SCH_SAMP_LOAD, 19, 0⟩
/-- SCH_EVT_CNT [35:18] RC (R395). -/
def F.SCH_EVT_CNT_CAPHIT : Fld := ⟨.SCH_EVT_CNT, 35, 18⟩
/-- SCH_EVT_CNT [17:0] RC (R395). -/
def F.SCH_EVT_CNT_UNROOTED : Fld := ⟨.SCH_EVT_CNT, 17, 0⟩
/-- GATE_CTRL [35:35] RW (R420). -/
def F.GATE_CTRL_EN : Fld := ⟨.GATE_CTRL, 35, 35⟩
/-- GATE_CTRL [34:34] W1S (R420). -/
def F.GATE_CTRL_COMMIT : Fld := ⟨.GATE_CTRL, 34, 34⟩
/-- GATE_CTRL [33:33] W1S (R420). -/
def F.GATE_CTRL_CANCEL : Fld := ⟨.GATE_CTRL, 33, 33⟩
/-- GATE_CTRL [32:32] RW (R420). -/
def F.GATE_CTRL_ALIST : Fld := ⟨.GATE_CTRL, 32, 32⟩
/-- GATE_CTRL [24:16] RW (R420). -/
def F.GATE_CTRL_LEN : Fld := ⟨.GATE_CTRL, 24, 16⟩
/-- GATE_BASE_SEC [35:0] RW (R420). -/
def F.GATE_BASE_SEC_SEC : Fld := ⟨.GATE_BASE_SEC, 35, 0⟩
/-- GATE_BASE_NS [29:0] RW (R420). -/
def F.GATE_BASE_NS_NS : Fld := ⟨.GATE_BASE_NS, 29, 0⟩
/-- GATE_CYCLE [29:0] RW (R420). -/
def F.GATE_CYCLE_CYCLE : Fld := ⟨.GATE_CYCLE, 29, 0⟩
/-- GATE_STATUS [35:34] RO (R427). -/
def F.GATE_STATUS_STATE : Fld := ⟨.GATE_STATUS, 35, 34⟩
/-- GATE_STATUS [33:33] RO (R427). -/
def F.GATE_STATUS_OLIST : Fld := ⟨.GATE_STATUS, 33, 33⟩
/-- GATE_STATUS [32:32] W1C (R427). -/
def F.GATE_STATUS_ADV : Fld := ⟨.GATE_STATUS, 32, 32⟩
/-- GATE_STATUS [31:31] W1C (R427). -/
def F.GATE_STATUS_STEP : Fld := ⟨.GATE_STATUS, 31, 31⟩
/-- GATE_STATUS [24:16] RO (R427). -/
def F.GATE_STATUS_ENTRY : Fld := ⟨.GATE_STATUS, 24, 16⟩
/-- GATE_STATUS [7:0] RO (R427). -/
def F.GATE_STATUS_GATES : Fld := ⟨.GATE_STATUS, 7, 0⟩
/-- GATE_START_SEC [35:0] RO (R427). -/
def F.GATE_START_SEC_SEC : Fld := ⟨.GATE_START_SEC, 35, 0⟩
/-- GATE_START_NS [29:0] RO (R427). -/
def F.GATE_START_NS_NS : Fld := ⟨.GATE_START_NS, 29, 0⟩
/-- GATE_CNT [35:18] RC (R427). -/
def F.GATE_CNT_OVERSIZE : Fld := ⟨.GATE_CNT, 35, 18⟩
/-- GATE_CNT [17:0] RC (R427). -/
def F.GATE_CNT_HELD : Fld := ⟨.GATE_CNT, 17, 0⟩
/-- CIP_STATUS [35:28] W1C (R444). -/
def F.CIP_STATUS_ERR : Fld := ⟨.CIP_STATUS, 35, 28⟩
/-- CIP_STATUS [1:1] W1C (R444). -/
def F.CIP_STATUS_KEYERR : Fld := ⟨.CIP_STATUS, 1, 1⟩
/-- CIP_STATUS [0:0] W1C (R444). -/
def F.CIP_STATUS_MICERR : Fld := ⟨.CIP_STATUS, 0, 0⟩
/-- CIP_NONCE_FIXED [31:0] RO (R443). -/
def F.CIP_NONCE_FIXED_FIXED : Fld := ⟨.CIP_NONCE_FIXED, 31, 0⟩
/-- CIP_NONCE_EPOCH [35:35] RO (R443). -/
def F.CIP_NONCE_EPOCH_SET : Fld := ⟨.CIP_NONCE_EPOCH, 35, 35⟩
/-- CIP_NONCE_EPOCH [31:0] RW (R443). -/
def F.CIP_NONCE_EPOCH_EPOCH : Fld := ⟨.CIP_NONCE_EPOCH, 31, 0⟩
/-- CIP_NONCE_CNT [31:0] RO (R443). -/
def F.CIP_NONCE_CNT_COUNT : Fld := ⟨.CIP_NONCE_CNT, 31, 0⟩
/-- CIP_TREE_CNT [35:18] RC (R444). -/
def F.CIP_TREE_CNT_KEYERR : Fld := ⟨.CIP_TREE_CNT, 35, 18⟩
/-- CIP_TREE_CNT [17:0] RC (R444). -/
def F.CIP_TREE_CNT_OMCIFAIL : Fld := ⟨.CIP_TREE_CNT, 17, 0⟩
/-- CIP_TERM_KEY [35:34] RW (R437). -/
def F.CIP_TERM_KEY_DSKI : Fld := ⟨.CIP_TERM_KEY, 35, 34⟩
/-- CIP_TERM_KEY [33:33] RW (R437). -/
def F.CIP_TERM_KEY_USEN : Fld := ⟨.CIP_TERM_KEY, 33, 33⟩
/-- CIP_TERM_KEY [32:32] RW (R437). -/
def F.CIP_TERM_KEY_OMCIEN : Fld := ⟨.CIP_TERM_KEY, 32, 32⟩
/-- CIP_TERM_KEY [14:0] RW (R437). -/
def F.CIP_TERM_KEY_DSLOT : Fld := ⟨.CIP_TERM_KEY, 14, 0⟩
/-- TIME_CTRL [35:35] W1S (R454). -/
def F.TIME_CTRL_STEP : Fld := ⟨.TIME_CTRL, 35, 35⟩
/-- TIME_CTRL [34:34] RW (R454). -/
def F.TIME_CTRL_AUTO : Fld := ⟨.TIME_CTRL, 34, 34⟩
/-- TIME_CTRL [33:33] RW (R454). -/
def F.TIME_CTRL_REVERT : Fld := ⟨.TIME_CTRL, 33, 33⟩
/-- TIME_CTRL [32:32] RW (R454). -/
def F.TIME_CTRL_ISTEP : Fld := ⟨.TIME_CTRL, 32, 32⟩
/-- TIME_CTRL [31:31] RW (R454). -/
def F.TIME_CTRL_SEL : Fld := ⟨.TIME_CTRL, 31, 31⟩
/-- TIME_CTRL [30:24] RW (R454). -/
def F.TIME_CTRL_WTR : Fld := ⟨.TIME_CTRL, 30, 24⟩
/-- TIME_CTRL [23:12] RW (R454). -/
def F.TIME_CTRL_SLEWMAX : Fld := ⟨.TIME_CTRL, 23, 12⟩
/-- TIME_CTRL [11:4] RW (R454). -/
def F.TIME_CTRL_SLEWRATE : Fld := ⟨.TIME_CTRL, 11, 4⟩
/-- TIME_CTRL [3:0] RW (R454). -/
def F.TIME_CTRL_TAU : Fld := ⟨.TIME_CTRL, 3, 0⟩
/-- TIME_STATUS [35:28] W1C (R454). -/
def F.TIME_STATUS_ERR : Fld := ⟨.TIME_STATUS, 35, 28⟩
/-- TIME_STATUS [3:3] RO (R454). -/
def F.TIME_STATUS_LOCKEDONCE : Fld := ⟨.TIME_STATUS, 3, 3⟩
/-- TIME_STATUS [2:2] RO (R454). -/
def F.TIME_STATUS_FHOLD : Fld := ⟨.TIME_STATUS, 2, 2⟩
/-- TIME_STATUS [1:1] RO (R454). -/
def F.TIME_STATUS_SLEWLIM : Fld := ⟨.TIME_STATUS, 1, 1⟩
/-- TIME_RATE [35:0] RO (R454). -/
def F.TIME_RATE_A : Fld := ⟨.TIME_RATE, 35, 0⟩
/-- TIME_SNAP [35:35] W1S (R456). -/
def F.TIME_SNAP_GO : Fld := ⟨.TIME_SNAP, 35, 35⟩
/-- TIME_SNAP [34:34] RO (R456). -/
def F.TIME_SNAP_BUSY : Fld := ⟨.TIME_SNAP, 34, 34⟩
/-- TIME_SNAP [33:33] RW (R456). -/
def F.TIME_SNAP_AT : Fld := ⟨.TIME_SNAP, 33, 33⟩
/-- TIME_SNAP [31:30] RW (R456). -/
def F.TIME_SNAP_SRC : Fld := ⟨.TIME_SNAP, 31, 30⟩
/-- TIME_SNAP [29:24] RW (R456). -/
def F.TIME_SNAP_TREE : Fld := ⟨.TIME_SNAP, 29, 24⟩
/-- TIME_SNAP_SF [35:0] RW (R456). -/
def F.TIME_SNAP_SF_SFNUM : Fld := ⟨.TIME_SNAP_SF, 35, 0⟩
/-- TIME_SNAP_W0 [11:0] RO (R456). -/
def F.TIME_SNAP_W0_SEC : Fld := ⟨.TIME_SNAP_W0, 11, 0⟩
/-- TIME_SNAP_W1 [35:0] RO (R456). -/
def F.TIME_SNAP_W1_SEC : Fld := ⟨.TIME_SNAP_W1, 35, 0⟩
/-- TIME_SNAP_W2 [31:0] RO (R456). -/
def F.TIME_SNAP_W2_NS : Fld := ⟨.TIME_SNAP_W2, 31, 0⟩
/-- TIME_SNAP_W3 [35:35] RO (R456). -/
def F.TIME_SNAP_W3_VALID : Fld := ⟨.TIME_SNAP_W3, 35, 35⟩
/-- TIME_SNAP_W3 [15:0] RO (R456). -/
def F.TIME_SNAP_W3_FRAC : Fld := ⟨.TIME_SNAP_W3, 15, 0⟩
/-- TIME_FREQ_CTRL [35:34] RW (R457). -/
def F.TIME_FREQ_CTRL_FSRC : Fld := ⟨.TIME_FREQ_CTRL, 35, 34⟩
/-- TIME_FREQ_CTRL [33:32] RW (R457). -/
def F.TIME_FREQ_CTRL_REFF : Fld := ⟨.TIME_FREQ_CTRL, 33, 32⟩
/-- TIME_FREQ_CTRL [31:26] RW (R457). -/
def F.TIME_FREQ_CTRL_RLANE : Fld := ⟨.TIME_FREQ_CTRL, 31, 26⟩
/-- TIME_FREQ_CTRL [25:24] RW (R457). -/
def F.TIME_FREQ_CTRL_BW : Fld := ⟨.TIME_FREQ_CTRL, 25, 24⟩
/-- TIME_FREQ_CTRL [23:23] RW (R457). -/
def F.TIME_FREQ_CTRL_PPSSEL : Fld := ⟨.TIME_FREQ_CTRL, 23, 23⟩
/-- TIME_FREQ_STATUS [35:34] RO (R457). -/
def F.TIME_FREQ_STATUS_STATE : Fld := ⟨.TIME_FREQ_STATUS, 35, 34⟩
/-- TIME_FREQ_STATUS [27:0] RO (R457). -/
def F.TIME_FREQ_STATUS_FOFS : Fld := ⟨.TIME_FREQ_STATUS, 27, 0⟩
/-- TIME_RCLK_CTRL [35:35] RW (R458). -/
def F.TIME_RCLK_CTRL_EN : Fld := ⟨.TIME_RCLK_CTRL, 35, 35⟩
/-- TIME_RCLK_CTRL [34:34] RW (R458). -/
def F.TIME_RCLK_CTRL_DIV : Fld := ⟨.TIME_RCLK_CTRL, 34, 34⟩
/-- TIME_RCLK_CTRL [31:26] RW (R458). -/
def F.TIME_RCLK_CTRL_LANE : Fld := ⟨.TIME_RCLK_CTRL, 31, 26⟩
/-- TIME_EVT_CAUSE [15:10] W1C (R468). -/
def F.TIME_EVT_CAUSE_CAP : Fld := ⟨.TIME_EVT_CAUSE, 15, 10⟩
/-- TIME_EVT_CAUSE [9:6] W1C (R468). -/
def F.TIME_EVT_CAUSE_TRIG : Fld := ⟨.TIME_EVT_CAUSE, 9, 6⟩
/-- TIME_EVT_CAUSE [5:5] W1C (R468). -/
def F.TIME_EVT_CAUSE_LATE : Fld := ⟨.TIME_EVT_CAUSE, 5, 5⟩
/-- TIME_EVT_CAUSE [4:4] W1C (R468). -/
def F.TIME_EVT_CAUSE_FHOLD : Fld := ⟨.TIME_EVT_CAUSE, 4, 4⟩
/-- TIME_EVT_CAUSE [3:3] W1C (R468). -/
def F.TIME_EVT_CAUSE_DHOLD : Fld := ⟨.TIME_EVT_CAUSE, 3, 3⟩
/-- TIME_EVT_CAUSE [2:2] W1C (R468). -/
def F.TIME_EVT_CAUSE_SWITCH : Fld := ⟨.TIME_EVT_CAUSE, 2, 2⟩
/-- TIME_EVT_CAUSE [1:1] W1C (R468). -/
def F.TIME_EVT_CAUSE_STEP : Fld := ⟨.TIME_EVT_CAUSE, 1, 1⟩
/-- TIME_EVT_CAUSE [0:0] W1C (R468). -/
def F.TIME_EVT_CAUSE_SFDONE : Fld := ⟨.TIME_EVT_CAUSE, 0, 0⟩
/-- TIME_EVT_EN [15:10] RW (R468). -/
def F.TIME_EVT_EN_CAP : Fld := ⟨.TIME_EVT_EN, 15, 10⟩
/-- TIME_EVT_EN [9:6] RW (R468). -/
def F.TIME_EVT_EN_TRIG : Fld := ⟨.TIME_EVT_EN, 9, 6⟩
/-- TIME_EVT_EN [5:5] RW (R468). -/
def F.TIME_EVT_EN_LATE : Fld := ⟨.TIME_EVT_EN, 5, 5⟩
/-- TIME_EVT_EN [4:4] RW (R468). -/
def F.TIME_EVT_EN_FHOLD : Fld := ⟨.TIME_EVT_EN, 4, 4⟩
/-- TIME_EVT_EN [3:3] RW (R468). -/
def F.TIME_EVT_EN_DHOLD : Fld := ⟨.TIME_EVT_EN, 3, 3⟩
/-- TIME_EVT_EN [2:2] RW (R468). -/
def F.TIME_EVT_EN_SWITCH : Fld := ⟨.TIME_EVT_EN, 2, 2⟩
/-- TIME_EVT_EN [1:1] RW (R468). -/
def F.TIME_EVT_EN_STEP : Fld := ⟨.TIME_EVT_EN, 1, 1⟩
/-- TIME_EVT_EN [0:0] RW (R468). -/
def F.TIME_EVT_EN_SFDONE : Fld := ⟨.TIME_EVT_EN, 0, 0⟩
/-- TIME_DOM_CTRL [35:35] RW (R450). -/
def F.TIME_DOM_CTRL_EN : Fld := ⟨.TIME_DOM_CTRL, 35, 35⟩
/-- TIME_DOM_CTRL [34:34] W1S (R450). -/
def F.TIME_DOM_CTRL_REQUAL : Fld := ⟨.TIME_DOM_CTRL, 34, 34⟩
/-- TIME_DOM_CTRL [27:20] RW (R450). -/
def F.TIME_DOM_CTRL_DOMNUM : Fld := ⟨.TIME_DOM_CTRL, 27, 20⟩
/-- TIME_DOM_CTRL [19:16] RW (R450). -/
def F.TIME_DOM_CTRL_BW : Fld := ⟨.TIME_DOM_CTRL, 19, 16⟩
/-- TIME_DOM_CTRL [15:8] RW (R450). -/
def F.TIME_DOM_CTRL_HOLD : Fld := ⟨.TIME_DOM_CTRL, 15, 8⟩
/-- TIME_DOM_CTRL [7:0] RW (R450). -/
def F.TIME_DOM_CTRL_LOCKTHR : Fld := ⟨.TIME_DOM_CTRL, 7, 0⟩
/-- TIME_DOM_OFS [35:0] RW (R451). -/
def F.TIME_DOM_OFS_OFS : Fld := ⟨.TIME_DOM_OFS, 35, 0⟩
/-- TIME_DOM_MTIME [35:0] RW (R451). -/
def F.TIME_DOM_MTIME_MTIME : Fld := ⟨.TIME_DOM_MTIME, 35, 0⟩
/-- TIME_DOM_GO [35:35] W1S (R451). -/
def F.TIME_DOM_GO_GO : Fld := ⟨.TIME_DOM_GO, 35, 35⟩
/-- TIME_DOM_GO [15:0] RW (R451). -/
def F.TIME_DOM_GO_FRAC : Fld := ⟨.TIME_DOM_GO, 15, 0⟩
/-- TIME_DOM_STATUS [35:32] RO (R450). -/
def F.TIME_DOM_STATUS_STATE : Fld := ⟨.TIME_DOM_STATUS, 35, 32⟩
/-- TIME_DOM_STATUS [23:0] RO (R450). -/
def F.TIME_DOM_STATUS_RESID : Fld := ⟨.TIME_DOM_STATUS, 23, 0⟩
/-- TIME_DOM_FREQ [35:0] RO (R450). -/
def F.TIME_DOM_FREQ_FREQ : Fld := ⟨.TIME_DOM_FREQ, 35, 0⟩
/-- TIME_DOM_GAP [35:0] RO (R450). -/
def F.TIME_DOM_GAP_GAP : Fld := ⟨.TIME_DOM_GAP, 35, 0⟩
/-- TIME_CAP_CTRL [35:35] RW (R467). -/
def F.TIME_CAP_CTRL_EN : Fld := ⟨.TIME_CAP_CTRL, 35, 35⟩
/-- TIME_CAP_CTRL [34:33] RW (R467). -/
def F.TIME_CAP_CTRL_EDGE : Fld := ⟨.TIME_CAP_CTRL, 34, 33⟩
/-- TIME_CAP_STAT [35:35] RO (R467). -/
def F.TIME_CAP_STAT_NEW : Fld := ⟨.TIME_CAP_STAT, 35, 35⟩
/-- TIME_CAP_STAT [34:34] W1C (R467). -/
def F.TIME_CAP_STAT_OVR : Fld := ⟨.TIME_CAP_STAT, 34, 34⟩
/-- TIME_CAP_DATA [35:0] RC (R467). -/
def F.TIME_CAP_DATA_TWORD : Fld := ⟨.TIME_CAP_DATA, 35, 0⟩
/-- TIME_TRIG_CTRL [35:35] RW (R466). -/
def F.TIME_TRIG_CTRL_POL : Fld := ⟨.TIME_TRIG_CTRL, 35, 35⟩
/-- TIME_TRIG_CTRL [34:34] RO (R466). -/
def F.TIME_TRIG_CTRL_PEND : Fld := ⟨.TIME_TRIG_CTRL, 34, 34⟩
/-- TIME_TRIG_CTRL [22:0] RW (R466). -/
def F.TIME_TRIG_CTRL_WIDTH : Fld := ⟨.TIME_TRIG_CTRL, 22, 0⟩
/-- TIME_TRIG_TIME [35:0] RO (R466). -/
def F.TIME_TRIG_TIME_TIME : Fld := ⟨.TIME_TRIG_TIME, 35, 0⟩
/-- TIME_PPS_CTRL [35:35] RW (R464). -/
def F.TIME_PPS_CTRL_EN : Fld := ⟨.TIME_PPS_CTRL, 35, 35⟩
/-- TIME_PPS_CTRL [34:34] RW (R464). -/
def F.TIME_PPS_CTRL_POL : Fld := ⟨.TIME_PPS_CTRL, 34, 34⟩
/-- TIME_PPS_CTRL [29:0] RW (R464). -/
def F.TIME_PPS_CTRL_WIDTH : Fld := ⟨.TIME_PPS_CTRL, 29, 0⟩
/-- TIME_TOD_CTRL [35:35] RW (R465). -/
def F.TIME_TOD_CTRL_EN : Fld := ⟨.TIME_TOD_CTRL, 35, 35⟩
/-- TIME_TOD_CTRL [34:34] RW (R465). -/
def F.TIME_TOD_CTRL_TXPPS : Fld := ⟨.TIME_TOD_CTRL, 34, 34⟩
/-- TIME_TOD_CTRL [19:0] RW (R465). -/
def F.TIME_TOD_CTRL_BAUD : Fld := ⟨.TIME_TOD_CTRL, 19, 0⟩
/-- TIME_TOD_TX [7:0] WO (R465). -/
def F.TIME_TOD_TX_DATA : Fld := ⟨.TIME_TOD_TX, 7, 0⟩
/-- TIME_TOD_RX [35:35] RC (R465). -/
def F.TIME_TOD_RX_VALID : Fld := ⟨.TIME_TOD_RX, 35, 35⟩
/-- TIME_TOD_RX [7:0] RC (R465). -/
def F.TIME_TOD_RX_DATA : Fld := ⟨.TIME_TOD_RX, 7, 0⟩
/-- TIME_TOD_STAT [35:35] W1C (R465). -/
def F.TIME_TOD_STAT_OVR : Fld := ⟨.TIME_TOD_STAT, 35, 35⟩
/-- TIME_TOD_STAT [34:34] W1C (R465). -/
def F.TIME_TOD_STAT_FERR : Fld := ⟨.TIME_TOD_STAT, 34, 34⟩
/-- TIME_TOD_STAT [13:7] RO (R465). -/
def F.TIME_TOD_STAT_RXLVL : Fld := ⟨.TIME_TOD_STAT, 13, 7⟩
/-- TIME_TOD_STAT [6:0] RO (R465). -/
def F.TIME_TOD_STAT_TXLVL : Fld := ⟨.TIME_TOD_STAT, 6, 0⟩
/-- TIME_PORT_CTRL [35:35] RW (R460). -/
def F.TIME_PORT_CTRL_OSEN : Fld := ⟨.TIME_PORT_CTRL, 35, 35⟩
/-- TIME_PORT_CTRL [34:34] RW (R460). -/
def F.TIME_PORT_CTRL_TCEN : Fld := ⟨.TIME_PORT_CTRL, 34, 34⟩
/-- TIME_PORT_RXDLY [23:0] RW (R460). -/
def F.TIME_PORT_RXDLY_RXDLY : Fld := ⟨.TIME_PORT_RXDLY, 23, 0⟩
/-- TIME_PORT_TXDLY [23:0] RW (R460). -/
def F.TIME_PORT_TXDLY_TXDLY : Fld := ⟨.TIME_PORT_TXDLY, 23, 0⟩
/-- TIME_PORT_ASYM [23:0] RW (R460). -/
def F.TIME_PORT_ASYM_ASYM : Fld := ⟨.TIME_PORT_ASYM, 23, 0⟩
/-- TIME_TREE_FIB [23:0] RW (R461). -/
def F.TIME_TREE_FIB_FACTOR : Fld := ⟨.TIME_TREE_FIB, 23, 0⟩
/-- TIME_TREE_RESP [20:0] RW (R461). -/
def F.TIME_TREE_RESP_RESP : Fld := ⟨.TIME_TREE_RESP, 20, 0⟩
/-- SER_LANE_CTRL [35:35] RW (R472). -/
def F.SER_LANE_CTRL_KEEP : Fld := ⟨.SER_LANE_CTRL, 35, 35⟩
/-- SER_LANE_CTRL [34:34] RW (R472). -/
def F.SER_LANE_CTRL_LOOP : Fld := ⟨.SER_LANE_CTRL, 34, 34⟩
/-- SER_LANE_CTRL [33:33] RW (R472). -/
def F.SER_LANE_CTRL_TXPOL : Fld := ⟨.SER_LANE_CTRL, 33, 33⟩
/-- SER_LANE_CTRL [32:32] RW (R472). -/
def F.SER_LANE_CTRL_RXPOL : Fld := ⟨.SER_LANE_CTRL, 32, 32⟩
/-- SER_LANE_STATUS [35:32] RO (R472). -/
def F.SER_LANE_STATUS_STATE : Fld := ⟨.SER_LANE_STATUS, 35, 32⟩
/-- SER_LANE_STATUS [31:31] RO (R472). -/
def F.SER_LANE_STATUS_RXREADY : Fld := ⟨.SER_LANE_STATUS, 31, 31⟩
/-- SER_LANE_STATUS [30:30] RO (R472). -/
def F.SER_LANE_STATUS_SIGDET : Fld := ⟨.SER_LANE_STATUS, 30, 30⟩
/-- SER_LANE_STATUS [23:12] RO (R472). -/
def F.SER_LANE_STATUS_SNR : Fld := ⟨.SER_LANE_STATUS, 23, 12⟩
/-- SER_LANE_STATUS [11:0] RC (R472). -/
def F.SER_LANE_STATUS_SYMERR : Fld := ⟨.SER_LANE_STATUS, 11, 0⟩
/-- SER_LANE_FFE [35:35] RO (R473). -/
def F.SER_LANE_FFE_LT : Fld := ⟨.SER_LANE_FFE, 35, 35⟩
/-- SER_LANE_FFE [23:18] RW (R473). -/
def F.SER_LANE_FFE_PRE : Fld := ⟨.SER_LANE_FFE, 23, 18⟩
/-- SER_LANE_FFE [17:12] RW (R473). -/
def F.SER_LANE_FFE_MAIN : Fld := ⟨.SER_LANE_FFE, 17, 12⟩
/-- SER_LANE_FFE [11:6] RW (R473). -/
def F.SER_LANE_FFE_POST : Fld := ⟨.SER_LANE_FFE, 11, 6⟩
/-- SER_PRBS_CTRL [35:35] RW (R474). -/
def F.SER_PRBS_CTRL_GEN : Fld := ⟨.SER_PRBS_CTRL, 35, 35⟩
/-- SER_PRBS_CTRL [34:34] RW (R474). -/
def F.SER_PRBS_CTRL_CHK : Fld := ⟨.SER_PRBS_CTRL, 34, 34⟩
/-- SER_PRBS_CTRL [33:31] RW (R474). -/
def F.SER_PRBS_CTRL_PAT : Fld := ⟨.SER_PRBS_CTRL, 33, 31⟩
/-- SER_PRBS_CTRL [30:30] RW (R474). -/
def F.SER_PRBS_CTRL_INV : Fld := ⟨.SER_PRBS_CTRL, 30, 30⟩
/-- SER_PRBS_CTRL [29:29] W1S (R474). -/
def F.SER_PRBS_CTRL_INJ1 : Fld := ⟨.SER_PRBS_CTRL, 29, 29⟩
/-- SER_PRBS_CTRL [28:28] W1S (R474). -/
def F.SER_PRBS_CTRL_CLR : Fld := ⟨.SER_PRBS_CTRL, 28, 28⟩
/-- SER_PRBS_CTRL [27:22] RW (R474). -/
def F.SER_PRBS_CTRL_IRATE : Fld := ⟨.SER_PRBS_CTRL, 27, 22⟩
/-- SER_PRBS_CTRL [21:21] RW (R474). -/
def F.SER_PRBS_CTRL_LASER : Fld := ⟨.SER_PRBS_CTRL, 21, 21⟩
/-- SER_PRBS_CTRL [20:20] RO (R474). -/
def F.SER_PRBS_CTRL_LOCK : Fld := ⟨.SER_PRBS_CTRL, 20, 20⟩
/-- SER_PRBS_CTRL [19:8] RC (R474). -/
def F.SER_PRBS_CTRL_LOCKLOSS : Fld := ⟨.SER_PRBS_CTRL, 19, 8⟩
/-- SER_PRBS_ERR [35:0] RO (R474). -/
def F.SER_PRBS_ERR_ERRS : Fld := ⟨.SER_PRBS_ERR, 35, 0⟩
/-- SER_PRBS_BITS [35:0] RO (R474). -/
def F.SER_PRBS_BITS_BITS : Fld := ⟨.SER_PRBS_BITS, 35, 0⟩
/-- UPL_PORT_CTRL [35:35] RW (R478). -/
def F.UPL_PORT_CTRL_CONF : Fld := ⟨.UPL_PORT_CTRL, 35, 35⟩
/-- UPL_PORT_CTRL [34:33] RW (R478). -/
def F.UPL_PORT_CTRL_WIDTH : Fld := ⟨.UPL_PORT_CTRL, 34, 33⟩
/-- UPL_PORT_CTRL [32:32] RW (R478). -/
def F.UPL_PORT_CTRL_ANEN : Fld := ⟨.UPL_PORT_CTRL, 32, 32⟩
/-- UPL_PORT_CTRL [31:31] RW (R478). -/
def F.UPL_PORT_CTRL_LTEN : Fld := ⟨.UPL_PORT_CTRL, 31, 31⟩
/-- UPL_PORT_CTRL [30:17] RW (R478). -/
def F.UPL_PORT_CTRL_MAXFRM : Fld := ⟨.UPL_PORT_CTRL, 30, 17⟩
/-- UPL_PORT_CTRL [16:9] RW (R478). -/
def F.UPL_PORT_CTRL_UPHOLD : Fld := ⟨.UPL_PORT_CTRL, 16, 9⟩
/-- UPL_PORT_STATUS [35:35] RO (R480). -/
def F.UPL_PORT_STATUS_UP : Fld := ⟨.UPL_PORT_STATUS, 35, 35⟩
/-- UPL_PORT_STATUS [34:34] W1C (R480). -/
def F.UPL_PORT_STATUS_DOWNEV : Fld := ⟨.UPL_PORT_STATUS, 34, 34⟩
/-- UPL_PORT_STATUS [33:33] W1C (R480). -/
def F.UPL_PORT_STATUS_UPEV : Fld := ⟨.UPL_PORT_STATUS, 33, 33⟩
/-- UPL_PORT_STATUS [32:32] W1C (R480). -/
def F.UPL_PORT_STATUS_LTFAIL : Fld := ⟨.UPL_PORT_STATUS, 32, 32⟩
/-- UPL_PORT_STATUS [31:31] W1C (R480). -/
def F.UPL_PORT_STATUS_ANFAIL : Fld := ⟨.UPL_PORT_STATUS, 31, 31⟩
/-- UPL_PORT_STATUS [30:30] RO (R480). -/
def F.UPL_PORT_STATUS_RFAULT : Fld := ⟨.UPL_PORT_STATUS, 30, 30⟩
/-- UPL_PORT_STATUS [11:0] RC (R480). -/
def F.UPL_PORT_STATUS_FLAPS : Fld := ⟨.UPL_PORT_STATUS, 11, 0⟩
/-- UPL_FC_CTRL [35:34] RW (R482). -/
def F.UPL_FC_CTRL_MODE : Fld := ⟨.UPL_FC_CTRL, 35, 34⟩
/-- UPL_FC_CTRL [33:26] RW (R482). -/
def F.UPL_FC_CTRL_RXMASK : Fld := ⟨.UPL_FC_CTRL, 33, 26⟩
/-- UPL_FC_CTRL [25:10] RW (R482). -/
def F.UPL_FC_CTRL_QUANTA : Fld := ⟨.UPL_FC_CTRL, 25, 10⟩
/-- UPL_FC_CTRL [9:0] RW (R482). -/
def F.UPL_FC_CTRL_REFRESH : Fld := ⟨.UPL_FC_CTRL, 9, 0⟩
/-- UPL_FC_STATUS [35:28] RO (R482). -/
def F.UPL_FC_STATUS_RXPAUSED : Fld := ⟨.UPL_FC_STATUS, 35, 28⟩
/-- UPL_FC_STATUS [27:20] RO (R482). -/
def F.UPL_FC_STATUS_TXPAUSED : Fld := ⟨.UPL_FC_STATUS, 27, 20⟩
/-- UPL_FEC_CNT [35:18] RC (R480). -/
def F.UPL_FEC_CNT_CORR : Fld := ⟨.UPL_FEC_CNT, 35, 18⟩
/-- UPL_FEC_CNT [17:0] RC (R480). -/
def F.UPL_FEC_CNT_UNCORR : Fld := ⟨.UPL_FEC_CNT, 17, 0⟩
/-- UPL_RX_CNT [35:24] RC (R480). -/
def F.UPL_RX_CNT_RXFULL : Fld := ⟨.UPL_RX_CNT, 35, 24⟩
/-- UPL_RX_CNT [23:12] RC (R480). -/
def F.UPL_RX_CNT_OVERSZ : Fld := ⟨.UPL_RX_CNT, 23, 12⟩
/-- UPL_RX_CNT [11:0] RC (R480). -/
def F.UPL_RX_CNT_CTLDROP : Fld := ⟨.UPL_RX_CNT, 11, 0⟩
/-- UPL_FRER_CTRL [35:35] RW (R485). -/
def F.UPL_FRER_CTRL_EN : Fld := ⟨.UPL_FRER_CTRL, 35, 35⟩
/-- UPL_FRER_CTRL [34:34] RW (R485). -/
def F.UPL_FRER_CTRL_TXEN : Fld := ⟨.UPL_FRER_CTRL, 34, 34⟩
/-- UPL_FRER_CTRL [33:33] RW (R485). -/
def F.UPL_FRER_CTRL_RXEN : Fld := ⟨.UPL_FRER_CTRL, 33, 33⟩
/-- UPL_FRER_CTRL [31:26] RW (R485). -/
def F.UPL_FRER_CTRL_PORTA : Fld := ⟨.UPL_FRER_CTRL, 31, 26⟩
/-- UPL_FRER_CTRL [25:20] RW (R485). -/
def F.UPL_FRER_CTRL_PORTB : Fld := ⟨.UPL_FRER_CTRL, 25, 20⟩
/-- UPL_FRER_CTRL [17:0] RW (R485). -/
def F.UPL_FRER_CTRL_QOFS : Fld := ⟨.UPL_FRER_CTRL, 17, 0⟩
/-- UPL_FRER_CFG [29:24] RW (R485). -/
def F.UPL_FRER_CFG_HLEN : Fld := ⟨.UPL_FRER_CFG, 29, 24⟩
/-- UPL_FRER_CFG [23:12] RW (R485). -/
def F.UPL_FRER_CFG_RESET : Fld := ⟨.UPL_FRER_CFG, 23, 12⟩
/-- UPL_FRER_CNT0 [35:18] RC (R488). -/
def F.UPL_FRER_CNT0_PASSED : Fld := ⟨.UPL_FRER_CNT0, 35, 18⟩
/-- UPL_FRER_CNT0 [17:0] RC (R488). -/
def F.UPL_FRER_CNT0_DISCARD : Fld := ⟨.UPL_FRER_CNT0, 17, 0⟩
/-- UPL_FRER_CNT1 [35:27] RC (R488). -/
def F.UPL_FRER_CNT1_ROGUE : Fld := ⟨.UPL_FRER_CNT1, 35, 27⟩
/-- UPL_FRER_CNT1 [26:18] RC (R488). -/
def F.UPL_FRER_CNT1_LOST : Fld := ⟨.UPL_FRER_CNT1, 26, 18⟩
/-- UPL_FRER_CNT1 [17:9] RC (R488). -/
def F.UPL_FRER_CNT1_RESETS : Fld := ⟨.UPL_FRER_CNT1, 17, 9⟩
/-- UPL_FRER_CNT1 [8:0] RC (R488). -/
def F.UPL_FRER_CNT1_TXDROP : Fld := ⟨.UPL_FRER_CNT1, 8, 0⟩
/-- SER_STATUS [35:28] W1C (R470). -/
def F.SER_STATUS_ERR : Fld := ⟨.SER_STATUS, 35, 28⟩
/-- SYS_ID [35:35] RO (R489). -/
def F.SYS_ID_SET : Fld := ⟨.SYS_ID, 35, 35⟩
/-- SYS_ID [25:10] RW (R489). -/
def F.SYS_ID_SYSID : Fld := ⟨.SYS_ID, 25, 10⟩
/-- SYS_ID [9:0] RW (R489). -/
def F.SYS_ID_DEVID : Fld := ⟨.SYS_ID, 9, 0⟩
/-- SYS_STATUS [35:28] W1C (R489). -/
def F.SYS_STATUS_ERR : Fld := ⟨.SYS_STATUS, 35, 28⟩
/-- SYS_RMT_CTRL [35:35] W1S (R489). -/
def F.SYS_RMT_CTRL_GO : Fld := ⟨.SYS_RMT_CTRL, 35, 35⟩
/-- SYS_RMT_CTRL [34:34] RO (R489). -/
def F.SYS_RMT_CTRL_BUSY : Fld := ⟨.SYS_RMT_CTRL, 34, 34⟩
/-- SYS_RMT_CTRL [33:33] RW (R489). -/
def F.SYS_RMT_CTRL_WRITE : Fld := ⟨.SYS_RMT_CTRL, 33, 33⟩
/-- SYS_RMT_CTRL [23:16] RO (R489). -/
def F.SYS_RMT_CTRL_STATUS : Fld := ⟨.SYS_RMT_CTRL, 23, 16⟩
/-- SYS_RMT_CTRL [9:0] RW (R489). -/
def F.SYS_RMT_CTRL_DEVID : Fld := ⟨.SYS_RMT_CTRL, 9, 0⟩
/-- SYS_RMT_ADDR [23:0] RW (R489). -/
def F.SYS_RMT_ADDR_OFFSET : Fld := ⟨.SYS_RMT_ADDR, 23, 0⟩
/-- SYS_RMT_DATA [35:0] RW (R489). -/
def F.SYS_RMT_DATA_DATA : Fld := ⟨.SYS_RMT_DATA, 35, 0⟩
/-- BND_CTRL [35:34] RW (R489). -/
def F.BND_CTRL_OFFER : Fld := ⟨.BND_CTRL, 35, 34⟩
/-- BND_CTRL [33:33] RW (R489). -/
def F.BND_CTRL_TFOLLOW : Fld := ⟨.BND_CTRL, 33, 33⟩
/-- BND_CTRL [32:32] RW (R489). -/
def F.BND_CTRL_TDOM : Fld := ⟨.BND_CTRL, 32, 32⟩
/-- BND_STATUS [35:32] RO (R489). -/
def F.BND_STATUS_STATE : Fld := ⟨.BND_STATUS, 35, 32⟩
/-- BND_STATUS [31:30] RO (R489). -/
def F.BND_STATUS_VER : Fld := ⟨.BND_STATUS, 31, 30⟩
/-- BND_STATUS [29:29] RO (R489). -/
def F.BND_STATUS_DEGR : Fld := ⟨.BND_STATUS, 29, 29⟩
/-- BND_STATUS [28:28] W1C (R489). -/
def F.BND_STATUS_DOWNEV : Fld := ⟨.BND_STATUS, 28, 28⟩
/-- BND_STATUS [27:27] W1C (R489). -/
def F.BND_STATUS_MISMATCH : Fld := ⟨.BND_STATUS, 27, 27⟩
/-- BND_STATUS [26:26] W1C (R489). -/
def F.BND_STATUS_DUPID : Fld := ⟨.BND_STATUS, 26, 26⟩
/-- BND_STATUS [25:25] W1C (R489). -/
def F.BND_STATUS_NOVER : Fld := ⟨.BND_STATUS, 25, 25⟩
/-- BND_STATUS [24:21] RO (R489). -/
def F.BND_STATUS_LANES : Fld := ⟨.BND_STATUS, 24, 21⟩
/-- BND_STATUS [19:10] RO (R489). -/
def F.BND_STATUS_PEERDEV : Fld := ⟨.BND_STATUS, 19, 10⟩
/-- BND_STATUS [9:8] RO (R489). -/
def F.BND_STATUS_PEERBND : Fld := ⟨.BND_STATUS, 9, 8⟩
/-- BND_CNT [35:24] RC (R489). -/
def F.BND_CNT_CRCERR : Fld := ⟨.BND_CNT, 35, 24⟩
/-- BND_CNT [23:12] RC (R489). -/
def F.BND_CNT_REPLAY : Fld := ⟨.BND_CNT, 23, 12⟩
/-- BND_CNT [11:0] RC (R489). -/
def F.BND_CNT_FLAPS : Fld := ⟨.BND_CNT, 11, 0⟩
/-- BND_TIME [35:0] RO (R489). -/
def F.BND_TIME_OFS : Fld := ⟨.BND_TIME, 35, 0⟩
/-- SYS_ROUTE [35:35] RW (R489). -/
def F.SYS_ROUTE_V : Fld := ⟨.SYS_ROUTE, 35, 35⟩
/-- SYS_ROUTE [1:0] RW (R489). -/
def F.SYS_ROUTE_BUNDLE : Fld := ⟨.SYS_ROUTE, 1, 0⟩
/-- PWR_GOV_CTRL [35:35] RW (R501). -/
def F.PWR_GOV_CTRL_EN : Fld := ⟨.PWR_GOV_CTRL, 35, 35⟩
/-- PWR_GOV_CTRL [34:32] RW (R501). -/
def F.PWR_GOV_CTRL_MAXLVL : Fld := ⟨.PWR_GOV_CTRL, 34, 32⟩
/-- PWR_GOV_CTRL [31:24] RW (R501). -/
def F.PWR_GOV_CTRL_CEIL : Fld := ⟨.PWR_GOV_CTRL, 31, 24⟩
/-- PWR_GOV_CTRL [23:16] RW (R501). -/
def F.PWR_GOV_CTRL_HEAD : Fld := ⟨.PWR_GOV_CTRL, 23, 16⟩
/-- PWR_GOV_CTRL [15:8] RW (R501). -/
def F.PWR_GOV_CTRL_DOWNHOLD : Fld := ⟨.PWR_GOV_CTRL, 15, 8⟩
/-- PWR_GOV_CTRL [7:0] RW (R501). -/
def F.PWR_GOV_CTRL_CPKT : Fld := ⟨.PWR_GOV_CTRL, 7, 0⟩
/-- PWR_BUDGET [11:0] RW (R501). -/
def F.PWR_BUDGET_WATTS : Fld := ⟨.PWR_BUDGET, 11, 0⟩
/-- PWR_GOV_STATUS [35:32] RO (R501). -/
def F.PWR_GOV_STATUS_LEVEL : Fld := ⟨.PWR_GOV_STATUS, 35, 32⟩
/-- PWR_GOV_STATUS [31:28] RO (R501). -/
def F.PWR_GOV_STATUS_TARGET : Fld := ⟨.PWR_GOV_STATUS, 31, 28⟩
/-- PWR_GOV_STATUS [27:27] RO (R501). -/
def F.PWR_GOV_STATUS_SHORT : Fld := ⟨.PWR_GOV_STATUS, 27, 27⟩
/-- PWR_GOV_STATUS [26:26] RO (R501). -/
def F.PWR_GOV_STATUS_MOVING : Fld := ⟨.PWR_GOV_STATUS, 26, 26⟩
/-- PWR_GOV_STATUS [25:25] RO (R501). -/
def F.PWR_GOV_STATUS_THROTTLE : Fld := ⟨.PWR_GOV_STATUS, 25, 25⟩
/-- PWR_GOV_STATUS [24:21] RO (R501). -/
def F.PWR_GOV_STATUS_LCOMMIT : Fld := ⟨.PWR_GOV_STATUS, 24, 21⟩
/-- PWR_GOV_STATUS [20:0] RO (R501). -/
def F.PWR_GOV_STATUS_CAPACITY : Fld := ⟨.PWR_GOV_STATUS, 20, 0⟩
/-- PWR_COMMIT [35:27] RO (R501). -/
def F.PWR_COMMIT_EBUDGET : Fld := ⟨.PWR_COMMIT, 35, 27⟩
/-- PWR_COMMIT [26:0] RO (R501). -/
def F.PWR_COMMIT_LOAD : Fld := ⟨.PWR_COMMIT, 26, 0⟩
/-- PWR_CRM [35:20] RO (R501). -/
def F.PWR_CRM_KCRM : Fld := ⟨.PWR_CRM, 35, 20⟩
/-- PWR_CRM [19:0] RO (R501). -/
def F.PWR_CRM_RING : Fld := ⟨.PWR_CRM, 19, 0⟩
/-- PWR_DEMAND [20:0] RO (R501). -/
def F.PWR_DEMAND_DEMAND : Fld := ⟨.PWR_DEMAND, 20, 0⟩
/-- PWR_VREG [35:35] RW (R501). -/
def F.PWR_VREG_EN : Fld := ⟨.PWR_VREG, 35, 35⟩
/-- PWR_VREG [34:30] RW (R501). -/
def F.PWR_VREG_PHYAD : Fld := ⟨.PWR_VREG, 34, 30⟩
/-- PWR_VREG [29:25] RW (R501). -/
def F.PWR_VREG_REGAD : Fld := ⟨.PWR_VREG, 29, 25⟩
/-- PWR_VREG [15:0] RW (R501). -/
def F.PWR_VREG_DEEPCODE : Fld := ⟨.PWR_VREG, 15, 0⟩
/-- PWR_SLEEP_CTRL [35:35] W1S (R511). -/
def F.PWR_SLEEP_CTRL_REST : Fld := ⟨.PWR_SLEEP_CTRL, 35, 35⟩
/-- PWR_SLEEP_CTRL [34:34] W1S (R511). -/
def F.PWR_SLEEP_CTRL_DEEP : Fld := ⟨.PWR_SLEEP_CTRL, 34, 34⟩
/-- PWR_SLEEP_CTRL [33:33] RW (R511). -/
def F.PWR_SLEEP_CTRL_DOZEEN : Fld := ⟨.PWR_SLEEP_CTRL, 33, 33⟩
/-- PWR_SLEEP_STATUS [35:32] RO (R511). -/
def F.PWR_SLEEP_STATUS_STATE : Fld := ⟨.PWR_SLEEP_STATUS, 35, 32⟩
/-- PWR_SLEEP_STATUS [31:24] W1C (R511). -/
def F.PWR_SLEEP_STATUS_ERR : Fld := ⟨.PWR_SLEEP_STATUS, 31, 24⟩
/-- PWR_SLEEP_STATUS [23:16] RO (R511). -/
def F.PWR_SLEEP_STATUS_LASTREQ : Fld := ⟨.PWR_SLEEP_STATUS, 23, 16⟩
/-- PWR_SLEEP_STATUS [15:15] W1C (R511). -/
def F.PWR_SLEEP_STATUS_FROMDEEP : Fld := ⟨.PWR_SLEEP_STATUS, 15, 15⟩
/-- PWR_SLEEP_STATUS [14:14] W1C (R511). -/
def F.PWR_SLEEP_STATUS_SAVEBAD : Fld := ⟨.PWR_SLEEP_STATUS, 14, 14⟩
/-- PWR_DOZE_DLY [15:0] RW (R511). -/
def F.PWR_DOZE_DLY_DLY : Fld := ⟨.PWR_DOZE_DLY, 15, 0⟩
/-- PWR_INT_CAUSE [3:3] W1C (R519). -/
def F.PWR_INT_CAUSE_WAKEFAIL : Fld := ⟨.PWR_INT_CAUSE, 3, 3⟩
/-- PWR_INT_CAUSE [2:2] W1C (R519). -/
def F.PWR_INT_CAUSE_THROTTLE : Fld := ⟨.PWR_INT_CAUSE, 2, 2⟩
/-- PWR_INT_CAUSE [1:1] W1C (R519). -/
def F.PWR_INT_CAUSE_SHORTFALL : Fld := ⟨.PWR_INT_CAUSE, 1, 1⟩
/-- PWR_INT_CAUSE [0:0] W1C (R519). -/
def F.PWR_INT_CAUSE_OVERCOMMIT : Fld := ⟨.PWR_INT_CAUSE, 0, 0⟩
/-- PWR_INT_EN [3:3] RW (R519). -/
def F.PWR_INT_EN_WAKEFAIL : Fld := ⟨.PWR_INT_EN, 3, 3⟩
/-- PWR_INT_EN [2:2] RW (R519). -/
def F.PWR_INT_EN_THROTTLE : Fld := ⟨.PWR_INT_EN, 2, 2⟩
/-- PWR_INT_EN [1:1] RW (R519). -/
def F.PWR_INT_EN_SHORTFALL : Fld := ⟨.PWR_INT_EN, 1, 1⟩
/-- PWR_INT_EN [0:0] RW (R519). -/
def F.PWR_INT_EN_OVERCOMMIT : Fld := ⟨.PWR_INT_EN, 0, 0⟩
/-- PWR_SHORT_CNT [35:18] RC (R519). -/
def F.PWR_SHORT_CNT_SHORTFALL : Fld := ⟨.PWR_SHORT_CNT, 35, 18⟩
/-- PWR_SHORT_CNT [17:0] RC (R519). -/
def F.PWR_SHORT_CNT_OVERCOMMIT : Fld := ⟨.PWR_SHORT_CNT, 17, 0⟩
/-- PWR_VID [15:0] RW (R501). -/
def F.PWR_VID_VID : Fld := ⟨.PWR_VID, 15, 0⟩
/-- PWR_PEST [11:0] RW (R501). -/
def F.PWR_PEST_PEST : Fld := ⟨.PWR_PEST, 11, 0⟩
/-- PWR_RES_PL_LO [35:0] RO (R519). -/
def F.PWR_RES_PL_LO_COUNT : Fld := ⟨.PWR_RES_PL_LO, 35, 0⟩
/-- PWR_RES_PL_HI [35:0] RO (R519). -/
def F.PWR_RES_PL_HI_COUNT : Fld := ⟨.PWR_RES_PL_HI, 35, 0⟩
/-- PWR_RES_ST_LO [35:0] RO (R519). -/
def F.PWR_RES_ST_LO_COUNT : Fld := ⟨.PWR_RES_ST_LO, 35, 0⟩
/-- PWR_RES_ST_HI [35:0] RO (R519). -/
def F.PWR_RES_ST_HI_COUNT : Fld := ⟨.PWR_RES_ST_HI, 35, 0⟩
/-- FLT_STATUS [35:28] W1C (R520). -/
def F.FLT_STATUS_ERR : Fld := ⟨.FLT_STATUS, 35, 28⟩
/-- FLT_STATUS [4:4] RO (R520). -/
def F.FLT_STATUS_SAFE : Fld := ⟨.FLT_STATUS, 4, 4⟩
/-- FLT_STATUS [3:3] W1C (R520). -/
def F.FLT_STATUS_OVF : Fld := ⟨.FLT_STATUS, 3, 3⟩
/-- FLT_STATUS [2:2] W1C (R520). -/
def F.FLT_STATUS_FAT : Fld := ⟨.FLT_STATUS, 2, 2⟩
/-- FLT_STATUS [1:1] W1C (R520). -/
def F.FLT_STATUS_UNC : Fld := ⟨.FLT_STATUS, 1, 1⟩
/-- FLT_STATUS [0:0] W1C (R520). -/
def F.FLT_STATUS_COR : Fld := ⟨.FLT_STATUS, 0, 0⟩
/-- FLT_CTRL [15:0] WO (R520). -/
def F.FLT_CTRL_SAFEKEY : Fld := ⟨.FLT_CTRL, 15, 0⟩
/-- FLT_CNT [35:18] RC (R520). -/
def F.FLT_CNT_COR : Fld := ⟨.FLT_CNT, 35, 18⟩
/-- FLT_CNT [17:6] RC (R520). -/
def F.FLT_CNT_UNC : Fld := ⟨.FLT_CNT, 17, 6⟩
/-- FLT_CNT [5:0] RC (R520). -/
def F.FLT_CNT_FATC : Fld := ⟨.FLT_CNT, 5, 0⟩
/-- FLT_RING [24:16] RO (R520). -/
def F.FLT_RING_COUNT : Fld := ⟨.FLT_RING, 24, 16⟩
/-- FLT_RING [15:0] RO (R520). -/
def F.FLT_RING_NEXTSEQ : Fld := ⟨.FLT_RING, 15, 0⟩
/-- FLT_REC_SEL [7:0] RW (R524). -/
def F.FLT_REC_SEL_AGE : Fld := ⟨.FLT_REC_SEL, 7, 0⟩
/-- FLT_REC [35:0] RO (R520). -/
def F.FLT_REC_WORD : Fld := ⟨.FLT_REC, 35, 0⟩
/-- FLT_INT_CAUSE [3:0] W1C (R520). -/
def F.FLT_INT_CAUSE_CAUSE : Fld := ⟨.FLT_INT_CAUSE, 3, 0⟩
/-- FLT_INT_EN [3:0] RW (R520). -/
def F.FLT_INT_EN_EN : Fld := ⟨.FLT_INT_EN, 3, 0⟩
/-- FLT_FIRST [35:0] RO (R525). -/
def F.FLT_FIRST_WORD : Fld := ⟨.FLT_FIRST, 35, 0⟩
/-- FLT_VMON [35:35] W1C (R531). -/
def F.FLT_VMON_ALARM : Fld := ⟨.FLT_VMON, 35, 35⟩
/-- FLT_VMON [34:34] RO (R531). -/
def F.FLT_VMON_OFF : Fld := ⟨.FLT_VMON, 34, 34⟩
/-- FLT_VMON [11:0] RO (R531). -/
def F.FLT_VMON_MV : Fld := ⟨.FLT_VMON, 11, 0⟩
/-- PLN_STATUS [35:32] RO (R530). -/
def F.PLN_STATUS_STATE : Fld := ⟨.PLN_STATUS, 35, 32⟩
/-- PLN_STATUS [31:16] RO (R530). -/
def F.PLN_STATUS_FWVER : Fld := ⟨.PLN_STATUS, 31, 16⟩
/-- PLN_STATUS [15:8] RC (R530). -/
def F.PLN_STATUS_WDOG : Fld := ⟨.PLN_STATUS, 15, 8⟩
/-- PLN_STATUS [7:7] W1C (R530). -/
def F.PLN_STATUS_MIRRORFAIL : Fld := ⟨.PLN_STATUS, 7, 7⟩
/-- PLN_WDOG [35:35] RW (R530). -/
def F.PLN_WDOG_EN : Fld := ⟨.PLN_WDOG, 35, 35⟩
/-- PLN_WDOG [34:34] W1S (R530). -/
def F.PLN_WDOG_KICK : Fld := ⟨.PLN_WDOG, 34, 34⟩
/-- PLN_WDOG [15:0] RW (R530). -/
def F.PLN_WDOG_TIMEOUT : Fld := ⟨.PLN_WDOG, 15, 0⟩
/-- PLN_LOG_CTRL [15:8] RC (R533). -/
def F.PLN_LOG_CTRL_DROP : Fld := ⟨.PLN_LOG_CTRL, 15, 8⟩
/-- PLN_LOG_CTRL [7:0] RW (R533). -/
def F.PLN_LOG_CTRL_PERIOD : Fld := ⟨.PLN_LOG_CTRL, 7, 0⟩
/-- PLN_MBOX_CTRL [35:35] W1S (R535). -/
def F.PLN_MBOX_CTRL_HREQ : Fld := ⟨.PLN_MBOX_CTRL, 35, 35⟩
/-- PLN_MBOX_CTRL [34:34] RO (R535). -/
def F.PLN_MBOX_CTRL_PRSP : Fld := ⟨.PLN_MBOX_CTRL, 34, 34⟩
/-- PLN_MBOX_CTRL [33:33] W1S (R535). -/
def F.PLN_MBOX_CTRL_ACK : Fld := ⟨.PLN_MBOX_CTRL, 33, 33⟩
/-- PLN_MBOX_CTRL [32:32] RO (R535). -/
def F.PLN_MBOX_CTRL_READY : Fld := ⟨.PLN_MBOX_CTRL, 32, 32⟩
/-- PLN_MBOX_H2P [35:0] RW (R535). -/
def F.PLN_MBOX_H2P_WORD : Fld := ⟨.PLN_MBOX_H2P, 35, 0⟩
/-- PLN_MBOX_P2H [35:0] RO (R535). -/
def F.PLN_MBOX_P2H_WORD : Fld := ⟨.PLN_MBOX_P2H, 35, 0⟩
/-- TEL_STATUS [35:28] W1C (R560). -/
def F.TEL_STATUS_ERR : Fld := ⟨.TEL_STATUS, 35, 28⟩
/-- TEL_STATUS [3:3] RO (R560). -/
def F.TEL_STATUS_COAL : Fld := ⟨.TEL_STATUS, 3, 3⟩
/-- TEL_STATUS [2:2] W1C (R560). -/
def F.TEL_STATUS_COALEV : Fld := ⟨.TEL_STATUS, 2, 2⟩
/-- TEL_STATUS [1:1] W1C (R560). -/
def F.TEL_STATUS_AVAIL : Fld := ⟨.TEL_STATUS, 1, 1⟩
/-- TEL_STATUS [0:0] RO (R560). -/
def F.TEL_STATUS_ENABLED : Fld := ⟨.TEL_STATUS, 0, 0⟩
/-- TEL_CTRL [35:35] RW (R557). -/
def F.TEL_CTRL_EN : Fld := ⟨.TEL_CTRL, 35, 35⟩
/-- TEL_CTRL [34:34] RW (R557). -/
def F.TEL_CTRL_DEST : Fld := ⟨.TEL_CTRL, 34, 34⟩
/-- TEL_CTRL [33:30] RW (R557). -/
def F.TEL_CTRL_RSIZE : Fld := ⟨.TEL_CTRL, 33, 30⟩
/-- TEL_CTRL [29:16] RW (R557). -/
def F.TEL_CTRL_FRMLEN : Fld := ⟨.TEL_CTRL, 29, 16⟩
/-- TEL_WR [28:0] RO (R557). -/
def F.TEL_WR_WR : Fld := ⟨.TEL_WR, 28, 0⟩
/-- TEL_RD [28:0] RW (R557). -/
def F.TEL_RD_RD : Fld := ⟨.TEL_RD, 28, 0⟩
/-- TEL_ITHR [28:0] RW (R557). -/
def F.TEL_ITHR_ITHR : Fld := ⟨.TEL_ITHR, 28, 0⟩
/-- TEL_UPL [35:18] RW (R559). -/
def F.TEL_UPL_QUEUE : Fld := ⟨.TEL_UPL, 35, 18⟩
/-- TEL_UPL [17:17] RW (R559). -/
def F.TEL_UPL_TAGEN : Fld := ⟨.TEL_UPL, 17, 17⟩
/-- TEL_UPL [16:14] RW (R559). -/
def F.TEL_UPL_PCP : Fld := ⟨.TEL_UPL, 16, 14⟩
/-- TEL_UPL [13:2] RW (R559). -/
def F.TEL_UPL_VID : Fld := ⟨.TEL_UPL, 13, 2⟩
/-- TEL_DMAC_HI [15:0] RW (R559). -/
def F.TEL_DMAC_HI_MAC : Fld := ⟨.TEL_DMAC_HI, 15, 0⟩
/-- TEL_DMAC_LO [31:0] RW (R559). -/
def F.TEL_DMAC_LO_MAC : Fld := ⟨.TEL_DMAC_LO, 31, 0⟩
/-- TEL_CNT [35:18] RC (R560). -/
def F.TEL_CNT_COALEP : Fld := ⟨.TEL_CNT, 35, 18⟩
/-- TEL_CNT [17:0] RC (R560). -/
def F.TEL_CNT_EVDROP : Fld := ⟨.TEL_CNT, 17, 0⟩
/-- PC_FRZ_AT [35:0] RW (R548). -/
def F.PC_FRZ_AT_AT : Fld := ⟨.PC_FRZ_AT, 35, 0⟩
/-- PC_FRZ_CTRL [35:35] W1S (R548). -/
def F.PC_FRZ_CTRL_ARM : Fld := ⟨.PC_FRZ_CTRL, 35, 35⟩
/-- PC_FRZ_CTRL [34:34] W1S (R548). -/
def F.PC_FRZ_CTRL_RESUME : Fld := ⟨.PC_FRZ_CTRL, 34, 34⟩
/-- PC_FRZ_CTRL [33:33] RO (R548). -/
def F.PC_FRZ_CTRL_ARMED : Fld := ⟨.PC_FRZ_CTRL, 33, 33⟩
/-- PC_FRZ_CTRL [32:32] RO (R548). -/
def F.PC_FRZ_CTRL_FROZEN : Fld := ⟨.PC_FRZ_CTRL, 32, 32⟩
/-- PC_WRAP [31:0] W1C (R546). -/
def F.PC_WRAP_WRAP : Fld := ⟨.PC_WRAP, 31, 0⟩
/-- PC_WRAP_EN [31:0] RW (R546). -/
def F.PC_WRAP_EN_EN : Fld := ⟨.PC_WRAP_EN, 31, 0⟩
/-- TEL_PORT_MAC_HI [15:0] RW (R559). -/
def F.TEL_PORT_MAC_HI_MAC : Fld := ⟨.TEL_PORT_MAC_HI, 15, 0⟩
/-- TEL_PORT_MAC_LO [31:0] RW (R559). -/
def F.TEL_PORT_MAC_LO_MAC : Fld := ⟨.TEL_PORT_MAC_LO, 31, 0⟩

end Sys2Proof.Machine
end

