-- ==== Sys2Proof/Machine/SMap.lean ====
section
/-! DEFINITION. Sparse data by number: a list of pairs in one canonical form (keys strictly rising, no entry equal to
what an unlisted key holds), so that equal contents are equal data. -/
namespace Sys2Proof.Machine

/-- A sparse map from numbers. -/
abbrev SMap (α : Type) := List (Nat × α)

/-- What the map holds at k; an unlisted key holds d. -/
def sget {α : Type} (d : α) : SMap α → Nat → α
  | [], _ => d
  | (k', v) :: m, k => if k = k' then v else sget d m k

/-- The map with k removed. -/
def serase {α : Type} : SMap α → Nat → SMap α
  | [], _ => []
  | (k', v') :: m, k => if k = k' then serase m k else (k', v') :: serase m k

/-- The map with k listed as v. -/
def sinsert {α : Type} : SMap α → Nat → α → SMap α
  | [], k, v => [(k, v)]
  | (k', v') :: m, k, v =>
    if k = k' then (k, v) :: m
    else if k < k' then (k, v) :: (k', v') :: m
    else (k', v') :: sinsert m k v

/-- Write v at k, keeping the canonical form: writing what an unlisted key holds removes the entry. -/
def sput {α : Type} [DecidableEq α] (d : α) (m : SMap α) (k : Nat) (v : α) : SMap α :=
  if v = d then serase m k else sinsert m k v

/-- Every key lies above lo and the keys rise strictly. -/
def srising {α : Type} : Nat → SMap α → Bool
  | _, [] => true
  | lo, (k, _) :: m => decide (lo ≤ k) && srising (k + 1) m

/-- The canonical form where unlisted key k holds d k. -/
def swf {α : Type} [DecidableEq α] (d : Nat → α) (m : SMap α) : Bool :=
  srising 0 m && m.all (fun e => decide (e.2 ≠ d e.1))

/-- Apply f to the value at k. -/
def smod {α : Type} [DecidableEq α] (d : α) (m : SMap α) (k : Nat) (f : α → α) : SMap α :=
  sput d m k (f (sget d m k))

end Sys2Proof.Machine
end

