-- ==== Sys2Proof/Machine/State.lean ====
section
/-! DEFINITION. The state of the device: every register, table, queue, buffer, counter, mode and pin the manual gives it,
the queue of waiting commands, and what it has sent. -/
namespace Sys2Proof.Machine

/-- Why a step stops. No command of the table stops the machine: the manual gives every one an effect, or says when it
has none. -/
inductive Fault where
  deriving DecidableEq, Repr

/-- Why a command has no meaning. -/
inductive Refusal where
  /-- Raised by the dispatcher for a command with no meaning yet. Safe: nothing is claimed of it. -/
  | notModelled (mnemonic : String)
  deriving DecidableEq, Repr

/-- A completion status (R21). -/
inductive Status where
  | ok | ebusy | efull | eabsent | eparity | ewake | eauth | estate | erange | eillegal | etimeout
  deriving DecidableEq, Repr

/-- Its code (R21). -/
def Status.code : Status → Nat
  | .ok => 0x00
  | .ebusy => 0x01
  | .efull => 0x04
  | .eabsent => 0x08
  | .eparity => 0x09
  | .ewake => 0x0A
  | .eauth => 0x0B
  | .estate => 0x0C
  | .erange => 0x0D
  | .eillegal => 0x0E
  | .etimeout => 0x0F

/-- Whose access it is: the MASTER of a fault record (R523). -/
inductive Who where
  | device
  | host
  | cmd (c : Fin 2)
  | plinth
  | packet (port : Nat)
  | remote
  | map (t : Fin 64)
  deriving DecidableEq, Repr

/-- The MASTER code (R523). -/
def Who.master : Who → Nat
  | .device => 0x00
  | .host => 0x01
  | .cmd c => 0x02 + c.val
  | .plinth => 0x04
  | .packet _ => 0x05
  | .remote => 0x06
  | .map t => 0x40 + t.val

/-- What the device sends or shows outside: reads answered, posted writes to host memory, messages, frames, pulses. -/
inductive Out where
  /-- A read answered with data (R562). -/
  | readData (v : BitVec 64)
  /-- A read completed with Completer Abort (R115, R122, R563). -/
  | completerAbort
  /-- A posted write of one 8-byte slot to host memory (R134, R136, R184). -/
  | hostWrite (addr : BitVec 64) (v : BitVec 64)
  /-- An MSI-X message of a vector (R159). -/
  | msix (vector : Nat)
  /-- A set-point frame on MDIO to the VDD_CORE regulator (R502). -/
  | vddFrame (phyad regad : Nat) (code : Nat)
  /-- A datagram or frame on the management port (R535). -/
  | mgmt (words : List Word)
  /-- A packet sent through an egress: the port; on a tree the terminal, XGEM port and key index (R438); its bytes with
  FCS, in clear; on a bond link whether its end carries the error attribute (R30, R31). -/
  | packet (egress term gem keyIndex : Nat) (bytes : List Byte) (stomped : Bool)
  /-- A downstream frame of a tree on a port: frame count, PON identifier, map structures, PLOAM messages (R213, R242). -/
  | treeFrame (port t frame ponId : Nat) (map : List (BitVec 64)) (ploams : List (List Byte))
  /-- A pulse on BURST_RST of a port, from and to a receiver cycle since the clock started; on RSSI_TRIG, its start and
  length; on PPS_OUT or TRIG_OUT (R256, R258, R464, R466). -/
  | burstRst (port start stop : Nat)
  | rssiTrig (port start width : Nat)
  | pps (i : Nat)
  | trig (i : Nat)
  /-- A byte on TOD_TX (R465). -/
  | todByte (i : Nat) (b : Byte)
  /-- A pause frame: uplink port, class-enable vector (priority), quanta (R483). -/
  | pause (l : Nat) (priority : Bool) (classes : Nat) (quanta : Nat)
  /-- A control message on a bond bundle: 0 ACK, 1 NAK, 2 CREDIT, 3 STOP, 4 GO, 5 CAPS, 6 TIME, 7 RMT, 8 DOWN (R493). -/
  | bondMsg (b : Nat) (kind : Nat) (words : List Nat)
  /-- One bit of a lane's pattern inverted (R474). -/
  | prbsInject (lane : Nat)
  /-- Flits replayed from a sequence number (R494). -/
  | bondReplay (b : Nat) (seq : Nat)
  deriving DecidableEq, Repr

/-- A fault record and whether it has been latched into FLT_REC (R523, R524). -/
structure FaultRec where
  w0 : Word
  w1 : Word
  w2 : Word
  w3 : Word
  w4 : Word
  read : Bool
  deriving DecidableEq, Repr

/-- An event-log record (R532). -/
structure LogRec where
  type : Nat
  origin : Nat
  seq : Nat
  seconds : Nat
  nanos : Nat
  p0 : Word
  p1 : Word
  deriving DecidableEq, Repr

/-- One copy of the flash directory (R534). -/
structure Dir where
  seq : Nat := 0
  active : Fin 2 := 0
  trial : Option (Fin 2) := none
  valid : Bool := false
  deriving DecidableEq, Repr

/-- A performance counter (R542, R543). -/
structure Perf where
  sel : Word := 0xFC0000000
  value : Nat := 0
  sticky : Bool := false
  /-- The level exceeded N in the cycle before (mode RISE). -/
  was : Bool := false
  deriving DecidableEq, Repr

/-- Quoin 24's clock: cycles, frames and the device time base (R446, R447, R567). -/
structure Clock where
  /-- Quoin 24 is READY and its time base counts. -/
  running : Bool := false
  /-- Cycles since the frame boundary. -/
  cycle : Nat := 0
  /-- The device frame count. -/
  frame : Nat := 0
  /-- Cycles since the clock started: what delays and rates are counted in (R36). -/
  total : Nat := 0
  /-- The device time base in units of 1 / (3888 x 10^15) ns. -/
  tb : Nat := 0
  deriving DecidableEq, Repr

/-- A host or remote access that waits for a domain to wake (R119, R124). -/
inductive Waiting where
  | read (off size : Nat)
  | write (off size : Nat) (v : BitVec 64)
  | remote (bundle src hops : Nat) (wr : Bool) (off : Nat) (v : Word)
  deriving DecidableEq, Repr

/-- What a command ring holds beside its registers. -/
structure RingSt where
  /-- A write of EN waits for ENABLED to clear (R144). -/
  heldEnable : Bool := false
  /-- Counted completions since the ring last signalled (R160). -/
  counted : Nat := 0
  /-- Its next descriptor has BARRIER set and waits for the fragments fetched earlier (R147). -/
  barred : Bool := false
  deriving DecidableEq, Repr

/-- Pins, straps and the reset sequence. -/
structure Boot where
  /-- RESET_N is low, or VDD_AON is below its level: the device is held in reset (R64, R103). -/
  inReset : Bool := false
  /-- VDD_AON is down (R103). -/
  aonDown : Bool := false
  /-- POR_DONE (R64). -/
  porDone : Bool := false
  /-- SAFE_REQ_N was taken low before POR_DONE (R67). -/
  safeReqLow : Bool := false
  /-- The level of ALIVE (R65). -/
  alive : Bool := false
  /-- FAULT_N is pulled low (R66). -/
  faultLow : Bool := false
  /-- PCIE_PERST_N is low (R107). -/
  perst : Bool := true
  /-- The endpoint trains or has trained its link (R115). -/
  linkTraining : Bool := false
  /-- PCIE_PERST_N rose before POR_DONE (R115). -/
  perstRise : Bool := false
  /-- Images the host delivered to boot memory: word offset to word (R535). -/
  bootMem : SMap Word := []
  /-- A stage of the mortar core is stalled, by number (R45). -/
  stalledStages : List Nat := []
  deriving DecidableEq, Repr

/-- The PCI Express function and the command interface beside its registers. -/
structure HostIf where
  /-- Bus Master Enable and the D-state (R133). -/
  busMaster : Bool := true
  d3hot : Bool := false
  /-- Result and completion writes held while the function may not write (R133). -/
  held : List Out := []
  /-- MSI-X table fields, 32 bits each, numbered from the table's start (R132). -/
  msix : SMap (BitVec 32) := []
  /-- The pending-bit array (R132). -/
  pba : BitVec 64 := 0
  /-- Subsystem vendor and ID (R129). -/
  subVendor : Nat := 0x1F6C
  subId : Nat := 0
  /-- The ring each engine last served (R147). -/
  last : Vector Nat 2 := Vector.replicate 2 15
  rings : Vector RingSt 16 := Vector.replicate 16 {}
  /-- Accesses that wait for a domain, in order (R124). -/
  waiting : List Waiting := []
  /-- Who started the wake of each waking domain: 0 the mortar core, else the quoin (R122). -/
  waker : SMap Who := []
  deriving DecidableEq, Repr

/-- Sensors and the governor beside their registers. -/
structure Pwr where
  /-- Consecutive conversions of each sensor more than 15 degrees from its group's mean (R96). -/
  apart : SMap Nat := []
  /-- Hot refresh of stack 0 and 1 (R94). -/
  hot0 : Bool := false
  hot1 : Bool := false
  /-- The throttle condition of the last update: a sensor of 0 to 55 at 100 degrees or more (R94). -/
  over100 : Bool := false
  /-- LT, and the ceiling conditions of the last update (R507). -/
  lt : Nat := 7
  ceilHot : Bool := false
  ceilCool : Bool := false
  /-- Overspent energy in 2^-8 mJ (R508). -/
  debt : Nat := 0
  /-- The level of the present frame, PLSTAT[7:4] (R508, R509). -/
  frameLevel : Nat := 0
  /-- Consecutive frames in which LD lay below the level (R506). -/
  ldLow : Nat := 0
  /-- Packets the mortar core completed in the last eight frames and in the present one (R501). -/
  demand : List Nat := []
  completed : Nat := 0
  /-- Set-points still to be requested in this frame, and the one the regulator is moving to (R503). -/
  plan : List Nat := []
  moving : Option Nat := none
  /-- EN was cleared and VDD_CORE returns to PL0 (R503). -/
  returning : Bool := false
  /-- The levels published for the frame: G (R384) and SHORT. -/
  g : Nat := 0
  short : Bool := false
  /-- A Rest or Deep request runs; Deep: 0 none, 1 entering, 2 in Deep (R515). -/
  deep : Nat := 0
  /-- Quoins turned off by Rest (R511). -/
  rested : List Nat := []
  /-- Lanes of READY quoins that Rest turned off (R513). -/
  restLanes : List Nat := []
  /-- Saved registers in always-on memory, by group: 0 the remainder, else the quoin (R517). -/
  saved : SMap (List (Nat × Word)) := []
  /-- Groups whose CRC would fail (R518). -/
  savedBad : List Nat := []
  /-- Residency counts, 72 bits each (R519). -/
  resPl : SMap Nat := []
  resSt : SMap Nat := []
  deriving DecidableEq, Repr

/-- The fault collector beside its registers (R520 to R531). -/
structure Flt where
  /-- The fault ring, newest first (R524). -/
  ring : List FaultRec := []
  /-- Consecutive updates of each voltage monitor out of its band (R531). -/
  vmonOut : SMap Nat := []
  deriving DecidableEq, Repr

/-- The plinth beside its processor and registers (R529 to R537). -/
structure Pln where
  /-- The event log, oldest first (R532). -/
  log : List LogRec := []
  logSeq : Nat := 0
  /-- The second of the rate limit and the records of types 2, 3 and 4 written in it. -/
  rateSec : Nat := 0
  rate2 : Nat := 0
  rate3 : Nat := 0
  rate4 : Nat := 0
  /-- SPI flash outside the directory and the log region; an unlisted byte reads erased (R534). -/
  flash : SMap Byte := []
  /-- The log region of flash, oldest first (R533). -/
  flashLog : List LogRec := []
  /-- SEQ below which every record has been mirrored. -/
  mirrored : Nat := 0
  dirA : Dir := {}
  dirB : Dir := {}
  /-- The slot whose plinth image runs (R536). -/
  runSlot : Option (Fin 2) := none
  /-- The watchdog count in ms (R530). -/
  wdog : Nat := 0
  /-- Events that wait for a routine: bit e (R536). -/
  events : BitVec 7 := 0
  /-- Board-controller STATUS bits DEEPRDY and PWRREQ (R535). -/
  deepRdy : Bool := false
  pwrReq : Bool := false
  /-- Framing errors of the console UART (R90). -/
  conErr : Nat := 0
  /-- Characters received on the console (R90). -/
  conRx : List Byte := []
  /-- Frames the management port has put into plinth memory, oldest first (R535). -/
  mgmtRx : List (List Byte) := []
  /-- The status of the last operation of each I2C master (R87). -/
  i2c : SMap Nat := []
  deriving DecidableEq, Repr

/-- What a QUEUE record accumulates since the queue's last record (R552, R554). -/
structure QAcc where
  maxDepth : Nat := 0
  maxHoq : Nat := 0
  dqPkt : Nat := 0
  dqByte : Nat := 0
  dropG : Nat := 0
  dropY : Nat := 0
  dropR : Nat := 0
  enq : Bool := false
  merged : Nat := 0
  deriving DecidableEq, Repr

/-- What a TREE record accumulates: flags [7:0] STRAY to fallback, bursts expected, received, missing (R555). -/
structure TAcc where
  flags : BitVec 8 := 0
  expected : Nat := 0
  received : Nat := 0
  missing : Nat := 0
  merged : Nat := 0
  deriving DecidableEq, Repr

/-- What a PORT record accumulates (R555). -/
structure PAcc where
  downEv : Bool := false
  upEv : Bool := false
  rx : BitVec 8 := 0
  tx : BitVec 8 := 0
  merged : Nat := 0
  deriving DecidableEq, Repr

/-- Counters and the sillage stream beside their registers (R538 to R560). -/
structure Tel where
  /-- Statistics counters, 72 bits, by the operand of CNTRD (R540). -/
  stats : SMap (BitVec 72) := []
  perf : SMap Perf := []
  /-- The host ring: 8-byte slot to word (R557). -/
  ring : SMap Word := []
  /-- Moves and flaps of the present epoch, kind and FWD_MOVE_LAST word, to be written at the next boundary (R555). -/
  events : List (Nat × Word) := []
  /-- EN was cleared and the stream stops at the end of the epoch (R557). -/
  stopping : Bool := false
  /-- Epochs merged into the next EPOCH and DEVICE records, and the DEVICE flags HIT, STEP, SWITCH, DHOLD, FHOLD (R555). -/
  epochMerged : Nat := 0
  devMerged : Nat := 0
  hit : Bool := false
  devEv : BitVec 4 := 0
  queues : SMap QAcc := []
  trees : SMap TAcc := []
  ports : SMap PAcc := []
  /-- Uplink delivery: words of the open frame, records in it, the next SEQ, and frames that wait in the staging ring, oldest
  first (R559). -/
  frame : List Word := []
  frameRecs : Nat := 0
  frameSeq : Nat := 0
  staged : List (List Byte) := []
  deriving DecidableEq, Repr

/-- The asynchronous table operations (R178). -/
inductive TKind where
  | write | read | insert | delete | lookup
  deriving DecidableEq, Repr

/-- A table operation an engine has issued and that has not finished (R178). -/
structure TabOp where
  kind : TKind
  /-- Word index of the instruction. -/
  at_ : Nat
  tid : Nat
  /-- The entry, for operations by index. -/
  index : Nat
  /-- The image or key image copied at issue (R179). -/
  image : List Word
  /-- The register written at the end; w0 for none. -/
  d : RegNo
  /-- The destination words: the first and how many. -/
  dst : Nat
  len : Nat
  /-- The generation tag stamped into the entry (R372). -/
  tag : BitVec 16
  deriving DecidableEq, Repr

/-- Why an engine waits in the instruction at which it stands (R177). -/
inductive Stall where
  | none
  /-- WAIT for a time word (R186). -/
  | until_ (t : Word)
  /-- FENCE: the packets, by handle, that looked up before it (R195). -/
  | fence (handles : List Nat)
  /-- TBANK: the drain of the other bank (R196). -/
  | bank
  /-- ENGCTL halt of a map engine (R202). -/
  | halt (t : Nat)
  /-- An access to domains of which some are waking (R119). -/
  | wake (qs : List Nat)
  deriving DecidableEq, Repr

/-- The fragment a command engine executes (R135 to R151). -/
structure Frag where
  ring : Fin 16
  /-- Descriptor counter value. -/
  counter : Nat
  len : Nat
  resAddr : BitVec 64
  resLen : Nat
  noint : Bool
  /-- Words with a set bit among [63:36] (R134). -/
  illegal : List Nat
  /-- The last instruction whose effects stand (R136). -/
  last : Option Nat := none
  /-- One more than the highest result index stored (R184). -/
  results : Nat := 0
  /-- The link went down: its DMA is aborted and its completion entry discarded (R107). -/
  aborted : Bool := false
  /-- The earliest instruction that set the status, and the status: the engine issues nothing more (R150). -/
  ended : Option (Nat × Status) := none
  deriving DecidableEq, Repr

/-- A patch: its version, its map entries and its microwords of 112 bits (R230, R233). -/
structure Patch where
  ver : Nat
  entries : List Word
  words : List Nat
  deriving DecidableEq, Repr

/-- An engine (R165, R166, R174, R207). -/
structure Engine where
  w : Vector Word 32 := Vector.replicate 32 0
  fz : Bool := false
  fn : Bool := false
  fc : Bool := false
  fv : Bool := false
  pc : Nat := 0
  /-- Engine memory: an unlisted word is zero. -/
  mem : SMap Word := []
  /-- Words with an uncorrectable error (R223). -/
  bad : List Nat := []
  /-- A control-store, micro-stack or sequencer fault that the next microword meets: trap vector 1, 2 or 3 (R221). -/
  fault : Option (Fin 4) := none
  /-- A program or routine runs. -/
  run : Bool := false
  /-- Map engine: the microcycles used in this frame (R210). -/
  cyc : Nat := 0
  stall : Stall := .none
  ops : List TabOp := []
  /-- Generation tags by tid (R372). -/
  tags : SMap (BitVec 16) := []
  patch : Option Patch := none
  staged : Option Patch := none
  /-- The fragment executing or awaiting its completion entry. -/
  frag : Option Frag := none
  /-- Plinth: TRAPCAUSE, TRAPPC and TVEC (R168), and the pc interrupted by an event routine (R536). -/
  trapCause : Word := 0
  trapPc : Word := 0
  tvec : Word := 0
  ret : Option Nat := none
  deriving DecidableEq, Repr

/-- One structure of a bandwidth map (R189, R300 to R302): of GRANT, or of QUIET with the ONU-ID it addresses. -/
structure Grant where
  alloc : Nat
  start : Nat
  size : Nat
  fwi : Bool := false
  ploamu : Bool := false
  dbru : Bool := false
  profile : Nat := 0
  quiet : Option Nat := none
  deriving DecidableEq, Repr

/-- The quiet window of a map: the terminal of a ranging window; its start and length in receiver cycles and the start time
s of its structure in start-time units, from the start of the upstream frame; its profile (R278, R313). -/
structure Window where
  term : Option Nat
  w : Nat
  len : Nat
  s : Nat
  profile : Nat
  /-- Structures of the map before it. -/
  after : Nat
  deriving DecidableEq, Repr

/-- The continuation mark of a start time (R300, R301). -/
def startCONT : Nat := 0xFFFF

/-- An expected burst, or an open quiet window, in receiver cycles since the clock started (R251, R278). -/
structure Expect where
  /-- The expected preamble start S, the delimiter end D in equalisation units, the expected end E, and DWIN. For a quiet
  window S and E bound the window. -/
  s : Nat
  d : Nat
  e : Nat
  dwin : Nat
  /-- E of the burst before, at which its window opens at the earliest (R254, R256). -/
  prevE : Nat
  rate : Nat
  fec : Bool := false
  /-- The terminal addressed: none for a discovery window. -/
  term : Option Nat
  quiet : Bool := false
  /-- FRAMEIDX of the frame whose map carried the structure (R280). -/
  frame : Nat
  /-- The cycle at which RSSI_TRIG is armed (R258). -/
  rssi : Option Nat := none
  pulsed : Bool := false
  /-- Its outcome is known; for a quiet window, a burst has been received in it. -/
  heard : Bool := false
  deriving DecidableEq, Repr

/-- A message of an upstream PLOAM queue: the word that PLRECV returns, words 12 and 13 of its record, its 48 bytes (R279,
R280). -/
structure UpPloam where
  term : Nat
  w12 : Word
  w13 : Word
  bytes : List Byte
  deriving DecidableEq, Repr

/-- A line context kept in a slot of always-on memory (R295). -/
structure LineCtx where
  state : Nat := 0
  prof : Nat := 0
  pik : Nat := 0
  vid : Nat := 0
  vssn : Nat := 0
  eqd : Nat := 0
  deriving DecidableEq, Repr

/-- A performance bin (R267 to R270). -/
structure PmBin where
  index : Nat
  es : Nat := 0
  ses : Nat := 0
  uas : Nat := 0
  suspect : Bool := false
  deriving DecidableEq, Repr

/-- Performance of a tree or terminal: bursts granted and errored and LOS in the present second; the seconds not yet
decided, oldest first, with their ES and SES; whether time is unavailable; bins of each kind, newest first (R267 to R269). -/
structure PmScope where
  granted : Nat := 0
  errored : Nat := 0
  los : Bool := false
  hist : List (Nat × Bool × Bool) := []
  unavail : Bool := false
  bins15 : List PmBin := []
  bins24 : List PmBin := []
  deriving DecidableEq, Repr

/-- A tree beside its registers and tables. -/
structure Tree where
  /-- The map under construction (R189), its quiet window (R278), and the structure and offset RSSI has armed (R258). -/
  build : List Grant := []
  window : Option Window := none
  arm : Option (Nat × Nat) := none
  /-- MAP_TRUNC was set in this frame. -/
  trunc : Bool := false
  /-- The map committed in this frame (R211). -/
  committed : Option (List Grant) := none
  /-- The previous frame committed no map (R214). -/
  missed : Bool := false
  /-- A held structure and the maps that still go before the one that carries it (R313). -/
  held : Option (Nat × Grant) := none
  /-- The report queue RPT reads, and the reports for the next boundary: allocation and occupancy, oldest first (R190,
  R312). -/
  reports : List (Nat × Nat) := []
  nextReports : List (Nat × Nat) := []
  /-- The fallback map in force and one that takes effect at the next boundary (R317). -/
  fallback : List Grant := []
  nextFallback : Option (List Grant) := none
  /-- The burst profiles and PON_OPT_CTRL as copied at the last boundary (R249, R256). -/
  profiles : List (List Word) := []
  opt : Word := 0x818100408
  /-- Expected bursts and quiet windows, oldest first, and E of the last one (R251 to R256). -/
  expects : List Expect := []
  lastE : Nat := 0
  /-- The downstream PLOAM queue, oldest first: the terminal and the message without its integrity code; the device's own
  messages, taken first; sequence numbers by terminal (R243, R286). -/
  ploamTx : List (Nat × List Byte) := []
  ploamOwn : List (Nat × List Byte) := []
  ploamSeq : SMap Nat := []
  /-- The upstream PLOAM queue, oldest first (R279). -/
  ploamRx : List UpPloam := []
  /-- Consecutive MISSING bursts by terminal (R273). -/
  missRun : SMap Nat := []
  /-- Terminals in drift hold-off (R284). -/
  holdoff : List Nat := []
  /-- The present high level of SD has counted as a STRAY event, and the upstream frames of recent STRAY events (R259,
  R289). -/
  strayed : Bool := false
  strays : List Nat := []
  /-- The alignment machine's candidate position, confirmations and last superframe counter (R261). -/
  cand : Nat := 0
  conf : Nat := 0
  count : Nat := 0
  /-- The last measured offset of each terminal, for the skew of a bonding group (R265). -/
  offsets : SMap Int := []
  skewMax : Nat := 0
  /-- A switchover: the frame of its trigger, DONE, the frames the exchange has run, and the first offsets of the terminals
  confirmed (R294, R296). -/
  swFrame : Nat := 0
  swDone : Bool := false
  swMoved : Bool := false
  swOffsets : List Int := []
  /-- Performance by terminal, 256 being the tree (R267). -/
  pm : SMap PmScope := []
  deriving DecidableEq, Repr

/-- A time domain beside its registers (R450 to R452). -/
structure DomSt where
  /-- The domain's clock minus the device time base, in the time base's units. -/
  gap : Int := 0
  /-- Consecutive measurements within LOCKTHR. -/
  good : Nat := 0
  /-- Cycles of quoin 24 at the previous accepted measurement. -/
  last : Option Nat := none
  deriving DecidableEq, Repr

/-- Time functions beside their registers (R446 to R467). -/
structure Tim where
  dom : Vector DomSt 2 := Vector.replicate 2 {}
  /-- The time-of-day FIFOs, oldest first (R465). -/
  todTx : Vector (List Byte) 2 := Vector.replicate 2 []
  todRx : Vector (List Byte) 2 := Vector.replicate 2 []
  /-- Credit of each transmitter in 10^-6 bit times (R90). -/
  todCredit : Vector Nat 2 := Vector.replicate 2 0
  /-- The lane of RCLK_OUT had a link-down event and the output has not resumed (R458). -/
  rclkDown : Bool := false
  /-- The time base while quoin 25 keeps it in Deep (R449). -/
  aonTb : Nat := 0
  deriving DecidableEq, Repr

/-! The packets, tables, queues and schedulers of the mortar core. -/

/-- A token bucket: its balance in units of 1 / 9,953,280 byte at a count of cycles (R401). -/
structure Bucket where
  bal : Int := 0
  last : Nat := 0
  deriving DecidableEq, Repr

/-- The buckets and deficit counters of a scheduler node (R401, R409). -/
structure Node where
  com : Bucket := {}
  peak : Bucket := {}
  defC : Int := 0
  defE : Int := 0
  deriving DecidableEq, Repr

/-- A queue: its image, nothing before the first QSET; the handles it holds, the head first (R403, R405). -/
structure Que where
  cfg : List Word := []
  items : List Nat := []
  node : Node := {}
  deriving DecidableEq, Repr

/-- A course: its image, nothing while it is free; its parent; and for each phase and priority the child whose turn it is
(R406 to R409). -/
structure Crs where
  cfg : List Word := []
  parent : Option Nat := none
  node : Node := {}
  turn : SMap Nat := []
  deriving DecidableEq, Repr

/-- A meter: its image, and the buckets Tc and Tp or Te (R415). -/
structure Mtr where
  cfg : List Word := []
  tc : Bucket := {}
  tp : Bucket := {}
  deriving DecidableEq, Repr

/-- A packet inside the device: ingress port index, terminal and XGEM port, its number at the port, its generation tag,
its bytes with FCS as the last pass left them, its corrected ingress time-stamp in 2^-16 ns, class and colour, and whether
it was found bad (R325 to R390). -/
structure Pkt where
  port : Nat
  term : Nat := 0
  gem : Nat := 0
  seq : Nat := 0
  bank : Nat := 0
  bytes : List Byte
  rx : Int := 0
  cls : Nat := 0
  colour : Nat := 0
  bad : Bool := false
  deriving DecidableEq, Repr

/-- What an exception record says of its packet (R346). -/
structure ExRec where
  queue : Nat
  reason : Nat
  pass2 : Bool
  rule : Option Nat
  key0 : Word
  deriving DecidableEq, Repr

/-- Where a packet with a handle is: waiting at a resequencer, in its queue, or leaving through an egress with the ENC, TERM
and GEMPORT its queue had when it was selected (R403, R414). -/
inductive Place where
  | reseq (out : Nat)
  | queued (q : Nat)
  | leaving (egress : Nat) (enc : Bool) (term gem : Nat)
  deriving DecidableEq, Repr

/-- It leaves through an egress. -/
def Place.leaves (x : Place) (g : Nat) : Bool :=
  match x with
  | .leaving e _ _ _ => e = g
  | _ => false

/-- A packet handle (R378). -/
structure Hdl where
  pkt : Pkt
  pool : Nat
  index : Nat
  place : Place
  /-- The queue it is bound for. -/
  queue : Nat := 0
  /-- It is bound for an exception queue. -/
  exq : Option ExRec := none
  /-- The replication sequence number it carries (R486). -/
  fseq : Option Nat := none
  /-- Cycles at its enqueue (R429). -/
  at_ : Nat := 0
  /-- Its hold by the guard band has been counted (R423). -/
  held : Bool := false
  /-- Its tail is stomped (R390). -/
  stomp : Bool := false
  deriving DecidableEq, Repr

/-- A buffer: state bit, reference count, allocation epoch, whether a free list holds it, and what the previous audit
pass found of it (R379, R386, R393). -/
structure Buf where
  used : Bool := false
  refs : Nat := 0
  epoch : Nat := 0
  free : Bool := true
  /-- Leaked (true) or lost (false) suspicion, with the epoch at which it arose. -/
  suspect : Option (Bool × Nat) := none
  deriving DecidableEq, Repr

/-- A learn or move that waits (R368): the key, and the ingress port and terminal. -/
structure Learn where
  move : Bool
  key : Nat
  port : Nat
  term : Nat
  deriving DecidableEq, Repr

/-- A tracker of an entry's moves: cycles at the window's start, its count, and whether it holds the entry (R369). -/
structure Track where
  start : Nat
  count : Nat
  hold : Bool
  deriving DecidableEq, Repr

/-- A committed gate list: list s, entries, cycle in ns and start in ns of the time base (R421). -/
structure GList where
  s : Nat
  len : Nat
  cycle : Nat
  start : Nat
  deriving DecidableEq, Repr

/-- The gates of an egress beside their registers: the lists, the start of the present cycle and the end of the entry in
force, in ns of the time base (R421, R422). -/
structure GateSt where
  oper : Option GList := none
  pend : Option GList := none
  cycleAt : Nat := 0
  entryEnd : Nat := 0
  deriving DecidableEq, Repr

/-- A key slot (R433). -/
inductive KeySlot where
  | empty
  | k128 (k : BitVec 128)
  | k256 (k : BitVec 256)
  | pair (h0 h1 : BitVec 128)
  deriving DecidableEq, Repr

/-- A recovery function of a stream: takeany, rseq and the history, bit i for rseq - i (R487). -/
structure Recov where
  takeany : Bool := true
  rseq : BitVec 16 := 0
  hist : Nat := 0
  deriving DecidableEq, Repr

/-- A replication pair beside its registers: sequence generators and recovery functions by stream (R485 to R487). -/
structure Frer where
  gen : Vector (BitVec 16) 8 := Vector.replicate 8 0
  rcv : Vector Recov 8 := Vector.replicate 8 {}
  deriving DecidableEq, Repr

/-- A bond bundle beside its registers (R492 to R500). -/
structure Bond where
  /-- DATA flits sent, those of each pool, and what the peer has returned of each (R496). -/
  sent : Nat := 0
  used : SMap Nat := []
  returned : SMap Nat := []
  /-- Classes the peer withdrew, and classes this device withdraws (R496). -/
  stopped : BitVec 8 := 0
  stopping : BitVec 8 := 0
  /-- Flits taken from the receive buffer, by pool (R496). -/
  taken : SMap Nat := []
  /-- Replays of the same flit in a row, and which (R494). -/
  replays : Nat := 0
  replaySeq : Nat := 0
  /-- The time-stamps of this device's last TIME message and of the peer's last one received, in 2^-16 ns (R500). -/
  timeSent : Option Int := none
  timeRecv : Option Int := none
  deriving DecidableEq, Repr

/-- The mortar core, the MAC groups and the bond links beside their registers. -/
structure Dp where
  /-- Table entries by tid × 2^22 + index; an unlisted entry is zero (R191, R193). -/
  tab : SMap (List Word) := []
  /-- Entries whose parity fails, and whether each has been reported (R361, R362). -/
  bad : SMap (Option Bool) := []
  learns : List Learn := []
  tracks : List (Nat × Track) := []
  /-- The flush that runs: the count of free values at its start, which decides the buckets it has passed (R371). -/
  flushAt : Nat := 0
  /-- Packets that wait in their ingress quoins, oldest first (R389, R481). -/
  ingress : List Pkt := []
  /-- Uplink ports whose receive buffer rose to 75 % and has not fallen below 50 % (R481). -/
  rxHigh : List Nat := []
  /-- The next sequence number of each ingress port (R388). -/
  seqs : SMap Nat := []
  /-- Handles that wait at the resequencers, in order of parser entry (R388). -/
  swc : List Nat := []
  hdls : SMap (Option Hdl) := []
  bufs : SMap Buf := []
  /-- The exception queues' buckets: units of 1 / 1,244,160,000 packet, and cycles at the last fill (R347). -/
  exq : SMap (Option Bucket) := []
  queues : SMap Que := []
  courses : SMap Crs := []
  meters : SMap Mtr := []
  /-- Packets of capped roots in the present frame (R412). -/
  capCount : Nat := 0
  gates : SMap GateSt := []
  keys : SMap KeySlot := []
  /-- Uplink lanes and bond bundles that UNIT has enabled (R202). -/
  lanesOn : BitVec 40 := 0
  bondOn : BitVec 4 := 0
  /-- Ports whose flush waits, in order of their events; and the count of free values at the start of the flush that runs,
  which decides the queues it has passed (R392). -/
  flushQ : List Nat := []
  portFlushAt : Nat := 0
  frer : Vector Frer 8 := Vector.replicate 8 {}
  bond : Vector Bond 4 := Vector.replicate 4 {}
  deriving DecidableEq, Repr

/-- The machine. -/
structure State where
  /-- Commands that wait, the first at the front. -/
  pending : List Instr
  /-- Variant, stepping and fuses (R1, R13). -/
  chip : Chip
  /-- Every register of BAR0 that differs from its reset value, by offset. -/
  regs : SMap Word
  clk : Clock
  boot : Boot
  host : HostIf
  pwr : Pwr
  flt : Flt
  pln : Pln
  tel : Tel
  cmd : Vector Engine 2
  map : Vector Engine 64
  plinth : Engine
  tree : Vector Tree 64
  /-- Line contexts by always-on slot × 256 + terminal, and those whose parity would fail (R295). -/
  slots : SMap LineCtx
  slotsBad : List Nat
  tim : Tim
  dp : Dp
  /-- What has been sent, oldest first. -/
  outs : List Out
  /-- The model's own field: how many free values have been taken. No statement rests on it. -/
  free : Nat
  deriving DecidableEq, Repr

/-- The part at reset: a GK6450-FB of stepping B0 with its own fuses. -/
def Chip.reset : Chip :=
  { variant := .gk6450fb, stepping := .b0, serial := Config.serial, keysPresent := Config.keysPresent,
    keysRevoked := Config.keysRevoked, kcrm := Config.kcrm }

/-- The machine of a part right after a power-on reset, with RESET_N released and POR_DONE still low (R104, R105). -/
def State.powerOn (chip : Chip) : State :=
  { pending := [], chip, regs := [], clk := {}, boot := {}, host := {}, pwr := {}, flt := {}, pln := {}, tel := {},
    cmd := Vector.replicate 2 {}, map := Vector.replicate 64 {}, plinth := { run := true }, tree := Vector.replicate 64 {}, slots := [], slotsBad := [], tim := {}, dp := {},
    outs := [], free := 0 }

/-- The machine right after reset. -/
def State.reset : State := State.powerOn Chip.reset

end Sys2Proof.Machine
end

