-- ==== Sys2Proof/Machine/Ashlar.lean ====
section
/-! DEFINITION. The words of ashlar instructions: the four formats, each instruction's encoding, and the decoder that
finds a word legal or not in an engine's context (R162 to R164, R171, R180 to R206). -/
namespace Sys2Proof.Machine

/-! Formats (R162). -/

/-- Format A: opcode, d, a, b, fn. -/
def encA (op : Nat) (d a b : RegNo) (fn : Nat) : Word :=
  BitVec.ofNat 36 (op * 2 ^ 30 + d.toNat * 2 ^ 25 + a.toNat * 2 ^ 20 + b.toNat * 2 ^ 15 + fn)

/-- Format I: opcode, d, a, imm20. -/
def encI (op : Nat) (d a : RegNo) (imm : BitVec 20) : Word :=
  BitVec.ofNat 36 (op * 2 ^ 30 + d.toNat * 2 ^ 25 + a.toNat * 2 ^ 20 + imm.toNat)

/-- Format L: opcode, d, imm25. -/
def encL (op : Nat) (d : RegNo) (imm : BitVec 25) : Word :=
  BitVec.ofNat 36 (op * 2 ^ 30 + d.toNat * 2 ^ 25 + imm.toNat)

/-- Format X, first word: opcode, d, a, b, tid, fn. -/
def encX0 (op : Nat) (f : FmtX) : Word :=
  BitVec.ofNat 36 (op * 2 ^ 30 + f.d.toNat * 2 ^ 25 + f.a.toNat * 2 ^ 20 + f.b.toNat * 2 ^ 15 + f.tid.toNat * 2 ^ 7
    + f.fn.toNat)

/-- Format X, second word: c, n, imm26. -/
def encX1 (f : FmtX) : Word := BitVec.ofNat 36 (f.c.toNat * 2 ^ 31 + f.n.toNat * 2 ^ 26 + f.imm.toNat)

/-- The major opcode of a word (R162). -/
def wordOp (w : Word) : Nat := wbits w 35 30

/-- Every instruction of major opcodes 0x20 to 0x2F is format X (R162). -/
def isX (w : Word) : Bool := 0x20 ≤ wordOp w && wordOp w ≤ 0x2F

def wordD (w : Word) : RegNo := BitVec.ofNat 5 (wbits w 29 25)
def wordA (w : Word) : RegNo := BitVec.ofNat 5 (wbits w 24 20)
def wordB (w : Word) : RegNo := BitVec.ofNat 5 (wbits w 19 15)
def wordFn (w : Word) : Nat := wbits w 14 0
def wordImm20 (w : Word) : BitVec 20 := BitVec.ofNat 20 (wbits w 19 0)
def wordImm25 (w : Word) : BitVec 25 := BitVec.ofNat 25 (wbits w 24 0)

/-- The fields of a format-A word. -/
def wordFmtA (w : Word) : FmtA := ⟨wordD w, wordA w, wordB w, BitVec.ofNat 15 (wordFn w)⟩

/-- The fields of a format-X pair. -/
def wordFmtX (w0 w1 : Word) : FmtX :=
  { d := wordD w0, a := wordA w0, b := wordB w0, tid := BitVec.ofNat 8 (wbits w0 14 7), fn := BitVec.ofNat 7 (wbits w0 6 0)
    c := BitVec.ofNat 5 (wbits w1 35 31), n := BitVec.ofNat 5 (wbits w1 30 26), imm := BitVec.ofNat 26 (wbits w1 25 0) }

/-! Encoding: the words of each instruction; the first word alone unless the format is X. -/

/-- The one or two words of an instruction; none for a command that is not an ashlar instruction. -/
def encode (i : Instr) : Option (Word × Option Word) :=
  match i with
  | .add _ d a b => some (encA 0x00 d a b 0x000, none)
  | .adc _ d a b => some (encA 0x00 d a b 0x001, none)
  | .sub _ d a b => some (encA 0x00 d a b 0x002, none)
  | .sbc _ d a b => some (encA 0x00 d a b 0x003, none)
  | .and_ _ d a b => some (encA 0x00 d a b 0x004, none)
  | .or_ _ d a b => some (encA 0x00 d a b 0x005, none)
  | .xor _ d a b => some (encA 0x00 d a b 0x006, none)
  | .andn _ d a b => some (encA 0x00 d a b 0x007, none)
  | .shl _ d a b => some (encA 0x00 d a b 0x008, none)
  | .shr _ d a b => some (encA 0x00 d a b 0x009, none)
  | .sar _ d a b => some (encA 0x00 d a b 0x00A, none)
  | .ror _ d a b => some (encA 0x00 d a b 0x00B, none)
  | .mul _ d a b => some (encA 0x00 d a b 0x00C, none)
  | .mulhu _ d a b => some (encA 0x00 d a b 0x00D, none)
  | .minu _ d a b => some (encA 0x00 d a b 0x00E, none)
  | .maxu _ d a b => some (encA 0x00 d a b 0x00F, none)
  | .cmp _ d a b => some (encA 0x00 d a b 0x010, none)
  | .tst _ d a b => some (encA 0x00 d a b 0x011, none)
  | .clz _ d a b => some (encA 0x00 d a b 0x012, none)
  | .popc _ d a b => some (encA 0x00 d a b 0x013, none)
  | .divu _ d a b => some (encA 0x00 d a b 0x014, none)
  | .remu _ d a b => some (encA 0x00 d a b 0x015, none)
  | .addi _ d a imm => some (encI 0x01 d a imm, none)
  | .cmpi _ d a imm => some (encI 0x02 d a imm, none)
  | .andi _ d a imm => some (encI 0x03 d a imm, none)
  | .ori _ d a imm => some (encI 0x04 d a imm, none)
  | .xori _ d a imm => some (encI 0x05 d a imm, none)
  | .shi _ d a imm => some (encI 0x06 d a imm, none)
  | .lil _ d imm => some (encL 0x07 d imm, none)
  | .lih _ d imm => some (encL 0x08 d imm, none)
  | .bfx _ d a imm => some (encI 0x09 d a imm, none)
  | .bfi _ d a imm => some (encI 0x0A d a imm, none)
  | .ld _ d a imm => some (encI 0x10 d a imm, none)
  | .st _ d a imm => some (encI 0x11 d a imm, none)
  | .rst _ d a imm => some (encI 0x12 d a imm, none)
  | .mfsr _ d a imm => some (encI 0x14 d a imm, none)
  | .mtsr _ d a imm => some (encI 0x15 d a imm, none)
  | .sel _ f => some (encA 0x16 f.d f.a f.b f.fn.toNat, none)
  | .br _ d imm => some (encL 0x18 d imm, none)
  | .jal _ d imm => some (encL 0x19 d imm, none)
  | .jalr _ d a imm => some (encI 0x1A d a imm, none)
  | .end_ _ f => some (encA 0x1B f.d f.a f.b f.fn.toNat, none)
  | .wait _ d a imm => some (encI 0x1C d a imm, none)
  | .trap _ d a imm => some (encI 0x1D d a imm, none)
  | .dbnz _ d a imm => some (encI 0x1E d a imm, none)
  | .grant _ f => some (encX0 0x20 f, some (encX1 f))
  | .rpt _ f => some (encX0 0x21 f, some (encX1 f))
  | .ard _ f => some (encX0 0x22 f, some (encX1 f))
  | .trd _ f => some (encX0 0x23 f, some (encX1 f))
  | .quiet _ f => some (encX0 0x24 f, some (encX1 f))
  | .rssi _ f => some (encX0 0x25 f, some (encX1 f))
  | .twrite _ f => some (encX0 0x28 f, some (encX1 f))
  | .tread _ f => some (encX0 0x29 f, some (encX1 f))
  | .tinsert _ f => some (encX0 0x2A f, some (encX1 f))
  | .tdelete _ f => some (encX0 0x2B f, some (encX1 f))
  | .tlookup _ f => some (encX0 0x2C f, some (encX1 f))
  | .tbank _ f => some (encX0 0x2D f, some (encX1 f))
  | .fence _ f => some (encX0 0x2E f, some (encX1 f))
  | .tgen _ f => some (encX0 0x2F f, some (encX1 f))
  | .qset _ f => some (encA 0x30 f.d f.a f.b f.fn.toNat, none)
  | .qread _ f => some (encA 0x31 f.d f.a f.b f.fn.toNat, none)
  | .cset _ f => some (encA 0x32 f.d f.a f.b f.fn.toNat, none)
  | .clink _ f => some (encA 0x33 f.d f.a f.b f.fn.toNat, none)
  | .cdel _ f => some (encA 0x34 f.d f.a f.b f.fn.toNat, none)
  | .mset _ f => some (encA 0x35 f.d f.a f.b f.fn.toNat, none)
  | .mread _ f => some (encA 0x36 f.d f.a f.b f.fn.toNat, none)
  | .cntrd _ f => some (encA 0x37 f.d f.a f.b f.fn.toNat, none)
  | .tcmp _ f => some (encA 0x38 f.d f.a f.b f.fn.toNat, none)
  | .tget _ f => some (encA 0x39 f.d f.a f.b f.fn.toNat, none)
  | .ttrig _ f => some (encA 0x3A f.d f.a f.b f.fn.toNat, none)
  | .ttrigCancel _ f => some (encA 0x3A f.d f.a f.b f.fn.toNat, none)
  | .tcap _ f => some (encA 0x3B f.d f.a f.b f.fn.toNat, none)
  | .rdreg _ d a b => some (encA 0x3C d a b 0x000, none)
  | .wrreg _ d a b => some (encA 0x3C d a b 0x001, none)
  | .patch _ d a b _ => some (encA 0x3C d a b 0x002, none)
  | .gpload _ d a b _ => some (encA 0x3C d a b 0x003, none)
  | .fbmap _ d a b _ => some (encA 0x3C d a b 0x004, none)
  | .engctlHalt _ d a b => some (encA 0x3C d a b 0x005, none)
  | .engctlStart _ d a b => some (encA 0x3C d a b 0x005, none)
  | .unitEnable _ d a b => some (encA 0x3C d a b 0x006, none)
  | .unitDisable _ d a b => some (encA 0x3C d a b 0x006, none)
  | .pcsel _ d a b => some (encA 0x3C d a b 0x007, none)
  | .pcrd _ d a b => some (encA 0x3C d a b 0x008, none)
  | .tmact _ d a b => some (encA 0x3D d a b 0x000, none)
  | .tmdeact _ d a b => some (encA 0x3D d a b 0x001, none)
  | .tmeqd _ d a b => some (encA 0x3D d a b 0x002, none)
  | .plsend _ d a b => some (encA 0x3D d a b 0x003, none)
  | .plrecv _ d a b => some (encA 0x3D d a b 0x004, none)
  | .kload _ d a b => some (encA 0x3D d a b 0x010, none)
  | .kclr _ d a b => some (encA 0x3D d a b 0x011, none)
  | .cval _ d a b => some (encA 0x3D d a b 0x012, none)
  | .sense _ d a b => some (encA 0x3E d a b 0x000, none)
  | .logw _ d a b => some (encA 0x3E d a b 0x001, none)
  | .flash _ d a b _ => some (encA 0x3E d a b 0x002, none)
  | .updateCheck _ d a b => some (encA 0x3E d a b 0x003, none)
  | .updateStage _ d a b => some (encA 0x3E d a b 0x003, none)
  | .updateConfirm _ d a b => some (encA 0x3E d a b 0x003, none)
  | .updateRevoke _ d a b => some (encA 0x3E d a b 0x003, none)
  | _ => none

/-! Decoding: none for a word that is illegal wherever it stands (R163), by its reserved fields and its fn. -/

/-- Keep an instruction where a condition holds. -/
def keepIf {α : Type} (c : Bool) (x : α) : Option α := if c then some x else none

/-- The codes of R21 other than OK (R187). -/
def trapCode (n : Nat) : Option Status :=
  match n with
  | 0x01 => some .ebusy
  | 0x04 => some .efull
  | 0x08 => some .eabsent
  | 0x09 => some .eparity
  | 0x0A => some .ewake
  | 0x0B => some .eauth
  | 0x0C => some .estate
  | 0x0D => some .erange
  | 0x0E => some .eillegal
  | 0x0F => some .etimeout
  | _ => none

/-- The special registers MTSR may write (R169). -/
def mtsrLegal (e : Eng) (imm : BitVec 20) : Bool :=
  imm = 0 || (imm = 0x12 && (match e with | .plinth => true | _ => false))

/-- Major opcode 0x00 (R180). -/
def decodeArith (e : Eng) (d a b : RegNo) (fn : Nat) : Option Instr :=
  match fn with
  | 0x000 => some (.add e d a b)
  | 0x001 => some (.adc e d a b)
  | 0x002 => some (.sub e d a b)
  | 0x003 => some (.sbc e d a b)
  | 0x004 => some (.and_ e d a b)
  | 0x005 => some (.or_ e d a b)
  | 0x006 => some (.xor e d a b)
  | 0x007 => some (.andn e d a b)
  | 0x008 => some (.shl e d a b)
  | 0x009 => some (.shr e d a b)
  | 0x00A => some (.sar e d a b)
  | 0x00B => some (.ror e d a b)
  | 0x00C => some (.mul e d a b)
  | 0x00D => some (.mulhu e d a b)
  | 0x00E => some (.minu e d a b)
  | 0x00F => some (.maxu e d a b)
  | 0x010 => keepIf (d = 0) (.cmp e d a b)
  | 0x011 => keepIf (d = 0) (.tst e d a b)
  | 0x012 => keepIf (b = 0) (.clz e d a b)
  | 0x013 => keepIf (b = 0) (.popc e d a b)
  | 0x014 => some (.divu e d a b)
  | 0x015 => some (.remu e d a b)
  | _ => none

/-- Major opcode 0x3C (R202). The halt and start forms of ENGCTL and of UNIT share their words. -/
def decodeSystem (e : Eng) (d a b : RegNo) (fn : Nat) : Option Instr :=
  match fn with
  | 0x000 => keepIf (b = 0) (.rdreg e d a b)
  | 0x001 => keepIf (d = 0) (.wrreg e d a b)
  | 0x002 => keepIf (d = 0 && b = 0) (.patch e d a b .absent)
  | 0x003 => keepIf (d = 0 && b = 0) (.gpload e d a b .absent)
  | 0x004 => keepIf (d = 0 && b = 0) (.fbmap e d a b .absent)
  | 0x005 => keepIf (d = 0) (.engctlHalt e d a b)
  | 0x006 => keepIf (d = 0) (.unitDisable e d a b)
  | 0x007 => keepIf (d = 0) (.pcsel e d a b)
  | 0x008 => keepIf (b = 0) (.pcrd e d a b)
  | _ => none

/-- Major opcode 0x3D (R205). -/
def decodeTerm (e : Eng) (d a b : RegNo) (fn : Nat) : Option Instr :=
  match fn with
  | 0x000 => keepIf (d = 0) (.tmact e d a b)
  | 0x001 => keepIf (d = 0 && b = 0) (.tmdeact e d a b)
  | 0x002 => keepIf (d = 0) (.tmeqd e d a b)
  | 0x003 => keepIf (d = 0) (.plsend e d a b)
  | 0x004 => some (.plrecv e d a b)
  | 0x010 => keepIf (d = 0) (.kload e d a b)
  | 0x011 => keepIf (d = 0 && b = 0) (.kclr e d a b)
  | 0x012 => keepIf (b = 0) (.cval e d a b)
  | _ => none

/-- Major opcode 0x3E (R206). The four kinds of UPDATE share their word. -/
def decodePlinth (e : Eng) (d a b : RegNo) (fn : Nat) : Option Instr :=
  match fn with
  | 0x000 => keepIf (b = 0) (.sense e d a b)
  | 0x001 => keepIf (d = 0 && b = 0) (.logw e d a b)
  | 0x002 => keepIf (d = 0 && b = 0) (.flash e d a b false)
  | 0x003 => keepIf (d = 0 && b = 0) (.updateCheck e d a b)
  | _ => none

/-- Major opcodes 0x20 to 0x2F (R188, R192). -/
def decodeX (e : Eng) (op : Nat) (f : FmtX) : Option Instr :=
  let tail0 := f.n = 0 && f.imm = 0
  match op with
  | 0x20 => keepIf (f.d = 0 && f.tid = 0 && f.fn.toNat % 4 = 0 && tail0) (.grant e f)
  | 0x21 => keepIf (f.a = 0 && f.b = 0 && f.c = 0 && f.tid = 0 && f.fn = 0 && tail0) (.rpt e f)
  | 0x22 => keepIf (1 ≤ f.d.toNat && f.d.toNat ≤ 28 && f.b = 0 && f.c = 0 && f.tid = 0 && f.fn = 0 && tail0) (.ard e f)
  | 0x23 => keepIf (f.b = 0 && f.c = 0 && f.tid = 0 && f.fn = 0 && tail0) (.trd e f)
  | 0x24 => keepIf (f.d = 0 && f.tid = 0 && f.fn.toNat ≤ 1 && (f.fn = 1 || f.c = 0) && tail0) (.quiet e f)
  | 0x25 => keepIf (f.d = 0 && f.b = 0 && f.c = 0 && f.tid = 0 && f.fn = 0 && tail0) (.rssi e f)
  | 0x28 => keepIf (f.d = 0 && f.c = 0 && f.fn = 0 && f.imm = 0) (.twrite e f)
  | 0x29 => keepIf (f.d = 0 && f.c = 0 && f.fn = 0 && f.imm = 0) (.tread e f)
  | 0x2A => keepIf (f.b = 0 && f.c = 0 && f.fn = 0 && f.imm = 0) (.tinsert e f)
  | 0x2B => keepIf (f.b = 0 && f.c = 0 && f.fn = 0 && f.imm = 0) (.tdelete e f)
  | 0x2C => keepIf (f.b = 0 && f.c = 0 && f.fn = 0 && f.imm = 0) (.tlookup e f)
  | 0x2D => keepIf (f.d = 0 && f.b = 0 && f.c = 0 && f.tid = 0 && f.fn = 0 && tail0) (.tbank e f)
  | 0x2E => keepIf (f.d = 0 && f.a = 0 && f.b = 0 && f.c = 0 && f.tid = 0 && f.fn = 0 && tail0) (.fence e f)
  | 0x2F => keepIf (f.d = 0 && f.b = 0 && f.c = 0 && f.fn = 0 && tail0) (.tgen e f)
  | _ => none

/-- Format-A instructions of major opcodes 0x16, 0x1B and 0x30 to 0x3B (R183, R185, R197, R199). -/
def decodeA (e : Eng) (op : Nat) (f : FmtA) : Option Instr :=
  let fn := f.fn.toNat
  match op with
  | 0x16 => keepIf (fn < 0xF) (.sel e f)
  | 0x1B => keepIf (f.d = 0 && f.a = 0 && f.b = 0 && fn = 0) (.end_ e f)
  | 0x30 => keepIf (f.d = 0 && fn = 0) (.qset e f)
  | 0x31 => keepIf (f.b = 0 && fn < 3) (.qread e f)
  | 0x32 => keepIf (f.d = 0 && fn = 0) (.cset e f)
  | 0x33 => keepIf (f.d = 0 && fn = 0) (.clink e f)
  | 0x34 => keepIf (f.d = 0 && f.b = 0 && fn = 0) (.cdel e f)
  | 0x35 => keepIf (f.d = 0 && fn = 0) (.mset e f)
  | 0x36 => keepIf (f.d = 0 && fn = 0) (.mread e f)
  | 0x37 => keepIf (1 ≤ f.d.toNat && f.d.toNat ≤ 30 && f.b = 0 && fn < 2) (.cntrd e f)
  | 0x38 => keepIf (fn = 0) (.tcmp e f)
  | 0x39 => keepIf (f.d = 0 && f.b = 0 && fn < 3) (.tget e f)
  | 0x3A =>
    if fn = 0 then keepIf (f.d = 0) (.ttrig e f)
    else keepIf (f.d = 0 && f.b = 0 && fn = 1) (.ttrigCancel e f)
  | 0x3B => keepIf (f.b = 0 && fn = 0) (.tcap e f)
  | _ => none

/-- The instruction a word, with its follower for format X, stands for; none where it is illegal (R163, R167, R168,
R169, R187). -/
def decodeAshlar (e : Eng) (w0 w1 : Word) : Option Instr :=
  let d := wordD w0
  let a := wordA w0
  let i20 := wordImm20 w0
  let i25 := wordImm25 w0
  match wordOp w0 with
  | 0x00 => decodeArith e d a (wordB w0) (wordFn w0)
  | 0x01 => some (.addi e d a i20)
  | 0x02 => keepIf (d = 0) (.cmpi e d a i20)
  | 0x03 => some (.andi e d a i20)
  | 0x04 => some (.ori e d a i20)
  | 0x05 => some (.xori e d a i20)
  | 0x06 => keepIf (i20.toNat < 256) (.shi e d a i20)
  | 0x07 => some (.lil e d i25)
  | 0x08 => keepIf (i25.toNat < 2048) (.lih e d i25)
  | 0x09 => keepIf (i20.toNat < 4096) (.bfx e d a i20)
  | 0x0A => keepIf (i20.toNat < 4096) (.bfi e d a i20)
  | 0x10 => some (.ld e d a i20)
  | 0x11 => some (.st e d a i20)
  | 0x12 => some (.rst e d a i20)
  | 0x14 => keepIf (a = 0 && i20.toNat ≤ 0x12) (.mfsr e d a i20)
  | 0x15 => keepIf (d = 0 && mtsrLegal e i20) (.mtsr e d a i20)
  | 0x18 => keepIf (d.toNat < 0xF) (.br e d i25)
  | 0x19 => some (.jal e d i25)
  | 0x1A => some (.jalr e d a i20)
  | 0x1C => keepIf (d = 0 && i20 = 0) (.wait e d a i20)
  | 0x1D => keepIf (d = 0 && a = 0 && (trapCode i20.toNat).isSome) (.trap e d a i20)
  | 0x1E => keepIf (a = 0) (.dbnz e d a i20)
  | 0x3C => decodeSystem e d a (wordB w0) (wordFn w0)
  | 0x3D => decodeTerm e d a (wordB w0) (wordFn w0)
  | 0x3E => decodePlinth e d a (wordB w0) (wordFn w0)
  | op => if isX w0 then decodeX e op (wordFmtX w0 w1) else decodeA e op (wordFmtA w0)

/-- A word is illegal in its own right. -/
def illegalWord (e : Eng) (w0 w1 : Word) : Bool := (decodeAshlar e w0 w1).isNone

/-- The major opcodes permitted in a context (R171). -/
def permitted (e : Eng) (w0 : Word) : Bool :=
  let op := wordOp w0
  match e with
  | .cmd _ => op < 0x20 || (0x28 ≤ op && op < 0x3E)
  | .map _ => (op < 0x28 && op ≠ 0x12) || op = 0x31 || op = 0x38 || op = 0x39
  | .plinth => (op < 0x20 && op ≠ 0x12) || (0x28 ≤ op && op < 0x3F)

/-- The bit of HCI_RING_PERM an instruction falls under (R155, R202, R205). -/
def permBit (w0 : Word) : Option Nat :=
  let op := wordOp w0
  if op < 0x28 then none
  else if op < 0x30 then some 0
  else if op < 0x38 then some 1
  else if op < 0x3C then some 2
  else if op = 0x3C then some 5
  else if op = 0x3D then (if wordFn w0 < 0x10 then some 3 else some 4)
  else none

/-- Words of an instruction (R162). -/
def instrLen (w0 : Word) : Nat := if isX w0 then 2 else 1

end Sys2Proof.Machine
end

