-- ==== Sys2Proof/Machine/Ops.lean ====
section
/-! DEFINITION. The named operations every chapter shares: registers and their fields, the clock's readings, what is sent,
interrupts, the event log, rejections, fault records, and the counters of R538 to R549. -/
namespace Sys2Proof.Machine

/-! Registers. -/

/-- The value a register holds. -/
def State.rd (s : State) (id : RegId) (i j k : Nat := 0) : Word :=
  sget (BitVec.ofNat 36 (Reg.reset s.chip ⟨id, i, j, k⟩)) s.regs (Reg.offset ⟨id, i, j, k⟩)

/-- The state with a register holding a value. -/
def State.wr (s : State) (id : RegId) (v : Word) (i j k : Nat := 0) : State :=
  { s with regs := sput (BitVec.ofNat 36 (Reg.reset s.chip ⟨id, i, j, k⟩)) s.regs (Reg.offset ⟨id, i, j, k⟩) v }

/-- A field of a register. -/
def State.get (s : State) (f : Fld) (i j k : Nat := 0) : Nat := wbits (s.rd f.id i j k) f.hi f.lo

/-- A one-bit field of a register. -/
def State.flag (s : State) (f : Fld) (i j k : Nat := 0) : Bool := (s.get f i j k) % 2 = 1

/-- The state with a field of a register replaced. -/
def State.set (s : State) (f : Fld) (v : Nat) (i j k : Nat := 0) : State :=
  s.wr f.id (wput (s.rd f.id i j k) f.hi f.lo v) i j k

/-- A counter field advanced by n, stopping at its largest value. -/
def State.inc (s : State) (f : Fld) (n : Nat) (i j k : Nat := 0) : State :=
  s.set f (satAdd (2 ^ (f.hi + 1 - f.lo) - 1) (s.get f i j k) n) i j k

/-- The state with bits of a field set. -/
def State.orBits (s : State) (f : Fld) (m : Nat) (i j k : Nat := 0) : State :=
  s.set f (s.get f i j k ||| m) i j k

/-- A fresh free value: the counter of such values advances. -/
def State.fresh (s : State) : Nat × State := (s.free, { s with free := s.free + 1 })

/-! The clock's readings. -/

/-- The units of the time base in one nanosecond. -/
def tbPerNs : Nat := 3888 * 10 ^ 15

/-- Nanoseconds of the device time base (R446). -/
def State.nowNs (s : State) : Nat := s.clk.tb / tbPerNs

/-- The time base in units of 2^-16 ns (R446). -/
def State.nowFrac (s : State) : Nat := s.clk.tb * 65536 / tbPerNs

/-- NOW: the time word of the device time base (R446). -/
def State.now (s : State) : Word := BitVec.ofNat 36 s.nowNs

/-- The seconds and nanoseconds of a stamp (R523, R532). -/
def State.seconds (s : State) : Nat := s.nowNs / 10 ^ 9
def State.nanos (s : State) : Nat := s.nowNs % 10 ^ 9

/-- The time base's increment per cycle: 3125/3888 ns times 1 + a, a in parts per 10^15 (R447, R454). -/
def State.tbInc (s : State) : Int := 3125 * (10 ^ 15 + signed 36 (s.get F.TIME_RATE_A))

/-- The time base at a cycle of the present frame. -/
def State.tbAt (s : State) (cycle : Nat) : Nat := ((s.clk.tb : Int) + ((cycle : Int) - s.clk.cycle) * s.tbInc).toNat

/-- The time word at a cycle of the present frame. -/
def State.nowAt (s : State) (cycle : Nat) : Word := BitVec.ofNat 36 (s.tbAt cycle / tbPerNs)

/-- The device is in the safe state (R526). -/
def State.safe (s : State) : Bool := s.flag F.FLT_STATUS_SAFE

/-! How register writes end: done, or rejected with a status; and the plain write of the access codes (R18, R19). -/

/-- The outcome of a write within a block. -/
inductive WriteRes where
  | done (s : State)
  | reject (st : Status)

/-- A write under the access codes alone: RW bits take the value, W1C bits written 1 clear, all else stays. -/
def State.plainWrite (s : State) (r : Reg) (v : Word) : State :=
  let d := r.id.desc
  let old := s.rd r.id r.i r.j r.k
  let rw := BitVec.ofNat 36 d.rw
  let w1c := BitVec.ofNat 36 d.w1c
  s.wr r.id ((old &&& ~~~rw &&& ~~~(w1c &&& v)) ||| (v &&& rw)) r.i r.j r.k

/-- A field of a written value. -/
def fv (v : Word) (f : Fld) : Nat := wbits v f.hi f.lo

/-- The read of a register clears its RC bits (R19). -/
def State.clearRc (s : State) (r : Reg) : State :=
  let rc := BitVec.ofNat 36 r.id.desc.rc
  s.wr r.id (s.rd r.id r.i r.j r.k &&& ~~~rc) r.i r.j r.k

/-! What is sent. -/

/-- Append an output. -/
def State.emit (s : State) (o : Out) : State := { s with outs := s.outs ++ [o] }

/-- The function may write host memory (R133). -/
def State.canWrite (s : State) : Bool := s.host.busMaster && !s.host.d3hot

/-- A posted write to host memory or a message, held while the function may not write (R133). -/
def State.post (s : State) (o : Out) : State :=
  if s.canWrite then s.emit o else { s with host := { s.host with held := s.host.held ++ [o] } }

/-! Interrupts (R132, R159). -/

/-- A field of the MSI-X table: a vector's control field starts masked, everything else zero. -/
def State.msixField (s : State) (n : Nat) : BitVec 32 := sget (if n % 4 = 3 then 1 else 0) s.host.msix n

/-- Signal a vector: a masked vector sets its pending bit. -/
def State.signalVector (s : State) (v : Nat) : State :=
  if (s.msixField (4 * v + 3)).toNat % 2 = 1 then
    { s with host := { s.host with pba := s.host.pba ||| BitVec.ofNat 64 (2 ^ v) } }
  else s.post (.msix v)

/-- Signal an interrupt source: its vector where its map register enables it (R159). -/
def State.signal (s : State) (src : Nat) : State :=
  if s.flag F.HCI_INT_MAP_EN src then s.signalVector (s.get F.HCI_INT_MAP_VECTOR src) else s

/-- Set cause bits: the source signals for each bit that goes from 0 to 1 while its enable bit is 1. -/
def State.raise (s : State) (cause en : Fld) (mask src : Nat) (i : Nat := 0) : State :=
  let new := mask &&& (s.get cause i ^^^ (2 ^ (cause.hi + 1 - cause.lo) - 1))
  let s' := s.orBits cause mask i
  if new &&& s.get en i = 0 then s' else s'.signal src

/-! Event log and plinth events. -/

/-- Raise a plinth event (R536). -/
def State.plinthEvent (s : State) (e : Nat) : State :=
  if s.chip.plinth then { s with pln := { s.pln with events := s.pln.events ||| BitVec.ofNat 7 (2 ^ e) } } else s

/-- Write an event-log record: the ring keeps the newest 768 (R532). -/
def State.logRec (s : State) (type origin : Nat) (p0 p1 : Word) : State :=
  if s.chip.plinth then
    let r : LogRec := ⟨type, origin, s.pln.logSeq, s.seconds, s.nanos, p0, p1⟩
    let l := s.pln.log ++ [r]
    { s with pln := { s.pln with log := l.drop (l.length - 768), logSeq := (s.pln.logSeq + 1) % 2 ^ 36 } }
  else s

/-- The records of a type (2, 3 or 4) written in the present second (R532). -/
def State.logRate (s : State) (type : Nat) : Nat :=
  if s.pln.rateSec = s.seconds then (if type = 2 then s.pln.rate2 else if type = 3 then s.pln.rate3 else s.pln.rate4) else 0

/-- One more record of a type in the present second. -/
def State.logTick (s : State) (type : Nat) : State :=
  { s with pln := { s.pln with
      rateSec := s.seconds
      rate2 := s.logRate 2 + b2n (type = 2)
      rate3 := s.logRate 3 + b2n (type = 3)
      rate4 := s.logRate 4 + b2n (type = 4) } }

/-- Write a rate-limited event-log record of type 2, 3 or 4: at most 100 of each a second (R532). -/
def State.logLimited (s : State) (type : Nat) (p0 p1 : Word) : State :=
  if !s.chip.plinth then s
  else if s.logRate type < 100 then (s.logTick type).logRec type 0 p0 p1
  else s.inc F.PLN_LOG_CTRL_DROP 1

/-! Rejections (R158). -/

/-- A rejection: of a register write (opcode and index 0) or of an instruction of a ring's fragment. -/
structure Rejection where
  reg : Bool
  ring : Option Nat
  status : Status
  opcode : Nat := 0
  index : Nat := 0
  deriving DecidableEq, Repr

/-- The HCI_REJECT entry of a rejection. -/
def Rejection.entry (r : Rejection) : Word :=
  BitVec.ofNat 36 (2 ^ 35 + b2n r.reg * 2 ^ 34 + (r.ring.getD 0) % 16 * 2 ^ 30 + r.status.code * 2 ^ 22
    + r.opcode % 64 * 2 ^ 16 + b2n r.ring.isSome * 2 ^ 15 + r.index % 4096)

/-- Only ESTATE and ERANGE are kept as rejections. -/
def Status.logged (st : Status) : Bool :=
  match st with
  | .estate | .erange => true
  | _ => false

/-- Keep a rejection: entry NEXT, the count, and the event log (R158). -/
def State.reject (s : State) (r : Rejection) : State :=
  if r.status.logged then
    let n := s.get F.HCI_REJECT_COUNT_NEXT
    let s1 := s.wr .HCI_REJECT r.entry n
    let s2 := (s1.set F.HCI_REJECT_COUNT_NEXT ((n + 1) % 16)).inc F.HCI_REJECT_COUNT_COUNT 1
    s2.logLimited 2 r.entry 0
  else s

/-- A rejected register write of a block: its error field takes the status and the rejection is kept. -/
def State.rejectReg (s : State) (err : Fld) (st : Status) (i : Nat := 0) : State :=
  (s.set err st.code i).reject { reg := true, ring := none, status := st }

/-! Fault records (R521 to R525). -/

/-- The class of a cause: 0 correctable, 1 contained, 2 fatal (R522). -/
def faultClass (cause : Nat) : Nat := if cause < 0x10 then 0 else if cause < 0x20 then 1 else 2

/-- The record of a fault now (R523). -/
def State.faultRec (s : State) (source cause addr : Nat) (who : Who) (access status detail : Nat) : FaultRec :=
  { w0 := BitVec.ofNat 36 (2 ^ 35 + faultClass cause * 2 ^ 33 + source % 256 * 2 ^ 24 + cause % 256 * 2 ^ 16
      + s.get F.FLT_RING_NEXTSEQ)
    w1 := BitVec.ofNat 36 addr
    w2 := BitVec.ofNat 36 (who.master * 2 ^ 28 + access % 16 * 2 ^ 24 + status % 256 * 2 ^ 16 + detail % 65536)
    w3 := BitVec.ofNat 36 s.seconds
    w4 := BitVec.ofNat 36 s.nanos
    read := false }

/-- The fault ring is full and its oldest record has not been read (R524). -/
def State.faultLost (s : State) : Bool := s.flt.ring.length = 256 && (s.flt.ring.getLast?.map FaultRec.read) = some false

/-- A record enters the ring (R524). -/
def State.faultPush (s : State) (r : FaultRec) : State :=
  let s1 := { s with flt := { s.flt with ring := (r :: s.flt.ring).take 256 } }
  (s1.set F.FLT_RING_COUNT (min 256 (s.flt.ring.length + 1))).set F.FLT_RING_NEXTSEQ ((s.get F.FLT_RING_NEXTSEQ + 1) % 65536)

/-- The status bit and the count of a class (R521). -/
def State.faultTally (s : State) (c : Nat) : State :=
  if c = 0 then (s.set F.FLT_STATUS_COR 1).inc F.FLT_CNT_COR 1
  else if c = 1 then (s.set F.FLT_STATUS_UNC 1).inc F.FLT_CNT_UNC 1
  else (s.set F.FLT_STATUS_FAT 1).inc F.FLT_CNT_FATC 1

/-- The first-error capture of a class: the first record, and how many came after it (R525). -/
def State.faultFirst (s : State) (c : Nat) (r : FaultRec) : State :=
  if (s.rd .FLT_FIRST c 0).toNat / 2 ^ 35 = 1 then s.inc ⟨.FLT_FIRST, 15, 0⟩ 1 c 5
  else ((((s.wr .FLT_FIRST r.w0 c 0).wr .FLT_FIRST r.w1 c 1).wr .FLT_FIRST r.w2 c 2).wr .FLT_FIRST r.w3 c 3).wr .FLT_FIRST r.w4 c 4

/-- A record was lost unread (R524). -/
def State.faultOverflow (s : State) (lost : Bool) : State := if lost then s.set F.FLT_STATUS_OVF 1 else s

/-- Write a fault record into the ring and the first-error capture, count it and signal it. Entering the safe state on a
fatal record is the caller's. -/
def State.faultWrite (s : State) (source cause addr : Nat) (who : Who) (access status detail : Nat) : State :=
  let c := faultClass cause
  let r := s.faultRec source cause addr who access status detail
  let s1 := (((s.faultPush r).faultTally c).faultOverflow s.faultLost).faultFirst c r
  ((s1.raise F.FLT_INT_CAUSE_CAUSE F.FLT_INT_EN_EN (2 ^ c + b2n s.faultLost * 8) 17).logRec 0x001 0 r.w0 r.w1).plinthEvent 1

/-! Counters. -/

/-- The operand of CNTRD that names a statistics counter (R540). -/
def statKey (family inst event : Nat) : Nat := family * 2 ^ 30 + inst * 2 ^ 8 + event

/-- Advance a statistics counter by n, modulo 2^72 (R539). -/
def State.count (s : State) (family inst event : Nat) (n : Nat := 1) : State :=
  { s with tel := { s.tel with stats := smod 0 s.tel.stats (statKey family inst event) (fun v => v + BitVec.ofNat 72 n) } }

/-- A performance counter after n events, and whether it wrapped (R546). -/
def Perf.add (p : Perf) (n : Nat) : Perf × Bool :=
  let v := p.value + n
  if v < 2 ^ 35 then ({ p with value := v }, false) else ({ p with value := v % 2 ^ 35, sticky := true }, true)

/-- The fields of a selection word (R543). -/
def Perf.src (p : Perf) : Nat := wbits p.sel 35 30
def Perf.mode (p : Perf) : Nat := wbits p.sel 29 28
def Perf.frz (p : Perf) : Bool := wbits p.sel 27 27 = 1
def Perf.inst (p : Perf) : Nat := wbits p.sel 26 9
def Perf.thr (p : Perf) : Nat := wbits p.sel 8 4 * 4 ^ wbits p.sel 3 0

/-- Set the wrap bit of a counter (R546, R547). -/
def State.perfWrapped (s : State) (i : Nat) : State :=
  s.raise F.PC_WRAP_WRAP F.PC_WRAP_EN_EN (2 ^ (i % 32)) 31 (i / 32)

/-- Apply to every selected performance counter what f says it counts (0 leaves it). -/
def State.perfFold (f : Perf → Nat) (s : State) : SMap Perf → State
  | [] => s
  | (i, p) :: ps =>
    let n := if p.frz ∧ s.flag F.PC_FRZ_CTRL_FROZEN then 0 else f p
    let s' :=
      if n = 0 then s
      else
        let (p', w) := p.add n
        let s1 := { s with tel := { s.tel with perf := sput {} s.tel.perf i p' } }
        if w then s1.perfWrapped i else s1
    State.perfFold f s' ps

/-- n events of a source and instance, for every counter that counts them (R544). -/
def State.perfEvent (s : State) (src inst : Nat) (n : Nat := 1) : State :=
  State.perfFold (fun p => if p.src = src ∧ p.mode = 0 ∧ p.inst = inst then n else 0) s s.tel.perf

end Sys2Proof.Machine
end

