-- ==== Sys2Proof/Machine/Engine.lean ====
section
/-! DEFINITION. Engines: registers, memory, the order of checks every instruction passes, and how one that fails ends its
fragment, its map or its routine (R162 to R179, R215, R221 to R229). -/
namespace Sys2Proof.Machine

/-! Engines and their registers. -/

/-- An engine. -/
def State.eng (s : State) (e : Eng) : Engine :=
  match e with
  | .cmd c => s.cmd.get c
  | .map t => s.map.get t
  | .plinth => s.plinth

/-- The state with an engine replaced. -/
def State.setEng (s : State) (e : Eng) (en : Engine) : State :=
  match e with
  | .cmd c => { s with cmd := s.cmd.set c en }
  | .map t => { s with map := s.map.set t en }
  | .plinth => { s with plinth := en }

/-- A tree. -/
def State.tr (s : State) (t : Fin 64) : Tree := s.tree.get t

/-- The state with a tree changed. -/
def State.modTree (s : State) (t : Fin 64) (f : Tree → Tree) : State := { s with tree := s.tree.set t (f (s.tree.get t)) }

/-- A word register: w0 reads zero (R165). -/
def Engine.reg (en : Engine) (r : RegNo) : Word := if r = 0 then 0 else en.w.get r.toFin

/-- A word register written: a write to w0 is discarded (R165). -/
def Engine.setReg (en : Engine) (r : RegNo) (v : Word) : Engine :=
  if r = 0 then en else { en with w := en.w.set r.toFin v }

/-- The flags as a number: N, Z, C, V from bit 3 (R168). -/
def Engine.flagNibble (en : Engine) : Nat := b2n en.fn * 8 + b2n en.fz * 4 + b2n en.fc * 2 + b2n en.fv

/-- A register of an engine. -/
def State.reg (s : State) (e : Eng) (r : RegNo) : Word := (s.eng e).reg r

/-- The state with a register of an engine written. -/
def State.setReg (s : State) (e : Eng) (r : RegNo) (v : Word) : State := s.setEng e ((s.eng e).setReg r v)

/-- The party an engine is (R523). -/
def engWho (e : Eng) : Who :=
  match e with
  | .cmd c => .cmd c
  | .map t => .map t
  | .plinth => .plinth

/-! Engine memory (R174, R175). -/

/-- Words of an engine's memory. -/
def engMemWords (e : Eng) : Nat :=
  match e with
  | .cmd _ => 8192
  | .map _ => 65536
  | .plinth => 262144

/-- A word of engine memory; the plinth's lowest words are its ROM (R529). -/
def State.mem (s : State) (e : Eng) (a : Nat) : Word :=
  match e with
  | .plinth => if a < 0x10000 then Config.plinthRom a else sget 0 s.plinth.mem a
  | _ => sget 0 (s.eng e).mem a

/-- A stored word: the error mark of the word goes (R223). -/
def State.setMem (s : State) (e : Eng) (a : Nat) (v : Word) : State :=
  let en := s.eng e
  s.setEng e { en with mem := sput 0 en.mem a v, bad := en.bad.filter (fun x => x ≠ a) }

/-- n words from a. -/
def State.memRange (s : State) (e : Eng) (a n : Nat) : List Word := (range' a n).map (s.mem e)

/-- Words stored from a onward. -/
def State.storeRange (s : State) (e : Eng) : Nat → List Word → State
  | _, [] => s
  | a, v :: vs => State.storeRange (s.setMem e a v) e (a + 1) vs

/-- The effective address a + sign-extended imm20, modulo 2^36 (R175). -/
def effAddr (a : Word) (imm : BitVec 20) : Nat := (a + imm.signExtend 36).toNat

/-- The n words from a all lie in the engine's memory. -/
def engInMem (e : Eng) (a n : Nat) : Bool := a + n ≤ engMemWords e

/-- A store to a word is permitted: the fragment's words of a command engine and the plinth's ROM are not stored to
(R175, R529). -/
def engStorable (e : Eng) (a n : Nat) : Bool :=
  engInMem e a n &&
    (match e with
     | .cmd _ => 0x1000 ≤ a
     | .map _ => true
     | .plinth => 0x10000 ≤ a)

/-- A word among n from a has an uncorrectable error (R223). -/
def Engine.badIn (en : Engine) (a n : Nat) : Bool := en.bad.any (fun x => a ≤ x && x < a + n)

/-- A register waits for an outstanding table operation (R179). -/
def Engine.regPending (en : Engine) (r : RegNo) : Bool := r ≠ 0 && en.ops.any (fun o => o.d = r)

/-- A word among n from a waits for an outstanding table operation (R179). -/
def Engine.memPending (en : Engine) (a n : Nat) : Bool := en.ops.any (fun o => a < o.dst + o.len && o.dst < a + n)

/-! Running and fetching. -/

/-- The number of a map or command engine in the tables of R224 and R234. -/
def engNum (e : Eng) : Nat :=
  match e with
  | .map t => t.val
  | .cmd c => 64 + c.val
  | .plinth => 66

/-- STATE of a map engine (R226). -/
def engHALTED : Nat := 1
def engSTARTED : Nat := 2
def engFAULTED : Nat := 3
def engSTARTING : Nat := 4

/-- The engine is at an instruction: a fragment executes that has not ended, a map program runs in this frame, or the
plinth runs. -/
def State.engRuns (s : State) (e : Eng) : Bool :=
  match e with
  | .cmd c =>
    s.get F.CMD_ENG_STATUS_STATE c = 2 &&
      (match (s.cmd.get c).frag with
       | some f => f.ended.isNone
       | none => false)
  | .map t => s.get F.MAP_ENG_STATUS_STATE t = engSTARTED && (s.map.get t).run
  | .plinth => s.chip.plinth && s.boot.porDone && s.plinth.run

/-- The engine may take the instruction at which it stands: it does not wait inside it. -/
def Stall.open (st : Stall) : Bool :=
  match st with
  | .none | .wake _ => true
  | _ => false

/-- Words a program counter may stand at (R164): the fragment's, or the engine memory's. -/
def State.fetchLimit (s : State) (e : Eng) : Nat :=
  match e with
  | .cmd c =>
    match (s.cmd.get c).frag with
    | some f => f.len
    | none => 0
  | _ => engMemWords e

/-- The word at pc came from a host slot with a set bit among [63:36] (R134). -/
def State.slotIllegal (s : State) (e : Eng) (pc : Nat) : Bool :=
  match e with
  | .cmd c =>
    match (s.cmd.get c).frag with
    | some f => f.illegal.contains pc
    | none => false
  | _ => false

/-- The version of the command interface is 1.1 (R126, R161). -/
def State.v11 (s : State) : Bool := s.get F.HCI_NEGOTIATE_MAJOR = 1 && s.get F.HCI_NEGOTIATE_MINOR = 1

/-- The ring of an engine's fragment permits the word (R155). -/
def State.ringPermits (s : State) (e : Eng) (w0 : Word) : Bool :=
  match e with
  | .cmd c =>
    match (s.cmd.get c).frag, permBit w0 with
    | some f, some b => !s.v11 || bit (s.rd .HCI_RING_PERM f.ring).toNat b
    | _, _ => true
  | _ => true

/-! Traps (R221 to R225). -/

/-- The microcycle an engine stands at. -/
def State.engCycle (s : State) (e : Eng) : Nat :=
  match e with
  | .map _ => (s.eng e).cyc
  | _ => s.clk.cycle

/-- The ring of an engine's fragment, 0 for other engines. -/
def State.engRing (s : State) (e : Eng) : Nat :=
  match (s.eng e).frag with
  | some f => f.ring
  | none => 0

/-- The sixteen words of a save area. The micro-state is not fixed by the manual (the microwords' datapath is undescribed,
R217): its words are free values. -/
def State.saveImage (s : State) (e : Eng) (vec status apc : Nat) : List Word :=
  let k := s.free
  let fw := fun i => (Config.freeWord (k + i)).toNat
  let depth := fw 0 % 5
  let stack := fun i => BitVec.ofNat 36 (if i < depth then fw (3 + i) % 2 ^ 14 else 0)
  [BitVec.ofNat 36 (2 ^ 35 + depth * 2 ^ 32 + vec * 2 ^ 24 + status * 2 ^ 16 + fw 1 % 2 ^ 14), stack 0, stack 1, stack 2, stack 3,
    BitVec.ofNat 36 ((s.eng e).flagNibble * 16 + fw 2 % 16), Config.freeWord (k + 7), Config.freeWord (k + 8),
    Config.freeWord (k + 9), Config.freeWord (k + 10), Config.freeWord (k + 11), Config.freeWord (k + 12),
    Config.freeWord (k + 13), Config.freeWord (k + 14), BitVec.ofNat 36 (s.engRing e * 2 ^ 16 + apc % 2 ^ 16),
    BitVec.ofNat 36 (s.clk.frame % 2 ^ 18 * 2 ^ 18 + s.engCycle e % 2 ^ 18)]

/-- Words written to a save area from word k. -/
def State.putSave (s : State) (n level : Nat) : Nat → List Word → State
  | _, [] => s
  | k, w :: ws => State.putSave (s.wr .MCODE_SAVE w n level k) n level (k + 1) ws

/-- Write a save area. -/
def State.writeSave (s : State) (n level : Nat) (e : Eng) (vec : Nat) (status : Nat) (apc : Nat) : State :=
  { s.putSave n level 0 (s.saveImage e vec status apc) with free := s.free + 15 }

/-- The save area of a level-1 trap: written only while VALID is 0 (R224). -/
def State.saveTrap (s : State) (e : Eng) (vec : Nat) (status : Nat) (apc : Nat) : State :=
  match e with
  | .plinth => s
  | _ => if (s.rd .MCODE_SAVE (engNum e) 1 0).toNat / 2 ^ 35 = 1 then s else s.writeSave (engNum e) 1 e vec status apc

/-- The structures of the frame's map are discarded, with the structure its quiet window holds (R173, R215, R314). -/
def Tree.drop (x : Tree) : Tree :=
  { x with build := [], committed := none, window := none, arm := none, held := if x.window.isSome then none else x.held }

/-- Stop a map engine for the frame. -/
def State.dropMap (s : State) (t : Fin 64) : State :=
  let en := s.map.get t
  (s.setEng (.map t) { en with run := false, stall := .none }).modTree t Tree.drop

/-- The record of a level-1 trap of a map engine: status register, count and interrupt (R226 to R229). -/
def State.mapTrap (s : State) (t : Fin 64) (vec : Nat) (status : Nat) : State :=
  let s1 := (s.set F.MAP_ENG_STATUS_LASTSTAT status t).set F.MAP_ENG_STATUS_LASTVEC vec t
  if vec = 4 then
    ((s1.set F.MAP_ENG_STATUS_OVR 1 t).inc F.MAP_EVT_CNT_OVERRUN 1 t).raise ⟨.MAP_INT_CAUSE, 3, 0⟩ F.MAP_INT_EN_EN 1 21
  else
    ((s1.set F.MAP_ENG_STATUS_FLT 1 t).inc F.MAP_EVT_CNT_FAULTS 1 t).raise ⟨.MAP_INT_CAUSE, 3, 0⟩ F.MAP_INT_EN_EN 4 21

/-- An instruction at word idx completes with a status other than OK: the context's outcome (R173, R223), trap vector 5,
or 6 for an uncorrectable engine-memory error. -/
def State.failInstr (s : State) (e : Eng) (idx : Nat) (op : Nat) (st : Status) (vec : Nat := 5) : State :=
  let s1 := s.saveTrap e vec st.code idx
  match e with
  | .cmd c =>
    let en := s1.cmd.get c
    match en.frag with
    | none => s1
    | some f =>
      let ended :=
        match f.ended with
        | some (i, st') => if i ≤ idx then some (i, st') else some (idx, st)
        | none => some (idx, st)
      let s2 := (s1.setEng e { en with frag := some { f with ended }, stall := .none }).set F.CMD_ENG_STATUS_LASTVEC vec c
      s2.reject { reg := false, ring := some f.ring, status := st, opcode := op, index := idx }
  | .map t => (s1.mapTrap t vec st.code).dropMap t
  | .plinth =>
    let en := s1.plinth
    s1.setEng e { en with trapCause := BitVec.ofNat 36 st.code, trapPc := BitVec.ofNat 36 idx, pc := en.tvec.toNat, stall := .none }

/-- An engine becomes FAULTED on a trap of vector 1, 2 or 3 (R225). -/
def State.engineFault (s : State) (e : Eng) (vec : Nat) : State :=
  let en := s.eng e
  let st : Status := if vec = 1 then .eparity else .eillegal
  let upc := (Config.freeWord s.free).toNat % 2 ^ 14
  let s0 := { s with free := s.free + 1 }
  let s1 := (s0.saveTrap e vec st.code en.pc).faultWrite 0x26 0x17 upc (engWho e) 3 st.code vec
  match e with
  | .cmd c =>
    let s2 := ((s1.set F.CMD_ENG_STATUS_STATE engFAULTED c).set F.CMD_ENG_STATUS_LASTVEC vec c).set F.CMD_ENG_STATUS_FLT 1 c
    let en2 := s2.cmd.get c
    let s3 := s2.setEng e { en2 with stall := .none, frag := en2.frag.map (fun f => { f with ended := some (f.ended.getD (en.pc, st)) }) }
    s3.raise ⟨.MAP_INT_CAUSE, 3, 0⟩ F.MAP_INT_EN_EN 8 21
  | .map t => ((s1.mapTrap t vec st.code).dropMap t).set F.MAP_ENG_STATUS_STATE engFAULTED t
  | .plinth => s1

/-! One instruction. -/

/-- How an instruction's own work ends. -/
inductive Res where
  /-- It completes with OK and execution goes on at the next word. -/
  | ok (s : State)
  /-- It completes with OK at a cost of its own, and execution goes on at a word. -/
  | jump (s : State) (target cost : Nat)
  /-- It completes with OK and the engine no longer stands at it (END). -/
  | done (s : State)
  /-- It has not completed: the engine waits in it. -/
  | wait (s : State)
  /-- It completes with another status, with the side effects of s. -/
  | fail (st : Status) (s : State)
  /-- It read a word with an uncorrectable error (trap vector 6). -/
  | memErr

/-- The last microcycle of a map program may fall at cycle 143,078 (R210). -/
def mapBudget : Nat := 143079

/-- The engine's microcycles advanced (map engines; R177). -/
def State.spend (s : State) (e : Eng) (n : Nat) : State :=
  match e with
  | .map t =>
    let en := s.map.get t
    (s.setEng e { en with cyc := en.cyc + n }).perfEvent 9 t n
  | _ => s

/-- The lowest waiting event, where image firmware runs and no routine does: a zero vector ignores it (R529, R536). -/
def State.plinthTake : Nat → State → State
  | 0, s => s
  | n + 1, s =>
    let e := 6 - n
    let bitE : BitVec 7 := BitVec.ofNat 7 (2 ^ e)
    if s.get F.PLN_STATUS_STATE = 1 || s.plinth.ret.isSome || s.pln.events &&& bitE = 0 then State.plinthTake n s
    else
      let s1 := { s with pln := { s.pln with events := s.pln.events &&& ~~~bitE } }
      let v := s.mem .plinth (0x10000 + e)
      if v = 0 then State.plinthTake n s1
      else { s1 with plinth := { s1.plinth with ret := some s1.plinth.pc, pc := v.toNat } }

/-- An instruction retires: LAST names it (R136), the pc moves and no wait is left; the plinth then takes a
waiting event (R536). -/
def State.retire (s : State) (e : Eng) (idx target : Nat) : State :=
  let en := s.eng e
  let s1 := s.setEng e { en with pc := target, stall := .none, frag := en.frag.map (fun f => { f with last := some idx }) }
  match e with
  | .plinth => s1.plinthTake 7
  | _ => s1

/-- The cost does not fit the frame's budget: the instruction has no effect and the engine stands at the deadline (R215). -/
def State.overBudget (s : State) (e : Eng) (cost : Nat) : Bool :=
  match e with
  | .map t => mapBudget < (s.map.get t).cyc + cost
  | _ => false

/-- The engine stands at the deadline. -/
def State.atDeadline (s : State) (e : Eng) : State :=
  let en := s.eng e
  s.setEng e { en with cyc := mapBudget }

/-- The end of an instruction of given cost at word idx, of len words. -/
def State.finishInstr (s : State) (e : Eng) (idx len op cost : Nat) (r : Res) : State :=
  match r with
  | .ok s' => if s.overBudget e cost then s.atDeadline e else (s'.spend e cost).retire e idx (idx + len)
  | .jump s' t c => if s.overBudget e c then s.atDeadline e else (s'.spend e c).retire e idx t
  | .done s' => if s.overBudget e cost then s.atDeadline e else s'.spend e cost
  | .wait s' => s'
  | .fail st s' => if s.overBudget e cost then s.atDeadline e else (s'.spend e cost).failInstr e idx op st
  | .memErr => if s.overBudget e cost then s.atDeadline e else (s.spend e cost).failInstr e idx op .eparity 6

/-- The words at the engine's pc spell the instruction. -/
def State.spells (s : State) (e : Eng) (i : Instr) : Bool :=
  let pc := (s.eng e).pc
  match encode i with
  | some (w0, none) => s.mem e pc = w0
  | some (w0, some w1) => s.mem e pc = w0 && s.mem e (pc + 1) = w1
  | none => false

/-- An engine executes the instruction at which it stands, if i is that instruction: the checks of R163, R164, R171 and
R155, the stall of R179 on pending registers, then the instruction's own work. A word that is illegal in itself completes
with EILLEGAL whatever is named; a word that spells another instruction leaves the command without effect. -/
def State.runInstr (s : State) (e : Eng) (i : Instr) (regs : List RegNo) (cost : Nat) (body : State → Res) : State :=
  let en := s.eng e
  let pc := en.pc
  let w0 := s.mem e pc
  let op := wordOp w0
  if !s.engRuns e || !en.stall.open then s
  else match en.fault with
  | some v => s.engineFault e v.val
  | none =>
    if s.fetchLimit e ≤ pc then s.finishInstr e (s.fetchLimit e) 1 op 1 (.fail .eillegal s)
    else if en.badIn pc (instrLen w0) then s.finishInstr e pc 1 op 1 .memErr
    else if isX w0 && s.fetchLimit e ≤ pc + 1 then s.finishInstr e (s.fetchLimit e) 1 op 1 (.fail .eillegal s)
    else if s.slotIllegal e pc || (isX w0 && s.slotIllegal e (pc + 1)) || illegalWord e w0 (s.mem e (pc + 1)) then
      s.finishInstr e pc 1 op 1 (.fail .eillegal s)
    else if !s.spells e i then s
    else if !permitted e w0 || !s.ringPermits e w0 then s.finishInstr e pc (instrLen w0) op cost (.fail .eillegal s)
    else if regs.any en.regPending then s
    else s.finishInstr e pc (instrLen w0) op cost (body s)

/-- The meaning of an ashlar instruction. -/
def instr (e : Eng) (i : Instr) (regs : List RegNo) (cost : Nat) (body : State → Res) (s : State) :
    Host.Outcome State Fault Refusal :=
  .next (s.runInstr e i regs cost body)

end Sys2Proof.Machine
end

