-- ==== Sys2Proof/Machine/Flags.lean ====
section
/-! DEFINITION. Results and flags of the arithmetic, logic, shift and field operations (R166, R167, R180 to R182, R200). -/
namespace Sys2Proof.Machine

/-- A result and the flags an operation sets; a flag it does not name stays. -/
structure Alu where
  v : Word
  z : Option Bool := none
  n : Option Bool := none
  c : Option Bool := none
  o : Option Bool := none
  deriving DecidableEq, Repr

/-- Z and N of a result (R166). -/
def zOf (v : Word) : Option Bool := some (v = 0)
def nOf (v : Word) : Option Bool := some v.msb

/-- A result that sets Z and N and clears C and V. -/
def aluLogic (v : Word) : Alu := { v, z := zOf v, n := nOf v, c := some false, o := some false }

/-- Addition with a carry in: C the carry out of bit 35, V signed overflow (R166). -/
def aluAdd (a b : Word) (cin : Bool) : Alu :=
  let t := a.toNat + b.toNat + b2n cin
  let r := BitVec.ofNat 36 t
  { v := r, z := zOf r, n := nOf r, c := some (decide (2 ^ 36 ≤ t))
    o := some (decide (a.toInt + b.toInt + b2n cin ≠ r.toInt)) }

/-- Subtraction with a borrow in: C the borrow, V signed overflow (R166). -/
def aluSub (a b : Word) (cin : Bool) : Alu :=
  let r := a - b - BitVec.ofNat 36 (b2n cin)
  { v := r, z := zOf r, n := nOf r, c := some (decide (a.toNat < b.toNat + b2n cin))
    o := some (decide (a.toInt - b.toInt - b2n cin ≠ r.toInt)) }

/-- A shifted result: C the last bit shifted out, V cleared (R182). -/
def aluShift (v : Word) (last : Bool) : Alu := { v, z := zOf v, n := nOf v, c := some last, o := some false }

/-- The kinds of shift (R181). -/
inductive ShiftKind where
  | shl | shr | sar | ror
  deriving DecidableEq, Repr

/-- The kind a two-bit field names (R181). -/
def shiftKind (k : Nat) : ShiftKind :=
  match k with
  | 0 => .shl
  | 1 => .shr
  | 2 => .sar
  | _ => .ror

/-- A shift or rotation by 0 to 63 (R180, R182). -/
def aluShiftBy (k : ShiftKind) (a : Word) (n : Nat) : Alu :=
  match k with
  | .shl => aluShift (a <<< n) (decide (0 < n ∧ n ≤ 36) && bit a.toNat (36 - n))
  | .shr => aluShift (a >>> n) (decide (0 < n ∧ n ≤ 36) && bit a.toNat (n - 1))
  | .sar => aluShift (a.sshiftRight n) (decide (0 < n) && (if n ≤ 36 then bit a.toNat (n - 1) else a.msb))
  | .ror => aluLogic (a.rotateRight (n % 36))

/-- Unsigned division: by zero all ones with V set (R182). -/
def aluDivu (a b : Word) : Alu :=
  let r : Word := if b = 0 then 0xFFFFFFFFF else BitVec.ofNat 36 (a.toNat / b.toNat)
  { v := r, z := zOf r, o := some (decide (b = 0)) }

/-- Unsigned remainder: by zero a with V set (R182). -/
def aluRemu (a b : Word) : Alu :=
  let r : Word := if b = 0 then a else BitVec.ofNat 36 (a.toNat % b.toNat)
  { v := r, z := zOf r, o := some (decide (b = 0)) }

/-- A result that sets Z alone. -/
def aluZ (v : Word) : Alu := { v, z := zOf v }

/-- A result that sets Z and N alone. -/
def aluZN (v : Word) : Alu := { v, z := zOf v, n := nOf v }

/-- A result that sets no flag. -/
def aluPlain (v : Word) : Alu := { v }

/-- TCMP: the signed difference of two time words; at exactly 2^35 ns apart a is judged earlier (R200). -/
def aluTcmp (a b : Word) : Alu := aluLogic (a - b)

/-- Whether a time word lies before another, as R200 judges. -/
def timeBefore (a b : Word) : Bool := (a - b).msb

/-- A condition code tested against the flags (R167); code 0xF and above never stand. -/
def condHolds (code : Nat) (z n c v : Bool) : Bool :=
  match code with
  | 0x0 => true
  | 0x1 => z
  | 0x2 => !z
  | 0x3 => n != v
  | 0x4 => n == v
  | 0x5 => !z && n == v
  | 0x6 => z || n != v
  | 0x7 => c
  | 0x8 => !c
  | 0x9 => !c && !z
  | 0xA => c || z
  | 0xB => n
  | 0xC => !n
  | 0xD => v
  | 0xE => !v
  | _ => false

end Sys2Proof.Machine
end

