-- ==== Sys2Proof/Machine/Operands.lean ====
section
/-! DEFINITION. Operand forms: registers, immediates, effective addresses, images and destinations in engine memory, and
the writing of a result with its flags (R162, R165, R175, R179, R183). -/
namespace Sys2Proof.Machine

/-- imm20 sign-extended and zero-extended (R162). -/
def sx20 (imm : BitVec 20) : Word := imm.signExtend 36
def zx20 (imm : BitVec 20) : Word := imm.zeroExtend 36
def zx25 (imm : BitVec 25) : Word := imm.zeroExtend 36

/-- An engine with the flags an operation sets. -/
def Engine.setFlags (en : Engine) (r : Alu) : Engine :=
  { en with fz := r.z.getD en.fz, fn := r.n.getD en.fn, fc := r.c.getD en.fc, fv := r.o.getD en.fv }

/-- The state with a result written to d and its flags set. -/
def State.putAlu (s : State) (e : Eng) (d : RegNo) (r : Alu) : State :=
  s.setEng e (((s.eng e).setFlags r).setReg d r.v)

/-- The state with flags set and no register written. -/
def State.putFlags (s : State) (e : Eng) (r : Alu) : State := s.setEng e ((s.eng e).setFlags r)

/-- A condition code holds for an engine. -/
def State.cond (s : State) (e : Eng) (code : Nat) : Bool :=
  let en := s.eng e
  condHolds code en.fz en.fn en.fc en.fv

/-- A jump's target, if it lies within the program's memory (R185). -/
def State.target (s : State) (e : Eng) (t : Word) (cost : Nat) (k : State) : Res :=
  if t.toNat < s.fetchLimit e then .jump k t.toNat cost else .fail .erange s

/-- n words of engine memory from an address in a register, read by an instruction: ERANGE outside memory, the stall of a
pending word, an uncorrectable error, or the words. -/
def State.image (s : State) (e : Eng) (addr : Word) (n : Nat) (k : List Word → Res) : Res :=
  let a := addr.toNat
  if !engInMem e a n then .fail .erange s
  else if (s.eng e).memPending a n then .wait s
  else if (s.eng e).badIn a n then .memErr
  else k (s.memRange e a n)

/-- A destination of n words in engine memory: ERANGE where the words may not be stored to, the stall of a pending word,
or the continuation. -/
def State.dest (s : State) (e : Eng) (addr : Word) (n : Nat) (k : Nat → Res) : Res :=
  let a := addr.toNat
  if !engStorable e a n then .fail .erange s
  else if (s.eng e).memPending a n then .wait s
  else k a

end Sys2Proof.Machine
end

