-- ==== Sys2Proof/Machine/Cipher.lean ====
section
/-! DEFINITION. The cipher engine: key slots, the keys each use selects, KLOAD, KCLR and CVAL (R431 to R444). -/
namespace Sys2Proof.Machine

/-! Key slots and the keys they hold (R433, R437 to R440). -/

/-- A key slot. -/
def State.slot (s : State) (k : Nat) : KeySlot := sget .empty s.dp.keys k
def State.setSlot (s : State) (k : Nat) (x : KeySlot) : State := { s with dp := { s.dp with keys := sput .empty s.dp.keys k x } }

/-- The 128-bit key of half h of a slot: a K128 holds half 0 only. -/
def KeySlot.half (x : KeySlot) (h : Nat) : Option (BitVec 128) :=
  match x with
  | .k128 k => if h = 0 then some k else none
  | .pair k0 k1 => if h = 0 then some k0 else some k1
  | _ => none

/-- The downstream key index of a terminal (R437). -/
def State.downIndex (s : State) (t u : Nat) : Nat := s.get F.CIP_TERM_KEY_DSKI t u

/-- The data key that a key index selects (R437). -/
def State.dataKey (s : State) (t u idx : Nat) : Option (BitVec 128) :=
  if idx = 1 ∨ idx = 2 then (s.slot (s.get F.CIP_TERM_KEY_DSLOT t u)).half (idx - 1) else none

/-- An upstream frame of a key index is accepted (R438). -/
def State.upAccepts (s : State) (t u idx : Nat) : Bool :=
  idx = 0 || (s.flag F.CIP_TERM_KEY_USEN t u && (s.dataKey t u idx).isSome)

/-- The PLOAM and OMCI integrity keys of a terminal (R439, R440). -/
def State.ploamKey (s : State) (t u : Nat) : Option (BitVec 128) := (s.slot (s.get F.PON_TERM_STATE_PIKSLOT t u)).half 0
def State.omciKey (s : State) (t u : Nat) : Option (BitVec 128) := (s.slot (s.get F.PON_TERM_STATE_PIKSLOT t u)).half 1

/-- A frame or message is dropped for an unusable key (R438, R439). -/
def State.keyErr (s : State) (t u : Nat) : State :=
  ((s.inc F.CIP_TREE_CNT_KEYERR 1 t).set F.CIP_STATUS_KEYERR 1).count 0x04 (t * 256 + u) 0x0A

/-- An upstream management message fails its check (R440). -/
def State.omciFail (s : State) (t u : Nat) : State :=
  ((s.inc F.CIP_TREE_CNT_OMCIFAIL 1 t).set F.CIP_STATUS_MICERR 1).count 0x04 (t * 256 + u) 0x0B

/-- What a terminal's downstream frame becomes: dropped for its key, or its bytes and the key index of its header. A
management message carries the integrity code the device wrote (R438, R440). -/
def State.downFrame (s : State) (t u gem : Nat) (enc : Bool) (bytes : List Byte) : Option (Nat × List Byte) :=
  let idx := if enc then s.downIndex t u else 0
  if enc && (s.dataKey t u idx).isNone then none
  else if gem = u && s.flag F.CIP_TERM_KEY_OMCIEN t u then (s.omciKey t u).map (fun k => (idx, Config.omciFrame k bytes))
  else some (idx, bytes)

/-! KLOAD and KCLR (R434). -/

/-- Four 4-byte words of an image as a key. -/
def keyOf (ws : List Word) (k : Nat) : BitVec 128 :=
  BitVec.ofNat 128 ((range' k 4).foldl (fun a i => a * 2 ^ 32 + (nth 0 ws i).toNat) 0)

/-- Words of an image from k, n of them, are zero. -/
def zeroFrom (ws : List Word) (k n : Nat) : Bool := (range' k n).all (fun i => nth 0 ws i = 0)

/-- The slot a key image makes of the one it is aimed at; none where the image is refused. -/
def keyImage (ws : List Word) (old : KeySlot) : Option KeySlot :=
  let w0 := nth 0 ws 0
  let part := wbits w0 33 32
  if wbits w0 31 0 ≠ 0 ∨ (range' 1 8).any (fun i => wbits (nth 0 ws i) 35 32 ≠ 0) then none
  else
    match wbits w0 35 34 with
    | 0 => if part = 0 ∧ zeroFrom ws 5 4 then some (.k128 (keyOf ws 1)) else none
    | 1 => if part = 0 then some (.k256 (keyOf ws 1 ++ keyOf ws 5)) else none
    | 2 =>
      match part, old with
      | 3, _ => some (.pair (keyOf ws 1) (keyOf ws 5))
      | 1, .pair _ k1 => if zeroFrom ws 5 4 then some (.pair (keyOf ws 1) k1) else none
      | 2, .pair k0 _ => if zeroFrom ws 1 4 then some (.pair k0 (keyOf ws 5)) else none
      | _, _ => none
    | _ => none

/-- KLOAD: slot a takes the key image at b (R205, R434). -/
def execKload (e : Eng) (d a b : RegNo) (s : State) : Host.Outcome State Fault Refusal :=
  instr e (.kload e d a b) [a, b] 10 (fun s =>
    let k := (s.reg e a).toNat
    if 32768 ≤ k then .fail .erange s
    else
      s.image e (s.reg e b) 9 (fun ws =>
        match keyImage ws (s.slot k) with
        | some x => .ok (s.setSlot k x)
        | none => .fail .erange s)) s

/-- KCLR: slot a is EMPTY (R205, R434). -/
def execKclr (e : Eng) (d a b : RegNo) (s : State) : Host.Outcome State Fault Refusal :=
  instr e (.kclr e d a b) [a] 4 (fun s =>
    let k := (s.reg e a).toNat
    if 32768 ≤ k then .fail .erange s else .ok (s.setSlot k .empty)) s

/-! CVAL (R441 to R443). -/

/-- A request: its mode, tag length, slot, message address and length. -/
structure CvalReq where
  verify : Bool
  gmac : Bool
  tlen : Nat
  slot : Nat
  addr : Nat
  len : Nat
  deriving DecidableEq, Repr

/-- The fields of a request block. -/
def cvalReq (ws : List Word) : CvalReq :=
  let w0 := nth 0 ws 0
  { verify := wbits w0 34 34 = 1, gmac := wbits w0 35 35 = 1, tlen := wbits w0 32 28, slot := wbits w0 14 0,
    addr := wbits (nth 0 ws 1) 17 0, len := wbits (nth 0 ws 2) 19 0 }

/-- Words of the message. -/
def CvalReq.words (r : CvalReq) : Nat := ceilDiv r.len 4

/-- The block is in range: its zero fields, its tag length and its message (R442). -/
def cvalRange (e : Eng) (ws : List Word) : Bool :=
  let r := cvalReq ws
  let w0 := nth 0 ws 0
  wbits w0 33 33 = 0 && wbits w0 27 15 = 0 && wbits (nth 0 ws 1) 35 18 = 0 && wbits (nth 0 ws 2) 35 20 = 0
    && (if r.gmac then r.tlen = 4 || r.tlen = 8 || (12 ≤ r.tlen && r.tlen ≤ 16) else 4 ≤ r.tlen && r.tlen ≤ 16)
    && engInMem e r.addr r.words

/-- Bytes of words, four each, the lowest-numbered in bits [31:24]. -/
def wordBytes (ws : List Word) : List Nat := (ws.map (fun w => (beBytes 4 (wbits w 31 0)).map BitVec.toNat)).flatten

/-- Words of bytes, four each. -/
def bytesWords (bs : List Nat) : List Word := (groups 4 (ceilDiv bs.length 4) bs).map (fun g => BitVec.ofNat 36 (blkNat g))

/-- The key bytes of a slot the service accepts (R442). -/
def KeySlot.bytes (x : KeySlot) : Option (List Nat) :=
  match x with
  | .k128 k => some ((beBytes 16 k.toNat).map BitVec.toNat)
  | .k256 k => some ((beBytes 32 k.toNat).map BitVec.toNat)
  | _ => none

/-- The status word d receives (R442). -/
def cvalStatus (r : CvalReq) (st : Status) : Word :=
  BitVec.ofNat 36 (b2n r.verify * 2 ^ 35 + b2n r.gmac * 2 ^ 34 + st.code * 2 ^ 24 + r.len)

/-- A tag of tlen bytes in four words, zero beyond. -/
def tagWords (tag : List Nat) (tlen : Nat) : List Word := bytesWords (tag.take tlen ++ List.replicate (16 - tlen) 0)

/-- The nonce words of the next GMAC generate (R443). -/
def State.nonceWords (s : State) : List Word :=
  [BitVec.ofNat 36 (s.get F.CIP_NONCE_FIXED_FIXED), BitVec.ofNat 36 (s.get F.CIP_NONCE_EPOCH_EPOCH),
   BitVec.ofNat 36 (s.get F.CIP_NONCE_CNT_COUNT)]

/-- The request runs: its tag is written, or compared (R441 to R443). -/
def State.cvalRun (s : State) (e : Eng) (d : RegNo) (a : Nat) (ws : List Word) (key : List Nat) : Res :=
  let r := cvalReq ws
  let msg := (wordBytes (s.memRange e r.addr r.words)).take r.len
  let nonce := if r.verify then (ws.drop 7).take 3 else s.nonceWords
  let tag := if r.gmac then gmac key (wordBytes nonce) msg else cmac key msg
  if r.verify then
    if (wordBytes ((ws.drop 3).take 4)).take r.tlen = tag.take r.tlen then .ok (s.setReg e d (cvalStatus r .ok))
    else .fail .eauth (s.setReg e d (cvalStatus r .eauth))
  else
    let s1 := if r.gmac then s.set F.CIP_NONCE_CNT_COUNT (s.get F.CIP_NONCE_CNT_COUNT + 1) else s
    let s2 := s1.storeRange e (a + 3) (tagWords tag r.tlen ++ (if r.gmac then nonce else []))
    .ok (s2.setReg e d (cvalStatus r .ok))

/-- CVAL: the request block at a (R205, R442). -/
def execCval (e : Eng) (d a b : RegNo) (s : State) : Host.Outcome State Fault Refusal :=
  instr e (.cval e d a b) [d, a] 16 (fun s =>
    let x := (s.reg e a).toNat
    s.image e (s.reg e a) 10 (fun ws =>
      let r := cvalReq ws
      if !cvalRange e ws || (!r.verify && !engStorable e x 10) then .fail .erange s
      else if (s.eng e).memPending r.addr r.words then .wait s
      else if (s.eng e).badIn r.addr r.words then .memErr
      else
        match (s.slot r.slot).bytes with
        | none => .fail .estate s
        | some key =>
          if r.gmac && !r.verify && (!s.flag F.CIP_NONCE_EPOCH_SET || s.get F.CIP_NONCE_CNT_COUNT = 0xFFFFFFFF) then .fail .estate s
          else s.cvalRun e d x ws key)) s

/-! Registers of the block. -/

/-- A write of a cipher register (R437, R443, R444). -/
def State.cipWrite (s : State) (r : Reg) (v : Word) : WriteRes :=
  match r.id with
  | .CIP_TERM_KEY => if fv v F.CIP_TERM_KEY_DSKI = 3 then .reject .erange else .done (s.plainWrite r v)
  | .CIP_NONCE_EPOCH =>
    if s.flag F.CIP_NONCE_EPOCH_SET then .reject .estate
    else .done ((s.plainWrite r v).set F.CIP_NONCE_EPOCH_SET 1)
  | _ => .done (s.plainWrite r v)

end Sys2Proof.Machine
end

