-- ==== Sys2Proof/Machine/Crc.lean ====
section
/-! DEFINITION. Cyclic redundancy checks: the reflected CRC-32 and CRC-32C of R355, and the frame check sequence of a
packet (R331). -/
namespace Sys2Proof.Machine

/-- One bit of a reflected CRC. -/
def crcBit (poly c : Nat) : Nat := if c % 2 = 1 then (c / 2) ^^^ poly else c / 2

/-- n bits of a reflected CRC. -/
def crcBits (poly : Nat) : Nat → Nat → Nat
  | 0, c => c
  | n + 1, c => crcBits poly n (crcBit poly c)

/-- A reflected 32-bit CRC over bytes, all ones before and inverted after. -/
def crcReflected (poly : Nat) (bs : List Byte) : Nat :=
  0xFFFFFFFF ^^^ bs.foldl (fun c b => crcBits poly 8 (c ^^^ b.toNat)) 0xFFFFFFFF

/-- CRC-32 of IEEE 802.3 (R355). -/
def crc32 (bs : List Byte) : Nat := crcReflected 0xEDB88320 bs

/-- CRC-32C, polynomial 0x1EDC6F41 (R355). -/
def crc32c (bs : List Byte) : Nat := crcReflected 0x82F63B78 bs

/-- The frame check sequence of a packet's bytes, in the order they are sent. -/
def fcsOf (bs : List Byte) : List Byte := leBytes 4 (crc32 bs)

/-- A packet's bytes without its FCS. -/
def body (bs : List Byte) : List Byte := bs.take (bs.length - 4)

/-- Its FCS matches. -/
def fcsGood (bs : List Byte) : Bool := 4 ≤ bs.length && bs.drop (bs.length - 4) = fcsOf (body bs)

end Sys2Proof.Machine
end

