-- ==== Sys2Proof/Machine/Tables.lean ====
section
/-! DEFINITION. The tables that ashlar code writes and packets read: storage, the checks of each table's images, the hash
tables with their relocation and stash, and parity (R191 to R194, R329, R334, R339, R353 to R365, R419, R247, R306). -/
namespace Sys2Proof.Machine

/-! Storage. -/

/-- The key of an entry. -/
def tabKey (tid i : Nat) : Nat := tid * 2 ^ 22 + i

/-- The words of an entry, less one, by table (R191). -/
def tabN (tid : Nat) : Nat :=
  match tid with
  | 0x00 | 0x01 => 22
  | 0x02 => 1
  | 0x03 => 11
  | 0x10 | 0x11 | 0x20 | 0x22 | 0x40 => 3
  | 0x21 => 6
  | 0x30 => 1
  | 0x41 => 5
  | _ => 0

/-- An entry's words; one that was removed or never written is zero (R193). -/
def State.tabGet (s : State) (tid i : Nat) : List Word := sget [] s.dp.tab (tabKey tid i)

/-- Word k of an entry. -/
def ent (ws : List Word) (k : Nat) : Nat := (nth 0 ws k).toNat

/-- An entry with word k replaced. -/
def setW (ws : List Word) (k : Nat) (v : Word) : List Word := setNth v ws k

/-- VALID of an entry. -/
def entValid (ws : List Word) : Bool := 2 ^ 35 ≤ ent ws 0

/-- The state with an entry stored. -/
def State.tabPut (s : State) (tid i : Nat) (ws : List Word) : State :=
  { s with dp := { s.dp with tab := sput [] s.dp.tab (tabKey tid i) (if ws.all (fun w => w = 0) then [] else ws) } }

/-- An entry's parity fails (R361). -/
def State.tabBad (s : State) (tid i : Nat) : Bool := (sget none s.dp.bad (tabKey tid i)).isSome

/-- A write makes an entry good (R361). -/
def State.tabGood (s : State) (tid i : Nat) : State :=
  { s with dp := { s.dp with bad := sput none s.dp.bad (tabKey tid i) none } }

/-- An access finds an entry bad: it is reported once, by a fault record, a count and the capture (R362). -/
def State.foundBad (s : State) (tid i : Nat) (who : Who) (st : Status) : State :=
  match sget none s.dp.bad (tabKey tid i) with
  | some false =>
    let t := if tid = 0x20 then 1 else if tid = 0x21 then 2 else 0
    let detail := match who with | .packet p => p | _ => tid
    let s1 := { s with dp := { s.dp with bad := sput none s.dp.bad (tabKey tid i) (some true) } }
    let s2 := (s1.faultWrite 0x22 0x10 i who 1 st.code detail).inc F.FWD_EVT_CNT2_PERR 1
    let s3 := s2.set F.FWD_STATUS_PERR 1
    if s3.flag F.FWD_PERR_VALID then s3
    else ((s3.set F.FWD_PERR_VALID 1).set F.FWD_PERR_TABLE t).set F.FWD_PERR_INDEX i
  | _ => s

/-! Which tables, entries and operations there are (R191). -/

/-- The table supports the operation. -/
def tabOp (tid : Nat) (k : TKind) : Bool :=
  match tid with
  | 0x00 | 0x01 | 0x02 | 0x03 | 0x22 | 0x30 | 0x40 | 0x41 => k = .write || k = .read
  | 0x10 | 0x20 | 0x21 => true
  | 0x11 => k = .read
  | _ => false

/-- The table's unit is absent (R11). -/
def Chip.tabAbsent (c : Chip) (tid : Nat) : Bool :=
  match tid with
  | 0x20 | 0x21 | 0x22 => !c.lpm
  | 0x30 => !c.gates
  | _ => false

/-- A port index names a unit of the device's range (R351). -/
def portListed (p : Nat) : Bool := p < 40 || (64 ≤ p && p < 132)

/-- The unit of a port index is absent. -/
def Chip.portAbsent (c : Chip) (p : Nat) : Bool :=
  if p < 40 then c.uplanes ≤ p else if p < 64 then false else if p < 128 then c.trees ≤ p - 64 else p < 132 && !c.bond

/-- The entry lies in the table. -/
def tabIndex (tid i : Nat) : Bool :=
  match tid with
  | 0x00 | 0x01 => i < 32768
  | 0x02 => i < 4096
  | 0x03 => i < 512
  | 0x10 => i < 2097152
  | 0x11 => i < 64
  | 0x20 => i < 1048576
  | 0x21 => i < 262144
  | 0x22 => i < 4352
  | 0x30 => i < 65536 && portListed (i / 512) && i / 512 < 128
  | 0x40 => i < 262144
  | 0x41 => i < 256
  | _ => false

/-- The entry belongs to an absent tree or lane. -/
def Chip.entryAbsent (c : Chip) (tid i : Nat) : Bool :=
  match tid with
  | 0x30 => c.portAbsent (i / 512)
  | 0x40 => c.trees ≤ i / 4096 && i < 262144
  | 0x41 => c.trees ≤ i / 4 && i < 256
  | _ => false

/-! Images: the status with which one is refused. -/

/-- A word's field. -/
def ef (ws : List Word) (k hi lo : Nat) : Nat := bits (ent ws k) hi lo

/-- The first failing class of R172 among absent, range and state. -/
def firstOf (absent range state : Bool) : Option Status :=
  if absent then some .eabsent else if range then some .erange else if state then some .estate else none

/-- A parse graph state (R329). -/
def graphCheck (ws : List Word) : Option Status :=
  if !entValid ws then none
  else
    let mask := ef ws 2 27 12
    firstOf false
      (ef ws 0 17 0 ≠ 0 || ef ws 2 11 0 ≠ 0 || ef ws 11 5 0 ≠ 0 || ef ws 9 20 0 ≠ 0 || ef ws 10 20 0 ≠ 0
        || (range' 3 6).any (fun k => ef ws k 24 16 ≠ 0 || (ef ws k 35 35 = 1 && ef ws k 15 0 &&& mask ≠ ef ws k 15 0))
        || 320 < ef ws 1 35 27 || 320 < ef ws 11 14 6
        || (ef ws 1 35 27 = 0 && ef ws 1 16 16 = 0) || (ef ws 1 16 16 = 1 && ef ws 1 15 0 = 0)) false

/-- A range comparator (R334). -/
def rangeCheck (ws : List Word) : Option Status := firstOf false (ef ws 0 30 16 ≠ 0 || ef ws 1 35 16 ≠ 0) false

/-- A rule of a bank (R339). -/
def State.ruleCheck (s : State) (tid : Nat) (ws : List Word) : Option Status :=
  let vacated := s.flag F.CLS_BANK_STATUS_SWAP && tid ≠ s.get F.CLS_BANK_STATUS_ACTIVE
  if !entValid ws then firstOf false false vacated
  else
    let disp := ef ws 21 30 28
    firstOf (!s.chip.lpm && 2 ≤ ef ws 21 24 23)
      (ef ws 0 34 32 ≠ 0 || ef ws 0 3 0 ≠ 0 || ef ws 21 21 18 ≠ 0 || ef ws 22 1 0 ≠ 0
        || (range' 1 10).any (fun k => ent ws k &&& ent ws (k + 10) ≠ ent ws k)
        || ef ws 21 35 34 = 3 || 4 < disp || 23 < ef ws 22 15 11
        || (disp ≠ 4 && ef ws 22 15 2 ≠ 0)) vacated

/-- The result word of a forwarding entry: absent port, or a field out of its range (R354). -/
def State.resultCheck (s : State) (w : Nat) : Bool × Bool :=
  let k := bits w 35 34
  let n := bits w 33 26
  let p := if k = 0 then n else if k = 1 then 64 + n else 128 + n
  let inRange := (k = 0 && n < 40) || (k = 1 && n < 64) || (k = 2 && n < 4)
  (inRange && s.chip.portAbsent p, !inRange || (k ≠ 1 && bits w 25 18 ≠ 0))

/-- A length filter entry (R365). -/
def filterCheck (i : Nat) (ws : List Word) : Option Status :=
  firstOf false (ef ws 0 35 33 ≠ 0 || (range' 1 3).any (fun k => ef ws k 35 32 ≠ 0 || (i < 256 && ent ws k ≠ 0))) false

/-- A list is operational or pending (R419). -/
def State.listInUse (s : State) (n : Nat) : Bool :=
  let g := sget {} s.dp.gates (n / 2)
  (match g.oper with | some l => l.s = n % 2 | none => false) || (match g.pend with | some l => l.s = n % 2 | none => false)

/-- A gate entry (R419). -/
def State.gateCheck (s : State) (i : Nat) (ws : List Word) : Option Status :=
  firstOf false
    (ef ws 0 35 8 ≠ 0 || ef ws 1 35 30 ≠ 0 || ef ws 1 29 0 = 0 || 1000000000 < ef ws 1 29 0) (s.listInUse (i / 256))

/-- Another valid entry of the tree holds the Alloc-ID (R307). -/
def State.allocTaken (s : State) (i id : Nat) : Bool :=
  s.dp.tab.any (fun e => tabKey 0x40 (i / 4096 * 4096) ≤ e.1 && e.1 < tabKey 0x40 (i / 4096 * 4096 + 4096)
    && e.1 ≠ tabKey 0x40 i && entValid e.2 && ef e.2 0 13 0 = id)

/-- An allocation (R307). -/
def State.allocCheck (s : State) (i : Nat) (ws : List Word) : Option Status :=
  if !entValid ws then none
  else
    firstOf false
      (ef ws 0 33 32 ≠ 0 || ef ws 0 23 14 ≠ 0 || ent ws 3 ≠ 0 || ef ws 0 13 0 = 1023 || s.allocTaken i (ef ws 0 13 0)
        || ef ws 2 35 18 < ef ws 1 35 18 + ef ws 1 17 0) false

/-- A burst profile (R248). -/
def State.profileCheck (s : State) (i : Nat) (ws : List Word) : Option Status :=
  if !entValid ws then none
  else
    let rate := ef ws 0 34 33
    let pre := ef ws 0 31 16
    let least := if rate = 0 ∨ rate = 3 then 128 else if rate = 1 then 256 else 512
    firstOf (!s.chip.pon50 && rate ≠ 3)
      ((rate = 3) = s.flag F.PON_DS_CTRL_MODE (i / 4) || pre < least || 8192 < pre || 8 < ef ws 5 3 0
        || (ef ws 0 0 0 = 0 && ent ws 4 ≠ 0) || ef ws 0 15 1 ≠ 0 || (range' 1 4).any (fun k => ef ws k 35 32 ≠ 0)
        || ef ws 5 35 4 ≠ 0) false

/-! Hash tables (R355 to R359, R363). -/

/-- Buckets of one hash table, as a power of two (R355, R363). -/
def htBits (tid : Nat) : Nat := if tid = 0x10 then 18 else if tid = 0x20 then 17 else 15

/-- The key's bytes, as both hash functions read them (R355, R363). -/
def htBytes (tid : Nat) (ws : List Word) : List Byte :=
  if tid = 0x10 then beBytes 8 (ef ws 1 27 0 * 2 ^ 36 + ent ws 2)
  else
    let prefix_ := if tid = 0x20 then beBytes 4 (ef ws 2 31 0)
      else (range' 2 4).flatMap (fun k => beBytes 4 (ef ws k 31 0))
    beBytes 2 (ef ws 1 27 12) ++ beBytes 1 (ef ws 1 7 0) ++ prefix_

/-- The key as a number. -/
def htKey (tid : Nat) (ws : List Word) : Nat := beNat (htBytes tid ws)

/-- The bucket of a key in hash table h (R355). -/
def State.htBucket (s : State) (tid h : Nat) (x : List Byte) : Nat :=
  let v := if h = 0 then crc32 (beBytes 4 (s.get F.FWD_HASH_SEED0_SEED) ++ x) else crc32c (beBytes 4 (s.get F.FWD_HASH_SEED1_SEED) ++ x)
  v % 2 ^ htBits tid

/-- The index of way 0 of a bucket. -/
def htIndex (tid h b : Nat) : Nat := h * (2 ^ htBits tid * 4) + b * 4

/-- The four ways of a key's bucket in hash table h. -/
def State.htWays (s : State) (tid h : Nat) (x : List Byte) : List Nat := range' (htIndex tid h (s.htBucket tid h x)) 4

/-- An entry holds the key and is good. -/
def State.htHolds (s : State) (tid : Nat) (key : Nat) (i : Nat) : Bool :=
  let ws := s.tabGet tid i
  entValid ws && !s.tabBad tid i && htKey (if tid = 0x11 then 0x10 else tid) ws = key

/-- Where a good entry with the key stands: its table (0x11 for the stash) and index (R360). -/
def State.htFind (s : State) (tid : Nat) (x : List Byte) : Option (Nat × Nat) :=
  let key := beNat x
  match (s.htWays tid 0 x ++ s.htWays tid 1 x).find? (s.htHolds tid key) with
  | some i => some (tid, i)
  | none =>
    if tid = 0x10 then (((range' 0 64).find? (s.htHolds 0x11 key)).map (fun i => (0x11, i))) else none

/-- The bad entries a search of the key meets (R361). -/
def State.htBadMet (s : State) (tid : Nat) (x : List Byte) : List (Nat × Nat) :=
  (((s.htWays tid 0 x ++ s.htWays tid 1 x).filter (s.tabBad tid)).map (fun i => (tid, i)))
    ++ (if tid = 0x10 then ((range' 0 64).filter (s.tabBad 0x11)).map (fun i => (0x11, i)) else [])

/-- Report every bad entry a search met (R362). -/
def State.htReport (s : State) (bad : List (Nat × Nat)) (who : Who) (st : Status) : State :=
  bad.foldl (fun s b => s.foundBad b.1 b.2 who st) s

/-- A way is free: no entry, and not a bad one. -/
def State.htFree (s : State) (tid i : Nat) : Bool := !entValid (s.tabGet tid i) && !s.tabBad tid i

/-- The lowest free way of a bucket. -/
def State.htFreeIn (s : State) (tid : Nat) (ways : List Nat) : Option Nat := ways.find? (s.htFree tid)

/-- The hash table and bucket that an index lies in, and the other candidate bucket of its occupant. -/
def State.htOther (s : State) (tid i : Nat) : List Nat :=
  let h := i / (2 ^ htBits tid * 4)
  s.htWays tid (1 - h) (htBytes tid (s.tabGet tid i))

/-- An occupant the search has discovered: its index, the discovered one whose slot it would take, and its depth. -/
structure Hop where
  i : Nat
  via : Option Nat
  depth : Nat

/-- The search of R356: the discovered occupants in order and the position of the next to examine. It answers the chain
of indices from the first occupant to the last, and the free way at its end. -/
def State.htSearch (s : State) (tid : Nat) : Nat → List Hop → Nat → Option (Nat × Nat)
  | 0, _, _ => none
  | n + 1, found, k =>
    match findIdx (fun _ => true) (found.drop k) k with
    | none => none
    | some (_, h) =>
      if 16 < h.depth then none
      else
        let ways := s.htOther tid h.i
        match s.htFreeIn tid ways with
        | some y => some (k, y)
        | none =>
          let new := if found.any (fun x => ways.contains x.i) then []
            else (ways.filter (fun i => !s.tabBad tid i)).map (fun i => ⟨i, some k, h.depth + 1⟩)
          State.htSearch s tid n (found ++ new) (k + 1)

/-- The moves of a chain that ends at discovered occupant k, the last first: each from a way to a way. -/
def htMoves (found : List Hop) : Nat → Nat → Nat → List (Nat × Nat)
  | 0, _, _ => []
  | n + 1, k, y =>
    match findIdx (fun _ => true) (found.drop k) k with
    | none => []
    | some (_, h) =>
      (h.i, y) ::
        (match h.via with
         | some k' => htMoves found n k' h.i
         | none => [])

/-- All occupants the search discovers up to position k, in order. -/
def State.htDiscover (s : State) (tid : Nat) : Nat → List Hop → Nat → List Hop
  | 0, found, _ => found
  | n + 1, found, k =>
    match findIdx (fun _ => true) (found.drop k) k with
    | none => found
    | some (_, h) =>
      let ways := s.htOther tid h.i
      let new := if found.any (fun x => ways.contains x.i) then []
        else (ways.filter (fun i => !s.tabBad tid i)).map (fun i => ⟨i, some k, h.depth + 1⟩)
      State.htDiscover s tid n (found ++ new) (k + 1)

/-- One relocation: the copy into y, then the way it left is emptied (R356, R357). -/
def State.htMove (tid : Nat) (s : State) (m : Nat × Nat) : State := (s.tabPut tid m.2 (s.tabGet tid m.1)).tabPut tid m.1 []

/-- The outcome of an insertion. -/
inductive Placed where
  /-- At a table (0x11 for the stash) and index, after relocations; true: the key was present. -/
  | at_ (s : State) (tid i moves : Nat) (present : Bool)
  | parity (s : State)
  | full (s : State)

/-- Insert an entry by key (R356, R358, R361, R363). `replace` gives the words an entry already present takes. -/
def State.htInsert (s : State) (tid : Nat) (ws : List Word) (replace : List Word → List Word) (who : Who) (st : Status) : Placed :=
  let x := htBytes tid ws
  match s.htFind tid x with
  | some (t, i) => .at_ (s.tabPut t i (replace (s.tabGet t i))) t i 0 true
  | none =>
    let bad := s.htBadMet tid x
    if bad ≠ [] then .parity (s.htReport bad who st)
    else
      let w0 := s.htWays tid 0 x
      let w1 := s.htWays tid 1 x
      match s.htFreeIn tid w0 with
      | some i => .at_ (s.tabPut tid i ws) tid i 0 false
      | none =>
        match s.htFreeIn tid w1 with
        | some i => .at_ (s.tabPut tid i ws) tid i 0 false
        | none =>
          let start : List Hop := (w0 ++ w1).map (fun i => ⟨i, none, 1⟩)
          let fuel := s.dp.tab.length + 8
          match s.htSearch tid fuel start 0 with
          | some (k, y) =>
            let moves := htMoves (s.htDiscover tid k start 0) 17 k y
            let s1 := moves.foldl (State.htMove tid) s
            match moves.getLast? with
            | some m => .at_ (s1.tabPut tid m.1 ws) tid m.1 moves.length false
            | none => .full s
          | none =>
            if tid = 0x10 then
              match s.htFreeIn 0x11 (range' 0 64) with
              | some i => .at_ (s.tabPut 0x11 i ws) 0x11 i 0 false
              | none => .full s
            else .full s

/-- After a removal from a hash table, stash entries move, in index order, to a free way of a candidate bucket (R358). -/
def State.rehome (s : State) : State :=
  (range' 0 64).foldl (fun s i =>
    if s.htFree 0x11 i || s.tabBad 0x11 i then s
    else
      let ws := s.tabGet 0x11 i
      let x := htBytes 0x10 ws
      match s.htFreeIn 0x10 (s.htWays 0x10 0 x ++ s.htWays 0x10 1 x) with
      | some y => (s.tabPut 0x10 y ws).tabPut 0x11 i []
      | none => s) s

/-- An exact-match entry is removed: its moves are tracked no longer, and stash entries may move in. -/
def State.emRemove (s : State) (tid i : Nat) : State :=
  let key := htKey 0x10 (s.tabGet tid i)
  let s1 := s.tabPut tid i []
  let s2 := { s1 with dp := { s1.dp with tracks := s1.dp.tracks.filter (fun t => t.1 ≠ key) } }
  if tid = 0x10 then s2.rehome else s2

/-- A location word (R194). -/
def locWord (tid t i moves : Nat) : Word :=
  if t = 0x11 then BitVec.ofNat 36 (moves * 2 ^ 24 + 2 * 2 ^ 20 + i)
  else
    let size := 2 ^ htBits tid * 4
    BitVec.ofNat 36 (moves * 2 ^ 24 + i / size * 2 ^ 20 + i % size)

/-- No location (R194). -/
def noLoc : Word := 0xFFFFFFFFF

/-- Longest-prefix lookup of an address under a routing instance: the lengths of the region's bitmap in descending order,
the first hit wins (R365). It answers the entry, and the bad entries met where none is found. -/
def State.lpmFind (s : State) (tid vrf : Nat) (addr : List Nat) : Option Nat × List (Nat × Nat) :=
  let v6 := tid = 0x21
  let max := if v6 then 128 else 32
  let region := if v6 then 256 + nth 0 addr 0 / 2 ^ 20 else nth 0 addr 0 / 2 ^ 24
  let f := s.tabGet 0x22 region
  let on := fun l => if l ≤ 32 then (ent f 0).testBit l else (ent f ((l - 33) / 32 + 1)).testBit ((l - 33) % 32)
  let whole := beNat ((addr.take (if v6 then 4 else 1)).flatMap (beBytes 4))
  let bytes := fun l => beBytes 2 vrf ++ beBytes 1 l ++ beBytes (if v6 then 16 else 4) (whole / 2 ^ (max - l) * 2 ^ (max - l))
  let tried := ((range' 0 (max + 1)).reverse).filter on
  let hit := tried.find? (fun l => (s.htFind tid (bytes l)).isSome)
  match hit with
  | some l => ((s.htFind tid (bytes l)).map (fun p => p.2), [])
  | none => (none, tried.flatMap (fun l => s.htBadMet tid (bytes l)))

/-! What the checks and counts of R353 to R370 read. -/

/-- The coarse time (R370). -/
def State.coarse (s : State) : Nat := s.get F.FWD_AGE_STATUS_NOW

/-- The valid entries of a table, as pairs of index and words. -/
def State.tabAll (s : State) (tid : Nat) : List (Nat × List Word) :=
  (s.dp.tab.filter (fun e => e.1 / 2 ^ 22 = tid && entValid e.2)).map (fun e => (e.1 % 2 ^ 22, e.2))

/-- An exact-match image (R354). -/
def State.emCheck (s : State) (k : TKind) (i : Nat) (ws : List Word) : Option Status :=
  if !entValid ws then (if k = .insert then some .erange else none)
  else
    let x := htBytes 0x10 ws
    let (absent, range) := s.resultCheck (ent ws 3)
    firstOf absent
      (ef ws 0 33 0 ≠ 0 || ef ws 1 35 28 ≠ 0 || range
        || (k = .write && !(s.htWays 0x10 (i / 2 ^ 20) x).contains i))
      (k = .write && (match s.htFind 0x10 x with | some (t, j) => !(t = 0x10 && j = i) | none => false))

/-- A longest-prefix image (R354, R363). -/
def State.lpmCheck (s : State) (k : TKind) (tid i : Nat) (ws : List Word) : Option Status :=
  if !entValid ws then (if k = .insert then some .erange else none)
  else
    let v6 := tid = 0x21
    let len := ef ws 1 7 0
    let max := if v6 then 128 else 32
    let words := if v6 then 4 else 1
    let whole := (range' 2 words).foldl (fun a j => a * 2 ^ 32 + ef ws j 31 0) 0
    let x := htBytes tid ws
    let (absent, range) := s.resultCheck (ent ws (2 + words))
    firstOf absent
      (ef ws 0 34 0 ≠ 0 || ef ws 1 35 28 ≠ 0 || ef ws 1 11 8 ≠ 0 || (range' 2 words).any (fun j => ef ws j 35 32 ≠ 0)
        || range || max < len || (len ≤ max && whole % 2 ^ (max - len) ≠ 0)
        || (k = .write && !(s.htWays tid (i / (2 ^ htBits tid * 4)) x).contains i))
      (k = .write && (match s.htFind tid x with | some (_, j) => j ≠ i | none => false))

/-- The status with which an image is refused at issue. -/
def State.imageCheck (s : State) (k : TKind) (tid i : Nat) (ws : List Word) : Option Status :=
  match tid with
  | 0x00 | 0x01 => s.ruleCheck tid ws
  | 0x02 => rangeCheck ws
  | 0x03 => graphCheck ws
  | 0x10 => s.emCheck k i ws
  | 0x20 | 0x21 => s.lpmCheck k tid i ws
  | 0x22 => filterCheck i ws
  | 0x30 => s.gateCheck i ws
  | 0x40 => s.allocCheck i ws
  | 0x41 => s.profileCheck i ws
  | _ => none

end Sys2Proof.Machine
end

