-- ==== Sys2Proof/Machine/Parse.lean ====
section
/-! DEFINITION. Parsing and classification: the walk of the parse graph, the key, range comparators, rules, and the two
passes (R325 to R341). -/
namespace Sys2Proof.Machine

/-! The walk (R330 to R332). -/

/-- A byte of a packet of len bytes without its FCS: zero at or beyond its end and at or beyond byte 320 (R330). -/
def pbyte (bs : List Byte) (i : Nat) : Nat := if i < bs.length ∧ i < 320 then (nth 0 bs i).toNat else 0

/-- The 16-bit window at a byte (R328). -/
def pwin (bs : List Byte) (i : Nat) : Nat := pbyte bs i * 256 + pbyte bs (i + 1)

/-- The marks of K1, by bit (R333). -/
def markERR : Nat := 19
def markLEN : Nat := 20
def markDEPTH : Nat := 21

/-- A walk in progress: offset, narrowed end, slots and which were written, LAYERS, the lengths of the headers counted,
the last counted state, and the mark that stopped it. -/
structure Walk where
  off : Nat
  fin : Nat
  slots : List Nat
  wrote : Nat := 0
  layers : Nat := 0
  heads : List Nat := []
  last : Nat := 0
  mark : Option Nat := none
  deriving DecidableEq, Repr

/-- A header's length (R330). -/
def hdrLen (bs : List Byte) (ws : List Word) (off : Nat) : Nat :=
  if ef ws 1 16 16 = 0 then ef ws 1 35 27
  else
    let mask := ef ws 1 15 0
    ef ws 1 35 27 + 2 ^ ef ws 1 18 17 * ((pwin bs (off + ef ws 1 26 19) &&& mask) / 2 ^ lowestBit 16 mask)

/-- An extractor of a state writes its slot (R331). -/
def extract (bs : List Byte) (ws : List Word) (k : Nat) (w : Walk) : Walk :=
  let slot := ef ws k 34 32
  if ef ws k 35 35 = 0 ∨ (ef ws k 21 21 = 1 ∧ w.wrote.testBit slot) then w
  else
    let v := (range' (w.off + ef ws k 31 24) (ef ws k 23 22 + 1)).foldl (fun a i => a * 256 + pbyte bs i) 0
    { w with slots := setNth v w.slots slot, wrote := w.wrote ||| 2 ^ slot }

/-- The claim of a header of length h: a conflict, or the end after it (R332). -/
def claim (bs : List Byte) (ws : List Word) (w : Walk) (h : Nat) : Option Nat :=
  if ef ws 11 35 35 = 0 then some w.fin
  else
    let c := 2 ^ ef ws 11 26 25 * pwin bs (w.off + ef ws 11 34 27) + ef ws 11 24 16
    let r := w.fin - w.off
    if c < h ∨ r < c then none
    else if c = r then some w.fin
    else if ef ws 11 15 15 = 1 ∧ bs.length ≤ 60 then some (w.off + c)
    else none

/-- The state after a header that did not end the walk, if the graph goes on (R331). -/
def nextState (bs : List Byte) (ws : List Word) (off : Nat) : Option Nat :=
  let sel := pwin bs (off + ef ws 2 35 28) &&& ef ws 2 27 12
  match (range' 3 6).find? (fun k => ef ws k 35 35 = 1 && ef ws k 15 0 = sel) with
  | some k => if ef ws k 34 34 = 1 then none else some (ef ws k 33 25)
  | none => if ef ws 0 18 18 = 1 then none else some (ef ws 0 27 19)

/-- The walk from a state (R331); 25 steps reach every end, since the 25th header is marked. -/
def State.walk (s : State) (bs : List Byte) : Nat → Nat → Walk → Walk
  | 0, _, w => w
  | n + 1, st, w =>
    let ws := s.tabGet 0x03 st
    if !entValid ws then { w with mark := some markERR }
    else if w.heads.length = 24 then { w with mark := some markDEPTH }
    else if ef ws 1 16 16 = 1 ∧ 320 < w.off + ef ws 1 26 19 + 2 then { w with mark := some markDEPTH }
    else
      let h := hdrLen bs ws w.off
      if 320 < w.off + h then { w with mark := some markDEPTH }
      else if h = 0 ∨ h < ef ws 11 14 6 ∨ w.fin < w.off + h then { w with mark := some markLEN }
      else
        match claim bs ws w h with
        | none => { w with mark := some markLEN }
        | some fin =>
          let w1 := extract bs ws 10 (extract bs ws 9 w)
          let kind := ef ws 0 33 28
          let w2 := { w1 with
            off := w.off + h, fin,
            layers := if kind < 16 then w1.layers ||| 2 ^ kind else w1.layers,
            heads := w1.heads ++ [h],
            last := st }
          if ef ws 0 34 34 = 1 then w2
          else
            match nextState bs ws w.off with
            | some st' => State.walk s bs n st' w2
            | none => w2

/-- A pass over a packet's bytes without FCS, from a state (R326). -/
def State.parse (s : State) (bs : List Byte) (st : Nat) : Walk :=
  s.walk bs 26 st { off := 0, fin := bs.length, slots := List.replicate 8 0 }

/-! The key (R333). -/

/-- PKIND and PNUM of a port index (R351). -/
def portKind (p : Nat) : Nat := if p < 64 then 0 else if p < 128 then 1 else 2
def portNum (p : Nat) : Nat := if p < 64 then p else if p < 128 then p - 64 else p - 128
/-- The port index of a kind and number. -/
def portIndex (kind num : Nat) : Nat := if kind = 0 then num else if kind = 1 then 64 + num else 128 + num

/-- K0 of a packet. -/
def Pkt.key0 (p : Pkt) : Nat :=
  portKind p.port * 2 ^ 34 + portNum p.port * 2 ^ 26 + (if portKind p.port = 1 then p.term * 2 ^ 18 + p.gem % 2 ^ 16 else 0)

/-- The ten words of the key. -/
def keyWords (k0 : Nat) (w : Walk) (second : Bool) : List Nat :=
  let k1 := w.last * 2 ^ 27 + w.heads.length * 2 ^ 22 + (match w.mark with | some m => 2 ^ m | none => 0)
    + b2n second * 2 ^ 18 + w.layers
  k0 :: k1 :: w.slots

/-! Rules (R334 to R337). -/

/-- A range comparator for a packet (R334). -/
def State.compare (s : State) (slots : List Nat) (i : Nat) : Bool :=
  let ws := s.tabGet 0x02 i
  let slot := nth 0 slots (ef ws 0 34 32)
  let v := if ef ws 0 31 31 = 1 then bits slot 31 16 else bits slot 15 0
  entValid ws && ef ws 0 15 0 ≤ v && v ≤ ef ws 1 15 0

/-- A rule matches (R336). -/
def State.ruleMatches (s : State) (ws : List Word) (key slots : List Nat) (mark : Option Nat) : Bool :=
  ((range' 0 10).all (fun i => (nth 0 key i ^^^ ent ws (1 + i)) &&& ent ws (11 + i) = 0))
    && (ef ws 0 31 31 = 0 || s.compare slots (ef ws 0 29 18) != (ef ws 0 30 30 = 1))
    && (ef ws 0 17 17 = 0 || s.compare slots (ef ws 0 15 4) != (ef ws 0 16 16 = 1))
    && (match mark with | some m => (ent ws 2).testBit m && (ent ws 12).testBit m | none => true)

/-- Dispositions (R338). -/
def dispFORWARD : Nat := 0
def dispDROP : Nat := 1
def dispTRAP : Nat := 2
def dispCOPY : Nat := 3
def dispRECIRC : Nat := 4

/-- The action of a pass: both words, the rule that gave it, and the REASON a record would carry (R336, R341, R348). -/
structure Act where
  a : Nat
  b : Nat
  rule : Option Nat
  reason : Nat
  deriving DecidableEq, Repr

def Act.colour (x : Act) : Nat := bits x.a 35 34
def Act.cls (x : Act) : Nat := bits x.a 33 31
def Act.disp (x : Act) : Nat := bits x.a 30 28
def Act.exq (x : Act) : Nat := bits x.a 27 25
def Act.lkup (x : Act) : Nat := bits x.a 24 23
def Act.qrel (x : Act) : Bool := bits x.a 22 22 = 1
def Act.queue (x : Act) : Nat := bits x.a 17 0
def Act.meten (x : Act) : Bool := bits x.b 35 35 = 1
def Act.meter (x : Act) : Nat := bits x.b 34 16
def Act.strip (x : Act) : Nat := bits x.b 15 11
def Act.rstate (x : Act) : Nat := bits x.b 10 2

/-- The action a key takes in a bank: its lowest matching rule, else CLS_MISS_ACT, else its mark's (R336, R341). -/
def State.actionOf (s : State) (bank : Nat) (key slots : List Nat) (mark : Option Nat) : Act :=
  match (s.tabAll bank).find? (fun r => s.ruleMatches r.2 key slots mark) with
  | some (i, ws) => ⟨ent ws 21, ent ws 22, some i, if ef ws 21 30 28 = dispCOPY then 0x02 else 0x01⟩
  | none =>
    let miss := (s.rd .CLS_MISS_ACT).toNat
    match mark with
    | none => ⟨miss, 0, none, 0x03⟩
    | some m =>
      let act := if m = markLEN then s.get F.CLS_MARK_ACT_LENCONF else if m = markERR then s.get F.CLS_MARK_ACT_PERR
        else s.get F.CLS_MARK_ACT_DEPTH
      let reason := if m = markLEN then 0x10 else if m = markERR then 0x11 else 0x12
      ⟨putBits (putBits miss 30 28 (act / 8)) 27 25 (act % 8), 0, none, reason⟩

/-- Count a mark at the port and in CLS_EVT_STATUS (R324). -/
def State.countMark (s : State) (port : Nat) (mark : Option Nat) : State :=
  match mark with
  | none => s
  | some m =>
    if m = markLEN then (s.count 0x01 port 0x06).set F.CLS_EVT_STATUS_LENCONF 1
    else if m = markERR then (s.count 0x01 port 0x07).set F.CLS_EVT_STATUS_PERR 1
    else (s.count 0x01 port 0x08).set F.CLS_EVT_STATUS_DEPTH 1

/-- Count the rule that gave an action (R541). -/
def State.countHit (s : State) (bank : Nat) (rule : Option Nat) : State :=
  match rule with
  | some i => s.count 0x07 (bank * 32768 + i) 0x00
  | none => s

/-- What classification leaves of a packet: its bytes, the slots of its last pass and its action. -/
structure Verdict where
  bytes : List Byte
  slots : List Nat
  act : Act
  second : Bool
  deriving DecidableEq, Repr

/-- The state at which the first pass of a port's packets begins (R327). -/
def State.startState (s : State) (port : Nat) : Nat :=
  let k := portKind port
  if k = 0 then s.get F.CLS_START_UPL else if k = 1 then s.get F.CLS_START_TREE else s.get F.CLS_START_BOND

/-- A packet is dropped on recirculation (R340). -/
def State.rcDrop (s : State) (port : Nat) : State := (s.count 0x01 port 0x09).set F.CLS_EVT_STATUS_RCDROP 1

/-- Both passes of a packet; none where it is dropped on recirculation (R326, R336, R340). -/
def State.classify (s : State) (p : Pkt) : State × Option Verdict :=
  let w := s.parse (body p.bytes) (s.startState p.port)
  let act := s.actionOf p.bank (keyWords p.key0 w false) w.slots w.mark
  let s1 := (s.countMark p.port w.mark).countHit p.bank act.rule
  if act.disp ≠ dispRECIRC then (s1, some ⟨p.bytes, w.slots, act, false⟩)
  else if w.heads.length < act.strip then (s1.rcDrop p.port, none)
  else
    let bs := p.bytes.drop ((w.heads.take act.strip).foldl (· + ·) 0)
    let w2 := s1.parse (body bs) act.rstate
    let act2 := s1.actionOf p.bank (keyWords p.key0 w2 true) w2.slots w2.mark
    let s2 := (s1.countMark p.port w2.mark).countHit p.bank act2.rule
    if act2.disp = dispRECIRC then (s2.rcDrop p.port, none) else (s2, some ⟨bs, w2.slots, act2, true⟩)

/-! Registers of the block (R322 to R347). -/

/-- DISP and EXQ of a mark action may stand in CLS_MARK_ACT (R341). -/
def markActOk (a : Nat) : Bool := a / 8 < dispRECIRC

/-- A write of a register of the parser and classifier, the exception queues apart (R323, R341). -/
def State.clsWrite (s : State) (r : Reg) (v : Word) : WriteRes :=
  match r.id with
  | .CLS_MISS_ACT =>
    if bits v.toNat 35 34 = 3 ∨ 4 ≤ bits v.toNat 30 28 then .reject .erange
    else .done (s.plainWrite r v)
  | .CLS_MARK_ACT =>
    if markActOk (fv v F.CLS_MARK_ACT_LENCONF) ∧ markActOk (fv v F.CLS_MARK_ACT_PERR) ∧ markActOk (fv v F.CLS_MARK_ACT_DEPTH)
    then .done (s.plainWrite r v)
    else .reject .erange
  | _ => .done (s.plainWrite r v)

end Sys2Proof.Machine
end

