-- ==== Sys2Proof/Machine/Forward.lean ====
section
/-! DEFINITION. Forwarding: the destination lookup and its miss, learning, moves and flapping, ageing and flushing
(R351 to R373). -/
namespace Sys2Proof.Machine

/-! Keys and results. -/

/-- A 16-bit half of a slot (R352). -/
def half (slots : List Nat) (slot hi : Nat) : Nat := if hi = 1 then bits (nth 0 slots slot) 31 16 else bits (nth 0 slots slot) 15 0

/-- The domain of a packet's exact-match keys. -/
def State.emDomain (s : State) (slots : List Nat) : Nat :=
  half slots (s.get F.FWD_EM_KEY_DSLOT) (s.get F.FWD_EM_KEY_DHALF) &&& s.get F.FWD_EM_KEY_DMASK

/-- The destination and source keys as 64-bit numbers (R352). -/
def State.emDest (s : State) (slots : List Nat) : Nat :=
  s.emDomain slots * 2 ^ 48 + half slots (s.get F.FWD_EM_KEY_DAHI) 0 * 2 ^ 32 + nth 0 slots (s.get F.FWD_EM_KEY_DALO)
def State.emSource (s : State) (slots : List Nat) : Nat :=
  s.emDomain slots * 2 ^ 48 + half slots (s.get F.FWD_EM_KEY_SAHI) 0 * 2 ^ 32 + nth 0 slots (s.get F.FWD_EM_KEY_SALO)

/-- The port index, terminal and queue base of a result word (R353). -/
def resPort (w : Nat) : Nat := portIndex (bits w 35 34) (bits w 33 26)
def resTerm (w : Nat) : Nat := bits w 25 18
def resBase (w : Nat) : Nat := bits w 17 0

/-- A port's terminal: 0 unless it is a tree (R351). -/
def portTerm (port term : Nat) : Nat := if portKind port = 1 then term else 0

/-- What a lookup decides: the queue, and where it missed the action, exception queue and REASON (R360). -/
structure Found where
  queue : Nat
  miss : Option (Nat × Nat × Nat)
  deriving DecidableEq, Repr

/-- The queue of an action with a base (R337). -/
def Act.queueAt (x : Act) (base : Nat) : Nat := if x.qrel then (base + x.queue) % 262144 else x.queue

/-- The destination lookup of a packet (R360, R361, R365). -/
def State.lookupDest (s : State) (p : Pkt) (v : Verdict) : State × Found :=
  let x := v.act
  if x.lkup = 0 then (s, ⟨x.queue, none⟩)
  else
    let tid := if x.lkup = 1 then 0x10 else if x.lkup = 2 then 0x20 else 0x21
    let (hit, bad) :=
      if tid = 0x10 then
        let k := beBytes 8 (s.emDest v.slots)
        (s.htFind 0x10 k, s.htBadMet 0x10 k)
      else
        let vrf := half v.slots (s.get F.FWD_LPM_KEY_VSLOT) (s.get F.FWD_LPM_KEY_VHALF) &&& s.get F.FWD_LPM_KEY_VMASK
        let slot := if tid = 0x20 then s.get F.FWD_LPM_KEY_A4SLOT else s.get F.FWD_LPM_KEY_A6SLOT
        let r := s.lpmFind tid vrf (v.slots.drop slot)
        (r.1.map (fun i => (tid, i)), r.2)
    match hit with
    | some (t, i) => (s, ⟨x.queueAt (resBase (ent (s.tabGet t i) (tabN tid))), none⟩)
    | none =>
      let s1 := s.htReport bad (.packet p.port) .ok
      let m := if tid = 0x10 then (s.rd .FWD_EM_MISS).toNat else (s.rd .FWD_LPM_MISS).toNat
      let reason := if bad ≠ [] then 0x24 else if tid = 0x10 then 0x20 else 0x21
      (s1, ⟨x.queueAt (bits m 17 0), some (bits m 35 34, bits m 33 31, reason)⟩)

/-! Learning (R366 to R369). -/

/-- The queue base of entries learned on a port (R366). -/
def State.learnBase (s : State) (port term : Nat) : Nat :=
  (s.get F.FWD_LRN_PORT_QBASE port + portTerm port term * 2 ^ s.get F.FWD_LRN_PORT_QSHIFT port) % 262144

/-- A result word for a port (R353). -/
def State.resultWord (s : State) (port term : Nat) : Word :=
  BitVec.ofNat 36 (portKind port * 2 ^ 34 + portNum port * 2 ^ 26 + portTerm port term * 2 ^ 18 + s.learnBase port term)

/-- What R367 decides of a source, against the entry as it stands. -/
inductive Sighting where
  | none
  | drop
  | learn
  | refresh (t i : Nat)
  | sconf
  | pconf
  | move (t i : Nat)
  deriving DecidableEq, Repr

/-- The decision of R367 from the entry on. -/
def State.sight (s : State) (key port term : Nat) : Sighting :=
  match s.htFind 0x10 (beBytes 8 key) with
  | none => if s.htBadMet 0x10 (beBytes 8 key) ≠ [] then .drop else .learn
  | some (t, i) =>
    let ws := s.tabGet t i
    let w3 := ent ws 3
    if resPort w3 = port ∧ resTerm w3 = portTerm port term then .refresh t i
    else if ef ws 0 34 34 = 1 then .sconf
    else if ef ws 0 33 33 = 1 then .none
    else if !s.flag F.FWD_LRN_PORT_MOVE port then .none
    else if s.flag F.FWD_LRN_PORT_PRIV (resPort w3) && !s.flag F.FWD_LRN_PORT_PRIV port then .pconf
    else .move t i

/-- The age of an entry refreshed (R367). -/
def State.refreshAge (s : State) (t i : Nat) : State :=
  let ws := s.tabGet t i
  if ef ws 0 15 0 = s.coarse then s else s.tabPut t i (setW ws 0 (wput (nth 0 ws 0) 15 0 s.coarse))

/-- A request joins the queue of 4,096, or is dropped (R368). -/
def State.queueLearn (s : State) (l : Learn) : State :=
  if s.dp.learns.length < 4096 then { s with dp := { s.dp with learns := s.dp.learns ++ [l] } } else s.inc F.FWD_EVT_CNT1_LRNDROP 1

/-- The learning decision for a packet, and the conflict action it meets: action, exception queue, REASON (R367). -/
def State.learnFrom (s : State) (p : Pkt) (v : Verdict) : State × Option (Nat × Nat × Nat) :=
  let key := s.emSource v.slots
  let sa := key % 2 ^ 48
  if v.act.lkup ≠ 1 ∨ !s.flag F.FWD_LRN_CTRL_EN ∨ !s.flag F.FWD_LRN_PORT_LEARN p.port ∨ sa.testBit 40 ∨ sa = 0 then (s, none)
  else
    match s.sight key p.port p.term with
    | .none => (s, none)
    | .drop => ((s.htReport (s.htBadMet 0x10 (beBytes 8 key)) (.packet p.port) .ok).inc F.FWD_EVT_CNT1_LRNDROP 1, none)
    | .learn => (s.queueLearn ⟨false, key, p.port, p.term⟩, none)
    | .refresh t i => (s.refreshAge t i, none)
    | .sconf =>
      ((s.inc F.FWD_EVT_CNT2_SCONF 1).count 0x01 p.port 0x0D, some (s.get F.FWD_LRN_CTRL_SCACT, s.get F.FWD_LRN_CTRL_SCEXQ, 0x22))
    | .pconf =>
      ((s.inc F.FWD_EVT_CNT2_PCONF 1).count 0x01 p.port 0x0E, some (s.get F.FWD_LRN_CTRL_PCACT, s.get F.FWD_LRN_CTRL_PCEXQ, 0x23))
    | .move _ _ => (s.queueLearn ⟨true, key, p.port, p.term⟩, none)

/-- The severity of an action: DROP, TRAP, COPY, FORWARD (R367). -/
def severity (act : Nat) : Nat := if act = 1 then 3 else if act = 2 then 2 else if act = 3 then 1 else 0

/-- The prevailing of a destination miss and a source conflict (R367). -/
def prevail (miss conflict : Option (Nat × Nat × Nat)) : Option (Nat × Nat × Nat) :=
  match miss, conflict with
  | some m, some c => if severity m.1 < severity c.1 then some c else some m
  | some m, none => some m
  | none, c => c

/-- Coarse FLAPN: 0 is stored as 1 (R366). -/
def State.flapn (s : State) : Nat := s.get F.FWD_LRN_CTRL_FLAPN

/-- The tracker of an entry after one more move, and whether that move freezes it; at most 1,024 are held (R369). -/
def State.trackMove (s : State) (key : Nat) : State × Bool :=
  let now := s.clk.total
  let second := 1244160000
  match s.dp.tracks.find? (fun t => t.1 = key) with
  | some (_, t) =>
    let t' : Track := if t.start + second ≤ now then ⟨now, 1, false⟩ else ⟨t.start, t.count + 1, t.count + 1 = s.flapn + 1⟩
    ({ s with dp := { s.dp with tracks := s.dp.tracks.map (fun x => if x.1 = key then (key, t') else x) } }, t'.hold)
  | none =>
    let live := s.dp.tracks.filter (fun x => x.2.hold || now < x.2.start + second)
    let ts := if s.dp.tracks.length < 1024 then s.dp.tracks else live
    if ts.length < 1024 then ({ s with dp := { s.dp with tracks := ts ++ [(key, ⟨now, 1, false⟩)] } }, false) else (s, false)

/-- A move is applied (R367 to R369). -/
def State.applyMove (s : State) (key t i port term : Nat) : State :=
  let ws := s.tabGet t i
  let w0 := wput (nth 0 ws 0) 15 0 s.coarse
  let (s1, froze) := s.trackMove key
  let w0' := if froze then wput w0 33 33 1 else w0
  let s2 := s1.tabPut t i (setW (setW ws 0 w0') 3 (s.resultWord port term))
  let lastWord : Word := BitVec.ofNat 36 (2 ^ 35 + b2n froze * 2 ^ 34 + (if t = 0x11 then 2 ^ 33 else 0) + i)
  let s3 := (((s2.set F.FWD_STATUS_MOVE 1).inc F.FWD_EVT_CNT0_MOVES 1).wr .FWD_MOVE_LAST lastWord).count 0x01 port 0x0C
  let s4 := if froze then (s3.set F.FWD_STATUS_FLAP 1).inc F.FWD_EVT_CNT2_FLAPS 1 else s3
  let evs := (1, lastWord) :: (if froze then [(2, lastWord)] else [])
  ({ s4 with tel := { s4.tel with events := s4.tel.events ++ evs } }).logLimited 4 lastWord 0

/-- The words of a learned entry (R367). -/
def State.learnedWords (s : State) (key port term : Nat) : List Word :=
  [BitVec.ofNat 36 (2 ^ 35 + 2 ^ 32 + s.get F.FWD_LRN_GEN_LGEN * 2 ^ 16 + s.coarse), BitVec.ofNat 36 (key / 2 ^ 36), BitVec.ofNat 36 key,
   s.resultWord port term]

/-- LEARN_REQUEST: the oldest request is judged again against the entry as it stands, and applied (R368). -/
def execLearnRequest (s : State) : Host.Outcome State Fault Refusal :=
  match s.dp.learns with
  | [] => .next s
  | l :: rest =>
    let s0 := { s with dp := { s.dp with learns := rest } }
    match s0.sight l.key l.port l.term with
    | .none => .next s0
    | .drop => .next ((s0.htReport (s0.htBadMet 0x10 (beBytes 8 l.key)) .device .ok).inc F.FWD_EVT_CNT1_LRNDROP 1)
    | .learn =>
      match s0.htInsert 0x10 (s0.learnedWords l.key l.port l.term) (fun old => old) .device .ok with
      | .at_ s' _ _ _ _ => .next ((s'.inc F.FWD_EVT_CNT0_LEARNS 1).count 0x01 l.port 0x0B)
      | .parity s' => .next (s'.inc F.FWD_EVT_CNT1_LRNDROP 1)
      | .full s' => .next ((s'.inc F.FWD_EVT_CNT1_LRNDROP 1).set F.FWD_STATUS_LRNFULL 1)
    | .refresh t i => .next (s0.refreshAge t i)
    | .sconf => .next ((s0.inc F.FWD_EVT_CNT2_SCONF 1).count 0x01 l.port 0x0D)
    | .pconf => .next ((s0.inc F.FWD_EVT_CNT2_PCONF 1).count 0x01 l.port 0x0E)
    | .move t i => .next (s0.applyMove l.key t i l.port l.term)

/-- FREEZE_HOLD_END: FROZEN clears and the count returns to 0 (R369). -/
def execFreezeHoldEnd (key : BitVec 64) (s : State) : Host.Outcome State Fault Refusal :=
  let k := key.toNat
  if s.dp.tracks.any (fun t => t.1 = k && t.2.hold) then
    let s1 := { s with dp := { s.dp with tracks := s.dp.tracks.filter (fun t => t.1 ≠ k) } }
    match s1.htFind 0x10 (beBytes 8 k) with
    | some (t, i) =>
      let ws := s1.tabGet t i
      .next (s1.tabPut t i (setW ws 0 (wput (nth 0 ws 0) 33 33 0)))
    | none => .next s1
  else .next s

/-! Ageing and flushing (R370, R371). -/

/-- The good valid exact-match entries, the stash's among them. -/
def State.emAll (s : State) : List (Nat × Nat × List Word) :=
  (((s.tabAll 0x10).filter (fun e => !s.tabBad 0x10 e.1)).map (fun e => (0x10, e)))
    ++ (((s.tabAll 0x11).filter (fun e => !s.tabBad 0x11 e.1)).map (fun e => (0x11, e)))

/-- Remove exact-match entries by table and index; then the stash re-homes (R358). -/
def State.emRemoveAll (s : State) (es : List (Nat × Nat × List Word)) : State :=
  let s1 := es.foldl (fun s e =>
    let s' := s.tabPut e.1 e.2.1 []
    { s' with dp := { s'.dp with tracks := s'.dp.tracks.filter (fun t => t.1 ≠ htKey 0x10 e.2.2) } }) s
  if es.any (fun e => e.1 = 0x10) then s1.rehome else s1

/-- The ager removes an entry (R370). -/
def State.expired (s : State) (ws : List Word) : Bool :=
  ef ws 0 34 34 = 0 && ef ws 0 33 33 = 0 && s.get F.FWD_AGE_CTRL_LIMIT ≤ (s.coarse + 65536 - ef ws 0 15 0) % 65536

/-- AGE_TICK: the coarse time advances, and with ageing on a sweep removes what has expired (R370). -/
def execAgeTick (s : State) : Host.Outcome State Fault Refusal :=
  let s1 := s.set F.FWD_AGE_STATUS_NOW ((s.coarse + 1) % 65536)
  if s1.flag F.FWD_AGE_CTRL_EN then
    let out := s1.emAll.filter (fun e => s1.expired e.2.2)
    let s2 := (s1.emRemoveAll out).inc F.FWD_EVT_CNT1_AGED out.length
    .next (s2.set F.FWD_AGE_STATUS_SWEEPS ((s2.get F.FWD_AGE_STATUS_SWEEPS + 1) % 65536))
  else .next s1

/-- An entry matches the flush that FWD_FLUSH describes (R371). -/
def State.flushMatch (s : State) (ws : List Word) : Bool :=
  (ef ws 0 34 34 = 0 || s.flag F.FWD_FLUSH_INCLSTATIC)
    && (!s.flag F.FWD_FLUSH_BYPORT || resPort (ent ws 3) = s.get F.FWD_FLUSH_PORT)
    && (!s.flag F.FWD_FLUSH_BYGEN || ef ws 0 31 16 = s.get F.FWD_FLUSH_GEN)

/-- The flush takes the bucket of an entry at its start; every other it takes before it completes. The order is the
device's, so which is free (log 40). -/
def State.flushEarly (s : State) (e : Nat × Nat × List Word) : Bool :=
  Config.freeBool (s.dp.flushAt + (if e.1 = 0x11 then 2 ^ 19 + e.2.1 else e.2.1 / 4))

/-- A flush starts (R371). -/
def State.flushStart (s : State) : State :=
  let s1 := ({ s with dp := { s.dp with flushAt := s.free }, free := s.free + 2 ^ 20 }).set F.FWD_FLUSH_BUSY 1
  s1.emRemoveAll (s1.emAll.filter (fun e => s1.flushMatch e.2.2 && s1.flushEarly e))

/-- FWD_FLUSH_DONE: the rest of the table is flushed and BUSY clears (R371). -/
def execFwdFlushDone (s : State) : Host.Outcome State Fault Refusal :=
  if s.flag F.FWD_FLUSH_BUSY then
    .next ((s.emRemoveAll (s.emAll.filter (fun e => s.flushMatch e.2.2 && !s.flushEarly e))).set F.FWD_FLUSH_BUSY 0)
  else .next s

/-- A port, or a terminal of a tree, goes down: with DNFLUSH its dynamic entries go (R368). -/
def State.downFlush (s : State) (port : Nat) (term : Option Nat) : State :=
  if s.flag F.FWD_LRN_PORT_DNFLUSH port then
    s.emRemoveAll (s.emAll.filter (fun e =>
      ef e.2.2 0 34 34 = 0 && resPort (ent e.2.2 3) = port && (match term with | some u => resTerm (ent e.2.2 3) = u | none => true)))
  else s

/-! Registers of the block (R349, R350). -/

/-- Any exact-match or longest-prefix entry is valid. -/
def State.anyEntry (s : State) : Bool := (s.tabAll 0x10 ++ s.tabAll 0x11 ++ s.tabAll 0x20 ++ s.tabAll 0x21) ≠ []

/-- A field stored as 1 where 0 is written. -/
def atLeast1 (v : Word) (f : Fld) : Word := if fv v f = 0 then wput v f.hi f.lo 1 else v

/-- A write of a forwarding register. -/
def State.fwdWrite (s : State) (r : Reg) (v : Word) : WriteRes :=
  match r.id with
  | .FWD_LPM_KEY => if 4 < fv v F.FWD_LPM_KEY_A6SLOT then .reject .erange else .done (s.plainWrite r v)
  | .FWD_HASH_SEED0 | .FWD_HASH_SEED1 => if s.anyEntry then .reject .estate else .done (s.plainWrite r v)
  | .FWD_LRN_CTRL => .done (s.plainWrite r (atLeast1 (atLeast1 v F.FWD_LRN_CTRL_FLAPN) F.FWD_LRN_CTRL_HOLD))
  | .FWD_AGE_CTRL => .done (s.plainWrite r (atLeast1 (atLeast1 v F.FWD_AGE_CTRL_TICK) F.FWD_AGE_CTRL_LIMIT))
  | .FWD_FLUSH =>
    if !portListed (fv v F.FWD_FLUSH_PORT) then .reject .erange
    else if s.flag F.FWD_FLUSH_BUSY then .reject .estate
    else
      let s1 := s.plainWrite r v
      .done (if v.msb then s1.flushStart else s1)
  | .FWD_LRN_PORT => if portListed r.i then .done (s.plainWrite r v) else .done s
  | _ => .done (s.plainWrite r v)

/-- The value of a forwarding register (R371, R373). -/
def State.fwdValue (s : State) (r : Reg) : Word :=
  match r.id with
  | .FWD_STATUS =>
    wput (wput (s.rd .FWD_STATUS) 5 5 (b2n ((s.tabAll 0x11).length = 64))) 4 4 (b2n (s.flag F.FWD_FLUSH_BUSY))
  | .FWD_OCC0 =>
    BitVec.ofNat 36 ((s.tabAll 0x11).length * 2 ^ 29 + (s.tabAll 0x10).length + (s.tabAll 0x11).length)
  | .FWD_OCC1 => BitVec.ofNat 36 (s.tabAll 0x20).length
  | .FWD_OCC2 => BitVec.ofNat 36 (s.tabAll 0x21).length
  | _ => s.rd r.id r.i r.j r.k

end Sys2Proof.Machine
end

