-- ==== Sys2Proof/Machine/Exq.lean ====
section
/-! DEFINITION. Exception queues: their registers, rate limit and records (R344 to R348). -/
namespace Sys2Proof.Machine

/-- Units of a packet in an exception queue's bucket: a rate of one packet per second fills one in a cycle (R347). -/
def exqUnits : Nat := 1244160000

/-- The bucket of a queue, full where none is kept, filled up to now (R347). -/
def State.exqBucket (s : State) (q : Nat) : Bucket :=
  let top : Int := s.get F.CLS_EXQ_RATE_BURST q * exqUnits
  match sget none s.dp.exq q with
  | none => { bal := top, last := s.clk.total }
  | some b => { bal := min top (b.bal + s.get F.CLS_EXQ_RATE_RATE q * (s.clk.total - b.last : Nat)), last := s.clk.total }

def State.setExq (s : State) (q : Nat) (b : Option Bucket) : State := { s with dp := { s.dp with exq := sput none s.dp.exq q b } }

/-- Bytes of a slot (R344). -/
def State.exqSlot (s : State) (q : Nat) : Nat :=
  let z := s.get F.CLS_EXQ_CTRL_SLOTSZ q
  if z = 0 then 256 else if z = 1 then 2048 else 16384

/-- The address of a slot. -/
def State.exqAddr (s : State) (q i : Nat) : Nat :=
  s.get F.CLS_EXQ_BASE_HI_ADDR q * 2 ^ 32 + s.get F.CLS_EXQ_BASE_LO_ADDR q * 2 ^ 12 + i % 2 ^ s.get F.CLS_EXQ_CTRL_SIZE q * s.exqSlot q

/-- Eight bytes as a slot of host memory, the first at the lowest address (R134). -/
def slotOf (bs : List Byte) : BitVec 64 := BitVec.ofNat 64 ((bs.take 8).foldr (fun b a => a * 256 + b.toNat) 0)

/-- Posted writes of bytes from an address, n slots. -/
def State.postBytes (s : State) : Nat → Nat → List Byte → State
  | 0, _, _ => s
  | n + 1, addr, bs => State.postBytes (s.post (.hostWrite (BitVec.ofNat 64 addr) (slotOf bs))) n (addr + 8) (bs.drop 8)

/-- The four header words of a record (R346). -/
def State.exqHeader (s : State) (p : Pkt) (x : ExRec) (i : Nat) : List Word :=
  let len := p.bytes.length
  let cap := min len (s.exqSlot x.queue - 32)
  let phase := if i / 2 ^ s.get F.CLS_EXQ_CTRL_SIZE x.queue % 2 = 0 then 1 else 0
  [BitVec.ofNat 36 (phase * 2 ^ 35 + x.reason * 2 ^ 24 + len),
   BitVec.ofNat 36 (p.bank * 2 ^ 33 + b2n x.pass2 * 2 ^ 32 + b2n x.rule.isSome * 2 ^ 31 + (x.rule.getD 0) % 2 ^ 15 * 2 ^ 16 + cap),
   x.key0,
   BitVec.ofInt 36 (p.rx / 65536)]

/-- A record is written: bytes and slots 1 to 3 first, slot 0 last (R346). -/
def State.exqRecord (s : State) (p : Pkt) (x : ExRec) : State :=
  let q := x.queue
  let i := s.get F.CLS_EXQ_TAIL_TAIL q
  let a := s.exqAddr q i
  let ws := s.exqHeader p x i
  let cap := min p.bytes.length (s.exqSlot q - 32)
  let put := fun (s : State) (k : Nat) => s.post (.hostWrite (BitVec.ofNat 64 (a + 8 * k)) ((nth 0 ws k).zeroExtend 64))
  let s1 := s.postBytes (ceilDiv cap 8) (a + 32) (p.bytes.take cap)
  let s2 := put (put (put (put s1 1) 2) 3) 0
  let s3 := (s2.set F.CLS_EXQ_TAIL_TAIL ((i + 1) % 65536) q).perfEvent 0x0A q
  let s4 := s3.set F.CLS_EXQ_STATUS_NEW 1 q
  if s.flag F.CLS_EXQ_STATUS_NEW q then s4 else s4.signal (22 + q)

/-- A packet for an exception queue is delivered, or dropped and counted; the rate limit is checked first (R347). -/
def State.exqDeliver (s : State) (p : Pkt) (x : ExRec) : State :=
  let q := x.queue
  let b := s.exqBucket q
  let free := s.get F.CLS_EXQ_RATE_RATE q = 0
  if !free && b.bal < exqUnits then (s.setExq q (some b)).inc F.CLS_EXQ_CNT_RATEDROP 1 q
  else
    let s1 := s.setExq q (some (if free then b else { b with bal := b.bal - exqUnits }))
    let used := (s.get F.CLS_EXQ_TAIL_TAIL q + 65536 - s.get F.CLS_EXQ_HEAD_HEAD q) % 65536
    if !s.flag F.CLS_EXQ_STATUS_ENABLED q || 2 ^ s.get F.CLS_EXQ_CTRL_SIZE q ≤ used || !s.canWrite then
      (s1.inc F.CLS_EXQ_CNT_FULLDROP 1 q).set F.CLS_EXQ_STATUS_FULL 1 q
    else s1.exqRecord p x

/-- A write of an exception queue's register (R344, R345, R347). -/
def State.exqWrite (s : State) (r : Reg) (v : Word) : WriteRes :=
  let q := r.i
  let on := s.flag F.CLS_EXQ_STATUS_ENABLED q
  match r.id with
  | .CLS_EXQ_BASE_LO => if on && fv v F.CLS_EXQ_BASE_LO_ADDR ≠ s.get F.CLS_EXQ_BASE_LO_ADDR q then .reject .estate else .done (s.plainWrite r v)
  | .CLS_EXQ_BASE_HI => if on && fv v F.CLS_EXQ_BASE_HI_ADDR ≠ s.get F.CLS_EXQ_BASE_HI_ADDR q then .reject .estate else .done (s.plainWrite r v)
  | .CLS_EXQ_CTRL =>
    let z := fv v F.CLS_EXQ_CTRL_SLOTSZ
    let n := fv v F.CLS_EXQ_CTRL_SIZE
    if z = 3 ∨ n < 6 ∨ 14 < n then .reject .erange
    else if on ∧ (z ≠ s.get F.CLS_EXQ_CTRL_SLOTSZ q ∨ n ≠ s.get F.CLS_EXQ_CTRL_SIZE q) then .reject .estate
    else
      let s1 := s.plainWrite r v
      if v.msb then
        if on then .done s1
        else
          let s2 := ((s1.set F.CLS_EXQ_TAIL_TAIL 0 q).set F.CLS_EXQ_HEAD_HEAD 0 q).set F.CLS_EXQ_STATUS_ENABLED 1 q
          .done (s2.setExq q none)
      else .done (s1.set F.CLS_EXQ_STATUS_ENABLED 0 q)
  | .CLS_EXQ_HEAD =>
    if 2 ^ s.get F.CLS_EXQ_CTRL_SIZE q < (s.get F.CLS_EXQ_TAIL_TAIL q + 65536 - fv v F.CLS_EXQ_HEAD_HEAD) % 65536 then .reject .erange
    else .done (s.plainWrite r v)
  | .CLS_EXQ_RATE =>
    let b := s.exqBucket q
    let s1 := s.plainWrite r (atLeast1 v F.CLS_EXQ_RATE_BURST)
    let top : Int := s1.get F.CLS_EXQ_RATE_BURST q * exqUnits
    .done (s1.setExq q (some { b with bal := min top b.bal }))
  | _ => .done (s.plainWrite r v)

end Sys2Proof.Machine
end

