-- ==== Sys2Proof/Machine/Gate.lean ====
section
/-! DEFINITION. Time gates: commitment, entries, re-phasing, the guard band and the longest opening (R418 to R427). -/
namespace Sys2Proof.Machine

/-- The gates of an egress beside its registers. -/
def State.gate (s : State) (g : Nat) : GateSt := sget {} s.dp.gates g
def State.setGate (s : State) (g : Nat) (x : GateSt) : State := { s with dp := { s.dp with gates := sput {} s.dp.gates g x } }

/-- An egress with gates: the first lane of a port, or a tree (R418). -/
def State.gated (s : State) (g : Nat) : Bool := if g < 40 then s.flag F.UPL_PORT_CTRL_CONF g else 64 ≤ g && g < 128

/-- GATES and INTERVAL of an entry of list s of egress g (R419). -/
def State.gateEntry (s : State) (g : Nat) (l : GList) (i : Nat) : Nat × Nat :=
  let ws := s.tabGet 0x30 ((2 * g + l.s) * 256 + i)
  (ef ws 0 7 0, ef ws 1 29 0)

/-- The entries of a cycle that begins at an instant: number, beginning and gates; those at or after the cycle's end are
skipped (R422). -/
def State.cycleSegs (s : State) (g : Nat) (l : GList) (begin_ : Nat) : List (Nat × Nat × Nat) :=
  let step := fun (acc : List (Nat × Nat × Nat) × Nat) (i : Nat) =>
    let (gates, interval) := s.gateEntry g l i
    if acc.2 < begin_ + l.cycle then (acc.1 ++ [(i, acc.2, gates)], acc.2 + interval) else acc
  ((range' 0 l.len).foldl step ([], begin_)).1

/-- The end of the entry that begins at an instant in a cycle: the next one's beginning, or the cycle's end. -/
def State.segEnd (s : State) (g : Nat) (l : GList) (begin_ i : Nat) : Nat :=
  match (s.cycleSegs g l begin_).find? (fun x => x.1 = i + 1) with
  | some x => x.2.1
  | none => begin_ + l.cycle

/-- STATE of GATE_STATUS (R427). -/
def GateSt.state (x : GateSt) : Nat :=
  match x.oper, x.pend with
  | none, none => 0
  | none, some _ => 1
  | some _, none => 2
  | some _, some _ => 3

/-- The status registers follow the lists: STATE, OLIST, and the entry and gates in force. -/
def State.gateStatus (s : State) (g entry : Nat) : State :=
  let x := s.gate g
  let s1 := s.set F.GATE_STATUS_STATE x.state g
  match x.oper with
  | some l =>
    ((s1.set F.GATE_STATUS_OLIST l.s g).set F.GATE_STATUS_ENTRY entry g).set F.GATE_STATUS_GATES (s.gateEntry g l entry).1 g
  | none => (s1.set F.GATE_STATUS_ENTRY 0 g).set F.GATE_STATUS_GATES 0xFF g

/-- Put an entry in force. -/
def State.gateAt (s : State) (g : Nat) (l : GList) (cycleAt entry : Nat) : State :=
  let x := s.gate g
  (s.setGate g { x with oper := some l, cycleAt, entryEnd := s.segEnd g l cycleAt entry }).gateStatus g entry

/-- A start instant of base b and cycle, at least 2 us ahead of now; true: it was advanced (R421). -/
def State.gateStart (s : State) (b cycle : Nat) : Nat × Bool :=
  let least := s.clk.tb + 2000 * tbPerNs
  if least ≤ b * tbPerNs then (b, false) else (b + ceilDiv (least - b * tbPerNs) (cycle * tbPerNs) * cycle, true)

/-- Commit the administrative list: the status of a rejection, or the state (R421). -/
def State.gateCommit (s : State) (g : Nat) (v : Word) : WriteRes :=
  let x := s.gate g
  let alist := fv v F.GATE_CTRL_ALIST
  let len := fv v F.GATE_CTRL_LEN
  let cycle := s.get F.GATE_CYCLE_CYCLE g
  let ns := s.get F.GATE_BASE_NS_NS g
  let l0 : GList := ⟨alist, len, cycle, 0⟩
  if !v.msb || x.pend.isSome || (match x.oper with | some l => l.s = alist | none => false) then .reject .estate
  else if len = 0 ∨ 256 < len ∨ cycle < 1000 ∨ 1000000000 < cycle ∨ 1000000000 ≤ ns
      ∨ (range' 0 len).any (fun i => (s.gateEntry g l0 i).2 = 0) then .reject .erange
  else
    let (start, adv) := s.gateStart (s.get F.GATE_BASE_SEC_SEC g * 1000000000 + ns) cycle
    let s1 := s.setGate g { x with pend := some { l0 with start } }
    let s2 := (s1.set F.GATE_START_SEC_SEC (start / 1000000000) g).set F.GATE_START_NS_NS (start % 1000000000) g
    let s3 := if adv then s2.set F.GATE_STATUS_ADV 1 g else s2
    .done (s3.gateStatus g (s3.get F.GATE_STATUS_ENTRY g))

/-- A write of a gate register (R396, R418, R420). -/
def State.gateWrite (s : State) (r : Reg) (v : Word) : WriteRes :=
  let g := r.i
  if !s.gated g then .done s
  else
    match r.id with
    | .GATE_CTRL =>
      let len := fv v F.GATE_CTRL_LEN
      if len = 0 ∨ 256 < len then .reject .erange
      else
        let s0 := if fv v F.GATE_CTRL_COMMIT = 1 then s.gateCommit g v else .done s
        match s0 with
        | .reject st => .reject st
        | .done s1 =>
          let s2 := s1.plainWrite r v
          let x := s2.gate g
          if !v.msb && s.flag F.GATE_CTRL_EN g then .done ((s2.setGate g {}).gateStatus g 0)
          else if fv v F.GATE_CTRL_CANCEL = 1 && fv v F.GATE_CTRL_COMMIT = 0 then
            .done ((s2.setGate g { x with pend := none }).gateStatus g (s2.get F.GATE_STATUS_ENTRY g))
          else .done s2
    | .GATE_BASE_NS => if 1000000000 ≤ fv v F.GATE_BASE_NS_NS then .reject .erange else .done (s.plainWrite r v)
    | .GATE_CYCLE =>
      if fv v F.GATE_CYCLE_CYCLE < 1000 ∨ 1000000000 < fv v F.GATE_CYCLE_CYCLE then .reject .erange else .done (s.plainWrite r v)
    | _ => .done (s.plainWrite r v)

/-- The value of a gate register: a lane that starts no port reads zero (R418). -/
def State.gateValue (s : State) (r : Reg) : Word := if s.gated r.i then s.rd r.id r.i r.j r.k else 0

/-- GATE_LIST_START: the pending list becomes operational at entry 0 (R421). -/
def execGateListStart (g : Fin 128) (s : State) : Host.Outcome State Fault Refusal :=
  match (s.gate g).pend with
  | some l => .next ((s.setGate g { s.gate g with pend := none }).gateAt g l l.start 0)
  | none => .next s

/-- GATE_ENTRY: the next entry, or entry 0 of the next cycle (R422). -/
def execGateEntry (g : Fin 128) (s : State) : Host.Outcome State Fault Refusal :=
  let x := s.gate g
  match x.oper with
  | none => .next s
  | some l =>
    if x.entryEnd < x.cycleAt + l.cycle then .next (s.gateAt g l x.cycleAt (s.get F.GATE_STATUS_ENTRY g + 1))
    else .next (s.gateAt g l (x.cycleAt + l.cycle) 0)

/-- Re-phase the gates of an egress after a step of the time base (R426). Before its start a list stands where its cycles
would stand if they reached back (log 45). -/
def State.rephaseGate (s : State) (g : Nat) : State :=
  let x := s.gate g
  let now := s.nowNs
  let s1 :=
    match x.oper with
    | none => s
    | some l =>
      let into := (((now : Int) - l.start) % (l.cycle : Int)).toNat
      let begin_ := now - into
      let entry := ((s.cycleSegs g l begin_).filter (fun e => e.2.1 ≤ now)).getLast?
      (s.gateAt g l begin_ (match entry with | some e => e.1 | none => 0)).set F.GATE_STATUS_STEP 1 g
  match x.pend with
  | none => s1
  | some l =>
    let (start, adv) := s1.gateStart l.start l.cycle
    if adv then
      let s2 := s1.setGate g { s1.gate g with pend := some { l with start } }
      ((s2.set F.GATE_STATUS_ADV 1 g).set F.GATE_START_SEC_SEC (start / 1000000000) g).set F.GATE_START_NS_NS (start % 1000000000) g
    else s1

/-- Re-phase every operational gate list after a step of the time base (R426). -/
def State.rephaseGates (s : State) : State := s.dp.gates.foldl (fun s e => s.rephaseGate e.1) s

/-! The guard band (R423, R424). -/

/-- A non-leader member of a formed bonding group: its gates have no effect (R418). -/
def State.bondMember (s : State) (t : Nat) : Option Nat :=
  (range' (t / 8 * 8) 8).find? (fun k => k ≠ t && s.flag F.PON_BOND_CTRL_EN k && bit (s.get F.PON_BOND_CTRL_MASK k) (t % 8))

/-- The members of the bonding group a tree leads; the tree alone where it leads none (R263). -/
def State.groupOf (s : State) (t : Nat) : List Nat :=
  if s.flag F.PON_BOND_CTRL_EN t then (range' (t / 8 * 8) 8).filter (fun k => bit (s.get F.PON_BOND_CTRL_MASK t) (k % 8)) else [t]

/-- The tree that leads the group of a tree; the tree itself where no group has it. -/
def State.leaderOf (s : State) (t : Nat) : Nat := (s.bondMember t).getD t

/-- Gating acts on an egress. -/
def State.gateActs (s : State) (g : Nat) : Bool :=
  s.gated g && s.flag F.GATE_CTRL_EN g && !(64 ≤ g && (s.bondMember (g - 64)).isSome)

/-- A class is open at an egress (R422). -/
def State.gateOpen (s : State) (g c : Nat) : Bool := !s.gateActs g || bit (s.get F.GATE_STATUS_GATES g) c

/-- The instants, in ns, at which coming entries begin, with their gates: those of the operational list for two cycles up
to the start of a pending one, then the pending list's. -/
def State.coming (s : State) (g : Nat) : List (Nat × Nat) :=
  let x := s.gate g
  let segs := fun (l : GList) (b : Nat) => ((s.cycleSegs g l b) ++ (s.cycleSegs g l (b + l.cycle))).map (fun e => (e.2.1, e.2.2))
  let own :=
    match x.oper with
    | some l => (segs l x.cycleAt).filter (fun e => x.entryEnd ≤ e.1)
    | none => []
  match x.pend with
  | some l => own.filter (fun e => e.1 < l.start) ++ segs l l.start
  | none => own

/-- The next closing of a class at an egress, in ns; none where it has none (R423). -/
def State.nextClosing (s : State) (g c : Nat) : Option Nat :=
  if s.gateActs g then (((s.coming g).find? (fun e => !bit e.2 c)).map (fun e => e.1)) else none

/-- MAXOPEN of a class, in ns; none where it is unlimited or no list is operational (R424). -/
def State.maxOpen (s : State) (g c : Nat) : Option Nat :=
  match (s.gate g).oper with
  | none => none
  | some l =>
    let segs := s.cycleSegs g l 0
    if !s.gateActs g || segs.all (fun e => bit e.2.2 c) then none
    else
      let durs := segs.map (fun e => (bit e.2.2 c, s.segEnd g l 0 e.1 - e.2.1))
      let step := fun (acc : Nat × Nat) (d : Bool × Nat) =>
        let run := if d.1 then acc.1 + d.2 else 0
        (run, max acc.2 run)
      some ((durs ++ durs).foldl step (0, 0)).2

/-- The rate of an uplink port's MAC in Gbit/s (R477). -/
def State.macRate (s : State) (l : Nat) : Nat := 100 * 2 ^ s.get F.UPL_PORT_CTRL_WIDTH l

/-- Information bytes of a frame of a tree (R242). -/
def State.infoBytes (s : State) (t : Nat) : Nat := if s.flag F.PON_DS_CTRL_MODE t then 656616 else 135432

/-- Bytes of a tree's next frame before its XGEM frames: header, map and PLOAM messages, as the framer holds them (R243,
R423). -/
def State.frameHead (s : State) (t : Fin 64) : Nat :=
  let x := s.tr t
  let n := match x.committed with | some m => m.length | none => x.fallback.length
  Config.framingHeader + 8 * n + 48 * min 4 (x.ploamTx.length + x.ploamOwn.length)

/-- The transmission time of a packet of L bytes at an egress, in units of the time base (R423). -/
def State.txTime (s : State) (g len : Nat) : Nat :=
  if g < 64 then (len + 20) * 8 * tbPerNs / s.macRate g
  else
    let t := g - 64
    let byte := 125000 * tbPerNs
    let own := (8 + (len + 3) / 4 * 4) * byte / s.infoBytes t
    let left := (155520 - s.clk.cycle) * s.tbInc.toNat
    if own ≤ left then own
    else
      let psbd := 24 * 8 * tbPerNs * 100000 / (if s.flag F.PON_DS_CTRL_MODE t then 4976640 else 995328)
      own + psbd + s.frameHead (Fin.ofNat 64 t) * byte / s.infoBytes t

/-- A packet would overrun the next closing of its class (R423). -/
def State.guarded (s : State) (g c len : Nat) : Bool :=
  match s.nextClosing g c with
  | some ns => ns * tbPerNs < s.clk.tb + s.txTime g len
  | none => false

/-- A packet could never be sent within an opening of its class (R424). -/
def State.oversize (s : State) (g c len : Nat) : Bool :=
  match s.maxOpen g c with
  | some ns => ns * tbPerNs < s.txTime g len
  | none => false

end Sys2Proof.Machine
end

