-- ==== Sys2Proof/Machine/Nodes.lean ====
section
/-! DEFINITION. Queues, courses and their roots; rates, bursts and token buckets; ports that are up (R397 to R402). -/
namespace Sys2Proof.Machine

/-- Queues, courses and meters. -/
def State.que (s : State) (q : Nat) : Que := sget {} s.dp.queues q
def State.setQue (s : State) (q : Nat) (x : Que) : State := { s with dp := { s.dp with queues := sput {} s.dp.queues q x } }
def State.crs (s : State) (c : Nat) : Crs := sget {} s.dp.courses c
def State.setCrs (s : State) (c : Nat) (x : Crs) : State := { s with dp := { s.dp with courses := sput {} s.dp.courses c x } }
def State.mtr (s : State) (m : Nat) : Mtr := sget {} s.dp.meters m
def State.setMtr (s : State) (m : Nat) (x : Mtr) : State := { s with dp := { s.dp with meters := sput {} s.dp.meters m x } }

/-- Fields of a queue image (R403). -/
def Que.en (q : Que) : Bool := ef q.cfg 0 35 35 = 1
def Que.prio (q : Que) : Nat := ef q.cfg 0 34 32
def Que.weight (q : Que) : Nat := ef q.cfg 0 31 24
def Que.parent (q : Que) : Nat := ef q.cfg 0 18 0
def Que.gclass (q : Que) : Nat := ef q.cfg 3 26 24
def Que.eclass (q : Que) : Nat := ef q.cfg 3 23 21
def Que.sprof (q : Que) : Nat := ef q.cfg 3 20 18
def Que.enc (q : Que) : Bool := ef q.cfg 6 35 35 = 1
def Que.term (q : Que) : Nat := ef q.cfg 6 31 24
def Que.gem (q : Que) : Nat := ef q.cfg 6 15 0
/-- The depth limit of a colour in bytes, and in packets. -/
def Que.limit (q : Que) (colour : Nat) : Nat :=
  256 * (if colour = 0 then ef q.cfg 4 35 18 else if colour = 1 then ef q.cfg 4 17 0 else ef q.cfg 5 35 18)
def Que.plim (q : Que) : Nat := ef q.cfg 5 17 0

/-- Fields of a course image (R406). -/
def Crs.used (c : Crs) : Bool := c.cfg ≠ []
def Crs.root (c : Crs) : Bool := ef c.cfg 0 35 35 = 1
def Crs.cap (c : Crs) : Bool := ef c.cfg 0 34 34 = 1
def Crs.capped (c : Crs) : Bool := ef c.cfg 0 33 33 = 1
def Crs.prio (c : Crs) : Nat := ef c.cfg 0 32 30
def Crs.weight (c : Crs) : Nat := ef c.cfg 0 29 22
def Crs.egress (c : Crs) : Nat := ef c.cfg 0 7 0

/-- The root course of a course, within eight levels (R397, R399). -/
def State.rootFrom (s : State) : Nat → Nat → Option Nat
  | 0, _ => none
  | n + 1, c =>
    let x := s.crs c
    if !x.used then none
    else if x.root then some c
    else match x.parent with
      | some p => State.rootFrom s n p
      | none => none

/-- The root course of a queue; none where it is not rooted (R399). -/
def State.rootOf (s : State) (q : Nat) : Option Nat := if (s.que q).cfg = [] then none else s.rootFrom 9 (s.que q).parent

/-- The egress of a queue's root course (R398). -/
def State.egressOf (s : State) (q : Nat) : Option Nat := (s.rootOf q).map (fun c => (s.crs c).egress)

/-! Rates and buckets (R400 to R402). -/

/-- The rate of a 17-bit field in kbit/s. -/
def rateKbps (r : Nat) : Nat := r % 4096 * 2 ^ (r / 4096)
def rateUnlimited : Nat := 0x1FFFF

/-- The burst of a 12-bit field in bytes. -/
def burstBytes (b : Nat) : Nat := b / 16 * 2 ^ (b % 16)

/-- The units of a bucket in one byte: a rate of r kbit/s fills r units in one cycle of quoin 24. -/
def byteUnits : Nat := 9953280

/-- The signed overhead of a 9-bit field (R402). -/
def ovh (f : Nat) : Int := signed 9 f

/-- The charged length of a packet of L bytes (R402). -/
def charged (len f : Nat) : Nat := (max 1 ((len : Int) + ovh f)).toNat

/-- A bucket filled up to now at a rate field, held to its burst (R401). -/
def Bucket.fill (b : Bucket) (rate burst now : Nat) : Bucket :=
  let top : Int := burstBytes burst * byteUnits
  if rate = rateUnlimited then { bal := if b.last < now then top else min top b.bal, last := now }
  else { bal := min top (b.bal + rateKbps rate * (now - b.last : Nat)), last := now }

/-- It conforms while its balance is not negative. -/
def Bucket.conforms (b : Bucket) : Bool := 0 ≤ b.bal

/-- A bucket debited by bytes. -/
def Bucket.debit (b : Bucket) (bytes : Nat) : Bucket := { b with bal := b.bal - bytes * byteUnits }

/-- Rate and burst fields of a bucket word (R403, R406, R415). -/
def wordRate (w : Nat) : Nat := bits w 28 12
def wordBurst (w : Nat) : Nat := bits w 11 0

/-- A node's buckets filled up to now, with words holding its committed and peak rates. -/
def Node.fill (n : Node) (cw pw now : Nat) : Node :=
  { n with com := n.com.fill (wordRate cw) (wordBurst cw) now, peak := n.peak.fill (wordRate pw) (wordBurst pw) now }

/-- The committed bucket conforms: one of rate 0 never does (R401). -/
def Node.comOk (n : Node) (cw : Nat) : Bool := rateKbps (wordRate cw) ≠ 0 && n.com.conforms

/-- The peak bucket conforms: one of unlimited rate always does. -/
def Node.peakOk (n : Node) (pw : Nat) : Bool := wordRate pw = rateUnlimited || n.peak.conforms

/-- A node debited by a packet's charged length (R401). -/
def Node.debit (n : Node) (pw bytes : Nat) : Node :=
  { n with com := n.com.debit bytes, peak := if wordRate pw = rateUnlimited then n.peak else n.peak.debit bytes }

/-! Ports (R351, R391, R398). -/

/-- The port is enabled and its link is up, whatever flushes run. -/
def State.linkUp (s : State) (p : Nat) : Bool :=
  if p < 40 then s.flag F.UPL_PORT_CTRL_CONF p && s.dp.lanesOn.getLsbD p && s.flag F.UPL_PORT_STATUS_UP p
  else if p < 64 then false
  else if p < 128 then (s.groupOf (p - 64)).any (fun t => s.flag F.PON_TREE_STATUS_ENABLED t)
  else p < 132 && s.dp.bondOn.getLsbD (p - 128) && s.get F.BND_STATUS_STATE (p - 128) = 4

/-- An egress that packets may be admitted for (R391, R392, R398). -/
def State.admits (s : State) (p : Nat) : Bool :=
  s.linkUp p && !s.flag F.BUF_PORT_STATE_FLUSHING p && !s.flag F.BUF_PORT_STATE_PEND p
    && !(64 ≤ p && p < 128 && (s.bondMember (p - 64)).isSome)

/-- The domains that serve a port (R23). -/
def portDomains (p : Nat) : List Nat :=
  if p < 40 then [17 + p / 10] else if p < 128 then [1 + (p - 64) / 8] else [21]

end Sys2Proof.Machine
end

