-- ==== Sys2Proof/Machine/TableOps.lean ====
section
/-! DEFINITION. Table operations of ashlar code: TWRITE, TREAD, TINSERT, TDELETE, TLOOKUP and their completion, TBANK, FENCE
and TGEN (R178, R179, R191 to R196, R342, R372). -/
namespace Sys2Proof.Machine

/-! Issue. -/

/-- The major opcode of an operation. -/
def TKind.op : TKind → Nat
  | .write => 0x28
  | .read => 0x29
  | .insert => 0x2A
  | .delete => 0x2B
  | .lookup => 0x2C

/-- Operations outstanding on both command engines (R154, R156). -/
def State.outstanding (s : State) : Nat := (s.cmd.get 0).ops.length + (s.cmd.get 1).ops.length

/-- The engine may not issue one more (R156, R178). -/
def State.atBound (s : State) (e : Eng) : Bool :=
  match e with
  | .plinth => 64 ≤ s.plinth.ops.length
  | _ => 1024 ≤ s.outstanding

/-- The engine's tag for a table (R372). -/
def State.tagOf (s : State) (e : Eng) (tid : Nat) : BitVec 16 := sget 0 (s.eng e).tags tid

/-- Issue an operation: it stays outstanding until it finishes (R178). -/
def State.issueOp (s : State) (e : Eng) (k : TKind) (tid index : Nat) (image : List Word) (d : RegNo) (dst len : Nat) : Res :=
  if s.atBound e then .wait s
  else
    let en := s.eng e
    .ok (s.setEng e { en with ops := en.ops ++ [⟨k, en.pc, tid, index, image, d, dst, len, s.tagOf e tid⟩] })

/-- The checks every table operation passes before its own: the unit, the table, the operation, n and the index
(R172, R191). -/
def State.tabChecks (s : State) (k : TKind) (tid n i : Nat) (byIndex : Bool) (go : Res) : Res :=
  if s.chip.tabAbsent tid || (byIndex && tabOp tid k && s.chip.entryAbsent tid i) then .fail .eabsent s
  else if !tabOp tid k || n ≠ tabN tid || (byIndex && !tabIndex tid i) then .fail .erange s
  else go

/-- TWRITE: the image at a is to be written to entry b (R192, R193). -/
def execTwrite (e : Eng) (f : FmtX) (s : State) : Host.Outcome State Fault Refusal :=
  instr e (.twrite e f) [f.a, f.b] 3 (fun s =>
    let tid := f.tid.toNat
    let i := (s.reg e f.b).toNat
    s.tabChecks .write tid f.n.toNat i true
      (s.image e (s.reg e f.a) (tabN tid + 1) (fun ws =>
        match s.imageCheck .write tid i ws with
        | some st => .fail st s
        | none => s.issueOp e .write tid i ws 0 0 0))) s

/-- TREAD: a consistent copy of entry b is to be written at a (R192). -/
def execTread (e : Eng) (f : FmtX) (s : State) : Host.Outcome State Fault Refusal :=
  instr e (.tread e f) [f.a, f.b] 3 (fun s =>
    let tid := f.tid.toNat
    let i := (s.reg e f.b).toNat
    s.tabChecks .read tid f.n.toNat i true
      (s.dest e (s.reg e f.a) (tabN tid + 1) (fun a => s.issueOp e .read tid i [] 0 a (tabN tid + 1)))) s

/-- TINSERT: the image at a is to be placed by its key (R192, R356). -/
def execTinsert (e : Eng) (f : FmtX) (s : State) : Host.Outcome State Fault Refusal :=
  instr e (.tinsert e f) [f.d, f.a] 3 (fun s =>
    let tid := f.tid.toNat
    s.tabChecks .insert tid f.n.toNat 0 false
      (s.image e (s.reg e f.a) (tabN tid + 1) (fun ws =>
        match s.imageCheck .insert tid 0 ws with
        | some st => .fail st s
        | none => s.issueOp e .insert tid 0 ws f.d 0 0))) s

/-- TDELETE: the entry with the key at a is to be removed (R192, R359). -/
def execTdelete (e : Eng) (f : FmtX) (s : State) : Host.Outcome State Fault Refusal :=
  instr e (.tdelete e f) [f.d, f.a] 3 (fun s =>
    let tid := f.tid.toNat
    s.tabChecks .delete tid f.n.toNat 0 false
      (s.image e (s.reg e f.a) (tabN tid + 1) (fun ws => s.issueOp e .delete tid 0 ws f.d 0 0))) s

/-- TLOOKUP: the key at a is to be looked up as a packet would, and overwritten on a hit (R175, R192). -/
def execTlookup (e : Eng) (f : FmtX) (s : State) : Host.Outcome State Fault Refusal :=
  instr e (.tlookup e f) [f.d, f.a] 3 (fun s =>
    let tid := f.tid.toNat
    s.tabChecks .lookup tid f.n.toNat 0 false
      (s.dest e (s.reg e f.a) (tabN tid + 1) (fun a =>
        s.image e (s.reg e f.a) (tabN tid + 1) (fun ws => s.issueOp e .lookup tid 0 ws f.d a (tabN tid + 1))))) s

/-! Completion. -/

/-- Two operations touch the same entry: the same table and index, or the same key (R178). -/
def TabOp.meets (a b : TabOp) : Bool :=
  let byIndex := fun (o : TabOp) => o.kind = .write || o.kind = .read
  a.tid = b.tid && (
    if byIndex a && byIndex b then a.index = b.index
    else if byIndex a && a.kind = .read || byIndex b && b.kind = .read then false
    else htKey a.tid a.image = htKey b.tid b.image)

/-- The table number of FWD_GEN_MARK (R372). -/
def markOf (tid : Nat) : Option Nat := if tid = 0x10 then some 0 else if tid = 0x20 then some 1 else if tid = 0x21 then some 2 else none

/-- The engine number of FWD_GEN_MARK. -/
def markEng (e : Eng) : Nat :=
  match e with
  | .cmd c => c.val
  | _ => 2

/-- An operation that stamps has completed with OK: the mark takes its tag once no earlier operation of that tag is
outstanding (R372). -/
def State.stampMark (s : State) (e : Eng) (o : TabOp) (earlier : List TabOp) : State :=
  match markOf o.tid with
  | none => s
  | some k =>
    if earlier.any (fun x => x.tid = o.tid && x.tag = o.tag && x.kind ≠ .read && x.kind ≠ .lookup) then s
    else s.wr .FWD_GEN_MARK (BitVec.ofNat 36 (2 ^ 35 + o.tag.toNat)) k (markEng e)

/-- Words of an exact-match image with the device-owned fields filled in (R354). -/
def State.emStamp (s : State) (tag : BitVec 16) (ws : List Word) : List Word :=
  setW ws 0 (BitVec.ofNat 36 (ef ws 0 35 34 * 2 ^ 34 + tag.toNat * 2 ^ 16 + s.coarse))

/-- Words of a longest-prefix image with its generation tag. -/
def lpmStamp (tag : BitVec 16) (ws : List Word) : List Word := setW ws 0 (BitVec.ofNat 36 (2 ^ 35 + tag.toNat * 2 ^ 16))

/-- The hold of an entry ends (R369). -/
def State.endHold (s : State) (key : Nat) : State :=
  { s with dp := { s.dp with tracks := s.dp.tracks.filter (fun t => t.1 ≠ key) } }

/-- A table write takes effect (R193, R308, R354, R359, R361). -/
def State.tabWrite (s : State) (o : TabOp) : State :=
  let s1 := s.tabGood o.tid o.index
  match o.tid with
  | 0x10 =>
    if entValid o.image then (s1.endHold (htKey 0x10 o.image)).tabPut 0x10 o.index (s.emStamp o.tag o.image)
    else s1.emRemove 0x10 o.index
  | 0x20 | 0x21 => s1.tabPut o.tid o.index (if entValid o.image then lpmStamp o.tag o.image else [])
  | 0x40 =>
    let old := s.tabGet 0x40 o.index
    if !entValid o.image then s1.tabPut 0x40 o.index []
    else
      let keep := entValid old && ef old 0 13 0 = ef o.image 0 13 0
      s1.tabPut 0x40 o.index (setW o.image 3 (if keep then nth 0 old 3 else 0))
  | 0x22 | 0x30 => s1.tabPut o.tid o.index o.image
  | _ => s1.tabPut o.tid o.index (if entValid o.image then o.image else [])

/-- The words a TREAD returns. -/
def State.tabWords (s : State) (tid i : Nat) : List Word := (range' 0 (tabN tid + 1)).map (nth 0 (s.tabGet tid i))

/-- Where a lookup of a key image finds its entry, and the bad entries met otherwise (R360, R365). -/
def State.tabFind (s : State) (tid : Nat) (ws : List Word) : Option (Nat × Nat) × List (Nat × Nat) :=
  if tid = 0x10 then (s.htFind 0x10 (htBytes 0x10 ws), s.htBadMet 0x10 (htBytes 0x10 ws))
  else
    let r := s.lpmFind tid (ef ws 1 27 12) ((range' 2 4).map (fun k => ef ws k 31 0))
    (r.1.map (fun i => (tid, i)), r.2)

/-- An operation takes effect: the state, and its status. -/
def State.tabEffect (s : State) (e : Eng) (o : TabOp) : State × Status :=
  let who := engWho e
  match o.kind with
  | .write => (s.tabWrite o, .ok)
  | .read =>
    if s.tabBad o.tid o.index then (s.foundBad o.tid o.index who .eparity, .eparity)
    else (s.storeRange e o.dst (s.tabWords o.tid o.index), .ok)
  | .insert =>
    let last := tabN o.tid
    let ws := if o.tid = 0x10 then s.emStamp o.tag o.image else lpmStamp o.tag o.image
    match s.htInsert o.tid ws (fun old => setW (setW old 0 (nth 0 ws 0)) last (nth 0 ws last)) who .eparity with
    | .at_ s' t i moves _ => ((s'.endHold (if o.tid = 0x10 then htKey 0x10 ws else 0)).setReg e o.d (locWord o.tid t i moves), .ok)
    | .parity s' => (s', .eparity)
    | .full s' => (s', .efull)
  | .delete =>
    let x := htBytes o.tid o.image
    match s.htFind o.tid x with
    | some (t, i) =>
      let s1 := if o.tid = 0x10 then s.emRemove t i else s.tabPut t i []
      (s1.setReg e o.d (locWord o.tid t i 0), .ok)
    | none =>
      let bad := s.htBadMet o.tid x
      if bad ≠ [] then (s.htReport bad who .eparity, .eparity) else (s.setReg e o.d noLoc, .ok)
  | .lookup =>
    match s.tabFind o.tid o.image with
    | (some (t, i), _) =>
      ((s.storeRange e o.dst ((range' 0 o.len).map (nth 0 (s.tabGet t i)))).setReg e o.d (locWord o.tid t i 0), .ok)
    | (none, bad) => if bad ≠ [] then (s.htReport bad who .eparity, .eparity) else (s.setReg e o.d noLoc, .ok)

/-- TABLE_OP_FINISH: outstanding operation k of an engine finishes, unless an earlier one touches the same entry (R178). -/
def execTableOpFinish (e : Eng) (k : Nat) (s : State) : Host.Outcome State Fault Refusal :=
  let en := s.eng e
  match findIdx (fun _ => true) (en.ops.drop k) k with
  | none => .next s
  | some (_, o) =>
    let earlier := en.ops.take k
    if earlier.any (fun x => x.meets o) then .next s
    else
      let s1 := s.setEng e { en with ops := earlier ++ en.ops.drop (k + 1) }
      let (s2, st) := s1.tabEffect e o
      if st = .ok then
        .next (if o.kind = .write || o.kind = .insert || o.kind = .delete then s2.stampMark e o earlier else s2)
      else .next (s2.failInstr e o.at_ o.kind.op st)

/-! TBANK, FENCE, TGEN. -/

/-- TBANK: packets that start classification use bank a; it completes when the other has drained (R196, R342). -/
def execTbank (e : Eng) (f : FmtX) (s : State) : Host.Outcome State Fault Refusal :=
  instr e (.tbank e f) [f.a] 4 (fun s =>
    let a := (s.reg e f.a).toNat
    if (s.eng e).ops ≠ [] then .wait s
    else if 1 < a then .fail .erange s
    else if s.flag F.CLS_BANK_STATUS_SWAP || a = s.get F.CLS_BANK_STATUS_ACTIVE then .fail .estate s
    else
      let s1 := (s.set F.CLS_BANK_STATUS_ACTIVE a).set F.CLS_BANK_STATUS_SWAP 1
      .wait (s1.setEng e { s1.eng e with stall := .bank })) s

/-- An engine that waits in TBANK goes on. -/
def State.bankDone (s : State) (e : Eng) : State :=
  let en := s.eng e
  match en.stall with
  | .bank => s.finishInstr e en.pc 2 0x2D 4 (.ok s)
  | _ => s

/-- BANK_DRAIN_END: no packet of the vacated bank is left to classify (R342). -/
def execBankDrainEnd (s : State) : Host.Outcome State Fault Refusal :=
  if s.flag F.CLS_BANK_STATUS_SWAP then
    .next ((((s.set F.CLS_BANK_STATUS_SWAP 0).bankDone (.cmd 0)).bankDone (.cmd 1)).bankDone .plinth)
  else .next s

/-- FENCE: waits for every packet that has looked up (R195). -/
def execFence (e : Eng) (f : FmtX) (s : State) : Host.Outcome State Fault Refusal :=
  instr e (.fence e f) [] 4 (fun s =>
    if (s.eng e).ops ≠ [] then .wait s
    else
      let hs := s.dp.hdls.map (fun h => h.1)
      if hs = [] then .ok s else .wait (s.setEng e { s.eng e with stall := .fence hs })) s

/-- A packet leaves: no fence waits for its handle any longer. -/
def Engine.fencePassed (en : Engine) (h : Nat) : Engine :=
  match en.stall with
  | .fence hs => { en with stall := .fence (hs.filter (fun x => x ≠ h)) }
  | _ => en

/-- FENCE_DONE: the last packet an engine's FENCE waited for has left or been dropped (R195). -/
def execFenceDone (e : Eng) (s : State) : Host.Outcome State Fault Refusal :=
  let en := s.eng e
  match en.stall with
  | .fence [] => if s.engRuns e then .next (s.finishInstr e en.pc 2 0x2E 4 (.ok s)) else .next s
  | _ => .next s

/-- TGEN: the engine's tag for a table (R192, R372). -/
def execTgen (e : Eng) (f : FmtX) (s : State) : Host.Outcome State Fault Refusal :=
  instr e (.tgen e f) [f.a] 3 (fun s =>
    let tid := f.tid.toNat
    let a := s.reg e f.a
    if s.chip.tabAbsent tid then .fail .eabsent s
    else if (markOf tid).isNone || 2 ^ 16 ≤ a.toNat then .fail .erange s
    else .ok (s.setEng e { s.eng e with tags := sput 0 (s.eng e).tags tid (BitVec.ofNat 16 a.toNat) })) s

end Sys2Proof.Machine
end

