-- ==== Sys2Proof/Machine/Wake.lean ====
section
/-! DEFINITION. Domains and the wake an access starts (R116 to R124). Domain 0 is the mortar core, domain q quoin q. -/
namespace Sys2Proof.Machine

/-- Domain states (R118). -/
def domABSENT : Nat := 0
def domOFF : Nat := 1
def domWAKING : Nat := 2
def domREADY : Nat := 3
def domDOZE : Nat := 4
def domFAILED : Nat := 5
def domENTERING : Nat := 6

/-- STATE of a domain. -/
def State.domainState (s : State) (q : Nat) : Nat :=
  if q = 0 then s.get F.PWR_CORE_STATUS_STATE else s.get F.QUOIN_STATUS_STATE (q - 1)

/-- The state with a domain's STATE changed. -/
def State.setDomain (s : State) (q v : Nat) : State :=
  if q = 0 then s.set F.PWR_CORE_STATUS_STATE v else s.set F.QUOIN_STATUS_STATE v (q - 1)

/-- The number of a domain a command names. -/
def domNo (q : Dom) : Nat :=
  match q with
  | .core => 0
  | .quoin q => q.val + 1

/-- The quoins of trees, uplink lanes and bond links (R23). -/
def framerQuoin (t : Nat) : Nat := 1 + t / 8
def receiverQuoin (t : Nat) : Nat := 9 + t / 8
def macQuoin (l : Nat) : Nat := 17 + l / 10
def bondQuoin : Nat := 21

/-- Start a wake, remembering whose access started it (R119, R122). -/
def State.startWake (s : State) (q : Nat) (who : Who) : State :=
  let s1 := s.setDomain q domWAKING
  { s1 with host := { s1.host with waker := sinsert s1.host.waker q who } }

/-- How an access finds its domains: ready, failed, or waking. -/
inductive Reach where
  | go (s : State)
  | fail (s : State)
  | wait (s : State)

/-- An access reaches domains: each OFF or DOZE one starts to wake and the access stalls; a FAILED one ends it (R119,
R122). ABSENT domains never wake (R9). An access that finds a domain ENTERING abandons the entry and completes at once
(R120). -/
def State.reach (s : State) (qs : List Nat) (who : Who) : Reach :=
  if qs.any (fun q => s.domainState q = domFAILED) then .fail s
  else
    let s1 := qs.foldl (fun s q => if s.domainState q = domOFF ∨ s.domainState q = domDOZE then s.startWake q who else s) s
    if qs.any (fun q => s1.domainState q = domWAKING) then .wait s1
    else
      .go (qs.foldl (fun s q => if s.domainState q = domENTERING then s.setDomain q domREADY else s) s1)

/-- An engine's instruction reaches domains (R119). -/
def State.touch (s : State) (e : Eng) (qs : List Nat) (k : State → Res) : Res :=
  match s.reach qs (engWho e) with
  | .go s' => k s'
  | .fail s' => .fail .ewake s'
  | .wait s' => .wait (s'.setEng e { s'.eng e with stall := .wake qs })

end Sys2Proof.Machine
end

