-- ==== Sys2Proof/Machine/Buffers.lean ====
section
/-! DEFINITION. Buffers, handles, thresholds and the back-pressure they start, port flushes and the auditor (R376 to R394,
R481 to R483, R496). -/
namespace Sys2Proof.Machine

/-! Handles and buffers. -/

/-- INUSE of a pool (R385). -/
def State.inuse (s : State) (p : Nat) : Nat := s.get F.BUF_POOL_STATUS_INUSE p

/-- A handle. -/
def State.hdl (s : State) (h : Nat) : Option Hdl := sget none s.dp.hdls h
def State.setHdl (s : State) (h : Nat) (x : Option Hdl) : State := { s with dp := { s.dp with hdls := sput none s.dp.hdls h x } }

/-- A buffer. -/
def bufKey (p i : Nat) : Nat := p * 2 ^ 22 + i
def State.buf (s : State) (p i : Nat) : Buf := sget {} s.dp.bufs (bufKey p i)
def State.setBuf (s : State) (p i : Nat) (b : Buf) : State := { s with dp := { s.dp with bufs := sput {} s.dp.bufs (bufKey p i) b } }

/-- The handles in use, with their numbers. -/
def State.live (s : State) : List (Nat × Hdl) := s.dp.hdls.filterMap (fun e => e.2.map (fun x => (e.1, x)))

/-! Thresholds and what they start (R381 to R384). -/

/-- The threshold state of a pool after a change of its count (R381). -/
def State.thresholds (s : State) (p : Nat) : State :=
  let n := s.inuse p
  let on := fun k =>
    let level := s.get F.BUF_THR_LEVEL p k
    if level ≤ n then true else if n < level - 16 * s.get F.BUF_THR_HYST p k then false else bit (s.get F.BUF_POOL_STATUS_STATE p) k
  s.set F.BUF_POOL_STATUS_STATE (b2n (on 0) + 2 * b2n (on 1) + 4 * b2n (on 2) + 8 * b2n (on 3)) p

/-- The thresholds in force, as pool and number. -/
def State.inForce (s : State) : List (Nat × Nat) :=
  (range' 0 5).flatMap (fun p => ((range' 0 4).filter (bit (s.get F.BUF_POOL_STATUS_STATE p))).map (fun k => (p, k)))

/-- An action flag is in force over the thresholds of a list (R382). -/
def State.actOn (s : State) (f : Fld) (ts : List (Nat × Nat)) : Bool := ts.any (fun t => s.flag f t.1 t.2)

/-- The classes an uplink port is to pause: bit 0 for the whole port in PAUSE mode (R382, R481). -/
def State.pauseWanted (s : State) (l : Nat) : Nat :=
  let high := s.dp.rxHigh.contains l
  let mode := s.get F.UPL_FC_CTRL_MODE l
  if !s.linkUp l then 0
  else if mode = 1 then b2n (high || s.actOn F.BUF_ACT_PAUSE s.inForce)
  else if mode = 2 then (if high then 0xFF else s.inForce.foldl (fun m t => m ||| s.get F.BUF_ACT_PFC t.1 t.2) 0)
  else 0

/-- What a port record accumulates (R555). -/
def State.modPort (s : State) (p : Nat) (f : PAcc → PAcc) : State := { s with tel := { s.tel with ports := smod {} s.tel.ports p f } }

/-- Send a pause frame of a port for the classes it pauses (R483). -/
def State.sendPause (s : State) (l : Nat) (priority : Bool) (classes : Nat) : State :=
  if s.safe then s
  else (s.emit (.pause l priority classes (if classes = 0 then 0 else s.get F.UPL_FC_CTRL_QUANTA l))).count 0x02 l 0x07

/-- A port pauses what it is to pause: a frame goes out where that changes (R383). -/
def State.pausePort (s : State) (l : Nat) : State :=
  let want := s.pauseWanted l
  if want = s.get F.UPL_FC_STATUS_TXPAUSED l then s
  else
    let s1 := s.set F.UPL_FC_STATUS_TXPAUSED want l
    (s1.modPort l (fun a => { a with tx := a.tx ||| BitVec.ofNat 8 want })).sendPause l (s.get F.UPL_FC_CTRL_MODE l = 2) want

/-- The classes withdrawn on a bundle that is up (R382, R495). -/
def State.stopWanted (s : State) (b : Nat) : Nat :=
  if !s.linkUp (128 + b) then 0
  else
    s.inForce.foldl (fun m t =>
      if s.flag F.BUF_ACT_BOND t.1 t.2 then
        let pfc := s.get F.BUF_ACT_PFC t.1 t.2
        m ||| (if s.get F.BND_STATUS_VER b = 2 ∧ pfc ≠ 0 then pfc else 0xFF)
      else m) 0

/-- A bond bundle beside its registers. -/
def State.bnd (s : State) (b : Nat) : Bond := if h : b < 4 then s.dp.bond[b] else {}
def State.setBnd (s : State) (b : Nat) (x : Bond) : State :=
  if h : b < 4 then { s with dp := { s.dp with bond := s.dp.bond.set b x } } else s

/-- A bundle withdraws or returns credit where that changes (R496). -/
def State.stopBond (s : State) (b : Nat) : State :=
  let want := s.stopWanted b
  let old := (s.bnd b).stopping.toNat
  if want = old then s
  else
    let s1 := s.setBnd b { s.bnd b with stopping := BitVec.ofNat 8 want }
    let new := want &&& (old ^^^ 0xFF)
    let gone := old &&& (want ^^^ 0xFF)
    let s2 := if new = 0 then s1 else s1.emit (.bondMsg b 3 [new])
    if gone = 0 then s2 else s2.emit (.bondMsg b 4 [gone])

/-- Every port and bundle follows the actions in force (R383). -/
def State.flow (s : State) : State := (range' 0 4).foldl State.stopBond ((range' 0 40).foldl State.pausePort s)

/-- A pool's count changes: its thresholds are judged, and where one changes the senders hear of it. There are five pools. -/
def State.setInuse (s : State) (p n : Nat) : State :=
  let s1 := (s.set F.BUF_POOL_STATUS_INUSE n p).thresholds p
  if 5 ≤ p then s
  else if s1.get F.BUF_POOL_STATUS_STATE p = s.get F.BUF_POOL_STATUS_STATE p then s1 else s1.flow

/-- The grant pressure level that the next frame boundary publishes (R384). -/
def State.grantPressure (s : State) : Nat :=
  (s.inForce.filter (fun t => s.flag F.BUF_ACT_GRANT t.1 t.2)).foldl (fun g t => max g (t.2 + 1)) 0

/-! Allocation and release (R379, R386). -/

/-- The lowest number no entry of a sparse map holds, from n on. -/
def firstGap {α : Type} : Nat → SMap α → Nat
  | n, [] => n
  | n, (k, _) :: m => if k = n then firstGap (n + 1) m else n

/-- Capture the first refused free or allocation (R386). -/
def State.dfreeCapture (s : State) (kind p source i : Nat) : State :=
  if s.flag F.BUF_DFREE_VALID then s
  else s.wr .BUF_DFREE (BitVec.ofNat 36 (2 ^ 35 + kind * 2 ^ 34 + p * 2 ^ 31 + source * 2 ^ 27 + i))

/-- A buffer on the free list turns out to be in use: it is left to its owner (R386). -/
def State.doubleAlloc (s : State) (p i : Nat) : State :=
  let s1 := s.setBuf p i { s.buf p i with free := false }
  ((((s1.inc F.BUF_EVT_CNT_DALLOC 1).set F.BUF_STATUS_DALLOC 1).faultWrite 0x20 0x12 i .device 6 0 p)).dfreeCapture 1 p 0 i

/-- Take a buffer that a free list holds, searching from an index on (R379, R386). -/
def State.takeFrom (s : State) (p : Nat) : Nat → Nat → State × Option Nat
  | 0, _ => (s, none)
  | n + 1, i =>
    let b := s.buf p i
    let next := (i + 1) % s.chip.poolCount p
    if !b.free then State.takeFrom s p n next
    else if b.used then State.takeFrom (s.doubleAlloc p i) p n next
    else ((s.setBuf p i { b with used := true, refs := 1, epoch := b.epoch + 1, free := false }), some i)

/-- Take a buffer of a pool. Which of the free buffers is taken is not defined, so it is a free choice (R379). -/
def State.takeBuf (s : State) (p : Nat) : State × Option Nat :=
  if s.chip.poolCount p ≤ s.inuse p then (s.inc F.BUF_POOL_CNT_EMPTY 1 p, none)
  else
    let (k, s1) := s.fresh
    let (s2, i) := s1.takeFrom p (s.dp.bufs.length + 1) (Config.freeNat k % s.chip.poolCount p)
    match i with
    | some i => (s2.setInuse p (s2.inuse p + 1), some i)
    | none => (s2.inc F.BUF_POOL_CNT_EMPTY 1 p, none)

/-- Take a handle (R378). -/
def State.takeHdl (s : State) : State × Option Nat :=
  if 1048576 ≤ s.inuse 4 then (s.inc F.BUF_POOL_CNT_EMPTY 1 4, none)
  else (s.setInuse 4 (s.inuse 4 + 1), some (firstGap 0 s.dp.hdls))

/-- A reference to a buffer is given up: the last one returns it, and a release of a buffer not in use is refused
(R379, R386). -/
def State.dropRef (s : State) (p i source : Nat) : State :=
  let b := s.buf p i
  if !b.used then
    ((((s.inc F.BUF_EVT_CNT_DFREE 1).set F.BUF_STATUS_DFREE 1).faultWrite 0x20 0x11 i .device 5 0 p)).dfreeCapture 0 p source i
  else if b.refs ≤ 1 then (s.setBuf p i { b with used := false, refs := 0, free := true }).setInuse p (s.inuse p - 1)
  else s.setBuf p i { b with refs := b.refs - 1 }

/-- A handle returns: the fences that waited for it no longer do, and its buffer loses a reference (R195, R379). -/
def State.release (s : State) (h source : Nat) : State :=
  match s.hdl h with
  | none => s
  | some x =>
    let s1 := (s.setHdl h none).setInuse 4 (s.inuse 4 - 1)
    let s2 := { s1 with
      cmd := s1.cmd.map (fun (en : Engine) => en.fencePassed h),
      plinth := s1.plinth.fencePassed h,
      dp := { s1.dp with swc := s1.dp.swc.filter (fun k => k ≠ h) } }
    s2.dropRef x.pool x.index source

/-! Admission (R376, R377, R380). -/

/-- Pool 3 may be selected (R3, R111). -/
def State.pool3 (s : State) : Bool :=
  s.chip.stackmem && (s.get F.QUOIN_STATUS_STATE 21 = domREADY || s.get F.QUOIN_STATUS_STATE 21 = domDOZE)

/-- The pool of the largest packets (R377). -/
def State.bigPool (s : State) : Nat :=
  let mode := s.get F.BUF_SEL_CTRL_P3MODE
  if !s.pool3 || mode = 2 then 2
  else if mode = 1 then 3
  else if bit (s.get F.BUF_POOL_STATUS_STATE 2) 0 then 3 else 2

/-- The pool of a packet's length with FCS (R376). -/
def State.poolFor (s : State) (len : Nat) : Nat := if len ≤ 256 then 0 else if len ≤ 2048 then 1 else s.bigPool

/-- A colour is dropped by the actions in force over a pool (R380, R382). -/
def State.colourDrop (s : State) (colour p : Nat) : Bool :=
  let ts := (range' 0 4).filter (bit (s.get F.BUF_POOL_STATUS_STATE p)) |>.map (fun k => (p, k))
  (colour = 2 && s.actOn F.BUF_ACT_DROPRED ts) || (colour = 1 && s.actOn F.BUF_ACT_DROPYEL ts)

/-- How the search for a buffer ends. -/
inductive BufRes where
  | got (s : State) (p i : Nat)
  | colour (s : State)
  | empty (s : State)

/-- The loop over the pools, spilling upward (R379, R380). -/
def State.seekBuf (s : State) (colour : Nat) (spilled : Bool) : Nat → Nat → BufRes
  | 0, _ => .empty s
  | n + 1, p =>
    if s.colourDrop colour p then .colour s
    else
      match s.takeBuf p with
      | (s1, some i) => .got (if spilled then s1.inc F.BUF_POOL_CNT_SPILLS 1 p else s1) p i
      | (s1, none) =>
        if p < 2 ∧ s1.flag F.BUF_POOL_CTRL_SPILL p then State.seekBuf s1 colour true n (if p = 0 then 1 else s1.bigPool) else .empty s1

/-- A packet placed in pool 3 wakes quoin 22 from Doze (R33). -/
def State.wakeStack (s : State) (p port : Nat) : State :=
  if p = 3 ∧ s.get F.QUOIN_STATUS_STATE 21 = domDOZE then s.startWake 22 (.packet port) else s

/-- The handle and buffer of an admitted packet, or the drop that was counted (R380). `egress` is none for a packet to the
host. -/
def State.takeIn (s : State) (x : Pkt) (egress : Option Nat) (mk : Nat → Nat → Hdl) : State × Option Nat :=
  let down := match egress with | some e => !s.admits e | none => false
  if down then (s.count 0x02 (egress.getD 0) 0x02, none)
  else if s.colourDrop x.colour 4 then (s.count 0x01 x.port 0x04, none)
  else
    match s.takeHdl with
    | (s1, none) => (s1.count 0x01 x.port 0x02, none)
    | (s1, some h) =>
      match s1.seekBuf x.colour false 4 (s1.poolFor x.bytes.length) with
      | .got s2 p i => ((s2.setHdl h (some (mk p i))).wakeStack p x.port, some h)
      | .colour s2 => ((s2.setInuse 4 (s2.inuse 4 - 1)).count 0x01 x.port 0x04, none)
      | .empty s2 => ((s2.setInuse 4 (s2.inuse 4 - 1)).count 0x01 x.port 0x03, none)

/-- A copy takes its own handle and shares the buffer of handle h; it is lost where no handle is left or the buffer has
four references (R378). -/
def State.share (s : State) (x : Pkt) (h : Nat) (mk : Nat → Nat → Hdl) : State × Option Nat :=
  match s.hdl h with
  | none => (s, none)
  | some y =>
    let b := s.buf y.pool y.index
    if 4 ≤ b.refs then (s.count 0x01 x.port 0x02, none)
    else
      match s.takeHdl with
      | (s1, none) => (s1.count 0x01 x.port 0x02, none)
      | (s1, some k) => ((s1.setHdl k (some (mk y.pool y.index))).setBuf y.pool y.index { b with refs := b.refs + 1 }, some k)

/-! Flushes of ports (R391, R392). -/

/-- What a queue's record accumulates (R552, R554). -/
def State.modQAcc (s : State) (q : Nat) (f : QAcc → QAcc) : State := { s with tel := { s.tel with queues := smod {} s.tel.queues q f } }

/-- The queues whose root course is a port's egress, with their packets. -/
def State.queuesOf (s : State) (p : Nat) : List Nat :=
  (s.dp.queues.filter (fun e => e.2.items ≠ [] && s.egressOf e.1 = some p)).map (fun e => e.1)

/-- Remove every packet of a queue in a flush of port p. -/
def State.flushQueue (p : Nat) (s : State) (q : Nat) : State :=
  let x := s.que q
  let n := x.items.length
  let s1 := s.setQue q { x with items := [] }
  let s2 := x.items.foldl (fun s h => s.release h 0xE) s1
  ((s2.inc F.BUF_PORT_STATE_FLUSHED n p).inc F.BUF_FLUSH_COUNT n).count 0x02 p 0x05 n

/-- The flush takes a queue at its start; every other it takes before it completes: the order is free (log 47). -/
def State.queueEarly (s : State) (q : Nat) : Bool := Config.freeBool (s.dp.portFlushAt + q)

/-- Start the flush of a port (R391, R392). -/
def State.flushBegin (s : State) (p : Nat) : State :=
  let s1 := { s with dp := { s.dp with portFlushAt := s.free }, free := s.free + 2 ^ 18 }
  let s2 := ((s1.set F.BUF_PORT_STATE_FLUSHING 1 p).set F.BUF_PORT_STATE_PEND 0 p).set F.BUF_FLUSH_COUNT 0
  ((s2.queuesOf p).filter s2.queueEarly).foldl (State.flushQueue p) s2

/-- The port whose flush runs. -/
def State.flushing (s : State) : Option Nat := (range' 0 132).find? (fun p => s.flag F.BUF_PORT_STATE_FLUSHING p)

/-- A port goes down: its flush starts, or waits behind the one that runs (R391, R392). -/
def State.portFlush (s : State) (p : Nat) : State :=
  if s.flag F.BUF_PORT_STATE_FLUSHING p || s.flag F.BUF_PORT_STATE_PEND p then s
  else if s.flushing.isSome then
    { s with dp := { s.dp with flushQ := s.dp.flushQ ++ [p] } }.set F.BUF_PORT_STATE_PEND 1 p
  else s.flushBegin p

/-- PORT_FLUSH_DONE: the rest of the port's packets go, and the next pending flush starts (R392). -/
def execPortFlushDone (s : State) : Host.Outcome State Fault Refusal :=
  match s.flushing with
  | none => .next s
  | some p =>
    let s1 := (s.queuesOf p).foldl (State.flushQueue p) s
    let s2 := (s1.set F.BUF_PORT_STATE_FLUSHING 0 p).set F.BUF_FLUSH_BUSY 0
    match s2.dp.flushQ with
    | [] => .next s2
    | q :: qs => .next ({ s2 with dp := { s2.dp with flushQ := qs } }.flushBegin q)

/-! The auditor (R393, R394). -/

/-- The last pool that is present. -/
def Chip.lastPool (c : Chip) : Nat := if c.stackmem then 3 else 2

/-- A pass starts, unless one runs. -/
def State.auditStart (s : State) : State :=
  if s.flag F.BUF_AUDIT_STATUS_BUSY then s
  else (s.set F.BUF_AUDIT_STATUS_BUSY 1).set F.BUF_AUDIT_STATUS_POOL 0

/-- AUDIT_PERIOD: PERIOD seconds after a pass started, the next one starts (R394). -/
def execAuditPeriod (s : State) : Host.Outcome State Fault Refusal :=
  if s.get F.BUF_AUDIT_CTRL_PERIOD = 0 then .next s else .next s.auditStart

/-- A leaked or lost buffer is counted, captured and recorded, and reclaimed where RECLAIM is 1 (R393, R394). -/
def State.auditFound (s : State) (leaked : Bool) (p i : Nat) : State :=
  let s1 := if leaked then s.inc F.BUF_EVT_CNT_LEAKED 1 else s.inc F.BUF_EVT_CNT_LOST 1
  let s2 := s1.set F.BUF_STATUS_LEAK 1
  let s3 := if s2.flag F.BUF_LEAK_VALID then s2
    else s2.wr .BUF_LEAK (BitVec.ofNat 36 (2 ^ 35 + (if leaked then 0 else 2 ^ 34) + p * 2 ^ 31 + i))
  let s4 := s3.faultWrite 0x21 (if leaked then 0x13 else 0x14) i .device 7 0 p
  if s4.flag F.BUF_AUDIT_CTRL_RECLAIM then
    let b := s4.buf p i
    let s5 := s4.setBuf p i { b with used := false, refs := 0, free := true, suspect := none }
    if leaked then s5.setInuse p (s5.inuse p - 1) else s5
  else s4

/-- AUDIT_VISIT: a running pass judges one buffer; the last buffer of the last pool ends the pass (R393, log 48). -/
def execAuditVisit (pool : Fin 4) (index : Nat) (s : State) : Host.Outcome State Fault Refusal :=
  let p := pool.val
  if !s.flag F.BUF_AUDIT_STATUS_BUSY || s.chip.poolCount p ≤ index then .next s
  else
    let b := s.buf p index
    let owned := s.live.any (fun h => h.2.pool = p && h.2.index = index)
    let cond : Option Bool := if b.used && !owned then some true else if !b.used && !b.free then some false else none
    let s1 := s.set F.BUF_AUDIT_STATUS_POOL p
    let s2 :=
      match cond with
      | none => s1.setBuf p index { b with suspect := none }
      | some k =>
        if b.suspect = some (k, b.epoch) then s1.auditFound k p index
        else s1.setBuf p index { b with suspect := some (k, b.epoch) }
    if p = s.chip.lastPool ∧ index + 1 = s.chip.poolCount p then
      .next ((s2.set F.BUF_AUDIT_STATUS_BUSY 0).set F.BUF_AUDIT_STATUS_PASSES ((s2.get F.BUF_AUDIT_STATUS_PASSES + 1) % 65536))
    else .next s2

/-! Registers of the block (R374, R375). -/

/-- A write of BUF_THR (R381). -/
def State.thrWrite (s : State) (r : Reg) (v0 : Word) : WriteRes :=
  let v := if r.j = 3 then wput v0 21 0 (s.get F.BUF_THR_LEVEL r.i 3) else v0
  let lev := fun k => if k = r.j then fv v F.BUF_THR_LEVEL else s.get F.BUF_THR_LEVEL r.i k
  if lev r.j = 0 ∨ lev 1 ≤ lev 0 ∨ lev 2 ≤ lev 1 ∨ lev 3 ≤ lev 2 ∨ lev r.j < 16 * fv v F.BUF_THR_HYST then .reject .erange
  else .done ((s.plainWrite r v).thresholds r.i).flow

/-- A write of BUF_FLUSH (R392). -/
def State.flushWrite (s : State) (r : Reg) (v : Word) : WriteRes :=
  let p := fv v F.BUF_FLUSH_PORT
  if s.chip.portAbsent p then .reject .eabsent
  else if !portListed p then .reject .erange
  else if v.msb && (s.flushing.isSome || s.dp.flushQ ≠ []) then .reject .estate
  else
    let s1 := s.plainWrite r v
    .done (if v.msb then (s1.flushBegin p).set F.BUF_FLUSH_BUSY 1 else s1)

/-- A write of a buffer or switch-core register. -/
def State.bufWrite (s : State) (r : Reg) (v : Word) : WriteRes :=
  match r.id with
  | .BUF_SEL_CTRL =>
    let m := fv v F.BUF_SEL_CTRL_P3MODE
    if !s.chip.stackmem ∧ m < 2 then .reject .eabsent else if m = 3 then .reject .erange else .done (s.plainWrite r v)
  | .BUF_THR => s.thrWrite r v
  | .BUF_ACT => .done (s.plainWrite r v).flow
  | .BUF_AUDIT_CTRL => .done (if v.msb then (s.plainWrite r v).auditStart else s.plainWrite r v)
  | .BUF_FLUSH => s.flushWrite r v
  | .BUF_POOL_CTRL => if r.i < 2 then .done (s.plainWrite r v) else .done s
  | _ => .done (s.plainWrite r v)

/-- The value of a buffer or switch-core register. -/
def State.bufValue (s : State) (r : Reg) : Word :=
  match r.id with
  | .BUF_STATUS =>
    wput (wput (s.rd .BUF_STATUS) 1 1 (b2n (s.flag F.BUF_AUDIT_STATUS_BUSY))) 0 0 (b2n s.flushing.isSome)
  | .BUF_PORT_STATE => wput (s.rd .BUF_PORT_STATE r.i) 35 35 (b2n (s.admits r.i))
  | _ => s.rd r.id r.i r.j r.k

end Sys2Proof.Machine
end

