-- ==== Sys2Proof/Machine/Sched.lean ====
section
/-! DEFINITION. Scheduling: QSET, QREAD, CSET, CLINK, CDEL, the tree of courses, enqueue, the capacity cap and the selection
of the next packet (R197, R397 to R414, R423, R424, R430). -/
namespace Sys2Proof.Machine

/-! The tree of courses (R397, R399, R407). -/

def queueCount : Nat := 262144
def courseCount : Nat := 393216

/-- The courses under a course, and the queues whose parent it is. -/
def State.subCourses (s : State) (c : Nat) : List Nat := (s.dp.courses.filter (fun e => e.2.parent = some c)).map (fun e => e.1)
def State.subQueues (s : State) (c : Nat) : List Nat :=
  (s.dp.queues.filter (fun e => e.2.cfg ≠ [] && e.2.parent = c)).map (fun e => e.1)

/-- Levels of a course's subtree, its own among them, up to n. -/
def State.heightFrom (s : State) : Nat → Nat → Nat
  | 0, _ => 0
  | n + 1, c => 1 + ((s.subCourses c).map (State.heightFrom s n)).foldl max 0

/-- The level of a course, the top of its chain being 1 (log 65), up to n. -/
def State.levelFrom (s : State) : Nat → Nat → Nat
  | 0, _ => 0
  | n + 1, c =>
    match (s.crs c).parent with
    | some p => 1 + State.levelFrom s n p
    | none => 1

/-- Course x lies on the way from course c to its top. -/
def State.above (s : State) (x : Nat) : Nat → Nat → Bool
  | 0, _ => false
  | n + 1, c =>
    c = x || (match (s.crs c).parent with
      | some p => State.above s x n p
      | none => false)

/-- The courses from c to its top. -/
def State.pathFrom (s : State) : Nat → Nat → List Nat
  | 0, _ => []
  | n + 1, c =>
    c :: (match (s.crs c).parent with
      | some p => State.pathFrom s n p
      | none => [])

/-- The root course of an egress. -/
def State.rootAt (s : State) (g : Nat) : Option Nat :=
  (s.dp.courses.find? (fun e => e.2.used && e.2.root && e.2.egress = g)).map (fun e => e.1)

/-! Image checks (R404, R407). -/

/-- Bits [hi:lo] of word k of an image are zero. -/
def zeroBits (ws : List Word) (k hi lo : Nat) : Bool := ef ws k hi lo = 0

/-- The committed rate, where not 0, exceeds a peak rate that is not unlimited. -/
def ratesCross (ws : List Word) (ck pk : Nat) : Bool :=
  let c := wordRate (ent ws ck)
  let p := wordRate (ent ws pk)
  rateKbps c ≠ 0 && p ≠ rateUnlimited && rateKbps p < rateKbps c

/-- An overhead field from -32. -/
def ovhBad (f : Nat) : Bool := ovh f < -32

/-- A queue image that QSET refuses with ERANGE, the sampling load apart (R404). -/
def State.queueImageBad (s : State) (ws : List Word) : Bool :=
  let g := ef ws 4 35 18
  let y := ef ws 4 17 0
  let r := ef ws 5 35 18
  !(zeroBits ws 0 23 19 && zeroBits ws 1 35 29 && zeroBits ws 2 35 29 && zeroBits ws 3 17 0 && zeroBits ws 6 34 32 && zeroBits ws 6 23 16)
    || ef ws 0 31 24 = 0 || ovhBad (ef ws 3 35 27)
    || g = 0 || y = 0 || r = 0 || ef ws 5 17 0 = 0 || y < r || g < y
    || ratesCross ws 1 2
    || !(s.crs (ef ws 0 18 0)).used

/-- The sampling load of one queue (R430). -/
def State.sampCost (s : State) (x : Que) : Nat :=
  if x.en || x.items ≠ [] then
    (if s.flag F.SCH_SAMP_PER_FRAME x.sprof then 1
     else max 1 (ceilDiv 125000 (s.get F.SCH_SAMP_PER_PERIOD x.sprof)))
  else 0

/-- The sampling load (R430). -/
def State.sampLoad (s : State) : Nat := (s.dp.queues.map (fun e => s.sampCost e.2)).foldl (· + ·) 0

def sampBound : Nat := 524288

/-- A course image that CSET refuses with ERANGE (R407). -/
def courseImageBad (ws : List Word) : Bool :=
  let root := ef ws 0 35 35 = 1
  let capped := ef ws 0 33 33 = 1
  let g := ef ws 0 7 0
  !(zeroBits ws 0 21 8 && zeroBits ws 1 35 29 && zeroBits ws 2 35 29 && zeroBits ws 3 26 0)
    || ef ws 0 29 22 = 0 || ovhBad (ef ws 3 35 27) || ratesCross ws 1 2
    || (capped && !root) || (root && 64 ≤ g && g < 128 && !capped)
    || (root && !portListed g) || (!root && g ≠ 0)

/-! Instructions (R197). -/

/-- A node under new rates: balances clipped to the new bursts, filled up to now at the old rates (R414). -/
def Node.reset (n : Node) (old new : List Word) (ck pk now : Nat) : Node :=
  let m := n.fill (ent old ck) (ent old pk) now
  m.fill (ent new ck) (ent new pk) now

/-- A queue's node at its first QSET, and at a later one. -/
def Que.take (x : Que) (ws : List Word) (now : Nat) : Que :=
  let n : Node := if x.cfg = [] then { com := { last := now }, peak := { last := now } } else x.node
  { x with cfg := ws, node := n.reset (if x.cfg = [] then ws else x.cfg) ws 1 2 now }

/-- QSET: the image at a configures queue b (R404, R414). -/
def execQset (e : Eng) (f : FmtA) (s : State) : Host.Outcome State Fault Refusal :=
  instr e (.qset e f) [f.a, f.b] 8 (fun s =>
    let q := (s.reg e f.b).toNat
    if queueCount ≤ q then .fail .erange s
    else
      s.image e (s.reg e f.a) 7 (fun ws =>
        let old := s.que q
        let new := old.take ws s.clk.total
        let s1 := s.setQue q new
        if s.queueImageBad ws || sampBound < s1.sampLoad then .fail .erange s
        else if old.cfg ≠ [] && old.parent ≠ new.parent && old.items ≠ [] then .fail .estate s
        else .ok { s1 with tel := { s1.tel with queues := serase s1.tel.queues q } })) s

/-- Bytes and packets of a queue. -/
def State.hdlLen (s : State) (h : Nat) : Nat := match s.hdl h with | some x => x.pkt.bytes.length | none => 0
def State.depthBytes (s : State) (q : Nat) : Nat := ((s.que q).items.map s.hdlLen).foldl (· + ·) 0
def State.depthPkts (s : State) (q : Nat) : Nat := (s.que q).items.length

/-- The head-of-queue delay in ns, counted in cycles of quoin 24 (R429). -/
def State.hoqDelay (s : State) (q : Nat) : Nat :=
  match (s.que q).items with
  | [] => 0
  | h :: _ => match s.hdl h with | some x => (s.clk.total - x.at_) * 3125 / 3888 | none => 0

/-- QREAD: a queue's depth in bytes or packets, or its head-of-queue delay (R197). -/
def execQread (e : Eng) (f : FmtA) (s : State) : Host.Outcome State Fault Refusal :=
  instr e (.qread e f) [f.d, f.a] 4 (fun s =>
    let q := (s.reg e f.a).toNat
    if queueCount ≤ q then .fail .erange s
    else
      let sel := f.fn.toNat % 4
      let v := if sel = 0 then s.depthBytes q else if sel = 1 then s.depthPkts q else min (2 ^ 36 - 1) (s.hoqDelay q)
      .ok (s.putAlu e f.d { v := BitVec.ofNat 36 v, z := some (v = 0) })) s

/-- CSET: the image at a configures course b (R407, R414). -/
def execCset (e : Eng) (f : FmtA) (s : State) : Host.Outcome State Fault Refusal :=
  instr e (.cset e f) [f.a, f.b] 10 (fun s =>
    let c := (s.reg e f.b).toNat
    s.image e (s.reg e f.a) 4 (fun ws =>
      let x := s.crs c
      let g := ef ws 0 7 0
      let root := ef ws 0 35 35 = 1
      if root && s.chip.portAbsent g then .fail .eabsent s
      else if courseCount ≤ c || courseImageBad ws then .fail .erange s
      else if root && (match s.rootAt g with | some y => y ≠ c | none => false) then .fail .estate s
      else if x.used && (ef x.cfg 0 35 34 ≠ ef ws 0 35 34 || x.egress ≠ g)
          && (x.parent.isSome || s.subCourses c ≠ [] || s.subQueues c ≠ []) then .fail .estate s
      else
        let now := s.clk.total
        let n : Node := if x.used then x.node else { com := { last := now }, peak := { last := now } }
        .ok (s.setCrs c { x with cfg := ws, node := n.reset (if x.used then x.cfg else ws) ws 1 2 now }))) s

/-- CLINK: course a becomes a child of course b (R407). -/
def execClink (e : Eng) (f : FmtA) (s : State) : Host.Outcome State Fault Refusal :=
  instr e (.clink e f) [f.a, f.b] 12 (fun s =>
    let c := (s.reg e f.a).toNat
    let p := (s.reg e f.b).toNat
    let x := s.crs c
    if courseCount ≤ c || courseCount ≤ p || !x.used || !(s.crs p).used || x.root || s.above c 9 p
        || 8 < s.levelFrom 9 p + s.heightFrom 9 c then .fail .erange s
    else if x.parent.isSome then .fail .estate s
    else .ok (s.setCrs c { x with parent := some p })) s

/-- CDEL: course a is unlinked and freed (R407). -/
def execCdel (e : Eng) (f : FmtA) (s : State) : Host.Outcome State Fault Refusal :=
  instr e (.cdel e f) [f.a] 8 (fun s =>
    let c := (s.reg e f.a).toNat
    if courseCount ≤ c then .fail .erange s
    else if !(s.crs c).used || s.subCourses c ≠ [] || s.subQueues c ≠ [] then .fail .estate s
    else .ok (s.setCrs c {})) s

/-! Enqueue (R399, R405). -/

/-- Count a drop of a queue in a colour (R405, R541). -/
def State.queueDrop (s : State) (q colour : Nat) : State :=
  let c := min colour 2
  (s.count 0x05 q (2 + c)).modQAcc q (fun a =>
    if c = 0 then { a with dropG := a.dropG + 1 }
    else if c = 1 then { a with dropY := a.dropY + 1 }
    else { a with dropR := a.dropR + 1 })

/-- A packet joins its queue, or is dropped and its handle returns (R399, R405). -/
def State.enqueue (s : State) (h q : Nat) : State :=
  match s.hdl h with
  | none => s
  | some x =>
    let len := x.pkt.bytes.length
    let y := s.que q
    if (s.rootOf q).isNone then
      let s1 := ((s.inc F.SCH_EVT_CNT_UNROOTED 1).set F.SCH_STATUS_UNROOT 1).queueDrop q x.pkt.colour
      s1.release h 0xE
    else if !y.en || y.limit x.pkt.colour < s.depthBytes q + len || y.plim ≤ y.items.length then
      (s.queueDrop q x.pkt.colour).release h 0xE
    else
      let s1 := s.setHdl h (some { x with place := .queued q, at_ := s.clk.total })
      let s2 := s1.setQue q { y with items := y.items ++ [h] }
      s2.modQAcc q (fun a => { a with maxDepth := max a.maxDepth (s2.depthBytes q), enq := true })

/-! The capacity cap (R412, R413). -/

/-- An egress is enabled. -/
def State.egressOn (s : State) (g : Nat) : Bool :=
  if g < 40 then s.flag F.UPL_PORT_CTRL_CONF g && s.dp.lanesOn.getLsbD g
  else if g < 64 then false
  else if g < 128 then s.flag F.PON_TREE_STATUS_ENABLED (g - 64)
  else g < 132 && s.dp.bondOn.getLsbD (g - 128)

/-- SCH_COMMIT_DS: the committed rates of the capped roots of enabled egresses (R413). -/
def State.commitDs (s : State) : Nat :=
  min (2 ^ 36 - 1) ((s.dp.courses.filter (fun e => e.2.used && e.2.root && e.2.capped && s.egressOn e.2.egress)).foldl
    (fun a e => a + rateKbps (wordRate (ent e.2.cfg 1))) 0)

/-- The cap stops excess service. -/
def State.capReached (s : State) : Bool := s.get F.SCH_CAP_STATUS_DLIM ≤ s.dp.capCount

/-- The first time in a frame that the count reaches DLIM is reported (R412). -/
def State.capMark (s : State) : State :=
  if s.capReached && !s.flag F.SCH_CAP_STATUS_HIT then
    let s1 := ((s.set F.SCH_CAP_STATUS_HIT 1).set F.SCH_STATUS_CAPHIT 1).inc F.SCH_EVT_CNT_CAPHIT 1
    { s1 with tel := { s1.tel with hit := true } }
  else s

/-- The cap of a new frame: DLIM, and a count from zero (R412). -/
def State.capFrame (s : State) (capacity cds : Nat) : State :=
  let s1 := { s with dp := { s.dp with capCount := 0 } }
  let dlim := min (2 ^ 21 - 1) (max (capacity * s.get F.SCH_CAP_CTRL_DSSHARE / 256) cds)
  ((s1.set F.SCH_CAP_STATUS_DLIM dlim).set F.SCH_CAP_STATUS_HIT 0).capMark

/-! Eligibility (R408, R410, R411). -/

/-- Nodes: course c is c, queue q is 2^20 + q; children are taken in this order (log 66). -/
def queueNode (q : Nat) : Nat := 2 ^ 20 + q

/-- The phases. -/
def phCOMMIT : Nat := 0
def phEXCESS : Nat := 1

/-- Bytes of a bond flit's body, and the flits of a packet (R492). -/
def flits (len : Nat) : Nat := ceilDiv len 32

/-- The credit pool of a class (R495, R496). -/
def State.bondPool (s : State) (b c : Nat) : Nat := if s.get F.BND_STATUS_VER b = 2 then c else 0
def State.bondCredits (s : State) (b : Nat) : Nat := if s.get F.BND_STATUS_VER b = 2 then 1024 else 8192

/-- A packet of a class may start on a bundle (R496). -/
def State.bondMay (s : State) (b c : Nat) : Bool :=
  let x := s.bnd b
  let p := s.bondPool b c
  !x.stopped.getLsbD c && (sget 0 x.used p < sget 0 x.returned p + s.bondCredits b)

/-- The head packet of a queue may leave through egress g: its gate and guard band, the pause of its class, and the bundle's
credit (R408, R411, R423, R496). -/
def State.headFree (s : State) (g : Nat) (x : Que) (h : Hdl) : Bool :=
  let len := h.pkt.bytes.length
  s.gateOpen g x.gclass && !s.guarded g x.gclass len
    && !(g < 40 && s.get F.UPL_FC_CTRL_MODE g = 2 && bit (s.get F.UPL_FC_STATUS_RXPAUSED g) x.eclass)
    && (g < 128 || s.bondMay (g - 128) h.pkt.cls)

/-- The phase a node presents by its buckets, given whether it may present COMMIT. -/
def Node.phase (n : Node) (cw pw now : Nat) (commit bar : Bool) : Option Nat :=
  let m := n.fill cw pw now
  if !m.peakOk pw then none
  else if commit && m.comOk cw then some phCOMMIT
  else if bar then none
  else some phEXCESS

/-- What a queue presents. -/
def State.queuePresents (s : State) (g : Nat) (bar : Bool) (q : Nat) : Option (Nat × Nat) :=
  let x := s.que q
  match x.items with
  | [] => none
  | h :: _ =>
    match s.hdl h with
    | some y =>
      if s.headFree g x y then (x.node.phase (ent x.cfg 1) (ent x.cfg 2) s.clk.total true bar).map (fun p => (p, x.prio)) else none
    | none => none

/-- The highest priority of the children that present a phase. -/
def topPrio (kids : List (Nat × Nat × Nat)) (ph : Nat) : Nat :=
  ((kids.filter (fun k => k.2.1 = ph)).map (fun k => k.2.2)).foldl max 0

/-- What the children of a course present, each with its node: n levels down. -/
def State.kids (s : State) (g : Nat) (bar : Bool) : Nat → Nat → List (Nat × Nat × Nat)
  | 0, _ => []
  | n + 1, c =>
    let course := fun k =>
      let x := s.crs k
      let ks := State.kids s g bar n k
      if ks = [] then none
      else
        let someCommit := ks.any (fun k => k.2.1 = phCOMMIT)
        (x.node.phase (ent x.cfg 1) (ent x.cfg 2) s.clk.total (x.cap || someCommit) bar).map (fun ph =>
          (k, ph, if x.cap then x.prio
            else if ph = phCOMMIT then topPrio ks phCOMMIT
            else topPrio ks (if ks.any (fun k => k.2.1 = phEXCESS) then phEXCESS else phCOMMIT)))
    (s.subCourses c).filterMap course
      ++ (s.subQueues c).filterMap (fun q => (s.queuePresents g bar q).map (fun p => (queueNode q, p.1, p.2)))

/-! Deficit round-robin (R409). -/

/-- The deficit of a node in a phase, and the node with a deficit added. -/
def Node.deficit (n : Node) (ph : Nat) : Int := if ph = phCOMMIT then n.defC else n.defE
def Node.addDeficit (n : Node) (ph : Nat) (v : Int) : Node := if ph = phCOMMIT then { n with defC := n.defC + v } else { n with defE := n.defE + v }

/-- A node of the tree, its weight, its overhead, and the state with it changed. -/
def State.nodeAt (s : State) (k : Nat) : Node := if k < 2 ^ 20 then (s.crs k).node else (s.que (k - 2 ^ 20)).node
def State.nodeWeight (s : State) (k : Nat) : Nat := if k < 2 ^ 20 then (s.crs k).weight else (s.que (k - 2 ^ 20)).weight
def State.nodeImage (s : State) (k : Nat) : List Word := if k < 2 ^ 20 then (s.crs k).cfg else (s.que (k - 2 ^ 20)).cfg
def State.setNode (s : State) (k : Nat) (n : Node) : State :=
  if k < 2 ^ 20 then s.setCrs k { s.crs k with node := n } else s.setQue (k - 2 ^ 20) { s.que (k - 2 ^ 20) with node := n }

/-- The charged length of a packet at a node (R402). -/
def State.nodeCharge (s : State) (k len : Nat) : Nat := charged len (ef (s.nodeImage k) 3 35 27)

/-- The first of the nodes at or past a turn, in course order round. -/
def fromTurn (set : List Nat) (turn : Nat) : Nat := nth (nth 0 set 0) (set.filter (fun k => turn ≤ k)) 0

/-- The child of a set whose turn it is: one whose deficit is not positive receives its quantum and the turn passes on. The
state, and the child. -/
def State.turnOf (s : State) (c ph : Nat) (set : List Nat) : Nat → Nat → State × Nat
  | 0, turn => (s, fromTurn set turn)
  | n + 1, turn =>
    let k := fromTurn set turn
    if 0 < (s.nodeAt k).deficit ph then (s, k)
    else State.turnOf (s.setNode k ((s.nodeAt k).addDeficit ph (s.nodeWeight k * 64))) c ph set n (k + 1)

/-- A child has sent a packet: its deficit pays, and where it is no longer positive it receives its quantum and the turn
passes on. -/
def State.turnPaid (s : State) (c key ph k len : Nat) : State :=
  let n := (s.nodeAt k).addDeficit ph (-(s.nodeCharge k len : Int))
  let (n', turn) := if 0 < n.deficit ph then (n, k) else (n.addDeficit ph (s.nodeWeight k * 64), k + 1)
  let s1 := s.setNode k n'
  s1.setCrs c { s1.crs c with turn := sput 0 (s1.crs c).turn key turn }

/-- A selection: the turns taken at each course from the root, and the queue reached. -/
structure Pick where
  state : State
  /-- Course, key of its turn, phase and child, for each level. -/
  turns : List (Nat × Nat × Nat × Nat)
  queue : Option Nat

/-- From a course down, n levels (R409). -/
def State.pick (s : State) (g : Nat) (bar : Bool) : Nat → Nat → Pick
  | 0, _ => ⟨s, [], none⟩
  | n + 1, c =>
    let ks := s.kids g bar (n + 1) c
    let ph := if ks.any (fun k => k.2.1 = phCOMMIT) then phCOMMIT else phEXCESS
    let top := topPrio ks ph
    let set := (ks.filter (fun k => k.2.1 = ph && k.2.2 = top)).map (fun k => k.1)
    if set = [] then ⟨s, [], none⟩
    else
      let key := ph * 8 + top
      let (s1, k) := s.turnOf c ph set (161 * set.length) (sget 0 (s.crs c).turn key)
      if 2 ^ 20 ≤ k then ⟨s1, [(c, key, ph, k)], some (k - 2 ^ 20)⟩
      else
        let r := State.pick s1 g bar n k
        ⟨r.state, (c, key, ph, k) :: r.turns, r.queue⟩

/-! The selection of an egress. -/

/-- An egress can take a packet: its link is up and its quoin READY (R33), none is leaving through it, it is not paused (R411), it is no member of a
bonding group that another tree leads (R264), and the device is not in the safe state (R526). -/
def State.canTake (s : State) (g : Nat) : Bool :=
  s.linkUp g && !s.safe && (portDomains g).all (fun q => s.domainState q = domREADY) && s.live.all (fun h => !h.2.place.leaves g)
    && !(g < 40 && s.get F.UPL_FC_CTRL_MODE g = 1 && bit (s.get F.UPL_FC_STATUS_RXPAUSED g) 0)
    && !(64 ≤ g && g < 128 && (s.bondMember (g - 64)).isSome)

/-- Packets at the head of a queue that could never be sent are dropped (R424). -/
def State.dropOversize (s : State) (g q : Nat) : Nat → State
  | 0 => s
  | n + 1 =>
    let x := s.que q
    match x.items with
    | [] => s
    | h :: hs =>
      match s.hdl h with
      | none => s
      | some y =>
        if s.oversize g x.gclass y.pkt.bytes.length then
          let s1 := ((s.setQue q { x with items := hs }).inc F.GATE_CNT_OVERSIZE 1 g).queueDrop q y.pkt.colour
          State.dropOversize (s1.release h 0xE) g q n
        else s

/-- A head packet that the guard band holds is counted once (R423). -/
def State.countHeld (g : Nat) (s : State) (q : Nat) : State :=
  let x := s.que q
  match x.items with
  | [] => s
  | h :: _ =>
    match s.hdl h with
    | none => s
    | some y =>
      if s.gateOpen g x.gclass && s.guarded g x.gclass y.pkt.bytes.length && !y.held then
        ((s.setHdl h (some { y with held := true })).inc F.GATE_CNT_HELD 1 g).perfEvent 0x0D g
      else s

/-- Each node from a queue to its root is filled and debited by the charged length (R401, R402, R409). -/
def State.debitNode (len : Nat) (s : State) (k : Nat) : State :=
  let ws := s.nodeImage k
  let n := (s.nodeAt k).fill (ent ws 1) (ent ws 2) s.clk.total
  s.setNode k (n.debit (ent ws 2) (s.nodeCharge k len))

/-- A packet that starts on a bundle takes its flits' credits (R496). -/
def State.takeCredit (s : State) (g cls len : Nat) : State :=
  if g < 128 then s
  else
    let b := g - 128
    let x := s.bnd b
    let p := s.bondPool b cls
    s.setBnd b { x with sent := x.sent + flits len, used := sput 0 x.used p (sget 0 x.used p + flits len) }

/-- The head packet of a queue leaves it for its egress (R409, R413). -/
def State.dequeue (s : State) (g q : Nat) (capped : Bool) : State :=
  let x := s.que q
  match x.items with
  | [] => s
  | h :: hs =>
    match s.hdl h with
    | none => s
    | some y =>
      let len := y.pkt.bytes.length
      let delay := s.hoqDelay q
      let s1 := (s.setQue q { x with items := hs }).setHdl h (some { y with place := .leaving g x.enc x.term x.gem, queue := q })
      let s2 := (queueNode q :: s1.pathFrom 9 x.parent).foldl (State.debitNode len) s1
      let s3 := ((s2.count 0x05 q 0x00).count 0x05 q 0x01 len).modQAcc q (fun a =>
        { a with dqPkt := a.dqPkt + 1, dqByte := a.dqByte + len, maxHoq := max a.maxHoq delay })
      let s4 := s3.takeCredit g y.pkt.cls len
      if capped then { s4 with dp := { s4.dp with capCount := s4.dp.capCount + 1 } }.capMark else s4

/-- The queues with packets under an egress. -/
def State.waitingQueues (s : State) (g : Nat) : List Nat := s.queuesOf g

/-- One selection at an egress (R408 to R412, R423, R424). -/
def State.select (s : State) (g : Nat) : State :=
  match s.rootAt g with
  | none => s
  | some root =>
    if !s.canTake g then s
    else
      let s1 := (s.waitingQueues g).foldl (fun s q => s.dropOversize g q (s.que q).items.length) s
      let s2 := (s1.waitingQueues g).foldl (State.countHeld g) s1
      let x := s2.crs root
      let m := x.node.fill (ent x.cfg 1) (ent x.cfg 2) s2.clk.total
      if !m.peakOk (ent x.cfg 2) then s2
      else
        let r := s2.pick g (x.capped && s2.capReached) 9 root
        match r.queue with
        | none => s2
        | some q =>
          let len := s2.hdlLen (nth 0 (s2.que q).items 0)
          let s3 := r.turns.foldl (fun s t => s.turnPaid t.1 t.2.1 t.2.2.1 t.2.2.2 len) r.state
          s3.dequeue g q x.capped

/-- SELECTION: an egress that can take a packet selects one (R409). -/
def execSelection (egress : Nat) (s : State) : Host.Outcome State Fault Refusal := .next (s.select egress)

/-! Registers of the block. -/

/-- A write of a scheduler register (R396, R413, R428, R430). -/
def State.schWrite (s : State) (r : Reg) (v : Word) : WriteRes :=
  match r.id with
  | .SCH_CAP_CTRL => if 256 < fv v F.SCH_CAP_CTRL_DSSHARE then .reject .erange else .done (s.plainWrite r v)
  | .SCH_SAMP_PER =>
    let p := fv v F.SCH_SAMP_PER_PERIOD
    let s1 := s.plainWrite r v
    if p < 1000 ∨ 1000000000 < p ∨ sampBound < s1.sampLoad then .reject .erange else .done s1
  | _ => .done (s.plainWrite r v)

/-- The value of a scheduler register. -/
def State.schValue (s : State) (r : Reg) : Word :=
  match r.id with
  | .SCH_COMMIT_DS => BitVec.ofNat 36 s.commitDs
  | .SCH_SAMP_LOAD => BitVec.ofNat 36 s.sampLoad
  | _ => s.rd r.id r.i r.j r.k

end Sys2Proof.Machine
end

