-- ==== Sys2Proof/Machine/Meter.lean ====
section
/-! DEFINITION. Meters: MSET, MREAD and the judging of a packet (R197, R415 to R417). -/
namespace Sys2Proof.Machine

def meterCount : Nat := 524288

/-- MODE of a meter (R415). -/
def Mtr.mode (m : Mtr) : Nat := ef m.cfg 0 35 34
def mtOFF : Nat := 0
def mtSINGLE : Nat := 1
def mtTWO : Nat := 2

/-- A meter image that MSET refuses (R415). -/
def meterImageBad (ws : List Word) : Bool :=
  let mode := ef ws 0 35 34
  let cir := wordRate (ent ws 1)
  let cbs := burstBytes (wordBurst (ent ws 1))
  let pir := wordRate (ent ws 2)
  let pbs := burstBytes (wordBurst (ent ws 2))
  !(zeroBits ws 0 22 0 && zeroBits ws 1 35 29 && zeroBits ws 2 35 29) || mode = 3 || ovhBad (ef ws 0 31 23)
    || (mode = mtSINGLE && (pir ≠ 0 || (cbs = 0 && pbs = 0)))
    || (mode = mtTWO && (cbs = 0 || pbs = 0 || pir = rateUnlimited || rateKbps pir < rateKbps cir))

/-- MSET: the image at a configures meter b and fills its buckets (R415). -/
def execMset (e : Eng) (f : FmtA) (s : State) : Host.Outcome State Fault Refusal :=
  instr e (.mset e f) [f.a, f.b] 8 (fun s =>
    let m := (s.reg e f.b).toNat
    if meterCount ≤ m then .fail .erange s
    else
      s.image e (s.reg e f.a) 3 (fun ws =>
        if meterImageBad ws then .fail .erange s
        else
          let full := fun k => ({ bal := burstBytes (wordBurst (ent ws k)) * byteUnits, last := s.clk.total } : Bucket)
          .ok (s.setMtr m { cfg := ws, tc := full 1, tp := full 2 }))) s

/-- A meter with its buckets filled up to now: in the single-rate mode what Tc cannot hold goes to Te (R416). -/
def Mtr.fill (m : Mtr) (now : Nat) : Mtr :=
  let c := ent m.cfg 1
  let p := ent m.cfg 2
  if m.mode = mtSINGLE then
    let tc := m.tc.fill (wordRate c) (wordBurst c) now
    let ebs : Int := burstBytes (wordBurst p) * byteUnits
    let given : Int :=
      if wordRate c = rateUnlimited then (if m.tc.last < now then ebs else 0)
      else m.tc.bal + rateKbps (wordRate c) * (now - m.tc.last : Nat) - tc.bal
    { m with tc, tp := { bal := min ebs (m.tp.bal + given), last := now } }
  else if m.mode = mtTWO then
    { m with tc := m.tc.fill (wordRate c) (wordBurst c) now, tp := m.tp.fill (wordRate p) (wordBurst p) now }
  else m

/-- Whole bytes of a balance. -/
def Bucket.bytes (b : Bucket) : Nat := (b.bal / byteUnits).toNat

/-- MREAD: a meter's image and balances go to engine memory at a (R415). -/
def execMread (e : Eng) (f : FmtA) (s : State) : Host.Outcome State Fault Refusal :=
  instr e (.mread e f) [f.a, f.b] 6 (fun s =>
    let k := (s.reg e f.b).toNat
    if meterCount ≤ k then .fail .erange s
    else
      s.dest e (s.reg e f.a) 5 (fun a =>
        let m := (s.mtr k).fill s.clk.total
        let ws := (range' 0 3).map (nth 0 m.cfg) ++ [BitVec.ofNat 36 m.tc.bytes, BitVec.ofNat 36 m.tp.bytes]
        .ok (s.storeRange e a ws))) s

/-- The colour of a packet of charged length b units and pre-colour at a filled meter, and the meter after it (R416). -/
def Mtr.judge (m : Mtr) (pre : Nat) (b : Int) : Nat × Mtr :=
  let aware := ef m.cfg 0 33 33 = 1
  let takeC := fun (m : Mtr) => { m with tc := { m.tc with bal := m.tc.bal - b } }
  let takeP := fun (m : Mtr) => { m with tp := { m.tp with bal := m.tp.bal - b } }
  if m.mode = mtSINGLE then
    if aware && pre = 2 then (2, m)
    else if b ≤ m.tc.bal && (pre = 0 || !aware) then (0, takeC m)
    else if b ≤ m.tp.bal then (1, takeP m)
    else (2, m)
  else if m.mode = mtTWO then
    if (aware && pre = 2) || m.tp.bal < b then (2, m)
    else if (aware && pre = 1) || m.tc.bal < b then (1, takeP m)
    else (0, takeC (takeP m))
  else (pre, m)

/-- A packet of L bytes and pre-colour passes meter k: its colour; true where it is dropped as red (R415, R417). -/
def State.meter (s : State) (k pre len : Nat) : State × Nat × Bool :=
  let m := (s.mtr k).fill s.clk.total
  let b : Int := charged len (ef m.cfg 0 31 23) * byteUnits
  let (colour, m') := m.judge pre b
  let s1 := if m.cfg = [] then s else s.setMtr k m'
  ((s1.count 0x06 k (2 * colour)).count 0x06 k (2 * colour + 1) len, colour, colour = 2 && ef m.cfg 0 32 32 = 1)

end Sys2Proof.Machine
end

