-- ==== Sys2Proof/Machine/Frer.lean ====
section
/-! DEFINITION. Frame replication and elimination: replication pairs, R-TAGs and the recovery function (R485 to R488). -/
namespace Sys2Proof.Machine

/-! Tags of an Ethernet frame. -/

/-- The 16-bit number at a byte of a frame. -/
def be16 (bs : List Byte) (i : Nat) : Nat := (nth 0 bs i).toNat * 256 + (nth 0 bs (i + 1)).toNat

/-- The ethertypes of IEEE 802.1Q tags. -/
def isVlan (t : Nat) : Bool := t = 0x8100 || t = 0x88A8

/-- Where the ethertype behind at most n tags stands. -/
def typeAt (bs : List Byte) : Nat → Nat → Nat
  | 0, i => i
  | n + 1, i => if isVlan (be16 bs i) then typeAt bs n (i + 4) else i

/-- The stream of a frame: the priority code point of its outermost tag, 0 where it has none (R485). -/
def streamOf (bs : List Byte) : Nat := if isVlan (be16 bs 12) then be16 bs 14 / 8192 else 0

/-- The ethertype of an R-TAG (R486). -/
def rtagType : Nat := 0xF1C1

/-- Where a frame's R-TAG stands, after its outermost tag or tags (R487). -/
def rtagAt (bs : List Byte) : Option Nat :=
  let i := typeAt bs 2 12
  if be16 bs i = rtagType ∧ i + 10 ≤ bs.length then some i else none

/-- A frame with a new frame check sequence. -/
def refcs (bs : List Byte) : List Byte := body bs ++ fcsOf (body bs)

/-- A frame without its R-TAG; a good frame stays good. -/
def dropRtag (bs : List Byte) (i : Nat) : List Byte :=
  let bs' := bs.take i ++ bs.drop (i + 6)
  if fcsGood bs then refcs bs' else bs'

/-- A frame with an R-TAG of a sequence number, and its new frame check sequence (R486). -/
def addRtag (bs : List Byte) (seq : Nat) : List Byte :=
  let i := typeAt bs 2 12
  refcs (bs.take i ++ beBytes 2 rtagType ++ [0, 0] ++ beBytes 2 seq ++ bs.drop i)

/-! Pairs. -/

def State.frer (s : State) (j : Nat) : Frer := if h : j < 8 then s.dp.frer[j] else {}
def State.setFrer (s : State) (j : Nat) (x : Frer) : State :=
  if h : j < 8 then { s with dp := { s.dp with frer := s.dp.frer.set j x } } else s

/-- The pair of a port, formed. -/
def State.pairOf (s : State) (l : Nat) : Option Nat :=
  (range' 0 8).find? (fun j => s.flag F.UPL_FRER_CTRL_EN j && (s.get F.UPL_FRER_CTRL_PORTA j = l || s.get F.UPL_FRER_CTRL_PORTB j = l))

/-- The pair that replicates what leaves through a port, which is its PORTA (R486). -/
def State.splitPair (s : State) (l : Nat) : Option Nat :=
  (range' 0 8).find? (fun j => s.flag F.UPL_FRER_CTRL_EN j && s.flag F.UPL_FRER_CTRL_TXEN j && s.get F.UPL_FRER_CTRL_PORTA j = l)

/-- The next sequence number of a pair's stream. -/
def State.drawSeq (s : State) (j stream : Nat) : State × Nat :=
  let x := s.frer j
  if h : stream < 8 then
    (s.setFrer j { x with gen := x.gen.set stream (x.gen[stream] + 1) }, x.gen[stream].toNat)
  else (s, 0)

/-- A recovery function after a reset (R487). -/
def Recov.reset (r : Recov) : Recov := { r with takeany := true }

/-- A pair's generators and recovery functions reset (R485, log 72). -/
def Frer.reset (x : Frer) : Frer := { gen := Vector.replicate 8 0, rcv := x.rcv.map Recov.reset }

/-- What a recovery function decides of a frame. -/
inductive Recovered where
  | pass (lost : Nat)
  | discard
  | rogue
  deriving DecidableEq, Repr

/-- The entries of a history from index lo up to hi - 1 that are not set. -/
def unset (hist lo hi : Nat) : Nat := ((range' lo (hi - lo)).filter (fun i => !bit hist i)).length

/-- The vector recovery algorithm for one frame (R487). -/
def Recov.step (r : Recov) (hlen seq : Nat) : Recov × Recovered :=
  if r.takeany then ({ takeany := false, rseq := BitVec.ofNat 16 seq, hist := 1 }, .pass 0)
  else
    let d := signed 16 (seq + 65536 - r.rseq.toNat)
    if (hlen : Int) ≤ d ∨ d ≤ -(hlen : Int) then (r, .rogue)
    else if 0 < d then
      let n := d.toNat
      ({ r with rseq := BitVec.ofNat 16 seq, hist := (r.hist * 2 ^ n + 1) % 2 ^ hlen }, .pass (unset r.hist (hlen - n) hlen))
    else if bit r.hist (-d).toNat then (r, .discard)
    else ({ r with hist := r.hist ||| 2 ^ (-d).toNat }, .pass 0)

/-- A frame with an R-TAG meets the recovery function of its stream: the state, and whether it passes (R487, R488). -/
def State.recover (s : State) (j stream seq : Nat) : State × Bool :=
  let x := s.frer j
  if h : stream < 8 then
    let (r, out) := x.rcv[stream].step (s.get F.UPL_FRER_CFG_HLEN j) seq
    let s1 := s.setFrer j { x with rcv := x.rcv.set stream r }
    match out with
    | .pass lost => ((s1.inc F.UPL_FRER_CNT0_PASSED 1 j).inc F.UPL_FRER_CNT1_LOST lost j, true)
    | .discard => (s1.inc F.UPL_FRER_CNT0_DISCARD 1 j, false)
    | .rogue => (s1.inc F.UPL_FRER_CNT1_ROGUE 1 j, false)
  else (s, false)

/-- Elimination on receive at an uplink port: none where the frame is discarded, else its bytes (R487). -/
def State.eliminate (s : State) (l : Nat) (bs : List Byte) : State × Option (List Byte) :=
  match s.pairOf l, rtagAt bs with
  | some j, some i =>
    if s.flag F.UPL_FRER_CTRL_RXEN j then
      let (s1, ok) := s.recover j (streamOf bs) (be16 bs (i + 4))
      (s1, if ok then some (dropRtag bs i) else none)
    else (s, some bs)
  | _, _ => (s, some bs)

/-- FRER_RESET: a stream's recovery timer reaches RESET (R487). -/
def execFrerReset (j c : Fin 8) (s : State) : Host.Outcome State Fault Refusal :=
  let x := s.frer j
  let r := x.rcv.get c
  if r.takeany || !(s.flag F.UPL_FRER_CTRL_EN j && s.flag F.UPL_FRER_CTRL_RXEN j) then .next s
  else .next ((s.setFrer j { x with rcv := x.rcv.set c r.reset }).inc F.UPL_FRER_CNT1_RESETS 1 j)

end Sys2Proof.Machine
end

