-- ==== Sys2Proof/Machine/Pm.lean ====
section
/-! DEFINITION. Performance bins of trees and terminals (R267 to R270). -/
namespace Sys2Proof.Machine

/-- The scope of the tree among the scopes 0 to 256. -/
def pmTREE : Nat := 256

/-- The state with a scope of a tree changed. -/
def State.modPm (s : State) (t : Fin 64) (k : Nat) (f : PmScope → PmScope) : State :=
  s.modTree t (fun x => { x with pm := smod {} x.pm k f })

/-- A granted burst had an outcome: its terminal and the tree count it (R267). -/
def State.pmBurst (s : State) (t : Fin 64) (term : Option Nat) (errored : Bool) : State :=
  let f : PmScope → PmScope := fun p => { p with granted := p.granted + 1, errored := p.errored + b2n errored }
  let s1 := s.modPm t pmTREE f
  match term with
  | some u => s1.modPm t u f
  | none => s1

/-- Seconds of a bin of each kind (R269). -/
def pmLen (day : Bool) : Nat := if day then 86400 else 900

/-- Closed bins kept of each kind, with the current one (R269). -/
def pmKept (day : Bool) : Nat := if day then 8 else 97

/-- The bin a second belongs to: bins start where the seconds less OFFSET are a whole multiple (R269). -/
def pmIndex (offset : Nat) (day : Bool) (sec : Nat) : Nat := (sec + 86400 - offset) / pmLen day

/-- The bins with the one of a second as the current one: a bin that does not begin with it is SUSPECT. -/
def pmOpen (offset : Nat) (day : Bool) (sec : Nat) (bins : List PmBin) : List PmBin :=
  let i := pmIndex offset day sec
  let fresh : PmBin := { index := i, suspect := bins.isEmpty && (sec + 86400 - offset) % pmLen day ≠ 0 }
  match bins with
  | b :: _ => if b.index = i then bins else (fresh :: bins).take (pmKept day)
  | [] => [fresh]

/-- What a decided second adds to a bin. -/
def PmBin.add (b : PmBin) (es ses unavail : Bool) : PmBin :=
  if unavail then { b with uas := b.uas + 1 } else { b with es := b.es + b2n es, ses := b.ses + b2n ses }

/-- A decided second added to the bin it belongs to. -/
def pmPost (offset : Nat) (day : Bool) (sec : Nat) (es ses unavail : Bool) (bins : List PmBin) : List PmBin :=
  bins.map (fun b => if b.index = pmIndex offset day sec then b.add es ses unavail else b)

/-- The oldest undecided second is decided once it and the nine after it are known: ten SES begin unavailable time, ten
that are not SES end it (R268). -/
def PmScope.decide_ (p : PmScope) (offset : Nat) : PmScope :=
  match p.hist with
  | [] => p
  | (sec, es, ses) :: rest =>
    if p.hist.length < 10 then p
    else
      let un := if p.unavail then !(p.hist.all (fun h => !h.2.2)) else p.hist.all (fun h => h.2.2)
      { p with hist := rest, unavail := un,
               bins15 := pmPost offset false sec es ses un p.bins15, bins24 := pmPost offset true sec es ses un p.bins24 }

/-- A second of a scope is judged (R267). -/
def PmScope.second (p : PmScope) (offset : Nat) (en15 en24 losNow : Bool) (sec : Nat) : PmScope :=
  let es := 0 < p.errored || p.los
  let ses := (0 < p.granted && p.granted * 15 ≤ p.errored * 100) || p.los
  let p1 := { p with granted := 0, errored := 0, los := losNow, hist := p.hist ++ [(sec, es, ses)],
                     bins15 := if en15 then pmOpen offset false sec p.bins15 else [],
                     bins24 := if en24 then pmOpen offset true sec p.bins24 else [] }
  p1.decide_ offset

/-- The scopes of a tree that are judged: the tree and every terminal that is not FREE (R267). -/
def State.pmScopes (s : State) (t : Fin 64) : List Nat :=
  pmTREE :: (range' 0 256).filter (fun u => s.get F.PON_TERM_STATE_STATE t u ≠ 0)

/-- A scope without bins and without undecided seconds. -/
def PmScope.bare (p : PmScope) : PmScope := { p with hist := [], bins15 := [], bins24 := [] }

/-- PM_SECOND of one tree. -/
def State.pmTree (sec : Nat) (s : State) (t : Fin 64) : State :=
  let offset := s.get F.PON_PM_CTRL_OFFSET t
  let en15 := s.flag F.PON_PM_CTRL_EN15 t
  let en24 := s.flag F.PON_PM_CTRL_EN24 t
  let los := s.flag F.PON_TREE_STATUS_LOS t
  let one := fun (s : State) (k : Nat) => s.modPm t k (fun p => p.second offset en15 en24 (k = pmTREE && los) sec)
  (s.pmScopes t).foldl one s

/-- The present trees. -/
def State.trees (s : State) : List (Fin 64) := (range' 0 s.chip.trees).map (Fin.ofNat 64)

/-- PM_SECOND: the second of the time base that has just ended is judged for every tree (R267). -/
def execPmSecond (s : State) : Host.Outcome State Fault Refusal :=
  .next (s.trees.foldl (State.pmTree (s.seconds - 1)) s)

/-- Mark every current bin SUSPECT after a step of the time base (R269). -/
def State.pmSuspectAll (s : State) : State :=
  let mark : List PmBin → List PmBin := fun bs => match bs with | b :: r => { b with suspect := true } :: r | [] => []
  { s with tree := s.tree.map (fun x =>
      { x with pm := x.pm.map (fun e => (e.1, { e.2 with bins15 := mark e.2.bins15, bins24 := mark e.2.bins24 })) }) }

/-- A write of PON_PM_CTRL: a change clears every bin, and the tree and every terminal that is not FREE begin new ones,
SUSPECT (R269). -/
def State.pmCtrlWrite (s : State) (r : Reg) (v : Word) : WriteRes :=
  if 86399 < fv v F.PON_PM_CTRL_OFFSET then .reject .erange
  else
    let old := s.rd r.id r.i r.j r.k
    let s1 := s.plainWrite r v
    if s1.rd r.id r.i r.j r.k = old then .done s1
    else
      let offset := fv v F.PON_PM_CTRL_OFFSET
      let bin := fun (on day : Bool) => if on then [({ index := pmIndex offset day s.seconds, suspect := true } : PmBin)] else []
      let b15 := bin (s1.flag F.PON_PM_CTRL_EN15 r.i) false
      let b24 := bin (s1.flag F.PON_PM_CTRL_EN24 r.i) true
      let t := Fin.ofNat 64 r.i
      let s2 := s1.modTree t (fun x => { x with pm := (x.pm.map (fun e => (e.1, e.2.bare))).filter (fun e => e.2 ≠ {}) })
      .done ((s1.pmScopes t).foldl (fun s k => s.modPm t k (fun p => { p with bins15 := b15, bins24 := b24 })) s2)

/-- A write of PON_PM_SEL latches one bin (R270). -/
def State.pmSelWrite (s : State) (r : Reg) (v : Word) : WriteRes :=
  let day := fv v F.PON_PM_SEL_KIND = 1
  let age := fv v F.PON_PM_SEL_AGE
  let term := fv v F.PON_PM_SEL_TERM
  if 256 < term ∨ (if day then 7 else 96) < age then .reject .erange
  else
    let p := sget {} (s.tr (Fin.ofNat 64 r.i)).pm term
    let bins := if day then p.bins24 else p.bins15
    let s1 := s.plainWrite r v
    match bins[age]? with
    | none => .done ((s1.wr .PON_PM_DATA0 0 r.i).wr .PON_PM_DATA1 0 r.i)
    | some b =>
      let ended := (b.index + 1) * pmLen day + s.get F.PON_PM_CTRL_OFFSET r.i + 10 ≤ s.seconds + 86400
      let d0 := 2 ^ 35 + b2n b.suspect * 2 ^ 34 + b.ses % 2 ^ 17 * 2 ^ 17 + b.es % 2 ^ 17
      let d1 := b2n ended * 2 ^ 35 + b.uas % 2 ^ 17
      .done ((s1.wr .PON_PM_DATA0 (BitVec.ofNat 36 d0) r.i).wr .PON_PM_DATA1 (BitVec.ofNat 36 d1) r.i)

end Sys2Proof.Machine
end

