-- ==== Sys2Proof/Machine/Time.lean ====
section
/-! DEFINITION. Time and synchronisation: domains, the followed domain, steps, snapshots, the frequency loop, pulses,
triggers, captures and the time-of-day UARTs (R445 to R468). -/
namespace Sys2Proof.Machine

/-- Domain states (R450). -/
def domFREE : Nat := 0
def domACQ : Nat := 1
def domLOCKED : Nat := 2
def domHOLD : Nat := 3

/-- STATE of a domain. -/
def State.domState (s : State) (d : Fin 2) : Nat := s.get F.TIME_DOM_STATUS_STATE d
def State.setDomState (s : State) (d : Fin 2) (v : Nat) : State := s.set F.TIME_DOM_STATUS_STATE v d

/-- The domain the time base follows (R453). -/
def State.sel (s : State) : Fin 2 := if s.flag F.TIME_CTRL_SEL then 1 else 0

def State.dom (s : State) (d : Fin 2) : DomSt := s.tim.dom.get d
def State.setDom (s : State) (d : Fin 2) (x : DomSt) : State := { s with tim := { s.tim with dom := s.tim.dom.set d x } }

/-- Time events: a cause bit of TIME_EVT_CAUSE and interrupt source 19 (R468); the sillage DEVICE record keeps STEP,
SWITCH, DHOLD and FHOLD (R555). -/
def State.timeEvent (s : State) (bitNo : Nat) : State :=
  let s1 := s.raise ⟨.TIME_EVT_CAUSE, 15, 0⟩ ⟨.TIME_EVT_EN, 15, 0⟩ (2 ^ bitNo) 19
  let m : BitVec 4 := if bitNo = 1 then 8 else if bitNo = 2 then 4 else if bitNo = 3 then 2 else if bitNo = 4 then 1 else 0
  { s1 with tel := { s1.tel with devEv := s1.tel.devEv ||| m } }

/-- The clock of TGET's dom: 0 the device time base, 1 primary, 2 secondary, in the time base's units (R199, R452). -/
def State.domClock (s : State) (dom : Nat) (cycle : Nat) : Nat :=
  let tb := s.tbAt cycle
  if dom = 0 then tb else ((tb : Int) + (s.dom (if dom = 1 then 0 else 1)).gap).toNat

/-- Its VALID bit: LOCKEDONCE, or the domain is LOCKED (R446, R452). -/
def State.domValid (s : State) (dom : Nat) : Bool :=
  if dom = 0 then s.flag F.TIME_STATUS_LOCKEDONCE else s.domState (if dom = 1 then 0 else 1) = domLOCKED

/-- The four words of a clock value: seconds high and low, nanoseconds, VALID and fraction (R199). -/
def clockWords (tb : Nat) (valid : Bool) : List Word :=
  let ns := tb / tbPerNs
  let sec := ns / 10 ^ 9 % 2 ^ 48
  [BitVec.ofNat 36 (sec / 2 ^ 36), BitVec.ofNat 36 sec, BitVec.ofNat 36 (ns % 10 ^ 9),
   BitVec.ofNat 36 (b2n valid * 2 ^ 35 + tb * 65536 / tbPerNs % 65536)]

/-- Fire a trigger output: PEND clears, its event is raised, and the pulse starts unless the safe state holds the pin low
(R69, R466). -/
def State.fireTrigger (s : State) (i : Nat) : State :=
  let s1 := ((s.set F.TIME_TRIG_CTRL_PEND 0 i).wr .TIME_TRIG_TIME 0 i).timeEvent (6 + i)
  if s.safe then s1 else s1.emit (.trig i)

/-- Fire a pending trigger whose instant a forward step has passed, with LATE (R448). -/
def State.lateTrigger (before : Word) (s : State) (i : Nat) : State :=
  let t := s.rd .TIME_TRIG_TIME i
  if s.flag F.TIME_TRIG_CTRL_PEND i && timeBefore before t && !timeBefore s.now t then (s.fireTrigger i).timeEvent 5 else s

/-- A pending performance-counter freeze whose instant NOW has reached takes effect (R548). -/
def State.freezeDue (s : State) : State :=
  if s.flag F.PC_FRZ_CTRL_ARMED && !timeBefore s.now (s.rd .PC_FRZ_AT) then
    (s.set F.PC_FRZ_CTRL_ARMED 0).set F.PC_FRZ_CTRL_FROZEN 1
  else s

/-- Step the time base to the clock of domain d (R448). -/
def State.stepTime (s : State) (d : Fin 2) : State :=
  let g := (s.dom d).gap
  let before := s.now
  let s1 := { s with clk := { s.clk with tb := ((s.clk.tb : Int) + g).toNat } }
  let s2 := (s1.setDom 0 { s1.dom 0 with gap := (s1.dom 0).gap - g }).setDom 1 { s1.dom 1 with gap := (s1.dom 1).gap - g }
  let s3 := ((s2.set F.TIME_STATUS_LOCKEDONCE 1).timeEvent 1).rephaseGates.pmSuspectAll
  let s4 := if 0 < g then (range' 0 4).foldl (State.lateTrigger before) s3 else s3
  if 0 < g then s4.freezeDue else s4

/-- ISTEP: the first lock of the followed domain while LOCKEDONCE is 0 (R448). -/
def State.istep (s : State) : State :=
  if s.flag F.TIME_CTRL_ISTEP && !s.flag F.TIME_STATUS_LOCKEDONCE && s.domState s.sel = domLOCKED then s.stepTime s.sel else s

/-- Change SEL, with its event (R455). -/
def State.switchTo (s : State) (d : Fin 2) : State := (s.set F.TIME_CTRL_SEL d).timeEvent 2

/-- AUTO: from a followed domain that is not LOCKED to the other where it is LOCKED (R455); then ISTEP. -/
def State.autoSwitch (s : State) : State :=
  let o : Fin 2 := if s.sel = 0 then 1 else 0
  let s1 :=
    if s.flag F.TIME_CTRL_AUTO && s.domState s.sel ≠ domLOCKED && s.domState o = domLOCKED && s.flag F.TIME_DOM_CTRL_EN o then
      s.switchTo o
    else s
  s1.istep

/-- The rate adjustment moves toward its target for one frame of 125 us: the phase term within SLEWMAX, the change within
SLEWRATE (R453). -/
def State.steer (s : State) : State :=
  let d := s.sel
  if s.domState d = domFREE then s
  else
    let tau : Int := 2 ^ s.get F.TIME_CTRL_TAU
    let term : Int := (s.dom d).gap * 1000000 / (tbPerNs * tau)
    let smax : Int := s.get F.TIME_CTRL_SLEWMAX * 1000000
    let term' := clampInt (-smax) smax term
    let target := signed 36 (s.get F.TIME_DOM_FREQ_FREQ d) + term'
    let a := signed 36 (s.get F.TIME_RATE_A)
    let rate : Int := s.get F.TIME_CTRL_SLEWRATE * 125
    let step := clampInt (-rate) rate (target - a)
    let s1 := s.set F.TIME_RATE_A (unsignedOf 36 (a + step))
    let s2 := s1.set F.TIME_STATUS_SLEWLIM (b2n (term' ≠ term || step ≠ target - a))
    if s.domState d = domLOCKED then s2.set F.TIME_STATUS_LOCKEDONCE 1 else s2

/-! Measurements. -/

/-- The residual of a measurement: the offset less the domain's clock as it stood at MTIME, in the time base's units. -/
def State.residual (s : State) (d : Fin 2) (ofs : Int) (age : Nat) : Int :=
  let rate := signed 36 (s.get F.TIME_DOM_FREQ_FREQ d) - signed 36 (s.get F.TIME_RATE_A)
  ofs - ((s.dom d).gap - rate * age * 3888)

/-- RESID in 2^-4 ns, or a free value where it lies outside the 24-bit field (log 20). -/
def State.putResid (s : State) (d : Fin 2) (r : Int) : State :=
  let q := r * 16 / (tbPerNs : Nat)
  if -(2 ^ 23) ≤ q ∧ q < 2 ^ 23 then s.set F.TIME_DOM_STATUS_RESID (unsignedOf 24 q) d
  else
    let (k, s1) := s.fresh
    s1.set F.TIME_DOM_STATUS_RESID (Config.freeNat k) d

/-- The servo takes a measurement within its bounds: its new frequency and clock are the loop's, whose arithmetic the
manual does not fix, and so are free values (log 21). -/
def State.servo (s : State) (d : Fin 2) : State :=
  let (k, s1) := s.fresh
  let s2 := s1.wr .TIME_DOM_FREQ (Config.freeWord k) d
  let (j, s3) := s2.fresh
  s3.setDom d { s3.dom d with gap := signed 64 (Config.freeNat j) }

/-- An accepted measurement of offset ofs (time base units), age ns before now (R451, R452). -/
def State.measure (s : State) (d : Fin 2) (ofs : Int) (age : Nat) : State :=
  let r := s.residual d ofs age
  let thr : Int := s.get F.TIME_DOM_CTRL_LOCKTHR d * (tbPerNs : Nat)
  let stamp := fun (s : State) => s.setDom d { s.dom d with last := some s.clk.total }
  let st := s.domState d
  if st = domFREE then
    let s1 := (s.wr .TIME_DOM_FREQ 0 d).setDom d { gap := ofs - signed 36 (s.get F.TIME_RATE_A) * age * 3888, good := 0, last := none }
    stamp ((s1.set F.TIME_DOM_STATUS_RESID 0 d).setDomState d domACQ)
  else
    let s1 := s.putResid d r
    if st = domLOCKED ∧ 16 * thr < r.natAbs then
      let rate := signed 36 (s.get F.TIME_DOM_FREQ_FREQ d) - signed 36 (s.get F.TIME_RATE_A)
      let s2 := s1.setDom d { s1.dom d with gap := ofs + rate * age * 3888, good := 0 }
      (stamp (s2.setDomState d domACQ)).autoSwitch
    else if st = domLOCKED then stamp (s1.servo d)
    else
      let good := if (r.natAbs : Int) ≤ thr then (if st = domHOLD then 1 else (s.dom d).good + 1) else 0
      let s2 := stamp (s1.servo d)
      let s3 := s2.setDom d { s2.dom d with good }
      if st = domACQ ∧ 8 ≤ good then (s3.setDomState d domLOCKED).autoSwitch else s3.setDomState d domACQ

/-- The write of TIME_DOM_GO (R451). -/
def State.goWrite (s : State) (r : Reg) (d : Fin 2) (v : Word) : WriteRes :=
  let s1 := s.plainWrite r v
  if v.msb then
    let mt := s.rd .TIME_DOM_MTIME d
    let age := (s.now - mt).toNat
    if !s.flag F.TIME_DOM_CTRL_EN d then .reject .estate
    else if timeBefore s.now mt || 2000000000 < age then .reject .erange
    else if (match (s.dom d).last with | some t => decide (s.clk.total < t + 9720000) | none => false) then .reject .ebusy
    else
      let frac := fv v F.TIME_DOM_GO_FRAC
      let ofs := signed 36 (s.rd .TIME_DOM_OFS d).toNat * (tbPerNs : Nat) + (frac * tbPerNs / 65536 : Nat)
      .done (s1.measure d ofs age)
  else .done s1

/-! Register writes of the block. -/

/-- A lane of the uplink is present. -/
def State.laneThere (s : State) (l : Nat) : Bool := l < s.chip.uplanes

/-- Latch a clock into TIME_SNAP_W0 to W3 (R456). -/
def State.latchSnap (s : State) (tb : Nat) (valid : Bool) : State :=
  let ws := clockWords tb valid
  (((s.wr .TIME_SNAP_W0 (nth 0 ws 0)).wr .TIME_SNAP_W1 (nth 0 ws 1)).wr .TIME_SNAP_W2 (nth 0 ws 2)).wr .TIME_SNAP_W3 (nth 0 ws 3)

/-- A write of TIME_CTRL (R448, R454, R455). -/
def State.timeCtrlWrite (s : State) (r : Reg) (v : Word) : WriteRes :=
  let newSel : Fin 2 := if fv v F.TIME_CTRL_SEL = 1 then 1 else 0
  if fv v F.TIME_CTRL_WTR = 0 ∨ fv v F.TIME_CTRL_SLEWMAX = 0 ∨ fv v F.TIME_CTRL_SLEWRATE = 0 ∨ 10 < fv v F.TIME_CTRL_TAU then
    .reject .erange
  else if newSel ≠ s.sel ∧ (!s.flag F.TIME_DOM_CTRL_EN newSel ∨ s.domState newSel = domFREE) then .reject .estate
  else if v.msb ∧ s.domState newSel ≠ domLOCKED ∧ s.domState newSel ≠ domHOLD then .reject .estate
  else
    let s1 := s.plainWrite r v
    let s2 := if newSel ≠ s.sel then s1.timeEvent 2 else s1
    let s3 := if v.msb then s2.stepTime newSel else s2
    .done s3.autoSwitch

/-- A write of TIME_SNAP (R456, R463). -/
def State.snapWrite (s : State) (r : Reg) (v : Word) : WriteRes :=
  let at_ := fv v F.TIME_SNAP_AT = 1
  let t := fv v F.TIME_SNAP_TREE
  let ahead := (s.rd .TIME_SNAP_SF - BitVec.ofNat 36 s.clk.frame).toNat
  if v.msb ∧ at_ ∧ s.chip.trees ≤ t then .reject .eabsent
  else if fv v F.TIME_SNAP_SRC = 3 ∨ (v.msb ∧ at_ ∧ (ahead < 1 ∨ 8000 < ahead)) then .reject .erange
  else if v.msb ∧ (s.flag F.TIME_SNAP_BUSY ∨ (at_ ∧ !s.flag F.PON_TREE_STATUS_ENABLED t)) then .reject .estate
  else
    let s1 := s.plainWrite r v
    let src := fv v F.TIME_SNAP_SRC
    if !v.msb then .done s1
    else if at_ then .done (s1.set F.TIME_SNAP_BUSY 1)
    else .done (s1.latchSnap (s.domClock src s.clk.cycle) (s.domValid src))

/-- A write of a register of the time block (R445). -/
def State.timeWrite (s : State) (r : Reg) (v : Word) : WriteRes :=
  let d : Fin 2 := if r.i = 0 then 0 else 1
  match r.id with
  | .TIME_CTRL => s.timeCtrlWrite r v
  | .TIME_SNAP => s.snapWrite r v
  | .TIME_FREQ_CTRL =>
    if fv v F.TIME_FREQ_CTRL_RLANE < 40 ∧ !s.laneThere (fv v F.TIME_FREQ_CTRL_RLANE) then .reject .eabsent
    else if fv v F.TIME_FREQ_CTRL_REFF = 3 ∨ fv v F.TIME_FREQ_CTRL_BW = 3 ∨ 40 ≤ fv v F.TIME_FREQ_CTRL_RLANE then .reject .erange
    else
      let s1 := s.plainWrite r v
      let src := fv v F.TIME_FREQ_CTRL_FSRC
      if src = s.get F.TIME_FREQ_CTRL_FSRC then .done s1
      else .done ((s1.set F.TIME_FREQ_STATUS_STATE (if src = 0 then 0 else 1)).set F.TIME_STATUS_FHOLD 0)
  | .TIME_RCLK_CTRL =>
    if fv v F.TIME_RCLK_CTRL_LANE < 40 ∧ !s.laneThere (fv v F.TIME_RCLK_CTRL_LANE) then .reject .eabsent
    else if 40 ≤ fv v F.TIME_RCLK_CTRL_LANE then .reject .erange
    else .done (s.plainWrite r v)
  | .TIME_DOM_CTRL =>
    if 7 < fv v F.TIME_DOM_CTRL_BW ∨ fv v F.TIME_DOM_CTRL_HOLD = 0 ∨ fv v F.TIME_DOM_CTRL_LOCKTHR = 0 then .reject .erange
    else
      let s1 := s.plainWrite r v
      let st := s.domState d
      let s2 :=
        if !v.msb then (s1.setDomState d domFREE).setDom d { s1.dom d with good := 0, last := none }
        else if fv v F.TIME_DOM_CTRL_REQUAL = 1 ∧ (st = domLOCKED ∨ st = domHOLD) then
          (s1.setDomState d domACQ).setDom d { s1.dom d with good := 0 }
        else s1
      .done s2.autoSwitch
  | .TIME_DOM_GO => s.goWrite r d v
  | .TIME_CAP_CTRL => if fv v F.TIME_CAP_CTRL_EDGE = 0 then .reject .erange else .done (s.plainWrite r v)
  | .TIME_TRIG_CTRL => if fv v F.TIME_TRIG_CTRL_WIDTH < 8 then .reject .erange else .done (s.plainWrite r v)
  | .TIME_PPS_CTRL =>
    if fv v F.TIME_PPS_CTRL_WIDTH < 100 ∨ 900000000 < fv v F.TIME_PPS_CTRL_WIDTH then .reject .erange
    else .done (s.plainWrite r v)
  | .TIME_TOD_CTRL =>
    if fv v F.TIME_TOD_CTRL_BAUD < 9600 ∨ 921600 < fv v F.TIME_TOD_CTRL_BAUD then .reject .erange
    else .done (s.plainWrite r v)
  | .TIME_TOD_TX =>
    let q := s.tim.todTx.get d
    if q.length < 64 then
      .done { s with tim := { s.tim with todTx := s.tim.todTx.set d (q ++ [BitVec.ofNat 8 v.toNat]) } }
    else .done (s.set F.TIME_TOD_STAT_OVR 1 d)
  | .TIME_PORT_CTRL => if 128 ≤ r.i then .done s else .done (s.plainWrite r v)
  | _ => .done (s.plainWrite r v)

/-! Reads of the block. -/

/-- The value a read of a time register returns (R450, R465). -/
def State.timeValue (s : State) (r : Reg) : Word :=
  let d : Fin 2 := if r.i = 0 then 0 else 1
  match r.id with
  | .TIME_DOM_GAP => BitVec.ofNat 36 (unsignedOf 36 ((s.dom d).gap * 256 / (tbPerNs : Nat)))
  | .TIME_TOD_RX =>
    match s.tim.todRx.get d with
    | b :: _ => BitVec.ofNat 36 (2 ^ 35 + b.toNat)
    | [] => 0
  | .TIME_TOD_STAT =>
    wput (wput (s.rd .TIME_TOD_STAT d) 13 7 (s.tim.todRx.get d).length) 6 0 (s.tim.todTx.get d).length
  | _ => s.rd r.id r.i r.j r.k

/-- What an 8-byte read of a time register does (R465, R467). -/
def State.timeReadEffect (s : State) (r : Reg) : State :=
  let d : Fin 2 := if r.i = 0 then 0 else 1
  match r.id with
  | .TIME_TOD_RX => { s with tim := { s.tim with todRx := s.tim.todRx.set d (s.tim.todRx.get d).tail } }
  | .TIME_CAP_DATA => (s.wr .TIME_CAP_DATA 0 r.i).set F.TIME_CAP_STAT_NEW 0 r.i
  | _ => s.clearRc r

/-! Events. -/

/-- DHOLD: a LOCKED domain with no measurement for HOLD enters HOLDOVER (R452). -/
def execDhold (d : Fin 2) (s : State) : Host.Outcome State Fault Refusal :=
  if s.domState d = domLOCKED then
    .next ((((s.setDomState d domHOLD).setDom d { s.dom d with good := 0 }).timeEvent 3).autoSwitch)
  else .next s

/-- WTR_EXPIRY: with AUTO and REVERT, SEL returns to the LOCKED primary (R455). -/
def execWtrExpiry (s : State) : Host.Outcome State Fault Refusal :=
  if s.flag F.TIME_CTRL_AUTO && s.flag F.TIME_CTRL_REVERT && s.sel = 1 && s.domState 0 = domLOCKED then
    .next ((s.switchTo 0).istep)
  else .next s

/-- SFDONE: the named superframe's PSBd leaves the balls and the clock of that instant plus TXDLY is latched (R463). -/
def execSfdone (s : State) : Host.Outcome State Fault Refusal :=
  if s.flag F.TIME_SNAP_BUSY then
    let src := s.get F.TIME_SNAP_SRC
    let dly := s.get F.TIME_PORT_TXDLY_TXDLY (64 + s.get F.TIME_SNAP_TREE) * tbPerNs / 256
    .next ((((s.latchSnap (s.domClock src s.clk.cycle + dly) (s.domValid src)).set F.TIME_SNAP_BUSY 0)).timeEvent 0)
  else .next s

/-- The frequency source is lost: the loop holds its last frequency (R457). -/
def State.freqLost (s : State) : State :=
  if s.get F.TIME_FREQ_CTRL_FSRC ≠ 0 ∧ s.get F.TIME_FREQ_STATUS_STATE ≠ 3 then
    ((s.set F.TIME_FREQ_STATUS_STATE 3).set F.TIME_STATUS_FHOLD 1).timeEvent 4
  else s

/-- FREQ_SOURCE_LOSS (R457). -/
def execFreqSourceLoss (s : State) : Host.Outcome State Fault Refusal := .next s.freqLost

/-- FREQ_SOURCE_RETURN: present for 1 s, the loop returns to ACQUIRING (R457). -/
def execFreqSourceReturn (s : State) : Host.Outcome State Fault Refusal :=
  if s.get F.TIME_FREQ_CTRL_FSRC ≠ 0 ∧ s.get F.TIME_FREQ_STATUS_STATE = 3 then
    .next ((s.set F.TIME_FREQ_STATUS_STATE 1).set F.TIME_STATUS_FHOLD 0)
  else .next s

/-- FREQUENCY_LOOP_LOCK: ACQUIRING becomes LOCKED; the source's measured frequency is a free value (R457, log 22). -/
def execFrequencyLoopLock (s : State) : Host.Outcome State Fault Refusal :=
  if s.get F.TIME_FREQ_CTRL_FSRC ≠ 0 ∧ s.get F.TIME_FREQ_STATUS_STATE = 1 then
    let (k, s1) := s.fresh
    .next ((s1.set F.TIME_FREQ_STATUS_STATE 2).set F.TIME_FREQ_STATUS_FOFS (Config.freeNat k))
  else .next s

/-- RCLK_OUT_RESUME: 1 s after its lane's link came back up, RCLK_OUT is no longer squelched (R458). -/
def execRclkOutResume (s : State) : Host.Outcome State Fault Refusal :=
  .next { s with tim := { s.tim with rclkDown := false } }

/-- PPS_OUT: the leading edge at a whole second (R464); a transmitter with TXPPS then sends its whole FIFO (R465). -/
def execPpsOut (i : Fin 2) (s : State) : Host.Outcome State Fault Refusal :=
  if s.clk.running && s.flag F.TIME_PPS_CTRL_EN i && !s.safe then
    let s1 := s.emit (.pps i)
    if s.flag F.TIME_TOD_CTRL_EN i && s.flag F.TIME_TOD_CTRL_TXPPS i then
      .next { s1 with outs := s1.outs ++ (s.tim.todTx.get i).map (Out.todByte i), tim := { s1.tim with todTx := s1.tim.todTx.set i [] } }
    else .next s1
  else .next s

/-- TOD_RX: a character with a good stop bit enters the receive FIFO; any other is counted as a framing error (R90,
R465). -/
def execTodRx (i : Fin 2) (byte : Byte) (stopOk : Bool) (s : State) : Host.Outcome State Fault Refusal :=
  if !s.flag F.TIME_TOD_CTRL_EN i then .next s
  else if !stopOk then .next (s.set F.TIME_TOD_STAT_FERR 1 i)
  else
    let q := s.tim.todRx.get i
    if q.length < 64 then .next { s with tim := { s.tim with todRx := s.tim.todRx.set i (q ++ [byte]) } }
    else .next (s.set F.TIME_TOD_STAT_OVR 1 i)

/-- Bytes a transmitter without TXPPS sends in one frame at its rate, ten bit times each (R90, R465). -/
def State.todDrain (s : State) (i : Fin 2) : State :=
  if s.flag F.TIME_TOD_CTRL_EN i && !s.flag F.TIME_TOD_CTRL_TXPPS i && !s.safe then
    let q := s.tim.todTx.get i
    let credit := s.tim.todCredit.get i + s.get F.TIME_TOD_CTRL_BAUD i * 125
    let n := min q.length (credit / 10000000)
    let left := if n = q.length then 0 else credit - n * 10000000
    { s with outs := s.outs ++ (q.take n).map (Out.todByte i), tim := { s.tim with todTx := s.tim.todTx.set i (q.drop n), todCredit := s.tim.todCredit.set i left } }
  else s

/-- TRIGGER_FIRE: the pending instant of an output arrives (R466). -/
def execTriggerFire (i : Fin 4) (s : State) : Host.Outcome State Fault Refusal :=
  if s.flag F.TIME_TRIG_CTRL_PEND i then .next (s.fireTrigger i) else .next s

/-- CAPTURE: a programmed edge is time-stamped; a capture not yet taken is replaced and OVR set (R467). -/
def execCapture (i : Fin 6) (rising : Bool) (s : State) : Host.Outcome State Fault Refusal :=
  let edge := s.get F.TIME_CAP_CTRL_EDGE i
  if s.clk.running && s.flag F.TIME_CAP_CTRL_EN i && (if rising then edge % 2 = 1 else 2 ≤ edge) then
    let s1 := if s.flag F.TIME_CAP_STAT_NEW i then s.set F.TIME_CAP_STAT_OVR 1 i else s
    .next (((s1.wr .TIME_CAP_DATA s.now i).set F.TIME_CAP_STAT_NEW 1 i).timeEvent (10 + i))
  else .next s

/-- PC_FREEZE: NOW reaches AT and every counter with FRZ stops (R548). -/
def execPcFreeze (s : State) : Host.Outcome State Fault Refusal :=
  if s.flag F.PC_FRZ_CTRL_ARMED then .next ((s.set F.PC_FRZ_CTRL_ARMED 0).set F.PC_FRZ_CTRL_FROZEN 1) else .next s

end Sys2Proof.Machine
end

