-- ==== Sys2Proof/Machine/Stamp.lean ====
section
/-! DEFINITION. Time-stamps of packets: corrections of ports and fibres, and the one-step insertion into PTP event messages
(R459 to R462). Times are in units of 2^-16 ns of the device time base. -/
namespace Sys2Proof.Machine

/-- A terminal's context is in force for A_u: OPERATING or RESTORED (R461, R273). -/
def State.termLive (s : State) (t u : Nat) : Bool :=
  let st := s.get F.PON_TERM_STATE_STATE t u
  st = 2 || st = 3

/-- RTD_u in 2^-16 ns: a unit is 1 / 49.7664 ns (R461). -/
def State.roundTrip (s : State) (t u : Nat) : Int :=
  let units : Int := 80 * (s.get F.PON_US_CTRL_ORIGIN t : Int) - 74640 - s.get F.TIME_TREE_RESP_RESP t - s.get F.PON_TERM_EQD_EQD t u
  units * 655360000 / 497664 - 256 * (s.get F.TIME_PORT_TXDLY_TXDLY (64 + t) : Int) - 256 * (s.get F.TIME_PORT_RXDLY_RXDLY (64 + t) : Int)

/-- A_u in 2^-16 ns (R461). -/
def State.asymmetry (s : State) (t u : Nat) : Int :=
  if s.termLive t u then s.roundTrip t u * signed 24 (s.get F.TIME_TREE_FIB_FACTOR t) / 2 ^ 30 else 0

/-- The corrected ingress time-stamp of a packet whose first bit crosses the balls now (R460). -/
def State.ingressStamp (s : State) (p u : Nat) : Int :=
  let a := if 64 ≤ p ∧ p < 128 then s.asymmetry (p - 64) u else 0
  s.nowFrac - 256 * (s.get F.TIME_PORT_RXDLY_RXDLY p : Int) - 256 * signed 24 (s.get F.TIME_PORT_ASYM_ASYM p) - a

/-- The corrected egress time-stamp of one whose first bit crosses them now (R460). -/
def State.egressStamp (s : State) (p : Nat) : Int := s.nowFrac + 256 * s.get F.TIME_PORT_TXDLY_TXDLY p

/-! PTP event messages (R462). -/

/-- A recognised event message: where it begins; over UDP, where the UDP header begins and whether it is IPv6. -/
structure Ptp where
  at_ : Nat
  udp : Option (Nat × Bool)
  deriving DecidableEq, Repr

/-- An event message of a frame: ethertype 0x88F7, or UDP port 319 over IPv4 or IPv6, behind at most two tags. -/
def ptpOf (bs : List Byte) : Option Ptp :=
  let i := typeAt bs 2 12
  let byte := fun k => (nth 0 bs k).toNat
  let ty := be16 bs i
  let x : Option Ptp :=
    if ty = 0x88F7 then some ⟨i + 2, none⟩
    else if ty = 0x0800 then
      let u := i + 2 + byte (i + 2) % 16 * 4
      if byte (i + 11) = 17 ∧ be16 bs (u + 2) = 319 then some ⟨u + 8, some (u, false)⟩ else none
    else if ty = 0x86DD then
      let u := i + 42
      if byte (i + 8) = 17 ∧ be16 bs (u + 2) = 319 then some ⟨u + 8, some (u, true)⟩ else none
    else none
  x.bind (fun m => if byte m.at_ % 16 < 2 ∧ m.at_ + 48 ≤ bs.length then some m else none)

/-- Bytes of a list replaced from an index. -/
def putBytes (bs : List Byte) (i : Nat) (v : List Byte) : List Byte := bs.take i ++ v ++ bs.drop (i + v.length)

/-- correctionField plus a time (2^-16 ns). -/
def addCorrection (bs : List Byte) (m : Nat) (v : Int) : List Byte :=
  let old := beNat ((bs.drop (m + 8)).take 8)
  putBytes bs (m + 8) (beBytes 8 (unsignedOf 64 (signed 64 old + v)))

/-- The clock that one-step insertion uses: the domain whose DOMNUM the message names, else the device time base. -/
def State.ptpClock (s : State) (num : Nat) : Nat :=
  let dom := if s.get F.TIME_DOM_CTRL_DOMNUM 0 = num then 1 else if s.get F.TIME_DOM_CTRL_DOMNUM 1 = num then 2 else 0
  s.domClock dom s.clk.cycle * 65536 / tbPerNs

/-- The ones'-complement sum of 16-bit words of a list of bytes, modulo 65,535. -/
def onesSum : List Byte → Nat
  | a :: b :: bs => (a.toNat * 256 + b.toNat + onesSum bs) % 65535
  | [a] => a.toNat * 256 % 65535
  | [] => 0

/-- The UDP checksum kept right: set to zero over IPv4; over IPv6 the two bytes behind the message make up for the change
(R462). -/
def fixUdp (old new : List Byte) (m : Ptp) : List Byte :=
  match m.udp with
  | none => new
  | some (u, false) => putBytes new (u + 6) [0, 0]
  | some (u, true) =>
    let n := be16 old (m.at_ + 2)
    let k := m.at_ + n
    let c := onesSum ((if n % 2 = 1 then [0] else []) ++ (old.drop k).take 2)
    let c' := (c + onesSum (old.drop u) + 65535 - onesSum (new.drop u)) % 65535
    let b := beBytes 2 c'
    putBytes new k (if n % 2 = 1 then b.reverse else b)

/-- The two bytes behind an IPv6 message are there. -/
def hasTail (bs : List Byte) (m : Ptp) : Bool :=
  match m.udp with
  | some (u, true) => be16 bs (m.at_ + 2) + 10 ≤ be16 bs (u + 4)
  | _ => true

/-- A packet as it leaves egress p: one-step insertion, then residence correction, with a new FCS (R462). -/
def State.stampOut (s : State) (p : Nat) (rx : Int) (bs : List Byte) : List Byte :=
  match ptpOf bs with
  | none => bs
  | some m =>
    let os := s.flag F.TIME_PORT_CTRL_OSEN p && (nth 0 bs (m.at_ + 6)).toNat / 2 % 2 = 0
    let tc := s.flag F.TIME_PORT_CTRL_TCEN p
    if 128 ≤ p ∨ (!os && !tc) ∨ !hasTail bs m then bs
    else
      let at_ := s.ptpClock (nth 0 bs (m.at_ + 4)).toNat + 256 * s.get F.TIME_PORT_TXDLY_TXDLY p
      let ns := at_ / 65536
      let b1 :=
        if os then
          addCorrection (putBytes bs (m.at_ + 34) (beBytes 6 (ns / 10 ^ 9) ++ beBytes 4 (ns % 10 ^ 9))) m.at_ ((at_ % 65536 : Nat) : Int)
        else bs
      let b2 := if tc then addCorrection b1 m.at_ (s.egressStamp p - rx) else b1
      refcs (fixUdp bs b2 m)

end Sys2Proof.Machine
end

