-- ==== Sys2Proof/Machine/Serial.lean ====
section
/-! DEFINITION. Serial lanes: their states, equalisers, pattern generators and checkers (R469 to R475). -/
namespace Sys2Proof.Machine

/-- The kinds of lanes by lane index (R469). -/
def lanePon (k : Nat) : Bool := k < 64
def laneUplink (k : Nat) : Bool := 64 ≤ k && k < 104
def laneBond (k : Nat) : Bool := 128 ≤ k && k < 144
def laneClock (k : Nat) : Bool := 144 ≤ k && k < 148

/-- The bundle of a bond data or clock lane (R490). -/
def laneBundle (k : Nat) : Nat := if k < 144 then (k - 128) / 4 else k - 144

/-- The quoins a lane belongs to. -/
def laneQuoins (k : Nat) : List Nat :=
  if lanePon k then [framerQuoin k, receiverQuoin k] else if laneUplink k then [macQuoin (k - 64)] else [bondQuoin]

/-- A lane of an absent unit, or a reserved index. -/
def Chip.laneAbsent (c : Chip) (k : Nat) : Bool :=
  if lanePon k then c.trees ≤ k else if laneUplink k then c.uplanes ≤ k - 64 else !((laneBond k || laneClock k) && c.bond)

/-- The tree that a port carries (R291). -/
def State.portTree (s : State) (k : Nat) : Nat :=
  ((range' 0 64).find? (fun t => s.get F.PON_PROT_STATUS_PORT t = k)).getD k

/-- The unit of a lane is enabled. -/
def State.laneUnitOn (s : State) (k : Nat) : Bool :=
  if lanePon k then s.flag F.PON_TREE_STATUS_ENABLED (s.portTree k)
  else if laneUplink k then s.dp.lanesOn.getLsbD (k - 64)
  else s.dp.bondOn.getLsbD (laneBundle k)

/-- A tree is PEER of a protection pair with EN at 1 (R292). -/
def State.isPeer (s : State) (t : Nat) : Bool :=
  (range' 0 64).any (fun w => s.flag F.PON_PROT_CTRL_EN w && s.get F.PON_PROT_CTRL_PEER w = t)

/-- The lane is held out of DEEP (R471). -/
def State.laneWanted (s : State) (k : Nat) : Bool :=
  s.laneUnitOn k || s.flag F.SER_LANE_CTRL_KEEP k || s.flag F.SER_PRBS_CTRL_GEN k || s.flag F.SER_PRBS_CTRL_CHK k
    || (lanePon k && (s.get F.PON_DS_CTRL_LBMODE (s.portTree k) ≠ 0 || s.isPeer (s.portTree k)))

/-- Lane states (R472). -/
def lnABSENT : Nat := 0
def lnOFF : Nat := 1
def lnDEEP : Nat := 2
def lnEXITING : Nat := 3
def lnACTIVE : Nat := 4

/-- STATE of a lane: the register keeps ACTIVE once the exit is done, the rest follows from what holds it (R471). -/
def State.laneState (s : State) (k : Nat) : Nat :=
  if s.chip.laneAbsent k then lnABSENT
  else if (laneQuoins k).any (fun q => let d := s.domainState q; d = domOFF || d = domDOZE || d = domFAILED) then lnOFF
  else if !s.laneWanted k then (if s.pwr.restLanes.contains k then lnOFF else lnDEEP)
  else if s.get F.SER_LANE_STATUS_STATE k = lnACTIVE then lnACTIVE
  else lnEXITING

/-- A lane that has left ACTIVE forgets its exit, its receiver's adaptation and its checker's lock. -/
def State.laneSettle (s : State) (k : Nat) : State :=
  let st := s.laneState k
  if st = lnACTIVE ∨ st = lnEXITING then { s with pwr := { s.pwr with restLanes := s.pwr.restLanes.filter (fun x => x ≠ k) } }
  else ((s.set F.SER_LANE_STATUS_STATE 0 k).set F.SER_LANE_STATUS_RXREADY 0 k).set F.SER_PRBS_CTRL_LOCK 0 k

/-- Settle every lane. -/
def State.lanesSettle (s : State) : State := (range' 0 148).foldl State.laneSettle s

/-- LANE_EXIT_DONE: EXITING ends (R471). -/
def execLaneExitDone (k : Fin 148) (s : State) : Host.Outcome State Fault Refusal :=
  if s.laneState k = lnEXITING then .next (s.set F.SER_LANE_STATUS_STATE lnACTIVE k) else .next s

/-- RECEIVER_ADAPTED: the receiver recovers its clock (R471, R472). -/
def execReceiverAdapted (k : Fin 148) (s : State) : Host.Outcome State Fault Refusal :=
  let st := s.laneState k
  if st = lnACTIVE ∨ st = lnEXITING then
    let s1 := s.set F.SER_LANE_STATUS_RXREADY 1 k
    .next (if lanePon k then s1 else s1.set F.SER_LANE_STATUS_SIGDET 1 k)
  else .next s

/-! Counts that depend on the line. No command carries the errors of a line, so what a count has gained when it is read is
free (log 73). -/

/-- A count of a field advanced by a free amount. -/
def State.lineCount (s : State) (f : Fld) (k : Nat) : State :=
  let (j, s1) := s.fresh
  s1.inc f (Config.freeNat j) k

/-- What a read of a lane's or port's register finds counted. -/
def State.serRefresh (s : State) (r : Reg) : State :=
  match r.id with
  | .SER_LANE_STATUS =>
    if s.flag F.SER_LANE_STATUS_RXREADY r.i && (laneUplink r.i || laneBond r.i) then
      let (j, s1) := s.fresh
      let s2 := s1.set F.SER_LANE_STATUS_SNR (Config.freeNat j) r.i
      if laneUplink r.i then s2.lineCount F.SER_LANE_STATUS_SYMERR r.i else s2
    else s
  | .SER_PRBS_ERR =>
    if s.flag F.SER_PRBS_CTRL_LOCK r.i then (s.lineCount F.SER_PRBS_ERR_ERRS r.i).lineCount F.SER_PRBS_BITS_BITS r.i else s
  | .UPL_FEC_CNT =>
    if s.flag F.UPL_PORT_STATUS_UP r.i then (s.lineCount F.UPL_FEC_CNT_CORR r.i).lineCount F.UPL_FEC_CNT_UNCORR r.i else s
  | _ => s

/-- PRBS_LOCK: the checker locks (R475). -/
def execPrbsLock (k : Fin 148) (s : State) : Host.Outcome State Fault Refusal :=
  if s.flag F.SER_PRBS_CTRL_CHK k && s.laneState k = lnACTIVE then .next (s.set F.SER_PRBS_CTRL_LOCK 1 k) else .next s

/-- PRBS_LOCK_LOSS: the checker loses lock and searches again (R475). -/
def execPrbsLockLoss (k : Fin 148) (s : State) : Host.Outcome State Fault Refusal :=
  if s.flag F.SER_PRBS_CTRL_LOCK k then
    let s1 := s.serRefresh ⟨.SER_PRBS_ERR, k, 0, 0⟩
    .next ((s1.inc F.SER_PRBS_CTRL_LOCKLOSS 1 k).set F.SER_PRBS_CTRL_LOCK 0 k)
  else .next s

/-! Register writes (R472 to R474). -/

/-- A write of SER_LANE_CTRL. -/
def State.laneCtrlWrite (s : State) (r : Reg) (v : Word) : WriteRes :=
  let k := r.i
  if fv v F.SER_LANE_CTRL_LOOP = 1 ∧ !(laneUplink k || laneBond k) then .reject .erange
  else if s.laneUnitOn k ∧ wbits v 34 32 ≠ wbits (s.rd .SER_LANE_CTRL k) 34 32 then .reject .estate
  else .done ((s.plainWrite r v).laneSettle k)

/-- LT: the taps are under link-training control. -/
def State.laneTrains (s : State) (k : Nat) : Bool :=
  laneUplink k && s.dp.lanesOn.getLsbD (k - 64) &&
    (range' 0 8).any (fun d => d ≤ k - 64 && s.flag F.UPL_PORT_CTRL_CONF (k - 64 - d) && s.flag F.UPL_PORT_CTRL_LTEN (k - 64 - d)
      && d < 2 ^ s.get F.UPL_PORT_CTRL_WIDTH (k - 64 - d))

/-- A write of SER_LANE_FFE. -/
def State.ffeWrite (s : State) (r : Reg) (v : Word) : WriteRes :=
  let pre := signed 6 (fv v F.SER_LANE_FFE_PRE)
  let post := signed 6 (fv v F.SER_LANE_FFE_POST)
  let main := fv v F.SER_LANE_FFE_MAIN
  if pre < -16 ∨ 0 < pre ∨ post < -24 ∨ 0 < post ∨ main < 24 ∨ 63 < pre.natAbs + main + post.natAbs then .reject .erange
  else if s.laneTrains r.i then .reject .estate
  else .done (s.plainWrite r v)

/-- A write of SER_PRBS_CTRL (R474). -/
def State.prbsWrite (s : State) (r : Reg) (v : Word) : WriteRes :=
  let k := r.i
  let gen := fv v F.SER_PRBS_CTRL_GEN = 1
  let chk := fv v F.SER_PRBS_CTRL_CHK = 1
  let inj := fv v F.SER_PRBS_CTRL_INJ1 = 1
  let rate := fv v F.SER_PRBS_CTRL_IRATE
  let laser := fv v F.SER_PRBS_CTRL_LASER = 1
  let was := s.flag F.SER_PRBS_CTRL_GEN k || s.flag F.SER_PRBS_CTRL_CHK k
  if 5 < fv v F.SER_PRBS_CTRL_PAT ∨ (rate ≠ 0 ∧ (rate < 10 ∨ 40 < rate)) ∨ (laneClock k ∧ (gen ∨ chk ∨ inj ∨ rate ≠ 0))
      ∨ (laser ∧ !lanePon k) then .reject .erange
  else if ((gen ∨ chk) ∧ s.laneUnitOn k) ∨ (laser ∧ s.isPeer (s.portTree k))
      ∨ (was ∧ (fv v F.SER_PRBS_CTRL_PAT ≠ s.get F.SER_PRBS_CTRL_PAT k ∨ fv v F.SER_PRBS_CTRL_INV ≠ s.get F.SER_PRBS_CTRL_INV k)) then
    .reject .estate
  else
    let s1 := (s.plainWrite r v).laneSettle k
    let s2 := if chk then s1 else s1.set F.SER_PRBS_CTRL_LOCK 0 k
    let s3 := if inj && gen && s2.laneState k = lnACTIVE then s2.emit (.prbsInject k) else s2
    .done (if fv v F.SER_PRBS_CTRL_CLR = 1 then
      ((s3.wr .SER_PRBS_ERR 0 k).wr .SER_PRBS_BITS 0 k).set F.SER_PRBS_CTRL_LOCKLOSS 0 k
    else s3)

/-- The value of a lane's register. -/
def State.laneValue (s : State) (r : Reg) : Word :=
  match r.id with
  | .SER_LANE_STATUS => wput (s.rd .SER_LANE_STATUS r.i) 35 32 (s.laneState r.i)
  | .SER_LANE_FFE => wput (s.rd .SER_LANE_FFE r.i) 35 35 (b2n (s.laneTrains r.i))
  | _ => s.rd r.id r.i r.j r.k

end Sys2Proof.Machine
end

