-- ==== Sys2Proof/Machine/Uplink.lean ====
section
/-! DEFINITION. Uplink ports: their lanes, link events, flow control in both directions, and the registers of the MAC groups
and replication pairs (R476 to R485). -/
namespace Sys2Proof.Machine

/-! Ports (R477, R478). -/

/-- Lanes of the port at a lane. -/
def State.portLanes (s : State) (l : Nat) : Nat := 2 ^ s.get F.UPL_PORT_CTRL_WIDTH l

/-- A lane belongs to the port at l. -/
def State.laneIn (s : State) (l x : Nat) : Bool := l ≤ x && x < l + s.portLanes l

/-- The port at l is enabled (R202). -/
def State.portOn (s : State) (l : Nat) : Bool := s.flag F.UPL_PORT_CTRL_CONF l && s.dp.lanesOn.getLsbD l

/-- The enabled lanes with n of them from l turned on or off. -/
def State.setLanes (s : State) (l n : Nat) (on : Bool) : State :=
  let m : BitVec 40 := BitVec.ofNat 40 ((2 ^ n - 1) * 2 ^ l)
  { s with dp := { s.dp with lanesOn := if on then s.dp.lanesOn ||| m else s.dp.lanesOn &&& ~~~m } }

/-! Link events (R479, R480). -/

/-- What a port's link-down event does (R479, R484, R555). -/
def State.uplinkDown (s : State) (l : Nat) : State :=
  if !s.flag F.UPL_PORT_STATUS_UP l then s
  else
    let s1 := ((s.set F.UPL_PORT_STATUS_UP 0 l).set F.UPL_PORT_STATUS_DOWNEV 1 l).inc F.UPL_PORT_STATUS_FLAPS 1 l
    let s2 := (s1.wr .UPL_FC_STATUS 0 l).modPort l (fun a => { a with downEv := true })
    let s3 := (s2.portFlush l).downFlush l none
    let s4 := if s3.laneIn l (s3.get F.TIME_RCLK_CTRL_LANE) then { s3 with tim := { s3.tim with rclkDown := true } } else s3
    if s4.get F.TIME_FREQ_CTRL_FSRC = 2 ∧ s4.laneIn l (s4.get F.TIME_FREQ_CTRL_RLANE) then s4.freqLost else s4

/-- LINK_DOWN: PCS failure, or a remote fault (R479). -/
def execLinkDown (l : Fin 40) (remote : Bool) (s : State) : Host.Outcome State Fault Refusal :=
  if s.portOn l then .next ((s.uplinkDown l).set F.UPL_PORT_STATUS_RFAULT (b2n remote) l) else .next s

/-- The taps of a port's lanes under link training are what its partner asked for: free values (R473, log 73). -/
def State.trainTaps (s : State) (l : Nat) : State :=
  (range' l (s.portLanes l)).foldl (fun s x =>
    let (j, s1) := s.fresh
    let n := Config.freeNat j
    ((s1.set F.SER_LANE_FFE_PRE (n % 64) (64 + x)).set F.SER_LANE_FFE_MAIN (n / 64 % 64) (64 + x)).set F.SER_LANE_FFE_POST (n / 4096 % 64) (64 + x)) s

/-- LINK_UP: the PCS has reported OK for UPHOLD ms (R479). -/
def execLinkUp (l : Fin 40) (s : State) : Host.Outcome State Fault Refusal :=
  if s.portOn l && !s.flag F.UPL_PORT_STATUS_UP l && s.domainState (macQuoin l) = domREADY then
    let s1 := ((s.set F.UPL_PORT_STATUS_UP 1 l).set F.UPL_PORT_STATUS_UPEV 1 l).set F.UPL_PORT_STATUS_RFAULT 0 l
    let s2 := s1.modPort l (fun a => { a with upEv := true })
    .next ((if s2.flag F.UPL_PORT_CTRL_LTEN l then s2.trainTaps l else s2).pausePort l)
  else .next s

/-- LINK_TRAINING_FAILED: training or negotiation leaves the link down (R479). -/
def execLinkTrainingFailed (l : Fin 40) (an : Bool) (s : State) : Host.Outcome State Fault Refusal :=
  if s.portOn l && !s.flag F.UPL_PORT_STATUS_UP l then
    if an then .next (if s.flag F.UPL_PORT_CTRL_ANEN l then s.set F.UPL_PORT_STATUS_ANFAIL 1 l else s)
    else .next (if s.flag F.UPL_PORT_CTRL_LTEN l then s.set F.UPL_PORT_STATUS_LTFAIL 1 l else s)
  else .next s

/-- TRAINING_RESTART: training starts again; the link stays down and nothing the registers show changes (R479). -/
def execTrainingRestart (_l : Fin 40) (s : State) : Host.Outcome State Fault Refusal := .next s

/-! Flow control (R482 to R484). -/

/-- A MAC control frame that is not acted on (R484). -/
def State.ctlDrop (s : State) (l : Nat) : State := s.inc F.UPL_RX_CNT_CTLDROP 1 l

/-- A PAUSE frame of some quanta (R484). -/
def State.pauseFrame (s : State) (l quanta : Nat) : State :=
  let s1 := s.count 0x02 l 0x08
  if s.get F.UPL_FC_CTRL_MODE l ≠ 1 then s1.ctlDrop l
  else
    let s2 := s1.set F.UPL_FC_STATUS_RXPAUSED (b2n (quanta ≠ 0)) l
    if quanta ≠ 0 then s2.modPort l (fun a => { a with rx := a.rx ||| 1 }) else s2

/-- A priority-flow-control frame: the enable vector and the quanta of the classes (R484). -/
def State.pfcFrame (s : State) (l classes : Nat) (quanta : List Nat) : State :=
  let s1 := s.count 0x02 l 0x08
  if s.get F.UPL_FC_CTRL_MODE l ≠ 2 then s1.ctlDrop l
  else
    let act := classes &&& s.get F.UPL_FC_CTRL_RXMASK l
    let held := (range' 0 8).foldl (fun m c => if bit act c && nth 0 quanta c ≠ 0 then m + 2 ^ c else m) 0
    let s2 := s1.set F.UPL_FC_STATUS_RXPAUSED (s.get F.UPL_FC_STATUS_RXPAUSED l &&& (act ^^^ 0xFF) ||| held) l
    s2.modPort l (fun a => { a with rx := a.rx ||| BitVec.ofNat 8 held })

/-- PAUSE: received on a port that is up (R484). -/
def execPause (l : Fin 40) (quanta : BitVec 16) (s : State) : Host.Outcome State Fault Refusal :=
  if s.linkUp l then .next (s.pauseFrame l quanta.toNat) else .next s

/-- PFC: received on a port that is up (R484). -/
def execPfc (l : Fin 40) (classes : BitVec 8) (quanta : List (BitVec 16)) (s : State) : Host.Outcome State Fault Refusal :=
  if s.linkUp l then .next (s.pfcFrame l classes.toNat (quanta.map BitVec.toNat)) else .next s

/-- PAUSE_EXPIRY: the quanta of a received pause run out (R484). -/
def execPauseExpiry (l : Fin 40) (c : Fin 8) (s : State) : Host.Outcome State Fault Refusal :=
  .next (s.set F.UPL_FC_STATUS_RXPAUSED (s.get F.UPL_FC_STATUS_RXPAUSED l &&& (2 ^ c.val ^^^ 0xFF)) l)

/-- PAUSE_REFRESH: a pause in force is sent again (R482). -/
def execPauseRefresh (l : Fin 40) (s : State) : Host.Outcome State Fault Refusal :=
  let m := s.get F.UPL_FC_STATUS_TXPAUSED l
  if s.linkUp l && m ≠ 0 then .next (s.sendPause l (s.get F.UPL_FC_CTRL_MODE l = 2) m) else .next s

/-- The ethertype of MAC control frames, which never pass to the parser (R484). -/
def macControl : Nat := 0x8808

/-- A MAC control frame that arrives as a frame (R484). -/
def State.controlFrame (s : State) (l : Nat) (bs : List Byte) : State :=
  let op := be16 bs 14
  if !fcsGood bs then s.ctlDrop l
  else if op = 0x0001 then s.pauseFrame l (be16 bs 16)
  else if op = 0x0101 then s.pfcFrame l (be16 bs 16 % 256) ((range' 0 8).map (fun c => be16 bs (18 + 2 * c)))
  else s.ctlDrop l

/-! Register writes. -/

/-- The first lane of another port wider than one lane that a lane lies inside. -/
def State.inWider (s : State) (l : Nat) : Bool :=
  (range' 0 40).any (fun x => x ≠ l && s.flag F.UPL_PORT_CTRL_CONF x && 1 < s.portLanes x && s.laneIn x l)

/-- A port is a member of a replication pair with EN at 1. -/
def State.inPair (s : State) (l : Nat) : Bool := (s.pairOf l).isSome

/-- A write of UPL_PORT_CTRL (R478). -/
def State.portCtrlWrite (s : State) (r : Reg) (v : Word) : WriteRes :=
  let l := r.i
  let n := 2 ^ fv v F.UPL_PORT_CTRL_WIDTH
  let conf := v.msb
  let frm := fv v F.UPL_PORT_CTRL_MAXFRM
  let change := wbits v 35 31 ≠ wbits (s.rd .UPL_PORT_CTRL l) 35 31
  let old := if s.flag F.UPL_PORT_CTRL_CONF l then s.portLanes l else 1
  if conf && s.chip.uplanes < l + n then .reject .eabsent
  else if frm < 64 ∨ 9728 < frm ∨ fv v F.UPL_PORT_CTRL_UPHOLD = 0
      ∨ (conf ∧ (l % 10 % n ≠ 0 ∨ 10 < l % 10 + n ∨ s.inWider l)) then .reject .erange
  else if change && (range' l (max old (if conf then n else 1))).any (fun x => s.dp.lanesOn.getLsbD x || s.inPair x) then .reject .estate
  else
    let s1 := s.plainWrite r v
    .done (if conf then (range' (l + 1) (n - 1)).foldl (fun s x => s.set F.UPL_PORT_CTRL_CONF 0 x) s1 else s1)

/-- A write of UPL_FC_CTRL (R482). -/
def State.fcCtrlWrite (s : State) (r : Reg) (v : Word) : WriteRes :=
  let l := r.i
  let q := fv v F.UPL_FC_CTRL_QUANTA
  let t := fv v F.UPL_FC_CTRL_REFRESH
  if fv v F.UPL_FC_CTRL_MODE = 3 ∨ q = 0 ∨ t = 0 ∨ q * 512 ≤ t * 1000 * s.macRate l then .reject .erange
  else
    let old := s.get F.UPL_FC_CTRL_MODE l
    if fv v F.UPL_FC_CTRL_MODE = old then .done (s.plainWrite r v)
    else
      let s1 := if s.get F.UPL_FC_STATUS_TXPAUSED l ≠ 0 then s.sendPause l (old = 2) 0 else s
      .done (((s1.wr .UPL_FC_STATUS 0 l).plainWrite r v).pausePort l)

/-- A write of UPL_FRER_CTRL (R485). -/
def State.frerWrite (s : State) (r : Reg) (v : Word) : WriteRes :=
  let j := r.i
  let a := fv v F.UPL_FRER_CTRL_PORTA
  let b := fv v F.UPL_FRER_CTRL_PORTB
  let en := v.msb
  let on := s.flag F.UPL_FRER_CTRL_EN j
  let other : Nat → Bool := fun p => match s.pairOf p with | some x => x ≠ j | none => false
  if en ∧ ((a < 40 ∧ s.chip.uplanes ≤ a) ∨ (b < 40 ∧ s.chip.uplanes ≤ b)) then .reject .eabsent
  else if 40 ≤ a ∨ 40 ≤ b ∨ (en ∧ (!s.flag F.UPL_PORT_CTRL_CONF a ∨ !s.flag F.UPL_PORT_CTRL_CONF b ∨ a = b
      ∨ s.get F.UPL_PORT_CTRL_WIDTH a ≠ s.get F.UPL_PORT_CTRL_WIDTH b ∨ other a ∨ other b)) then .reject .erange
  else if on ∧ (a ≠ s.get F.UPL_FRER_CTRL_PORTA j ∨ b ≠ s.get F.UPL_FRER_CTRL_PORTB j ∨ fv v F.UPL_FRER_CTRL_QOFS ≠ s.get F.UPL_FRER_CTRL_QOFS j) then
    .reject .estate
  else
    let new := (wbits v 35 33) &&& (wbits (s.rd .UPL_FRER_CTRL j) 35 33 ^^^ 7)
    let s1 := s.plainWrite r v
    .done (if new = 0 then s1 else s1.setFrer j (s1.frer j).reset)

/-- A write of UPL_FRER_CFG (R485). -/
def State.frerCfgWrite (s : State) (r : Reg) (v : Word) : WriteRes :=
  if fv v F.UPL_FRER_CFG_HLEN < 2 ∨ fv v F.UPL_FRER_CFG_RESET = 0 then .reject .erange
  else if s.flag F.UPL_FRER_CTRL_EN r.i ∧ wbits v 29 12 ≠ wbits (s.rd .UPL_FRER_CFG r.i) 29 12 then .reject .estate
  else .done (s.plainWrite r v)

/-- A write of a register of the serial and uplink block (R470). -/
def State.serWrite (s : State) (r : Reg) (v : Word) : WriteRes :=
  match r.id with
  | .SER_LANE_CTRL => s.laneCtrlWrite r v
  | .SER_LANE_FFE => s.ffeWrite r v
  | .SER_PRBS_CTRL => s.prbsWrite r v
  | .UPL_PORT_CTRL => s.portCtrlWrite r v
  | .UPL_FC_CTRL => s.fcCtrlWrite r v
  | .UPL_FRER_CTRL => s.frerWrite r v
  | .UPL_FRER_CFG => s.frerCfgWrite r v
  | _ => .done (s.plainWrite r v)

/-- The value of a register of the serial and uplink block: a lane that starts no port reads zero (R480). -/
def State.serValue (s : State) (r : Reg) : Word :=
  match r.id with
  | .UPL_PORT_STATUS | .UPL_FEC_CNT | .UPL_RX_CNT => if s.flag F.UPL_PORT_CTRL_CONF r.i then s.rd r.id r.i else 0
  | _ => s.laneValue r

end Sys2Proof.Machine
end

