-- ==== Sys2Proof/Machine/Ingress.lean ====
section
/-! DEFINITION. A packet from its arrival to its admission: the receive side of a port, parsing and classification, lookup
and learning, metering, replication and admission (R331, R360, R367, R380, R389, R416, R481, R486). -/
namespace Sys2Proof.Machine

/-! The in-flight bound of a port (R388, R389). -/

/-- The packets of a port between parser entry and release. -/
def State.inFlight (s : State) (p : Nat) : Nat :=
  ((s.dp.swc.filterMap (fun h => s.hdl h)).filter (fun x => x.pkt.port = p)).map (fun x => x.pkt.seq) |>.eraseDups |>.length

def windowBound : Nat := 4096

/-- The largest window is kept (R389). -/
def State.noteWindow (s : State) (p n : Nat) : State :=
  if s.get F.SWC_RESEQ_MAX_MAXWIN < n then (s.set F.SWC_RESEQ_MAX_MAXWIN n).set F.SWC_RESEQ_MAX_PORT p else s

/-! Outputs of the switch core (R387). -/

/-- The output of an egress. -/
def outputOf (p : Nat) : Nat := if p < 64 then 8 + p / 10 else if p < 128 then (p - 64) / 8 else 12
def outHOST : Nat := 13

/-- The output of a packet's queue; 0 for one that is not rooted (log 70). -/
def State.queueOutput (s : State) (q : Nat) : Nat := match s.egressOf q with | some p => outputOf p | none => 0

/-! Admission of a packet and of what goes with it. -/

/-- A handle for a packet's queue. -/
def State.queueHdl (s : State) (x : Pkt) (q : Nat) (fseq : Option Nat) (pool i : Nat) : Hdl :=
  { pkt := x, pool, index := i, place := .reseq (s.queueOutput q), queue := q, fseq }

/-- A handle for an exception record. -/
def exqHdl (x : Pkt) (r : ExRec) (pool i : Nat) : Hdl := { pkt := x, pool, index := i, place := .reseq outHOST, exq := some r }

/-- A packet that waits at a resequencer joins the others, in order of parser entry. -/
def State.joinSwc (s : State) (h : Option Nat) : State :=
  match h with
  | some h => { s with dp := { s.dp with swc := s.dp.swc ++ [h] } }
  | none => s

/-- A packet for an egress in Doze wakes its quoin (R33). -/
def State.wakeEgress (s : State) (egress : Option Nat) (port : Nat) : State :=
  match egress with
  | some p => (portDomains p).foldl (fun s q => if s.domainState q = domDOZE then s.startWake q (.packet port) else s) s
  | none => s

/-- Admission of a packet to its queue (R380). -/
def State.admitQueue (s : State) (x : Pkt) (q : Nat) (fseq : Option Nat) : State × Option Nat :=
  let (s1, h) := s.takeIn x (s.egressOf q) (s.queueHdl x q fseq)
  (if h.isSome then (s1.wakeEgress (s.egressOf q) x.port).joinSwc h else s1, h)

/-- Admission of a copy, which shares the buffer of handle h where there is one (R378, R380, R486). -/
def State.admitCopy (s : State) (x : Pkt) (egress : Option Nat) (h : Option Nat) (mk : Nat → Nat → Hdl) : State × Option Nat :=
  match h with
  | none =>
    let (s1, k) := s.takeIn x egress mk
    (s1.joinSwc k, k)
  | some h =>
    let down := match egress with | some e => !s.admits e | none => false
    if down then (s.count 0x02 (egress.getD 0) 0x02, none)
    else if s.colourDrop x.colour 4 then (s.count 0x01 x.port 0x04, none)
    else
      let (s1, k) := s.share x h mk
      (s1.joinSwc k, k)

/-- A packet and its replica, each admitted or dropped on its own; the handle of either (R486). -/
def State.admitSplit (s : State) (x : Pkt) (q j : Nat) : State × Option Nat :=
  if 9722 < x.bytes.length then (s.inc F.UPL_FRER_CNT1_TXDROP 1 j, none)
  else
    let (s1, seq) := s.drawSeq j (streamOf x.bytes)
    let (s2, h) := s1.admitQueue x q (some seq)
    let q2 := (q + s.get F.UPL_FRER_CTRL_QOFS j) % queueCount
    if s.egressOf q2 ≠ some (s.get F.UPL_FRER_CTRL_PORTB j) then (s2.inc F.UPL_FRER_CNT1_TXDROP 1 j, h)
    else
      let (s3, k) := s2.admitCopy x (s.egressOf q2) h (s.queueHdl x q2 (some seq))
      (if k.isSome then s3.wakeEgress (s.egressOf q2) x.port else s3, h.orElse (fun _ => k))

/-- The pair that splits a queue's packets. -/
def State.queueSplit (s : State) (q : Nat) : Option Nat :=
  match s.egressOf q with
  | some p => if p < 40 then s.splitPair p else none
  | none => none

/-- Exception copies, each sharing the packet's buffer where it was admitted (R338, R378). -/
def State.admitRecords (s : State) (x : Pkt) (h : Option Nat) : List ExRec → State
  | [] => s
  | r :: rs => State.admitRecords (s.admitCopy x none h (exqHdl x r)).1 x h rs

/-! Classification's verdict carried out (R337, R338, R360, R367, R416). -/

/-- The record of an exception. -/
def recordOf (x : Pkt) (v : Verdict) (queue reason : Nat) : ExRec :=
  { queue, reason, pass2 := v.second, rule := v.act.rule, key0 := BitVec.ofNat 36 x.key0 }

/-- The colour of a packet after its meter; none where the meter drops it (R415 to R417). -/
def State.colourOf (s : State) (x : Pkt) (v : Verdict) : State × Option Nat :=
  if v.act.meten then
    let (s1, c, drop) := s.meter v.act.meter v.act.colour x.bytes.length
    if drop then (s1.count 0x01 x.port 0x04, none) else (s1, some c)
  else (s, some v.act.colour)

/-- A packet that forwarding lets on: metered, split or not, admitted, with its exception copies. -/
def State.forwardOn (s : State) (x : Pkt) (v : Verdict) (q : Nat) (copies : List ExRec) : State :=
  let (s1, colour) := s.colourOf x v
  match colour with
  | none => s1.admitRecords x none copies
  | some c =>
    let y := { x with colour := c }
    let (s2, h) :=
      match s1.queueSplit q with
      | some j => s1.admitSplit y q j
      | none => s1.admitQueue y q none
    s2.admitRecords y h copies

/-- The verdict of a packet that its class does not drop or trap: lookup, learning and what prevails (R360, R367). -/
def State.forwardPkt (s : State) (x : Pkt) (v : Verdict) : State :=
  let (s1, found) := s.lookupDest x v
  let (s2, conflict) := s1.learnFrom x v
  let own := if v.act.disp = dispCOPY then [recordOf x v v.act.exq v.act.reason] else []
  match prevail found.miss conflict with
  | none => s2.forwardOn x v found.queue own
  | some (act, exq, reason) =>
    if act = 1 then (s2.count 0x01 x.port 0x0F).admitRecords x none own
    else if act = 2 then s2.admitRecords x none (own ++ [recordOf x v exq reason])
    else if act = 3 then s2.forwardOn x v found.queue (own ++ [recordOf x v exq reason])
    else s2.forwardOn x v found.queue own

/-- A packet enters a parser lane and is settled: parsed, classified, looked up, metered, admitted or dropped (R331). -/
def State.enter (s : State) (x0 : Pkt) : State :=
  let p := x0.port
  let seq := sget 0 s.dp.seqs p
  let (k, s0) := s.fresh
  let s1 := { s0 with dp := { s0.dp with seqs := sput 0 s0.dp.seqs p ((seq + 1) % 65536) } }
  let s2 := (((s1.count 0x01 p 0x00).count 0x01 p 0x01 x0.bytes.length).perfEvent 0x04 (Config.freeNat k % 16)).noteWindow p (s.inFlight p + 1)
  let (s3, verdict) := s2.classify { x0 with seq, bank := s.get F.CLS_BANK_STATUS_ACTIVE }
  match verdict with
  | none => s3
  | some v =>
    let x := { x0 with seq, bank := s.get F.CLS_BANK_STATUS_ACTIVE, bytes := v.bytes, cls := v.act.cls, colour := v.act.colour }
    if v.act.disp = dispDROP then s3.count 0x01 p 0x05
    else if v.act.disp = dispTRAP then s3.admitRecords x none [recordOf x v v.act.exq v.act.reason]
    else s3.forwardPkt x v

/-! Receive buffers and waiting packets (R389, R481, R496). -/

/-- Bytes of a port's packets that wait in its ingress quoin. -/
def State.waitingBytes (s : State) (p : Nat) : Nat :=
  ((s.dp.ingress.filter (fun x => x.port = p)).map (fun x => x.bytes.length)).foldl (· + ·) 0

/-- Bytes of an uplink port's receive buffer (R481). -/
def State.rxRoom (s : State) (l : Nat) : Nat := 65536 * 2 ^ s.get F.UPL_PORT_CTRL_WIDTH l

/-- The pause of a receive buffer follows its occupancy (R481). -/
def State.rxLevel (s : State) (p : Nat) : State :=
  if 40 ≤ p then s
  else
    let n := s.waitingBytes p
    let room := s.rxRoom p
    let high := s.dp.rxHigh.contains p
    if !high && 3 * room ≤ 4 * n then { s with dp := { s.dp with rxHigh := p :: s.dp.rxHigh } }.pausePort p
    else if high && 2 * n < room then { s with dp := { s.dp with rxHigh := s.dp.rxHigh.filter (fun x => x ≠ p) } }.pausePort p
    else s

/-- Flits of a bundle's packet leave the receive buffer for the parser lanes; credit returns with each 64 (R493, R496). -/
def State.returnCredit (s : State) (p cls len : Nat) : State :=
  if p < 128 then s
  else
    let b := p - 128
    let x := s.bnd b
    let k := s.bondPool b cls
    let total : SMap Nat → Nat := fun m => (m.map (fun e => e.2)).foldl (· + ·) 0
    let taken := sput 0 x.taken k (sget 0 x.taken k + flits len)
    let s1 := s.setBnd b { x with taken }
    if total x.taken / 64 < total taken / 64 then
      let pools := if s.get F.BND_STATUS_VER b = 2 then 8 else 1
      s1.emit (.bondMsg b 2 ((range' 0 pools).map (fun i => sget 0 taken i)))
    else s1

/-- A received packet takes its place: it enters a parser lane, or waits while its port has its bound in flight (R389). -/
def State.receive (s : State) (x : Pkt) (cls : Nat) : State :=
  if s.inFlight x.port < windowBound ∧ s.waitingBytes x.port = 0 then (s.returnCredit x.port cls x.bytes.length).enter x
  else if x.port < 40 ∧ s.rxRoom x.port < s.waitingBytes x.port + x.bytes.length then s.inc F.UPL_RX_CNT_RXFULL 1 x.port
  else { s with dp := { s.dp with ingress := s.dp.ingress ++ [{ x with cls }] } }.rxLevel x.port

/-- The oldest packet of a port that waits in its ingress quoin enters, where the bound allows. -/
def State.nextWaiting (s : State) (p : Nat) : State :=
  match s.dp.ingress.find? (fun x => x.port = p) with
  | none => s
  | some x =>
    if s.inFlight p < windowBound then
      let s1 := { s with dp := { s.dp with ingress := s.dp.ingress.erase x } }
      ((s1.rxLevel p).returnCredit p x.cls x.bytes.length).enter { x with cls := 0 }
    else s

/-! Arrival. -/

/-- An uplink frame as the MAC takes it: dropped, or its bytes for the parser (R478, R480, R484, R487). -/
def State.macReceive (s : State) (l : Nat) (bs : List Byte) : State × Option (List Byte) :=
  if be16 bs 12 = macControl then (s.controlFrame l bs, none)
  else
    let (s1, out) := s.eliminate l bs
    match out with
    | none => (s1, none)
    | some bs' => if s.get F.UPL_PORT_CTRL_MAXFRM l < bs'.length then (s1.inc F.UPL_RX_CNT_OVERSZ 1 l, none) else (s1, some bs')

/-- A packet as it leaves a port for the mortar core. -/
def State.pktOf (s : State) (p u gem : Nat) (bs : List Byte) (truncated : Bool) : Pkt :=
  { port := p, term := u, gem, bytes := bs, rx := s.ingressStamp p u, bad := truncated || !fcsGood bs }

/-- PACKET_ARRIVAL: a packet from a port that is up, while the device is not in the safe state (R331, R527). A
bundle's packet returns credit to the pool of the CLASS its first flit carries (R492, R496). -/
def execPacketArrival (p : Packet) (s : State) : Host.Outcome State Fault Refusal :=
  let k := p.port
  if s.safe || !s.linkUp k || s.domainState 0 ≠ domREADY then .next s
  else if k < 40 then
    match s.macReceive k p.bytes with
    | (s1, none) => .next s1
    | (s1, some bs) => .next (s1.receive (s1.pktOf k 0 0 bs p.truncated) 0)
  else if k < 128 then .next (s.receive (s.pktOf k p.term p.gem.toNat p.bytes p.truncated) 0)
  else .next (s.receive (s.pktOf k 0 0 p.bytes p.truncated) p.term)

end Sys2Proof.Machine
end

