-- ==== Sys2Proof/Machine/Bond.lean ====
section
/-! DEFINITION. Bond links: training, negotiation, replay, credit and class withdrawal, time exchange, and the registers of
systems of devices (R489 to R497, R500). -/
namespace Sys2Proof.Machine

/-! States of a bundle (R489, R495). -/

def bnDOWN : Nat := 1
def bnTRAIN : Nat := 2
def bnNEGOTIATE : Nat := 3
def bnUP : Nat := 4

def State.bondState (s : State) (b : Nat) : Nat := s.get F.BND_STATUS_STATE b

/-- A bundle forgets its lanes, version, credits and withdrawals. -/
def State.bondClear (s : State) (b st : Nat) : State :=
  ((((s.set F.BND_STATUS_STATE st b).set F.BND_STATUS_VER 0 b).set F.BND_STATUS_DEGR 0 b).set F.BND_STATUS_LANES 0 b).setBnd b {}

/-- The link-down event of a bundle that is UP; one still coming up falls back to DOWN (R494). -/
def State.bondDown (s : State) (b : Nat) : State :=
  if s.bondState b = bnUP then
    let s1 := ((s.emit (.bondMsg b 8 [])).set F.BND_STATUS_DOWNEV 1 b).inc F.BND_CNT_FLAPS 1 b
    let s2 := (s1.bondClear b bnDOWN).modPort (128 + b) (fun a => { a with downEv := true })
    (s2.portFlush (128 + b)).downFlush (128 + b) none
  else if s.bondState b = bnDOWN ∨ s.bondState b = 0 then s
  else s.bondClear b bnDOWN

/-- BOND_RETRAIN: while enabled and DOWN the bundle trains again (R494, R495). -/
def execBondRetrain (b : Fin 4) (s : State) : Host.Outcome State Fault Refusal :=
  if s.dp.bondOn.getLsbD b && s.bondState b = bnDOWN then .next (s.set F.BND_STATUS_STATE bnTRAIN b) else .next s

/-- BOND_TRAIN_DONE: locked and deskewed, the bundle negotiates and offers its versions (R493, R495). -/
def execBondTrainDone (b : Fin 4) (s : State) : Host.Outcome State Fault Refusal :=
  if s.dp.bondOn.getLsbD b && (s.bondState b = bnDOWN || s.bondState b = bnTRAIN) then
    let s1 := (s.set F.BND_STATUS_STATE bnNEGOTIATE b).set F.BND_STATUS_LANES 0xF b
    .next (s1.emit (.bondMsg b 5 [s.get F.BND_CTRL_OFFER b, s.get F.SYS_ID_SYSID, s.get F.SYS_ID_DEVID, b]))
  else .next s

/-- CAPS: the peer's offer while the bundle negotiates (R495). -/
def execCaps (b : Fin 4) (m : CapsMsg) (s : State) : Host.Outcome State Fault Refusal :=
  if s.bondState b ≠ bnNEGOTIATE then .next s
  else
    let common := s.get F.BND_CTRL_OFFER b &&& m.offer.toNat
    let mismatch := m.sysid.toNat ≠ s.get F.SYS_ID_SYSID
    let dup := m.devid.toNat = s.get F.SYS_ID_DEVID
    let ver := if 2 ≤ common then 2 else 1
    let n := popcount 4 m.lanes.toNat
    if common = 0 ∨ mismatch ∨ dup then
      let s1 := s.bondClear b bnDOWN
      let s2 := if common = 0 then s1.set F.BND_STATUS_NOVER 1 b else s1
      let s3 := if mismatch then s2.set F.BND_STATUS_MISMATCH 1 b else s2
      .next (if dup then s3.set F.BND_STATUS_DUPID 1 b else s3)
    else if n < 3 ∨ (ver = 1 ∧ n < 4) then .next (s.bondClear b bnDOWN)
    else
      let s1 := ((s.bondClear b bnUP).set F.BND_STATUS_VER ver b).set F.BND_STATUS_LANES m.lanes.toNat b
      let s2 := ((s1.set F.BND_STATUS_DEGR (b2n (n = 3)) b).set F.BND_STATUS_PEERDEV m.devid.toNat b).set F.BND_STATUS_PEERBND m.bundle b
      .next ((s2.modPort (128 + b) (fun a => { a with upEv := true })).stopBond b)

/-! Replay (R494). -/

/-- DATA flits of a bundle received so far. -/
def State.flitsReceived (s : State) (b : Nat) : Nat :=
  let waiting := ((s.dp.ingress.filter (fun x => x.port = 128 + b)).map (fun x => flits x.bytes.length)).foldl (· + ·) 0
  (((s.bnd b).taken).map (fun e => e.2)).foldl (· + ·) 0 + waiting

/-- FLIT_ERROR: a DATA flit is discarded and NAK names its SEQ (R494). -/
def execFlitError (b : Fin 4) (s : State) : Host.Outcome State Fault Refusal :=
  if s.bondState b = bnUP then .next ((s.inc F.BND_CNT_CRCERR 1 b).emit (.bondMsg b 1 [s.flitsReceived b % 1024])) else .next s

/-- NAK: the sender replays from the flit; the sixteenth replay of one flit takes the link down (R494). -/
def execNak (b : Fin 4) (seq : BitVec 10) (s : State) : Host.Outcome State Fault Refusal :=
  if s.bondState b = bnUP then
    let x := s.bnd b
    let n := if x.replaySeq = seq.toNat ∧ 0 < x.replays then x.replays + 1 else 1
    let s1 := ((s.inc F.BND_CNT_REPLAY 1 b).setBnd b { x with replays := n, replaySeq := seq.toNat }).emit (.bondReplay b seq.toNat)
    .next (if 16 ≤ n then s1.bondDown b else s1)
  else .next s

/-- DOWN: the peer announces a link-down (R494). -/
def execDown (b : Fin 4) (s : State) : Host.Outcome State Fault Refusal := .next (s.bondDown b)

/-- FORWARDED_CLOCK_LOSS (R491, R494). -/
def execForwardedClockLoss (b : Fin 4) (s : State) : Host.Outcome State Fault Refusal := .next (s.bondDown b)

/-- FLIT_ALIGNMENT_LOSS: a version-2 bundle goes on with three lanes; else the link goes down (R494, R495). -/
def execFlitAlignmentLoss (b lane : Fin 4) (s : State) : Host.Outcome State Fault Refusal :=
  let lanes := s.get F.BND_STATUS_LANES b
  if s.bondState b ≠ bnUP || !bit lanes lane then .next s
  else if s.get F.BND_STATUS_VER b = 2 ∧ popcount 4 lanes = 4 then
    .next ((s.set F.BND_STATUS_LANES (lanes - 2 ^ lane.val) b).set F.BND_STATUS_DEGR 1 b)
  else .next (s.bondDown b)

/-! Credit (R496). -/

/-- CREDIT: the flits that left the peer's buffer, by pool (R496). -/
def execCredit (b : Fin 4) (m : CreditMsg) (s : State) : Host.Outcome State Fault Refusal :=
  if s.bondState b = bnUP then
    let x := s.bnd b
    let pools := if s.get F.BND_STATUS_VER b = 2 then 8 else 1
    .next (s.setBnd b { x with returned := (range' 0 pools).foldl (fun a p => sput 0 a p (max (sget 0 a p) (nth 0 m.counts p))) x.returned })
  else .next s

/-- The classes a STOP or GO is about: every class under version 1. -/
def State.bondClasses (s : State) (b : Nat) (classes : BitVec 8) : BitVec 8 := if s.get F.BND_STATUS_VER b = 2 then classes else 0xFF

/-- STOP: no further packet of the classes starts (R496). -/
def execStop (b : Fin 4) (classes : BitVec 8) (s : State) : Host.Outcome State Fault Refusal :=
  if s.bondState b = bnUP then .next (s.setBnd b { s.bnd b with stopped := (s.bnd b).stopped ||| s.bondClasses b classes }) else .next s

/-- GO: credit of the classes returns (R496). -/
def execGo (b : Fin 4) (classes : BitVec 8) (s : State) : Host.Outcome State Fault Refusal :=
  if s.bondState b = bnUP then .next (s.setBnd b { s.bnd b with stopped := (s.bnd b).stopped &&& ~~~s.bondClasses b classes }) else .next s

/-! Time (R500). -/

/-- A signed number in a message, as 64 bits. -/
def msgInt (v : Int) : Nat := unsignedOf 64 v

/-- TIME_EXCHANGE: an UP bundle sends its egress stamp and the ingress stamp of the last message received (R500). -/
def execTimeExchange (b : Fin 4) (s : State) : Host.Outcome State Fault Refusal :=
  if s.bondState b = bnUP then
    let x := s.bnd b
    let t := s.egressStamp (128 + b)
    .next ((s.setBnd b { x with timeSent := some t }).emit (.bondMsg b 6 (msgInt t :: (match x.timeRecv with | some r => [msgInt r] | none => []))))
  else .next s

/-- A measurement of a bundle goes to the domain it feeds, where that takes one now (R451, R500). -/
def State.bondMeasure (s : State) (b : Nat) (ofs : Int) : State :=
  let d : Fin 2 := if s.flag F.BND_CTRL_TDOM b then 1 else 0
  let busy := match (s.dom d).last with | some t => decide (s.clk.total < t + 9720000) | none => false
  if s.flag F.BND_CTRL_TFOLLOW b && s.flag F.TIME_DOM_CTRL_EN d && !busy then s.measure d (ofs * tbPerNs / 65536) 0 else s

/-- TIME: a message from the peer completes an exchange, and the offset is measured (R500). -/
def execTime (b : Fin 4) (m : TimeMsg) (s : State) : Host.Outcome State Fault Refusal :=
  if s.bondState b ≠ bnUP then .next s
  else
    let x := s.bnd b
    let s1 := s.setBnd b { x with timeRecv := some m.received }
    match x.timeSent with
    | none => .next s1
    | some t1 =>
      let ofs := ((m.lastReceived - t1) - (m.received - m.sent)) / 2
      .next ((s1.wr .BND_TIME (BitVec.ofInt 36 (ofs / 4096)) b).bondMeasure b ofs)

/-! Registers of the block (R489, R498). -/

/-- The bundle on the path to a device, where the route is valid and the bundle UP. -/
def State.routeTo (s : State) (dev : Nat) : Option Nat :=
  let b := s.get F.SYS_ROUTE_BUNDLE dev
  if s.flag F.SYS_ROUTE_V dev && s.bondState b = bnUP then some b else none

/-- The words of a remote request and of a reply on a bundle (R498). -/
def rmtRequest (src dst hops : Nat) (write : Bool) (off : Nat) (data : Word) : List Nat := [0, src, dst, hops, b2n write, off, data.toNat]
def rmtReply (dst hops status : Nat) (data : Word) : List Nat := [1, dst, hops, status, data.toNat]

/-- A remote access starts; one that names this device ends at once (R498). -/
def State.rmtStart (s : State) : State :=
  let dev := s.get F.SYS_RMT_CTRL_DEVID
  let own := s.get F.SYS_ID_DEVID
  if dev = own then s.set F.SYS_RMT_CTRL_STATUS Status.erange.code
  else
    let s1 := s.set F.SYS_RMT_CTRL_BUSY 1
    match s.routeTo dev with
    | some b => s1.emit (.bondMsg b 7 (rmtRequest own dev 1 (s.flag F.SYS_RMT_CTRL_WRITE) (s.get F.SYS_RMT_ADDR_OFFSET) (s.rd .SYS_RMT_DATA)))
    | none => s1

/-- A write of a register of the block. -/
def State.sysWrite (s : State) (r : Reg) (v : Word) : WriteRes :=
  match r.id with
  | .SYS_ID => if s.dp.bondOn ≠ 0 then .reject .estate else .done ((s.plainWrite r v).set F.SYS_ID_SET 1)
  | .SYS_RMT_CTRL =>
    if v.msb && s.flag F.SYS_RMT_CTRL_BUSY then .reject .estate
    else
      let s1 := s.plainWrite r v
      .done (if v.msb then s1.rmtStart else s1)
  | _ => .done (s.plainWrite r v)

/-- REMOTE_TIMEOUT: no reply within 200 us (R498). -/
def execRemoteTimeout (s : State) : Host.Outcome State Fault Refusal :=
  if s.flag F.SYS_RMT_CTRL_BUSY then
    .next ((s.set F.SYS_RMT_CTRL_BUSY 0).set F.SYS_RMT_CTRL_STATUS Status.etimeout.code)
  else .next s

end Sys2Proof.Machine
end

