-- ==== Sys2Proof/Machine/LoadStore.lean ====
section
/-! DEFINITION. Load, store and move: major opcodes 0x10 to 0x16 (R168, R169, R183, R184). -/
namespace Sys2Proof.Machine

/-- LD: d ← engine memory at a + imm20 (R183). -/
def execLd (e : Eng) (d a : RegNo) (imm : BitVec 20) (s : State) : Host.Outcome State Fault Refusal :=
  instr e (.ld e d a imm) [d, a] 2 (fun s =>
    s.image e (BitVec.ofNat 36 (effAddr (s.reg e a) imm)) 1 (fun ws => .ok (s.setReg e d (nth 0 ws 0)))) s

/-- ST: engine memory at a + imm20 ← d, where the word may be stored to (R175, R183). -/
def execSt (e : Eng) (d a : RegNo) (imm : BitVec 20) (s : State) : Host.Outcome State Fault Refusal :=
  instr e (.st e d a imm) [d, a] 1 (fun s =>
    s.dest e (BitVec.ofNat 36 (effAddr (s.reg e a) imm)) 1 (fun x => .ok (s.setMem e x (s.reg e d)))) s

/-- A word in the 8-byte layout of host memory (R134). -/
def hostSlot (w : Word) : BitVec 64 := w.zeroExtend 64

/-- RST: the result word at index a + imm20 is written to host memory, where the index lies below RESULT_LEN (R184). -/
def execRst (e : Eng) (d a : RegNo) (imm : BitVec 20) (s : State) : Host.Outcome State Fault Refusal :=
  instr e (.rst e d a imm) [d, a] 2 (fun s =>
    let en := s.eng e
    let x := effAddr (s.reg e a) imm
    match en.frag with
    | none => .fail .eillegal s
    | some f =>
      if f.resLen ≤ x then .fail .erange s
      else
        let s1 := s.setEng e { en with frag := some { f with results := max f.results (x + 1) } }
        let addr := f.resAddr + BitVec.ofNat 64 (8 * x)
        .ok (if f.aborted then s1 else s1.post (.hostWrite addr (hostSlot (s.reg e d))))) s

/-- PLSTAT: the level of the frame, G and SHORT (R168, R509). -/
def State.plstat (s : State) : Nat := s.pwr.frameLevel * 16 + s.pwr.g * 2 + b2n s.pwr.short

/-- GEN: the rule bank of packets that start classification, and whether a swap is in progress (R168). -/
def State.genWord (s : State) : Nat := b2n (s.flag F.CLS_BANK_STATUS_SWAP) * 2 + s.get F.CLS_BANK_STATUS_ACTIVE

/-- MAPCNT: the structures of the map under construction, with the held one it will carry (R189, R313). -/
def Tree.mapCount (x : Tree) : Nat :=
  x.build.length + (match x.held with | some (0, _) => 1 | _ => 0)

/-- A special register's value (R168). -/
def State.special (s : State) (e : Eng) (idx : Nat) : Nat :=
  let en := s.eng e
  match idx with
  | 0x00 => en.flagNibble
  | 0x01 => (s.nowAt (s.engCycle e)).toNat
  | 0x02 => s.clk.frame % 2 ^ 36
  | 0x03 => s.get F.PWR_GOV_STATUS_CAPACITY
  | 0x04 => s.get F.PWR_COMMIT_EBUDGET
  | 0x05 => match e with | .map t => t.val | _ => 64
  | 0x06 => match e with | .map t => t.val | .cmd c => 64 + c.val | .plinth => 128
  | 0x07 => s.engCycle e
  | 0x08 => match e with | .map _ => 143078 | _ => 0
  | 0x09 => match e with | .map t => (s.tr t).mapCount | _ => 0
  | 0x0A => match e with | .map t => b2n (s.tr t).trunc * 2 + b2n (s.tr t).missed | _ => 0
  | 0x0B => s.plstat
  | 0x0C => match en.frag with | some f => f.resLen | none => 0
  | 0x0D => match en.frag with | some f => f.results | none => 0
  | 0x0E => match e with | .map _ => 0 | _ => en.ops.length
  | 0x0F => s.genWord
  | 0x10 => match e with | .plinth => en.trapCause.toNat | _ => 0
  | 0x11 => match e with | .plinth => en.trapPc.toNat | _ => 0
  | 0x12 => match e with | .plinth => en.tvec.toNat | _ => 0
  | _ => 0

/-- MFSR: d ← a special register (R168, R183). -/
def execMfsr (e : Eng) (d a : RegNo) (imm : BitVec 20) (s : State) : Host.Outcome State Fault Refusal :=
  instr e (.mfsr e d a imm) [d] 1 (fun s => .ok (s.setReg e d (BitVec.ofNat 36 (s.special e imm.toNat)))) s

/-- MTSR: FLAGS ← a, or TVEC ← a in the plinth context (R169, R183). -/
def execMtsr (e : Eng) (d a : RegNo) (imm : BitVec 20) (s : State) : Host.Outcome State Fault Refusal :=
  instr e (.mtsr e d a imm) [a] 1 (fun s =>
    let en := s.eng e
    let v := s.reg e a
    if imm = 0 then
      .ok (s.setEng e { en with fn := bit v.toNat 3, fz := bit v.toNat 2, fc := bit v.toNat 1, fv := bit v.toNat 0 })
    else .ok (s.setEng e { en with tvec := v })) s

/-- SEL: d ← a if the condition holds, else b (R183). -/
def execSel (e : Eng) (f : FmtA) (s : State) : Host.Outcome State Fault Refusal :=
  instr e (.sel e f) [f.d, f.a, f.b] 1 (fun s =>
    .ok (s.setReg e f.d (if s.cond e f.fn.toNat then s.reg e f.a else s.reg e f.b))) s

end Sys2Proof.Machine
end

