-- ==== Sys2Proof/Machine/Grants.lean ====
section
/-! DEFINITION. Grant and map instructions of the map engines: GRANT, RPT, ARD, TRD, QUIET, RSSI (R188 to R190, R258, R276,
R278, R300 to R304, R313). -/
namespace Sys2Proof.Machine

/-! Structures and bursts (R251, R300 to R304). -/

/-- Bits per receiver cycle of a rate, and equalisation units per bit (R247, R251). -/
def rateBits (rate : Nat) : Nat := if rate = 0 then 20 else if rate = 1 then 40 else if rate = 2 then 80 else 16
def rateUnits (rate : Nat) : Nat := 80 / rateBits rate

/-- Fields of a burst profile (R247). -/
def profRate (ws : List Word) : Nat := wbits (nth 0 ws 0) 34 33
def profFec (ws : List Word) : Bool := wbits (nth 0 ws 0) 32 32 = 1
def profBits (ws : List Word) : Nat := wbits (nth 0 ws 0) 31 16 + (if wbits (nth 0 ws 0) 0 0 = 1 then 64 else 32)
def profValid (ws : List Word) : Bool := wbits (nth 0 ws 0) 35 35 = 1

/-- Content of a burst before FEC, in bytes (R303). -/
def contentBytes (gs : List Grant) : Nat :=
  8 + (match gs with | g :: _ => 48 * b2n g.ploamu | [] => 0) + (gs.map (fun g => 4 * b2n g.dbru + 4 * g.size)).sum

/-- Its line bytes: FEC on or off, 50G-PON mode or XGS-PON mode (R303). -/
def lineBytes (fec mode50 : Bool) (u : Nat) : Nat :=
  if !fec then u else if mode50 then u + 336 * ceilDiv u 1824 else u + 16 * ceilDiv u 232

/-- The expected delimiter end D of a burst in equalisation units, from S in receiver cycles (R251). -/
def burstD (prof : List Word) (s : Nat) : Nat := 80 * s + profBits prof * rateUnits (profRate prof)

/-- The expected end E of a burst in receiver cycles (R251, R252). -/
def burstE (prof : List Word) (mode50 : Bool) (s : Nat) (gs : List Grant) : Nat :=
  ceilDiv (burstD prof s + 8 * lineBytes (profFec prof) mode50 (contentBytes gs) * rateUnits (profRate prof)) 80

/-- The burst that the last structure of a map belongs to: its first structure and the continuations after it (R303). -/
def lastBurst : List Grant → List Grant → List Grant
  | acc, [] => acc
  | acc, g :: gs => if g.start = startCONT then lastBurst (acc ++ [g]) gs else lastBurst [g] gs

/-! Instructions. -/

/-- The tree a map engine serves. -/
def engTree (e : Eng) : Fin 64 := match e with | .map t => t | _ => 0

/-- MAP_TRUNC: set, counted once in the frame, and raised (R189, R228, R229). -/
def State.mapTrunc (s : State) (t : Fin 64) : State :=
  if (s.tr t).trunc then s
  else
    let s1 := s.modTree t (fun x => { x with trunc := true })
    ((s1.set F.MAP_ENG_STATUS_TRUNC 1 t).inc F.MAP_EVT_CNT_TRUNC 1 t).raise ⟨.MAP_INT_CAUSE, 3, 0⟩ F.MAP_INT_EN_EN 2 21

/-- A structure appended to the map under construction, which holds at most 1,024 (R189). -/
def State.appendGrant (s : State) (t : Fin 64) (g : Grant) (k : Tree → Tree) : State :=
  if 1024 ≤ (s.tr t).mapCount then s.mapTrunc t
  else s.modTree t (fun x => k { x with build := x.build ++ [g] })

/-- The operands of a structure lie in range: R302 and, for a continuation, R304 against the structure before it. -/
def grantOk (prev : Option Grant) (g : Grant) : Bool :=
  g.alloc < 4096 && g.size < 65536 && (g.size ≠ 0 || g.dbru || g.ploamu) &&
    (if g.start = startCONT then
      !g.ploamu && !g.fwi && (match prev with | some p => p.quiet.isNone && p.profile = g.profile | none => false)
    else g.start < 38880)

/-- The start time a GRANT operand names: the mark of a continuation, or a time (none: out of range) (R301). -/
def startOf (b : Word) : Option Nat :=
  if b = 0xFFFFFFFFF then some startCONT else if b.toNat < 38880 then some b.toNat else none

/-- GRANT: appends one structure (R188, R189, R301, R302, R304). -/
def execGrant (e : Eng) (f : FmtX) (s : State) : Host.Outcome State Fault Refusal :=
  instr e (.grant e f) [f.a, f.b, f.c] 4 (fun s =>
    let t := engTree e
    match startOf (s.reg e f.b) with
    | none => .fail .erange s
    | some start =>
      let fn := f.fn.toNat
      let g : Grant := { alloc := (s.reg e f.a).toNat, start, size := (s.reg e f.c).toNat,
                         fwi := bit fn 6, ploamu := bit fn 5, dbru := bit fn 4, profile := bits fn 3 2 }
      if grantOk (s.tr t).build.getLast? g then .ok (s.appendGrant t g id) else .fail .erange s) s

/-- RPT: the oldest status report of the queue, or 0 with Z (R190). -/
def execRpt (e : Eng) (f : FmtX) (s : State) : Host.Outcome State Fault Refusal :=
  instr e (.rpt e f) [f.d] 3 (fun s =>
    let t := engTree e
    match (s.tr t).reports with
    | [] => .ok (s.putAlu e f.d { v := 0, z := some true })
    | (i, occ) :: rest =>
      let s1 := s.modTree t (fun x => { x with reports := rest })
      .ok (s1.putAlu e f.d { v := BitVec.ofNat 36 (i % 4096 * 2 ^ 24 + occ % 2 ^ 24), z := some false })) s

/-- An allocation entry of a tree. -/
def State.alloc (s : State) (t i : Nat) : List Word := sget [] s.dp.tab (0x40 * 2 ^ 22 + t * 4096 + i)

/-- ARD: the four words of an allocation's entry (R188, R308). -/
def execArd (e : Eng) (f : FmtX) (s : State) : Host.Outcome State Fault Refusal :=
  instr e (.ard e f) [f.a, f.d, f.d + 1, f.d + 2, f.d + 3] 6 (fun s =>
    let i := (s.reg e f.a).toNat
    if 4096 ≤ i then .fail .erange s
    else
      let ws := s.alloc (engTree e) i
      .ok ((((s.setReg e f.d (nth 0 ws 0)).setReg e (f.d + 1) (nth 0 ws 1)).setReg e (f.d + 2) (nth 0 ws 2)).setReg e (f.d + 3) (nth 0 ws 3))) s

/-- The one-word summary of a terminal (R276). -/
def State.termSummary (s : State) (t u : Nat) : Word :=
  BitVec.ofNat 36 (s.get F.PON_TERM_STATE_STATE t u * 2 ^ 32 + s.get F.PON_TERM_STATE_LOSI t u * 2 ^ 31
    + s.get F.PON_TERM_STATE_PROF t u * 2 ^ 25 + s.get F.PON_TERM_EQD_EQD t u)

/-- TRD: a terminal's summary (R188, R276). -/
def execTrd (e : Eng) (f : FmtX) (s : State) : Host.Outcome State Fault Refusal :=
  instr e (.trd e f) [f.a, f.d] 4 (fun s =>
    let u := (s.reg e f.a).toNat
    if 256 ≤ u then .fail .erange s else .ok (s.setReg e f.d (s.termSummary (engTree e) u))) s

/-- QUIET: opens a quiet window and appends, or holds, the structure that invites a response in it (R278, R313, R314). -/
def execQuiet (e : Eng) (f : FmtX) (s : State) : Host.Outcome State Fault Refusal :=
  instr e (.quiet e f) [f.a, f.b, f.c] 4 (fun s =>
    let t := engTree e
    let x := s.tr t
    let ranging := bit f.fn.toNat 0
    let a := (s.reg e f.a).toNat
    let b := (s.reg e f.b).toNat
    let u := (s.reg e f.c).toNat
    let pre := s.get F.PON_RNG_CTRL_PRE t
    if 38880 ≤ a ∨ b = 0 ∨ 155520 < b ∨ 2 * b ≤ pre ∨ (ranging ∧ 256 ≤ u) then .fail .erange s
    else if x.window.isSome ∨ x.held.isSome ∨ (ranging ∧ s.get F.PON_TERM_STATE_STATE t u ≠ 1) then .fail .estate s
    else
      let prof := if ranging then s.get F.PON_TERM_STATE_PROF t u else 0
      let st := (2 * a + pre) / 2
      let win : Window := { term := if ranging then some u else none, w := 2 * a, len := 2 * b, s := st, profile := prof, after := x.build.length }
      let g : Grant := { alloc := 0, start := st % 38880, size := 0, ploamu := true, profile := prof,
                         quiet := some (if ranging then u else 1023) }
      if st < 38880 then .ok (s.appendGrant t g (fun x => { x with window := some win }))
      else .ok (s.modTree t (fun x => { x with window := some win, held := some (st / 38880, g) }))) s

/-- The length E − S of the burst of the most recent structure, in receiver cycles; for a quiet window, from its response's
expected start to the window's end (R258). -/
def State.recentLen (s : State) (t : Fin 64) : Nat :=
  let x := s.tr t
  let gs := lastBurst [] x.build
  match gs with
  | [] => 0
  | g :: _ =>
    match g.quiet, x.window with
    | some _, some w => w.w + w.len - 2 * w.s
    | _, _ =>
      let prof := nth [] x.profiles g.profile
      if profValid prof then burstE prof (s.flag F.PON_DS_CTRL_MODE t) 0 gs else 0

/-- RSSI: arms RSSI_TRIG for the burst of the most recent structure, in place of one armed before (R188, R258). -/
def execRssi (e : Eng) (f : FmtX) (s : State) : Host.Outcome State Fault Refusal :=
  instr e (.rssi e f) [f.a] 3 (fun s =>
    let t := engTree e
    let a := (s.reg e f.a).toNat
    if s.recentLen t < a + s.get F.PON_RSSI_CTRL_WIDTH t ∧ (s.tr t).build ≠ [] then .fail .erange s
    else if (s.tr t).build = [] then .fail .estate s
    else .ok (s.modTree t (fun x => { x with arm := some (x.build.length - 1, a) }))) s

end Sys2Proof.Machine
end

