-- ==== Sys2Proof/Machine/Terms.lean ====
section
/-! DEFINITION. Terminals: line contexts, their states and equalisation delays, PLOAM messages, protection of trees, and the
terminal instructions (R205, R271 to R276, R280 to R287, R291 to R298, R309). -/
namespace Sys2Proof.Machine

/-! Line contexts (R271, R273). -/

/-- STATE of a terminal. -/
def tmFREE : Nat := 0
def tmRANGING : Nat := 1
def tmOPERATING : Nat := 2
def tmRESTORED : Nat := 3

/-- STATE of a pair. -/
def ppOFF : Nat := 0
def ppARMED : Nat := 1
def ppSWITCHING : Nat := 2
def ppFAILED : Nat := 3

/-- A terminal's state. -/
def State.termState (s : State) (t u : Nat) : Nat := s.get F.PON_TERM_STATE_STATE t u

/-- The tree runs a switchover (R297). -/
def State.switching (s : State) (t : Nat) : Bool := s.get F.PON_PROT_STATUS_STATE t = ppSWITCHING

/-- The context registers of a terminal, zeroed (R275). -/
def State.zeroTerm (s : State) (t u : Nat) : State :=
  (((s.wr .PON_TERM_STATE 0 t u).wr .PON_TERM_VID 0 t u).wr .PON_TERM_VSSN 0 t u).wr .PON_TERM_EQD 0 t u

/-- What a slot keeps of a context (R295). -/
def State.lineCtx (s : State) (t u : Nat) : LineCtx :=
  { state := s.termState t u, prof := s.get F.PON_TERM_STATE_PROF t u, pik := s.get F.PON_TERM_STATE_PIKSLOT t u,
    vid := s.get F.PON_TERM_VID_VID t u, vssn := s.get F.PON_TERM_VSSN_VSSN t u, eqd := s.get F.PON_TERM_EQD_EQD t u }

/-- A context written: the state, the delay and what identifies the terminal; RANGED, AVG and LOSI clear (R275). -/
def State.putCtx (s : State) (t u : Nat) (c : LineCtx) : State :=
  let s1 := (s.zeroTerm t u).wr .PON_TERM_STATE (BitVec.ofNat 36 (c.state * 2 ^ 32 + c.prof * 2 ^ 24 + c.pik)) t u
  ((s1.set F.PON_TERM_VID_VID c.vid t u).set F.PON_TERM_VSSN_VSSN c.vssn t u).set F.PON_TERM_EQD_EQD c.eqd t u

/-- A serial number is held by a terminal of the tree that is not FREE, other than one. -/
def State.serialHeld (s : State) (t : Nat) (vid vssn : Nat) (but : Option Nat) : Option Nat :=
  (range' 0 256).find? (fun u => some u ≠ but && s.termState t u ≠ tmFREE && s.get F.PON_TERM_VID_VID t u = vid
    && s.get F.PON_TERM_VSSN_VSSN t u = vssn)

/-- EQDLIM of an ORIGIN (R282). -/
def eqdLimit (origin : Nat) : Nat := min (80 * origin - (74640 + 1692058)) 33554431

/-- A delay lies within 0 to EQDLIM. -/
def State.eqdFits (s : State) (t : Nat) (v : Int) : Bool := 0 ≤ v && v ≤ s.get F.PON_RNG_LIMIT_EQDLIM t

/-! The device's own messages (R284 to R286). -/

/-- Queue Ranging_Time for a terminal: a later one replaces an earlier one that has not been sent (R285). -/
def State.rangingTime (s : State) (t : Fin 64) (u eqd : Nat) : State :=
  s.modTree t (fun x =>
    let m := (u, Config.rangingTime u eqd)
    { x with ploamOwn := if x.ploamOwn.any (fun e => e.1 = u) then x.ploamOwn.map (fun e => if e.1 = u then m else e)
                         else x.ploamOwn ++ [m] })

/-- Discard it. -/
def State.dropOwn (s : State) (t : Fin 64) (u : Nat) : State :=
  s.modTree t (fun x => { x with ploamOwn := x.ploamOwn.filter (fun e => e.1 ≠ u) })

/-! Switchover (R294 to R297). -/

/-- A terminal of a switchover that returned to RANGING, or was left FREE (R295, R296). -/
def State.switchLost (s : State) (t : Nat) : State := s.set F.PON_PROT_STATUS_NOK (min 256 (s.get F.PON_PROT_STATUS_NOK t + 1)) t

/-- The mean of the offsets of confirmed terminals (R294). -/
def meanOffset (xs : List Int) : Int := if xs = [] then 0 else (xs.foldl (· + ·) 0).tdiv xs.length

/-- The switchover of a tree ends once no terminal is RESTORED and, for host restoration, DONE was written (R296). -/
def State.switchEnd (s : State) (t : Fin 64) : State :=
  let x := s.tr t
  let restored := (range' 0 256).any (fun u => s.termState t u = tmRESTORED)
  if s.switching t && x.swMoved && !restored && (s.get F.PON_PROT_CTRL_SLOT t < 4 || x.swDone) then
    let s1 := s.set F.PON_PROT_STATUS_STATE ppARMED t
    let s2 := s1.set F.PON_PROT_STATUS_TIME (min 511 (s.clk.frame - x.swFrame)) t
    s2.set F.PON_PROT_MEAS_MEAN (unsignedOf 26 (meanOffset x.swOffsets)) t
  else s

/-- A terminal restored with its saved delay less DELTA (R295). -/
def State.restore (s : State) (t : Fin 64) (u : Nat) (c : LineCtx) : State :=
  let delta := signed 26 (s.get F.PON_PROT_DELTA_DELTA t)
  let eqd : Int := c.eqd - delta
  if s.eqdFits t eqd then
    let s1 := s.putCtx t u { c with state := tmRESTORED, eqd := eqd.toNat }
    if delta = 0 then s1 else s1.rangingTime t u eqd.toNat
  else (s.putCtx t u { c with state := tmRANGING, eqd := 0 }).switchLost t

/-- A switchover is triggered: AUTO clears and STATE becomes SWITCHING (R296). -/
def State.switchStart (s : State) (t : Fin 64) : State :=
  let s1 := (s.set F.PON_PROT_CTRL_AUTO 0 t).set F.PON_PROT_STATUS_STATE ppSWITCHING t
  let s2 := s1.set F.PON_PROT_STATUS_NOK 0 t
  s2.modTree t (fun x => { x with swFrame := s.clk.frame, swDone := false, swMoved := false, swOffsets := [] })

/-- The copy of a pair's line contexts in its always-on slot (R295). -/
def State.saveSlot (s : State) (t : Fin 64) : State :=
  let k := s.get F.PON_PROT_CTRL_SLOT t
  if s.flag F.PON_PROT_CTRL_EN t && k < 4 && !((s.tr t).swMoved && s.switching t) then
    (range' 0 256).foldl (fun s u => { s with slots := sput {} s.slots (k * 256 + u) (s.lineCtx t u) }) s
  else s

/-- One context at the port exchange: that of the working port goes to the standby tree's number, whose port it stays with;
the tree's is restored from the slot, or becomes FREE (R291, R295). -/
def State.moveCtx (t : Fin 64) (peer slot : Nat) (s : State) (u : Nat) : State :=
  let s1 := ((((s.wr .PON_TERM_STATE (s.rd .PON_TERM_STATE t u) peer u).wr .PON_TERM_VID (s.rd .PON_TERM_VID t u) peer u).wr
    .PON_TERM_VSSN (s.rd .PON_TERM_VSSN t u) peer u).wr .PON_TERM_EQD (s.rd .PON_TERM_EQD t u) peer u).zeroTerm t u
  if 4 ≤ slot then s1
  else if s1.slotsBad.contains (slot * 256 + u) then
    (((s1.switchLost t).set F.PON_PROT_STATUS_STATUS Status.eparity.code t).faultWrite (receiverQuoin t) 0x19 (slot * 256 + u) .device 1
      Status.eparity.code slot)
  else
    let c := sget {} s1.slots (slot * 256 + u)
    if c.state = tmFREE then s1
    else if c.state = tmRANGING then s1.putCtx t u { c with eqd := 0 }
    else s1.restore t u c

/-- PORT_EXCHANGE: the ports behind the two tree numbers are exchanged and the contexts restored (R291, R295, R296). -/
def execPortExchange (t : Fin 64) (s : State) : Host.Outcome State Fault Refusal :=
  let peer := s.get F.PON_PROT_CTRL_PEER t
  let was := s.get F.PON_PROT_STATUS_PORT t
  let next := s.get F.PON_PROT_STATUS_PORT peer
  if !s.switching t || (s.tr t).swMoved || s.laneState next ≠ lnACTIVE then .next s
  else
    let s0 := s.saveSlot t
    let s1 := (s0.set F.PON_PROT_STATUS_PORT next t).set F.PON_PROT_STATUS_PORT was peer
    let s2 := (s1.set F.PON_PROT_STATUS_STATUS Status.ok.code t).modTree t (fun x =>
      { x with swMoved := true, missRun := [], holdoff := [] })
    let s3 := (range' 0 256).foldl (State.moveCtx t peer (s.get F.PON_PROT_CTRL_SLOT t)) s2
    .next (((s3.laneSettle was).laneSettle next).switchEnd t)

/-- PROT_LANE_TIMEOUT: the standby lane was not ready in time, and the tree stays on its port (R296). -/
def execProtLaneTimeout (t : Fin 64) (s : State) : Host.Outcome State Fault Refusal :=
  let next := s.get F.PON_PROT_STATUS_PORT (s.get F.PON_PROT_CTRL_PEER t)
  if s.switching t && !(s.tr t).swMoved && s.laneState next ≠ lnACTIVE then
    .next ((s.set F.PON_PROT_STATUS_STATE ppFAILED t).set F.PON_PROT_STATUS_STATUS Status.ewake.code t)
  else .next s

/-- RWAIT_EXPIRY: a RESTORED terminal that was not confirmed returns to RANGING (R296). -/
def execRwaitExpiry (t : Fin 64) (u : Fin 256) (s : State) : Host.Outcome State Fault Refusal :=
  if s.switching t && s.termState t u = tmRESTORED then
    .next (((s.putCtx t u { s.lineCtx t u with state := tmRANGING, eqd := 0 }).switchLost t).switchEnd t)
  else .next s

/-! The terminal instructions (R205). -/

/-- The tree and terminal that an operand names. -/
def termOf (a : Word) : Nat × Nat := (a.toNat / 256, a.toNat % 256)

/-- What TMACT, TMDEACT, TMEQD and PLSEND check before their own work: the terminal exists, its tree is present, and the
tree's quoins are awake (R11, R172, R205). -/
def State.onTerm (s : State) (e : Eng) (a : Word) (range : Bool) (k : State → Fin 64 → Nat → Res) : Res :=
  let (t, u) := termOf a
  if t < 64 ∧ s.chip.trees ≤ t then .fail .eabsent s
  else if 64 ≤ t ∨ range then .fail .erange s
  else s.touch e [framerQuoin t, receiverQuoin t] (fun s => k s (Fin.ofNat 64 t) u)

/-- The image TMACT reads (R274): RESTORE, and the context. -/
def ctxImage (ws : List Word) : Bool × LineCtx :=
  let f := fun k hi lo => wbits (nth 0 ws k) hi lo
  (f 0 35 35 = 1, { prof := f 0 34 33, vid := f 0 31 0, vssn := f 1 31 0, pik := f 2 14 0, eqd := f 3 24 0 })

/-- Its reserved bits are 0, and EQD is 0 where RESTORE is. -/
def ctxImageOk (ws : List Word) : Bool :=
  let f := fun k hi lo => wbits (nth 0 ws k) hi lo
  f 0 32 32 = 0 && f 1 35 32 = 0 && f 2 35 15 = 0 && f 3 35 25 = 0 && (f 0 35 35 = 1 || f 3 24 0 = 0)

/-- TMACT: activates a terminal into RANGING, or into RESTORED with its delay in force (R205, R274, R275, R297). -/
def execTmact (e : Eng) (d a b : RegNo) (s : State) : Host.Outcome State Fault Refusal :=
  instr e (.tmact e d a b) [a, b] 14 (fun s =>
    let (t, _) := termOf (s.reg e a)
    if t < 64 ∧ s.chip.trees ≤ t then .fail .eabsent s
    else
      s.image e (s.reg e b) 4 (fun ws =>
        let (restore, c) := ctxImage ws
        let bad := !ctxImageOk ws || wbits (nth 0 (s.tabGet 0x41 (t * 4 + c.prof)) 0) 35 35 = 0 || !s.eqdFits t c.eqd
        s.onTerm e (s.reg e a) bad (fun s t u =>
          if s.termState t u ≠ tmFREE ∨ (s.serialHeld t c.vid c.vssn (some u)).isSome then .fail .estate s
          else if s.switching t ∧ (!restore ∨ s.get F.PON_PROT_CTRL_SLOT t < 4) then .fail .ebusy s
          else
            let s1 := s.modTree t (fun x =>
              { x with pm := sput {} x.pm u {}, missRun := sput 0 x.missRun u 0, holdoff := x.holdoff.filter (fun v => v ≠ u) })
            if !restore then .ok (s1.putCtx t u { c with state := tmRANGING })
            else if s1.switching t then .ok (s1.restore t u c)
            else .ok (s1.putCtx t u { c with state := tmRESTORED })))) s

/-- Every allocation of a terminal loses VALID (R309). -/
def State.withdraw (s : State) (t u : Nat) : State :=
  let lo := tabKey 0x40 (t * 4096)
  { s with dp := { s.dp with tab := s.dp.tab.map (fun e =>
      if lo ≤ e.1 ∧ e.1 < lo + 4096 ∧ entValid e.2 ∧ ef e.2 0 31 24 = u then
        (e.1, setW e.2 0 (BitVec.ofNat 36 (ent e.2 0 % 2 ^ 35)))
      else e) } }

/-- An entry of all zeros is not listed (the canonical form of tables). -/
def State.tabTidy (s : State) : State :=
  { s with dp := { s.dp with tab := s.dp.tab.filter (fun e => e.2.any (fun w => w ≠ 0)) } }

/-- TMDEACT: the terminal becomes FREE; its context is zeroed, its queued messages discarded, its allocations and learned
entries withdrawn (R205, R275, R309, R368). -/
def execTmdeact (e : Eng) (d a b : RegNo) (s : State) : Host.Outcome State Fault Refusal :=
  instr e (.tmdeact e d a b) [a] 10 (fun s =>
    s.onTerm e (s.reg e a) false (fun s t u =>
      if s.termState t u = tmFREE then .fail .estate s
      else if s.switching t then .fail .ebusy s
      else
        let s1 := ((s.zeroTerm t u).withdraw t u).tabTidy
        let s2 := s1.modTree t (fun x =>
          { x with ploamTx := x.ploamTx.filter (fun m => m.1 ≠ u), ploamOwn := x.ploamOwn.filter (fun m => m.1 ≠ u),
                   missRun := sput 0 x.missRun u 0, holdoff := x.holdoff.filter (fun v => v ≠ u) })
        .ok (s2.downFlush (64 + t) (some u)))) s

/-- TMEQD: the delay takes force and the terminal is OPERATING; drift hold-off starts and a queued Ranging_Time goes
(R205, R275, R285). -/
def execTmeqd (e : Eng) (d a b : RegNo) (s : State) : Host.Outcome State Fault Refusal :=
  instr e (.tmeqd e d a b) [a, b] 6 (fun s =>
    let v := (s.reg e b).toNat
    s.onTerm e (s.reg e a) (!s.eqdFits ((s.reg e a).toNat / 256) v) (fun s t u =>
      if s.termState t u = tmFREE then .fail .estate s
      else if s.switching t then .fail .ebusy s
      else
        let s1 := s.set F.PON_TERM_STATE_STATE tmOPERATING t u
        let s2 := ((s1.set F.PON_TERM_STATE_RANGED 0 t u).set F.PON_TERM_STATE_LOSI 0 t u).wr .PON_TERM_EQD (BitVec.ofNat 36 v) t u
        .ok ((s2.dropOwn t u).modTree t (fun x =>
          { x with missRun := sput 0 x.missRun u 0, holdoff := u :: x.holdoff.filter (fun v => v ≠ u) })))) s

/-- Words of a PLOAM image, without and with the integrity code (R243, R280). -/
def ploamWords : Nat := 10
def ploamAllWords : Nat := 12

/-- PLSEND: queues a downstream message of 64 at most (R205, R243, R275, R286, R439). -/
def execPlsend (e : Eng) (d a b : RegNo) (s : State) : Host.Outcome State Fault Refusal :=
  instr e (.plsend e d a b) [a, b] 12 (fun s =>
    let (t, _) := termOf (s.reg e a)
    if t < 64 ∧ s.chip.trees ≤ t then .fail .eabsent s
    else
      s.image e (s.reg e b) ploamWords (fun ws =>
        s.onTerm e (s.reg e a) (ws.any (fun w => wbits w 35 32 ≠ 0)) (fun s t u =>
          if s.termState t u = tmFREE ∨ (s.ploamKey t u).isNone then .fail .estate s
          else if s.switching t then .fail .ebusy s
          else if 64 ≤ (s.tr t).ploamTx.length then .fail .efull s
          else
            let m := (ws.map (fun w => beBytes 4 (wbits w 31 0))).flatten
            .ok (s.modTree t (fun x => { x with ploamTx := x.ploamTx ++ [(u, m)] }))))) s

/-- PLRECV: takes the oldest upstream message (R205, R280). -/
def execPlrecv (e : Eng) (d a b : RegNo) (s : State) : Host.Outcome State Fault Refusal :=
  instr e (.plrecv e d a b) [d, a, b] 10 (fun s =>
    let t := (s.reg e a).toNat
    if t < 64 ∧ s.chip.trees ≤ t then .fail .eabsent s
    else if 64 ≤ t then .fail .erange s
    else
      s.dest e (s.reg e b) 14 (fun x =>
        s.touch e [framerQuoin t, receiverQuoin t] (fun s =>
          let t' := Fin.ofNat 64 t
          match (s.tr t').ploamRx with
          | [] =>
            let (k, s1) := s.fresh
            .ok (s1.putAlu e d { v := Config.freeWord k, z := some true })
          | m :: rest =>
            let s1 := s.modTree t' (fun x => { x with ploamRx := rest })
            let ws := (range' 0 ploamAllWords).map (fun k => BitVec.ofNat 36 (beNat ((m.bytes.drop (4 * k)).take 4)))
            .ok ((s1.storeRange e x (ws ++ [m.w12, m.w13])).putAlu e d { v := BitVec.ofNat 36 m.term, z := some false })))) s

end Sys2Proof.Machine
end

