-- ==== Sys2Proof/Machine/Line.lean ====
section
/-! DEFINITION. The upstream line of a tree: expected bursts, their outcomes, quiet windows, light outside them, loss of
signal, and the optics pulses (R250 to R259, R265 to R267, R277 to R290, R310, R312). -/
namespace Sys2Proof.Machine

/-! Time on the line. -/

/-- The present receiver cycle, counted from the start of the clock: quoins 9 to 16 run at half the clock of quoin 24. -/
def State.rxNow (s : State) : Nat := s.clk.total / 2

/-- Receiver cycles of an upstream frame (R301). -/
def upCycles : Nat := 77760

/-- The upstream frame that the present cycle lies in (R250). -/
def State.upFrame (s : State) (t : Nat) : Nat := (s.rxNow + 10 * upCycles - s.get F.PON_US_CTRL_ORIGIN t) / upCycles

/-- The receiver of the tree handles bursts: the tree is enabled and not in loopback (R259, R260, R527). -/
def State.receives (s : State) (t : Nat) : Bool :=
  s.flag F.PON_TREE_STATUS_ENABLED t && s.get F.PON_DS_CTRL_LBMODE t = 0 && !s.safe

/-- The port that carries a tree (R291, R294). -/
def State.portOf (s : State) (t : Nat) : Nat := s.get F.PON_PROT_STATUS_PORT t

/-- Bits of the TREE record that accumulate (R555). -/
def State.treeAcc (s : State) (t : Nat) (f : TAcc → TAcc) : State := { s with tel := { s.tel with trees := smod {} s.tel.trees t f } }
def State.treeMark (s : State) (t bitNo : Nat) : State := s.treeAcc t (fun a => { a with flags := a.flags ||| BitVec.ofNat 8 (2 ^ bitNo) })

/-! Rogue detection (R288, R289). -/

/-- ROGUE or CONT is set: ONSET, the log, the stream (R289). -/
def State.setRogue (s : State) (t : Nat) (f : Fld) (mark : Nat) : State :=
  if s.flag f t then s.treeMark t mark
  else
    let both := s.flag F.PON_ROGUE_STATUS_ROGUE t || s.flag F.PON_ROGUE_STATUS_CONT t
    let s1 := if both then s else s.set F.PON_ROGUE_STATUS_ONSET (s.clk.frame % 2 ^ 24) t
    let s2 := (s1.set f 1 t).treeMark t mark
    s2.logLimited 3 (s2.rd .PON_ROGUE_STATUS t) (BitVec.ofNat 36 t)

/-- Detection runs on a tree. -/
def State.rogueOn (s : State) (t : Nat) : Bool := s.flag F.PON_ROGUE_CTRL_EN t && !s.switching t

/-- A STRAY event (R259, R289). -/
def State.strayEvent (s : State) (t : Fin 64) : State :=
  let s1 := ((s.set F.PON_TREE_STATUS_STRAY 1 t).inc F.PON_EVT_CNT_STRAYS 1 t).treeMark t 7
  if !s.rogueOn t then s1
  else
    let now := s.upFrame t
    let recent := (now :: (s.tr t).strays).filter (fun f => now < f + s.get F.PON_ROGUE_CTRL_WINDOW t)
    let s2 := s1.modTree t (fun x => { x with strays := recent.take 255 })
    if s.get F.PON_ROGUE_CTRL_THRESH t ≤ recent.length then s2.setRogue t F.PON_ROGUE_STATUS_ROGUE 3 else s2

/-- A cycle lies where light is expected (R259, R278). -/
def Expect.covers (x : Expect) (now : Nat) : Bool :=
  if x.quiet then x.s ≤ now && now ≤ x.e else x.s ≤ now + x.dwin && now ≤ x.e + x.dwin

/-- SD is high outside every expected burst and quiet window: one STRAY event for each high level that is found so. -/
def State.strayCheck (s : State) (t : Fin 64) : State :=
  let x := s.tr t
  if s.receives t && s.flag F.SER_LANE_STATUS_SIGDET (s.portOf t) && !x.strayed && !x.expects.any (fun y => y.covers s.rxNow) then
    (s.modTree t (fun x => { x with strayed := true })).strayEvent t
  else s

/-! Bonding groups (R263 to R266). -/

/-- BONDDEG follows: set by a member's loss or disable, clear once every member is enabled and none is in LOS (R266). -/
def State.bondDegSet (s : State) (t : Nat) : State :=
  let l := s.leaderOf t
  if s.flag F.PON_BOND_CTRL_EN l then
    (s.groupOf l).foldl (fun s k => (s.set F.PON_TREE_STATUS_BONDDEG 1 k).treeMark k 4) s
  else s

def State.bondDegClear (s : State) (t : Nat) : State :=
  let l := s.leaderOf t
  let g := s.groupOf l
  if s.flag F.PON_BOND_CTRL_EN l && g.all (fun k => s.flag F.PON_TREE_STATUS_ENABLED k && !s.flag F.PON_TREE_STATUS_LOS k) then
    g.foldl (fun s k => s.set F.PON_TREE_STATUS_BONDDEG 0 k) s
  else s

/-- The arrival skew of a terminal on a member relative to the earliest member, in receiver cycles (R265): from the offsets
last measured, and the members' ORIGINs. -/
def State.bondSkew (s : State) (t u : Nat) : Nat :=
  let at_ : Nat → Option Int := fun k =>
    (((s.tr (Fin.ofNat 64 k)).offsets.find? (fun e => e.1 = u)).map (fun e => e.2 + 80 * (s.get F.PON_US_CTRL_ORIGIN k : Int)))
  match at_ t with
  | none => 0
  | some mine =>
    let first := ((s.groupOf (s.leaderOf t)).filterMap at_).foldl min mine
    ((mine - first) / 80).toNat

/-- Whether a bonded terminal's data on a member is merged; its skew is noted (R265). -/
def State.noteSkew (s : State) (t : Fin 64) (u : Nat) (offset : Int) : State × Bool :=
  if !s.flag F.PON_BOND_CTRL_EN (s.leaderOf t) then (s, true)
  else
    let s1 := s.modTree t (fun x => { x with offsets := sinsert x.offsets u offset })
    let k := s1.bondSkew t u
    let s2 := s1.modTree t (fun x => { x with skewMax := max x.skewMax (min 8191 k) })
    if 4976 < k then (s2.set F.PON_BOND_SKEW_EXCL 1 t, false) else (s2, true)

/-! Outcomes (R253, R267). -/

/-- An expected burst was MISSING (R253, R273). -/
def State.burstMissed (s : State) (t : Fin 64) (x : Expect) : State :=
  let s1 := ((s.inc F.PON_EVT_CNT_MISSING 1 t).set F.PON_TREE_STATUS_MISS 1 t).treeMark t 5
  let s2 := ((s1.treeAcc t (fun a => { a with missing := a.missing + 1 })).count 0x03 t 0x02).pmBurst t x.term true
  match x.term with
  | none => s2
  | some u =>
    let s3 := (s2.count 0x04 (t * 256 + u) 0x02).count 0x04 (t * 256 + u) 0x03
    let st := s.termState t u
    if st = tmFREE ∨ (st = tmRESTORED ∧ s.switching t) then s3
    else
      let n := sget 0 (s.tr t).missRun u + 1
      let s4 := s3.modTree t (fun y => { y with missRun := sput 0 y.missRun u n })
      if s.get F.PON_RNG_CTRL_LOSIN t ≤ n then s4.set F.PON_TERM_STATE_LOSI 1 t u else s4

/-- What has passed goes: quiet windows that closed, a ranging window with no response counting as MISSING (R281), and bursts
with an outcome whose light may no longer show. -/
def State.closeDue (s : State) (t : Fin 64) : State :=
  let now := s.rxNow
  let xs := (s.tr t).expects
  let gone := xs.filter (fun x => x.quiet && x.e < now && !x.heard && x.term.isSome)
  let s1 := gone.foldl (fun s x => s.burstMissed t x) s
  s1.modTree t (fun y => { y with expects := y.expects.filter (fun x => !((x.quiet || x.heard) && x.e + x.dwin < now)) })

/-- The first expectation without an outcome: the burst, or the quiet window, that the receiver waits for. -/
def Tree.front (x : Tree) : Option (Nat × Expect) := findIdx (fun y => y.quiet || !y.heard) x.expects 0

/-- An expectation replaced. -/
def State.putExpect (s : State) (t : Fin 64) (i : Nat) (x : Expect) : State :=
  s.modTree t (fun y => { y with expects := setNth x y.expects i })

/-- A delimiter ending at an offset from D is found within the search window (R253, R254, R278). -/
def Expect.finds (x : Expect) (offset : Int) : Bool :=
  let at_ : Int := x.d + offset
  if x.quiet then 80 * (x.s : Int) ≤ at_ && at_ ≤ 80 * (x.e : Int)
  else offset.natAbs ≤ 80 * x.dwin && 80 * (x.prevE : Int) ≤ at_

/-! Content (R279, R286, R287, R310, R312, R436 to R440). -/

/-- The message of 48 bytes carries the integrity code of its first 40 under a key. -/
def micOk (key : Option (BitVec 128)) (m : List Byte) : Bool :=
  match key with
  | none => false
  | some k => m.length = 48 && (beBytes 8 (Config.ploamMic k (m.take 40)).toNat = m.drop 40)

/-- The code of a burst's RATE (R247). -/
def rateCode (rate : Nat) : Nat := if rate = 20 then 0 else if rate = 40 then 1 else if rate = 80 then 2 else 3

/-- An upstream PLOAM message: checked, then queued or dropped (R279, R280, R287). disc: it came in a discovery window. -/
def State.takePloam (t : Fin 64) (x : Expect) (b : Burst) (s : State) (m : List Byte) : State :=
  let key := match x.term with | some u => s.ploamKey t u | none => some Config.ploamDefaultKey
  let known := if x.term.isSome then none else s.serialHeld t (b.serial.toNat / 2 ^ 32) (b.serial.toNat % 2 ^ 32) none
  if !micOk key m then
    let s1 := s.inc F.PON_ACT_CNT_MICFAIL 1 t
    match x.term with
    | some u => (s1.set F.PON_TERM_STATE_MICF 1 t u).count 0x04 (t * 256 + u) 0x0C
    | none => s1
  else if 64 ≤ (s.tr t).ploamRx.length then s.inc F.PON_ACT_CNT_PLQDROP 1 t
  else
    let w12 := b2n x.term.isNone * 2 ^ 35 + b2n known.isSome * 2 ^ 34 + rateCode x.rate * 2 ^ 32 + known.getD 0 * 2 ^ 24 + x.frame % 2 ^ 24
    let r : UpPloam := ⟨x.term.getD 0x100, BitVec.ofNat 36 w12, BitVec.ofNat 36 (unsignedOf 26 b.offset), m⟩
    let s1 := s.modTree t (fun y => { y with ploamRx := y.ploamRx ++ [r] })
    if x.term.isNone then s1.inc F.PON_ACT_CNT_DISCRESP 1 t else s1

/-- A status report: word 3 of its allocation, and the queue for the next boundary (R190, R308, R312). -/
def State.takeReport (t : Fin 64) (s : State) (r : BitVec 12 × BitVec 24) : State :=
  let i := t * 4096 + r.1.toNat
  let ws := s.tabGet 0x40 i
  if !entValid ws then s
  else
    let s1 := s.tabPut 0x40 i (setW ws 3 (BitVec.ofNat 36 (2 ^ 35 + r.2.toNat)))
    s1.modTree t (fun x => { x with nextReports := x.nextReports.filter (fun e => e.1 ≠ r.1.toNat) ++ [(r.1.toNat, r.2.toNat)] })

/-- An upstream XGEM frame: its key, its management message, then the packet enters under the number of the tree that leads
the group (R264, R265, R438 to R440). -/
def State.takeFrame (t : Fin 64) (u : Nat) (merged : Bool) (s : State) (x : UpFrame) : State :=
  let k := t * 256 + u
  let s1 := ((s.count 0x03 t 0x08).count 0x04 k 0x06).count 0x04 k 0x07 x.bytes.length
  if !s.upAccepts t u x.keyIndex.toNat then s1.keyErr t u
  else if x.gem.toNat = u ∧ s.flag F.CIP_TERM_KEY_OMCIEN t u ∧ (s.omciKey t u).isNone then s1.keyErr t u
  else if x.gem.toNat = u ∧ s.flag F.CIP_TERM_KEY_OMCIEN t u ∧ x.omci ≠ some true then s1.omciFail t u
  else if !merged then s1
  else s1.receive (s1.pktOf (64 + s.leaderOf t) u x.gem.toNat x.bytes false) 0

/-! BURST_RECEIVED. -/

/-- Drift tracking of an OPERATING terminal (R284). -/
def State.drift (s : State) (t : Fin 64) (u : Nat) (off : Int) : State :=
  if !s.flag F.PON_DRIFT_CTRL_EN t ∨ s.termState t u ≠ tmOPERATING ∨ (s.tr t).holdoff.contains u then s
  else
    let a0 := signed 11 (s.get F.PON_TERM_EQD_AVG t u)
    let a1 := clampInt (-1023) 1023 (a0 + (off - a0).tdiv 16)
    let put := fun (s : State) (a : Int) => s.set F.PON_TERM_EQD_AVG (unsignedOf 11 a) t u
    if a1.natAbs < s.get F.PON_DRIFT_CTRL_THRESH t then put s a1
    else
      let s1 := s.set F.PON_TERM_STATE_DRIFT 1 t u
      let new : Int := (s.get F.PON_TERM_EQD_EQD t u : Int) - a1
      let s2 :=
        if !s.flag F.PON_DRIFT_CTRL_AUTO t then s1
        else if s.eqdFits t new then (s1.set F.PON_TERM_EQD_EQD new.toNat t u).rangingTime t u new.toNat
        else s1.set F.PON_TERM_STATE_REACH 1 t u
      (put s2 0).modTree t (fun x => { x with holdoff := u :: x.holdoff.filter (fun v => v ≠ u) })

/-- A RESTORED terminal is confirmed by its first burst after its Ranging_Time went (R294, R296). -/
def State.confirm (s : State) (t : Fin 64) (u : Nat) (off : Int) : State :=
  if s.termState t u ≠ tmRESTORED ∨ (s.tr t).ploamOwn.any (fun m => m.1 = u) then s
  else
    let s1 := s.set F.PON_TERM_STATE_STATE tmOPERATING t u
    if s.switching t then (s1.modTree t (fun x => { x with swOffsets := x.swOffsets ++ [off] })).switchEnd t else s1

/-- What every received burst does: LOS and LOSI clear, the counts (R253, R259, R273, R541). -/
def State.burstSeen (s : State) (t : Fin 64) (x : Expect) (b : Burst) : State :=
  let s1 := ((s.set F.PON_TREE_STATUS_LOS 0 t).bondDegClear t).treeAcc t (fun a => { a with received := a.received + 1 })
  let s2 := ((s1.count 0x03 t 0x01).count 0x03 t 0x03 b.corrected).count 0x03 t 0x04 b.uncorrectable
  let s3 := if b.headerOk then s2 else s2.count 0x03 t 0x05
  match x.term with
  | none => s3
  | some u =>
    let k := t * 256 + u
    let s4 := ((s3.count 0x04 k 0x01).count 0x04 k 0x04 b.corrected).count 0x04 k 0x05 b.uncorrectable
    (s4.set F.PON_TERM_STATE_LOSI 0 t u).modTree t (fun y => { y with missRun := sput 0 y.missRun u 0 })

/-- A burst counts as granted, errored or not (R267, R541). -/
def State.burstJudged (s : State) (t : Fin 64) (x : Expect) (b : Burst) : State :=
  let errored := !b.headerOk || 0 < b.uncorrectable || (!x.fec && !b.trailerOk) || (b.headerOk && x.term ≠ some b.onuId.toNat)
  let s1 := s.pmBurst t x.term errored
  match x.term with
  | some u => if errored then s1.count 0x04 (t * 256 + u) 0x03 else s1
  | none => s1

/-- The measurement of a ranging window (R281). -/
def State.measureRange (s : State) (t : Fin 64) (u : Nat) (off : Int) : State :=
  if s.termState t u ≠ tmRANGING then s
  else if s.eqdFits t (-off) then (s.set F.PON_TERM_EQD_EQD (-off).toNat t u).set F.PON_TERM_STATE_RANGED 1 t u
  else s.set F.PON_TERM_STATE_REACH 1 t u

/-- A burst in a quiet window (R278 to R281). -/
def State.quietBurst (s : State) (t : Fin 64) (i : Nat) (x : Expect) (b : Burst) : State :=
  let s1 := (s.putExpect t i { x with heard := true }).burstSeen t x b
  let s2 := if x.term.isSome ∧ !x.heard then s1.burstJudged t x b else s1
  let s3 := match x.term with | some u => s2.measureRange t u b.offset | none => s2
  if b.headerOk then b.ploams.foldl (State.takePloam t x b) s3 else s3.inc F.PON_ACT_CNT_DISCCOLL 1 t

/-- A burst of a grant (R253, R310, R312). -/
def State.grantBurst (s : State) (t : Fin 64) (i : Nat) (x : Expect) (b : Burst) : State :=
  let u := x.term.getD 0
  let s1 := ((s.putExpect t i { x with heard := true }).burstSeen t x b).burstJudged t x b
  let s2 := if b.headerOk ∧ b.onuId.toNat ≠ u then s1.strayEvent t else s1
  let s3 := (s2.drift t u b.offset).confirm t u b.offset
  let (s4, merged) := s3.noteSkew t u b.offset
  if b.headerOk then
    let s5 := b.ploams.foldl (State.takePloam t x b) s4
    let s6 := b.reports.foldl (State.takeReport t) s5
    b.frames.foldl (State.takeFrame t u merged) s6
  else s4

/-- A burst found between expected ones names the SUSPECT (R289). -/
def State.foundBetween (s : State) (t : Fin 64) (b : Burst) : State :=
  if s.rogueOn t && b.headerOk && b.onuId.toNat < 256 then
    (s.set F.PON_ROGUE_STATUS_SUSPECT b.onuId.toNat t).set F.PON_ROGUE_STATUS_SUSPV 1 t
  else s

/-- BURST_RECEIVED: a delimiter is found and the burst's content decoded (R253). -/
def execBurstReceived (t : Fin 64) (b : Burst) (s : State) : Host.Outcome State Fault Refusal :=
  if !s.receives t then .next s
  else
    let s1 := (s.closeDue t).strayCheck t
    match (s1.tr t).front with
    | some (i, x) =>
      if x.finds b.offset then .next (if x.quiet then s1.quietBurst t i x b else s1.grantBurst t i x b)
      else .next (s1.foundBetween t b)
    | none => .next (s1.foundBetween t b)

/-- BURST_MISSING: no delimiter is found, or a quiet window closes (R253, R281). -/
def execBurstMissing (t : Fin 64) (s : State) : Host.Outcome State Fault Refusal :=
  if !s.receives t then .next s
  else
    let s1 := (s.closeDue t).strayCheck t
    match (s1.tr t).front with
    | none => .next s1
    | some (i, x) =>
      if x.quiet then
        let s2 := s1.modTree t (fun y => { y with expects := y.expects.eraseIdx i })
        .next (if x.heard ∨ x.term.isNone then s2 else s2.burstMissed t x)
      else .next ((s1.putExpect t i { x with heard := true }).burstMissed t x)

/-- DRIFT_HOLDOFF_END: averaging resumes (R284). -/
def execDriftHoldoffEnd (t : Fin 64) (u : Fin 256) (s : State) : Host.Outcome State Fault Refusal :=
  .next (s.modTree t (fun x => { x with holdoff := x.holdoff.filter (fun v => v ≠ u.val) }))

/-! Light and loss of signal. -/

/-- SD_CHANGE: SD of the tree's port counts a new level (R259, R472). -/
def execSdChange (t : Fin 64) (level : Bool) (s : State) : Host.Outcome State Fault Refusal :=
  let s1 := s.set F.SER_LANE_STATUS_SIGDET (b2n level) (s.portOf t)
  let s2 := s1.modTree t (fun x => { x with strayed := false })
  .next ((s2.closeDue t).strayCheck t)

/-- CONT: light for a whole upstream frame (R289). -/
def execCont (t : Fin 64) (s : State) : Host.Outcome State Fault Refusal :=
  if s.receives t && s.rogueOn t && s.flag F.SER_LANE_STATUS_SIGDET (s.portOf t) then
    .next (s.setRogue t F.PON_ROGUE_STATUS_CONT 2)
  else .next s

/-- LOS: FRAMES dark upstream frames. A group runs degraded, and a pair with AUTO switches over (R259, R266, R296). -/
def execLos (t : Fin 64) (s : State) : Host.Outcome State Fault Refusal :=
  if !s.receives t || s.flag F.PON_TREE_STATUS_LOS t then .next s
  else
    let s1 := ((s.strayCheck t).set F.PON_TREE_STATUS_LOS 1 t).bondDegSet t
    let s2 := s1.modPm t pmTREE (fun p => { p with los := true })
    if s.flag F.PON_PROT_CTRL_EN t && s.flag F.PON_PROT_CTRL_AUTO t && !s.switching t then .next (s2.switchStart t) else .next s2

/-! Optics pulses (R256, R258). -/

/-- BURST_RST: the pulse before the next burst that opens a window, whole, truncated or skipped (R256). -/
def execBurstRst (t : Fin 64) (s : State) : Host.Outcome State Fault Refusal :=
  if !s.receives t then .next s
  else
    match findIdx (fun y => !y.pulsed) (s.tr t).expects 0 with
    | none => .next s
    | some (i, x) =>
      let o := (s.tr t).opt
      let lead := fv o F.PON_OPT_CTRL_LEAD
      let start := max (x.s - lead) (x.prevE + fv o F.PON_OPT_CTRL_HOLD)
      let stop := x.s - lead + fv o F.PON_OPT_CTRL_WIDTH
      let s1 := s.putExpect t i { x with pulsed := true }
      if start + fv o F.PON_OPT_CTRL_MINW ≤ stop then .next (s1.emit (.burstRst (s.portOf t) start stop))
      else .next (((s1.set F.PON_TREE_STATUS_SKIP 1 t).inc F.PON_EVT_CNT_SKIPPED 1 t).treeMark t 6)

/-- RSSI_TRIG: the armed pulse, at its offset in the burst (R258). -/
def execRssiTrig (t : Fin 64) (s : State) : Host.Outcome State Fault Refusal :=
  if !s.receives t then .next s
  else
    match findIdx (fun y => y.rssi.isSome) (s.tr t).expects 0 with
    | none => .next s
    | some (i, x) =>
      let s1 := s.putExpect t i { x with rssi := none }
      .next (s1.emit (.rssiTrig (s.portOf t) (x.rssi.getD 0) (s.get F.PON_RSSI_CTRL_WIDTH t)))

end Sys2Proof.Machine
end

