-- ==== Sys2Proof/Machine/Frames.lean ====
section
/-! DEFINITION. Downstream frames: the map each carries, what the receiver expects of it, PLOAM messages, and the start and
end of a map engine's frame (R210 to R215, R242 to R252, R260, R286, R300 to R305, R309 to R314, R317 to R321). -/
namespace Sys2Proof.Machine

/-! The map that is sent (R213, R300, R309, R310, R314, R319). -/

/-- The structures that go: one whose allocation is not valid is omitted, with the continuations after it (R309). gone: the
structure before was omitted. -/
def State.sendable (s : State) (t : Nat) : Bool → List (Nat × Grant) → List (Nat × Grant)
  | _, [] => []
  | gone, (i, g) :: gs =>
    let bad := g.quiet.isNone && (!entValid (s.tabGet 0x40 (t * 4096 + g.alloc)) || (g.start = startCONT && gone))
    if bad then s.sendable t true gs else (i, g) :: s.sendable t false gs

/-- A structure on the line (R300). -/
def State.mapStruct (s : State) (t : Nat) (g : Grant) : BitVec 64 :=
  let id := match g.quiet with | some u => u | none => ef (s.tabGet 0x40 (t * 4096 + g.alloc)) 0 13 0
  let size := if g.quiet.isSome then 0 else Config.grantSize (s.flag F.PON_DS_CTRL_MODE t) g.size g.dbru g.ploamu
  let hi := id % 2 ^ 14 * 2 ^ 37 + b2n g.dbru * 2 ^ 36 + b2n g.ploamu * 2 ^ 35 + g.start % 2 ^ 16 * 2 ^ 19 + size.toNat * 2 ^ 3
    + b2n g.fwi * 2 ^ 2 + g.profile % 4
  BitVec.ofNat 64 (hi * 2 ^ 13 + (Config.mapHec (BitVec.ofNat 51 hi)).toNat)

/-- Structures gathered into bursts: a first structure and its continuations (R303). -/
def gather : List (Nat × Grant) → List (List (Nat × Grant))
  | [] => []
  | g :: gs =>
    match gather gs with
    | [] => [[g]]
    | b :: bs =>
      match b with
      | (_, h) :: _ => if h.start = startCONT then (g :: b) :: bs else [g] :: b :: bs
      | [] => [g] :: bs

/-! What the receiver expects (R249 to R252, R258). -/

/-- The receiver cycle at which the upstream frame of a map sent now begins (R250). -/
def State.upBase (s : State) (t : Nat) : Nat := s.rxNow + s.get F.PON_US_CTRL_ORIGIN t

/-- A burst of granted structures is expected, under the profiles copied at the boundary before (R249, R251). -/
def State.expectBurst (t : Fin 64) (s : State) (gs : List (Nat × Grant)) : State :=
  match gs with
  | [] => s
  | (_, g) :: _ =>
    let x := s.tr t
    let prof := nth [] x.profiles g.profile
    if !profValid prof then s.inc F.PON_EVT_CNT_BADPROF gs.length t
    else
      let start := s.upBase t + 2 * g.start
      let term := ef (s.tabGet 0x40 (t * 4096 + g.alloc)) 0 31 24
      let e := burstE prof (s.flag F.PON_DS_CTRL_MODE t) start (gs.map (fun h => h.2))
      let rssi := match x.arm with
        | some (i, a) => if gs.any (fun h => h.1 = i) then some (start + a) else none
        | none => none
      let ex : Expect := { s := start, d := burstD prof start, e, dwin := s.get F.PON_US_CTRL_DWIN t, prevE := x.lastE,
                           rate := rateBits (profRate prof), fec := profFec prof, term := some term, frame := s.clk.frame, rssi }
      let s1 := s.modTree t (fun x => { x with expects := x.expects ++ [ex], lastE := e })
      ((s1.treeAcc t (fun a => { a with expected := a.expected + 1 })).count 0x03 t 0x00).count 0x04 (t * 256 + term) 0x00

/-- The quiet window of a committed map opens (R278, R313). -/
def State.expectWindow (t : Fin 64) (s : State) (w : Window) : State :=
  let x := s.tr t
  let prof := nth [] x.profiles w.profile
  if !profValid prof then s.inc F.PON_EVT_CNT_BADPROF 1 t
  else
    let base := s.upBase t
    let st := base + 2 * w.s
    let e := base + w.w + w.len
    let n := x.build.length
    let rssi := match x.arm with
      | some (i, a) =>
        (match x.build[i]? with | some g => if g.quiet.isSome && i < n then some (st + a) else none | none => none)
      | none => none
    let ex : Expect := { s := base + w.w, d := burstD prof st, e, dwin := 0, prevE := x.lastE, rate := rateBits (profRate prof),
                         fec := profFec prof, term := w.term, quiet := true, frame := s.clk.frame + w.s / 38880, rssi }
    let s1 := s.modTree t (fun x => { x with expects := x.expects ++ [ex], lastE := e })
    match w.term with
    | none => s1
    | some u =>
      ((s1.treeAcc t (fun a => { a with expected := a.expected + 1 })).count 0x03 t 0x00).count 0x04 (t * 256 + u) 0x00

/-- The bursts and the window of a map, in the order of its structures. -/
def State.expectMap (t : Fin 64) (w : Option Window) (s : State) (bursts : List (List (Nat × Grant))) : State :=
  let one := fun (s : State) (b : List (Nat × Grant)) =>
    match b with
    | (_, g) :: _ => if g.quiet.isSome then s else s.expectBurst t b
    | [] => s
  match w with
  | none => bursts.foldl one s
  | some x =>
    let early := fun (b : List (Nat × Grant)) => match b with | (i, _) :: _ => decide (i < x.after) | [] => true
    (bursts.filter (fun b => !early b)).foldl one (((bursts.filter early).foldl one s).expectWindow t x)

/-! PLOAM messages (R243, R286, R439). -/

/-- A message as it goes: numbered, and with its integrity code; none where the key has become unusable. -/
def State.sealPloam (s : State) (t : Fin 64) (m : Nat × List Byte) : State × Option (List Byte) :=
  match s.ploamKey t m.1 with
  | none => (s.keyErr t m.1, none)
  | some k =>
    let n := sget 0 (s.tr t).ploamSeq m.1
    let bs := Config.ploamNumbered m.2 n
    (s.modTree t (fun x => { x with ploamSeq := sput 0 x.ploamSeq m.1 ((n + 1) % 256) }), some (bs ++ beBytes 8 (Config.ploamMic k bs).toNat))

/-- Up to n messages of a queue: the state, those sent, and what is left. -/
def State.takePloams (t : Fin 64) : Nat → List (Nat × List Byte) → State → State × List (List Byte) × List (Nat × List Byte)
  | _, [], s => (s, [], [])
  | 0, q, s => (s, [], q)
  | n + 1, m :: q, s =>
    match s.sealPloam t m with
    | (s1, none) => State.takePloams t (n + 1) q s1
    | (s1, some bs) =>
      let (s2, sent, left) := State.takePloams t n q s1
      (s2, bs :: sent, left)

/-- The messages of a frame: the device's own first, four at most. -/
def State.framePloams (s : State) (t : Fin 64) : State × List (List Byte) :=
  let (s1, own, left) := State.takePloams t 4 (s.tr t).ploamOwn s
  let (s2, sent, left') := State.takePloams t (4 - own.length) (s.tr t).ploamTx s1
  (s2.modTree t (fun x => { x with ploamOwn := left, ploamTx := left' }), own ++ sent)

/-! The frame. -/

/-- The framer of a tree makes frames: it is enabled, or in loopback (R255, R260). -/
def State.frames (s : State) (t : Nat) : Bool :=
  (s.flag F.PON_TREE_STATUS_ENABLED t || s.get F.PON_DS_CTRL_LBMODE t ≠ 0) && !s.safe

/-- A tree launches its frame at a boundary (R213, R242 to R244, R255, R260, R319, R320). -/
def State.sendFrame (s : State) (t : Fin 64) : State :=
  let on := s.flag F.PON_TREE_STATUS_ENABLED t
  let x := s.tr t
  let committed := if on then x.committed else none
  let own := committed.getD x.fallback
  let held := match x.held with | some (0, g) => if on then [g] else [] | _ => []
  let all := own.mapIdx (fun i g => (i, g))
  let kept := s.sendable t false all
  let s1 := s.inc F.MAP_LINE_CNT_OMIT (all.length - kept.length) t
  let s2 := if committed.isNone then (s1.inc F.MAP_LINE_CNT_FBSENT 1 t).treeMark t 0 else s1
  let s3 := if s2.receives t then s2.expectMap t (if committed.isSome then x.window else none) (gather kept) else s2
  let map := (held ++ kept.map (fun h => h.2)).map (s.mapStruct t)
  let (s4, ms) := if on then s3.framePloams t else (s3, [])
  let s5 := s4.count 0x03 t 0x06
  if on ∨ s.get F.PON_DS_CTRL_LBMODE t = 2 then
    s5.emit (.treeFrame (s.portOf t) t s.clk.frame (s.get F.PON_DS_PONID_PONID t) map ms)
  else s5

/-! The map engine's frame (R211 to R215). -/

/-- The deadline trap (R215). -/
def State.deadlineTrap (s : State) (t : Fin 64) : State :=
  ((s.saveTrap (.map t) 4 0 (s.map.get t).pc).mapTrap t 4 0).dropMap t

/-- DEADLINE: a program still running at cycle 143,079 is stopped and its map discarded (R215). -/
def execDeadline (t : Fin 64) (s : State) : Host.Outcome State Fault Refusal :=
  if s.engRuns (.map t) then .next (s.deadlineTrap t) else .next s

/-- An ENGCTL halt of a map engine waits for the end of the frame (R202). -/
def State.haltPending (s : State) (t : Nat) : Bool :=
  let w := fun (en : Engine) => match en.stall with | .halt k => k = t | _ => false
  w (s.cmd.get 0) || w (s.cmd.get 1) || w s.plinth

/-- A map engine begins its frame: a start takes effect, and the program of an enabled tree stands at its entry word with
its registers and flags at zero (R170, R202, R211, R213). -/
def State.frameEntry (s : State) (t : Fin 64) : State :=
  let st := s.get F.MAP_ENG_STATUS_STATE t
  let s1 := if st = engSTARTING then s.set F.MAP_ENG_STATUS_STATE engSTARTED t else s
  let go := (st = engSTARTING || st = engSTARTED) && s.flag F.PON_TREE_STATUS_ENABLED t && !s.haltPending t && !s.safe
  let en := s1.map.get t
  s1.setEng (.map t) { en with
    w := if go then Vector.replicate 32 0 else en.w, fz := !go && en.fz, fn := !go && en.fn, fc := !go && en.fc, fv := !go && en.fv,
    pc := if go then s1.get F.MAP_ENG_STATUS_ENTRY t else en.pc, run := go, cyc := 0, stall := .none }

/-- The end of a tree's frame and the beginning of the next, after the clock has moved on: the map goes, the report queue is
replaced, the profiles are copied, and the engine begins (R212 to R214, R249, R256, R312 to R314, R317). -/
def State.treeBoundary (s : State) (t : Fin 64) : State :=
  let s0 := if s.engRuns (.map t) then s.deadlineTrap t else s
  let s1 := if (s0.tr t).trunc then s0.treeMark t 1 else s0
  let s2 := match (s1.tr t).nextFallback with
    | some m => (s1.modTree t (fun x => { x with fallback := m, nextFallback := none })).set F.MAP_FB_INFO_COUNT m.length t
    | none => s1
  let s3 := (if s2.frames t then s2.sendFrame t else s2).saveSlot t
  let s4 := s3.set F.PON_BOND_SKEW_MAXSKEW (s3.tr t).skewMax t
  let s5 := s4.modTree t (fun x =>
    { x with build := [], window := none, arm := none, trunc := false, missed := x.committed.isNone, committed := none
             held := match x.held with | some (k + 1, g) => some (k, g) | _ => none
             reports := x.nextReports, nextReports := []
             profiles := (range' 0 4).map (fun p => s4.tabGet 0x41 (t * 4 + p)), opt := s4.rd .PON_OPT_CTRL t, skewMax := 0 })
  ((s5.closeDue t).strayCheck t).frameEntry t

/-- AGE of every valid allocation entry advances (R312). -/
def State.ageAllocs (s : State) : State :=
  let lo := tabKey 0x40 0
  { s with dp := { s.dp with tab := s.dp.tab.map (fun e =>
      if lo ≤ e.1 ∧ e.1 < lo + 2 ^ 22 ∧ entValid e.2 then
        let w := nth 0 e.2 3
        (e.1, setW e.2 3 (wput w 34 24 (min 2047 (wbits w 34 24 + 1))))
      else e) } }

end Sys2Proof.Machine
end

