-- ==== Sys2Proof/Machine/TreeRegs.lean ====
section
/-! DEFINITION. Writes of the tree windows, and the alignment machine in loopback (R237 to R241, R250, R256 to R263, R277,
R282, R284, R288, R292 to R294). -/
namespace Sys2Proof.Machine

/-! The alignment machine (R260 to R262). -/

/-- STATE of the machine. -/
def alOFF : Nat := 0
def alHUNT : Nat := 1
def alPRESYNC : Nat := 2
def alSYNC : Nat := 3

/-- Bits of a downstream frame (R242). -/
def State.frameBits (s : State) (t : Nat) : Nat := if s.flag F.PON_DS_CTRL_MODE t then 6220800 else 1244160

/-- Upstream and loopback codewords counted in SYNC: what the line does to them is free. -/
def State.loopCodewords (s : State) (t : Nat) : State :=
  let (j, s1) := s.fresh
  let (k, s2) := s1.fresh
  (s2.count 0x03 t 0x03 (Config.freeNat j)).count 0x03 t 0x04 (Config.freeNat k)

/-- The machine at a position: the pattern's bit errors and the superframe counter that follows (R261). -/
def State.alignCheck (s : State) (t : Fin 64) (pos errs count : Nat) : State :=
  let x := s.tr t
  let st := s.get F.PON_ALIGN_STATUS_STATE t
  let ok := errs ≤ s.get F.PON_ALIGN_CTRL_TOL t && count = x.count + 1
  if st = alHUNT then
    if errs = 0 then
      (s.set F.PON_ALIGN_STATUS_STATE alPRESYNC t).modTree t (fun x => { x with cand := pos, conf := 0, count })
    else s
  else if pos ≠ x.cand + s.frameBits t then s
  else if st = alPRESYNC then
    if !ok then (s.inc F.PON_ALIGN_STATUS_REJECT 1 t).set F.PON_ALIGN_STATUS_STATE alHUNT t
    else
      let s1 := s.modTree t (fun x => { x with cand := pos, conf := x.conf + 1, count })
      if x.conf + 1 = 2 then (s1.set F.PON_ALIGN_STATUS_STATE alSYNC t).set F.PON_ALIGN_STATUS_MISSES 0 t else s1
  else if st = alSYNC then
    let s1 := (s.modTree t (fun x => { x with cand := pos, count := x.count + 1 })).loopCodewords t
    let n := if ok then 0 else s.get F.PON_ALIGN_STATUS_MISSES t + 1
    if n = 4 then
      (((s1.set F.PON_TREE_STATUS_LOF 1 t).inc F.PON_ALIGN_STATUS_LOFCNT 1 t).set F.PON_ALIGN_STATUS_STATE alHUNT t).set
        F.PON_ALIGN_STATUS_MISSES 0 t
    else s1.set F.PON_ALIGN_STATUS_MISSES n t
  else s

/-- ALIGN_CHECK (R261). -/
def execAlignCheck (t : Fin 64) (pos errs count : Nat) (s : State) : Host.Outcome State Fault Refusal :=
  .next (s.alignCheck t pos errs count)

/-! Register writes. -/

/-- The first status of a list of conditions, in the order of R172. -/
def judge (absent range state : Bool) (k : WriteRes) : WriteRes :=
  if absent then .reject .eabsent else if range then .reject .erange else if state then .reject .estate else k

/-- A tree is the working tree or the standby of a pair with EN at 1, other than the pair of one tree (R292). -/
def State.inProtPair (s : State) (t : Nat) (but : Option Nat) : Bool :=
  (range' 0 64).any (fun w => some w ≠ but && s.flag F.PON_PROT_CTRL_EN w && (w = t || s.get F.PON_PROT_CTRL_PEER w = t))

/-- A tree belongs to a formed bonding group. -/
def State.inGroup (s : State) (t : Nat) : Bool := s.flag F.PON_BOND_CTRL_EN t || (s.bondMember t).isSome

/-- A write of PON_DS_CTRL: mode and loopback (R238, R239, R260, R292). -/
def State.dsCtrlWrite (s : State) (r : Reg) (v : Word) : WriteRes :=
  let t := r.i
  let t' := Fin.ofNat 64 t
  let mode := fv v F.PON_DS_CTRL_MODE
  let lb := fv v F.PON_DS_CTRL_LBMODE
  let change := mode ≠ s.get F.PON_DS_CTRL_MODE t
  let on := s.flag F.PON_TREE_STATUS_ENABLED t
  judge (mode = 1 && !s.chip.pon50) (lb = 3)
    ((change && (on || s.inGroup t || s.inProtPair t none)) || (lb ≠ 0 && on && s.get F.MAP_ENG_STATUS_STATE t = engSTARTED))
    (let was := s.get F.PON_DS_CTRL_LBMODE t
     let s1 := s.plainWrite r v
     let s2 := if change then (range' 0 4).foldl (fun s p =>
         let ws := s.tabGet 0x41 (t * 4 + p)
         s.tabPut 0x41 (t * 4 + p) (setW ws 0 (BitVec.ofNat 36 (ent ws 0 % 2 ^ 35)))) s1 else s1
     let s3 :=
       if lb ≠ 0 ∧ was = 0 then
         (s2.set F.PON_ALIGN_STATUS_STATE alHUNT t).modTree t' (fun x => { x with expects := [], cand := 0, conf := 0, count := 0 })
       else if lb = 0 then (s2.set F.PON_ALIGN_STATUS_STATE alOFF t).set F.PON_ALIGN_STATUS_MISSES 0 t
       else s2
     .done (s3.laneSettle (s.portOf t)))

/-- A write of PON_BOND_CTRL (R263). -/
def State.bondCtrlWrite (s : State) (r : Reg) (v : Word) : WriteRes :=
  let t := r.i
  let en := fv v F.PON_BOND_CTRL_EN = 1
  let mask := fv v F.PON_BOND_CTRL_MASK
  let was := s.flag F.PON_BOND_CTRL_EN t
  let oct := t / 8 * 8
  let of_ := fun m => (range' oct 8).filter (fun k => bit m (k % 8))
  let members := of_ mask
  let old := s.groupOf t
  let forming := en && !was
  let n := members.length
  let change := en ≠ was || mask ≠ s.get F.PON_BOND_CTRL_MASK t
  judge (forming && members.any (fun k => s.chip.trees ≤ k))
    (en && (n < 2 || 4 < n || !bit mask (t % 8) || lowestBit 8 mask < t % 8
      || members.any (fun k => s.get F.PON_DS_CTRL_MODE k ≠ s.get F.PON_DS_CTRL_MODE t
        || (k ≠ t && s.flag F.PON_BOND_CTRL_EN k) || (match s.bondMember k with | some l => l ≠ t | none => false))))
    ((s.bondMember t).isSome
      || (change && (en || was) && (members ++ (if was then old else [])).any (fun k => s.flag F.PON_TREE_STATUS_ENABLED k)))
    (let s1 := s.plainWrite r v
     let s2 := if was && !en then old.foldl (fun s k => s.set F.PON_TREE_STATUS_BONDDEG 0 k) s1 else s1
     .done (members.foldl (fun s k => s.modTree (Fin.ofNat 64 k) (fun x => { x with offsets := [] })) s2))

/-- A write of PON_PROT_CTRL: the pair, SWITCH and DONE (R292, R294, R296, R297). -/
def State.protWrite (s : State) (r : Reg) (v0 : Word) : WriteRes :=
  let v := atLeast1 v0 F.PON_PROT_CTRL_RWAIT
  let t := r.i
  let t' := Fin.ofNat 64 t
  let en := fv v F.PON_PROT_CTRL_EN = 1
  let was := s.flag F.PON_PROT_CTRL_EN t
  let peer := fv v F.PON_PROT_CTRL_PEER
  let slot := fv v F.PON_PROT_CTRL_SLOT
  let switch := fv v F.PON_PROT_CTRL_SWITCH = 1
  let forming := en && !was
  judge (forming && s.chip.trees ≤ peer)
    (4 < slot || (forming && (peer = t || peer / 8 ≠ t / 8 || s.get F.PON_DS_CTRL_MODE peer ≠ s.get F.PON_DS_CTRL_MODE t
      || s.inGroup t || s.inGroup peer || s.inProtPair t none || s.inProtPair peer none
      || (slot < 4 && (range' 0 64).any (fun w => w ≠ t && s.flag F.PON_PROT_CTRL_EN w && s.get F.PON_PROT_CTRL_SLOT w = slot)))))
    ((forming && s.flag F.PON_TREE_STATUS_ENABLED peer)
      || (was && (peer ≠ s.get F.PON_PROT_CTRL_PEER t || slot ≠ s.get F.PON_PROT_CTRL_SLOT t))
      || (s.switching t && (!en || switch)) || (switch && !en))
    (let s1 := s.plainWrite r v
     let s2 :=
       if forming then s1.set F.PON_PROT_STATUS_STATE ppARMED t
       else if was && !en then s1.set F.PON_PROT_STATUS_STATE ppOFF t else s1
     let s3 := s2.laneSettle (s.portOf peer)
     let s4 := if switch then s3.switchStart t' else s3
     if fv v F.PON_PROT_CTRL_DONE = 1 then .done ((s4.modTree t' (fun x => { x with swDone := true })).switchEnd t') else .done s4)

/-- A write of a tree's window. -/
def State.ponWrite (s : State) (r : Reg) (v : Word) : WriteRes :=
  let plain : Word → WriteRes := fun w => .done (s.plainWrite r w)
  match r.id with
  | .PON_DS_CTRL => s.dsCtrlWrite r v
  | .PON_US_CTRL =>
    let w := atLeast1 v F.PON_US_CTRL_DWIN
    .done ((s.plainWrite r w).set F.PON_RNG_LIMIT_EQDLIM (eqdLimit (fv w F.PON_US_CTRL_ORIGIN)) r.i)
  | .PON_OPT_CTRL =>
    let lead := fv v F.PON_OPT_CTRL_LEAD
    let width := fv v F.PON_OPT_CTRL_WIDTH
    let minw := fv v F.PON_OPT_CTRL_MINW
    judge false (lead = 0 || width = 0 || lead < width || minw = 0 || width < minw) false (plain v)
  | .PON_RSSI_CTRL => judge false (fv v F.PON_RSSI_CTRL_WIDTH = 0) false (plain v)
  | .PON_LOS_CTRL => plain (atLeast1 v F.PON_LOS_CTRL_FRAMES)
  | .PON_ALIGN_CTRL => judge false (4 < fv v F.PON_ALIGN_CTRL_TOL) false (plain v)
  | .PON_BOND_CTRL => s.bondCtrlWrite r v
  | .PON_PM_CTRL => s.pmCtrlWrite r v
  | .PON_PM_SEL => s.pmSelWrite r v
  | .PON_RNG_CTRL => judge false (311039 < fv v F.PON_RNG_CTRL_PRE) false (plain (atLeast1 v F.PON_RNG_CTRL_LOSIN))
  | .PON_DRIFT_CTRL =>
    judge false (1023 < fv v F.PON_DRIFT_CTRL_THRESH) false (plain (atLeast1 (atLeast1 v F.PON_DRIFT_CTRL_HOLDOFF) F.PON_DRIFT_CTRL_THRESH))
  | .PON_ROGUE_CTRL => plain (atLeast1 (atLeast1 v F.PON_ROGUE_CTRL_WINDOW) F.PON_ROGUE_CTRL_THRESH)
  | .PON_PROT_CTRL => s.protWrite r v
  | _ => plain v

end Sys2Proof.Machine
end

