-- ==== Sys2Proof/Machine/Gov.lean ====
section
/-! DEFINITION. The energy governor: what it weighs and publishes at a frame boundary, the movement of VDD_CORE, the
throttle and the thermal level (R37 to R41, R94, R501 to R510). -/
namespace Sys2Proof.Machine

/-- F(l), the capacity fraction of a level in hundredths (R84). -/
def plFraction (l : Nat) : Nat := nth 100 [38, 46, 55, 64, 73, 82, 91, 100] l

/-- The level VDD_CORE has been asked for last: the one it moves to, or the one in force. -/
def State.askedLevel (s : State) : Nat := s.pwr.moving.getD (s.get F.PWR_GOV_STATUS_LEVEL)

/-- C(l), the capacity estimated at a level from the capacity measured at cur (R505). -/
def capAt (capacity cur l : Nat) : Nat := capacity * plFraction l / plFraction cur

/-- The sum of FIXED and ASSURED over every valid allocation of every enabled tree, in words per frame (R311). -/
def State.committedWords (s : State) : Nat :=
  ((s.tabAll 0x40).filter (fun e => entValid e.2 && s.flag F.PON_TREE_STATUS_ENABLED (e.1 / 4096))).foldl
    (fun a e => a + ef e.2 1 35 18 + ef e.2 1 17 0) 0

/-- The downstream part of the committed load, CDS, in packets per frame (R504). -/
def State.loadDown (s : State) : Nat := ceilDiv s.commitDs (64 * s.get F.PWR_GOV_CTRL_CPKT)

/-- The committed load in packets per frame (R504). -/
def State.load (s : State) : Nat := ceilDiv (4 * s.committedWords) (s.get F.PWR_GOV_CTRL_CPKT) + s.loadDown

/-- LC: the lowest level whose capacity covers a load, or 8 (R506). -/
def levelFor (capacity cur load : Nat) : Nat :=
  match (range' 0 8).find? (fun l => load ≤ capAt capacity cur l) with
  | some l => l
  | none => 8

/-- LD: the lowest level that covers DEMAND with its headroom, or 7 (R506). -/
def levelDemand (capacity cur demand head : Nat) : Nat :=
  match (range' 0 8).find? (fun l => demand * (256 + head) ≤ capAt capacity cur l * 256) with
  | some l => l
  | none => 7

/-- LB: the lower of MAXLVL and the highest level whose power the budget covers, or 0 (R506). -/
def State.levelBudget (s : State) : Nat :=
  let fits := (range' 0 8).filter (fun l => s.get F.PWR_PEST_PEST l ≤ 10 * s.get F.PWR_BUDGET_WATTS)
  min (s.get F.PWR_GOV_CTRL_MAXLVL) (fits.foldl max 0)

/-- The energy published: the debt carried forward and EBUDGET. Units of 2^-8 mJ: WATTS / 8 mJ is 32 WATTS, and
PEST × 0.0125 mJ is 16 PEST / 5 (R508). -/
def State.publishEnergy (s : State) : State :=
  let credit := s.get F.PWR_BUDGET_WATTS * 32
  let e := s.get F.PWR_PEST_PEST s.pwr.frameLevel * 16 / 5
  let debt := min credit (s.pwr.debt + e - credit)
  { s.set F.PWR_COMMIT_EBUDGET ((credit - debt) / 256) with pwr := { s.pwr with debt := debt } }

/-- DEMAND: the largest count of completed packets of the last eight frames (R501). -/
def State.publishDemand (s : State) : State :=
  let d := (s.pwr.completed :: s.pwr.demand).take 8
  let s1 := { s with pwr := { s.pwr with demand := d, completed := 0 } }
  s1.set F.PWR_DEMAND_DEMAND (min (2 ^ 21 - 1) (d.foldl max 0))

/-- RING: the monitor's completions of the frame that ended. The manual fixes no count, so it is a free value; the monitor
runs while the mortar core is powered (R505). -/
def State.countRing (s : State) : State :=
  let (k, s1) := s.fresh
  let ring := if s1.get F.PWR_CORE_STATUS_STATE = 3 then Config.freeNat k % 2 ^ 20 else 0
  (s1.set F.PWR_CRM_RING ring).perfEvent 0x0C 0 ring

/-- What the governor decides at a frame boundary: the four levels, TARGET, SHORT, and the steps of the frame; a step the
throttle still waits for is kept (R503, R506, R510). -/
def State.govern (s : State) (capacity : Nat) : State :=
  let cur := s.get F.PWR_GOV_STATUS_LEVEL
  let level := s.askedLevel
  let lc := s.get F.PWR_GOV_STATUS_LCOMMIT
  let ld := levelDemand capacity cur (s.get F.PWR_DEMAND_DEMAND) (s.get F.PWR_GOV_CTRL_HEAD)
  let limit := min s.levelBudget s.pwr.lt
  let hot := s.flag F.THERM_SUMMARY_THROTTLE
  let want := max (min lc 7) (min ld limit)
  let target := if hot then min want level else want
  let low := if ld < level then s.pwr.ldLow + 1 else 0
  let demandStep := limit ≥ level && s.get F.PWR_GOV_CTRL_DOWNHOLD ≤ low
  let down := target < level && (limit < level || demandStep)
  let pending := s.pwr.plan.filter (fun l => l < level)
  let plan := if hot && pending ≠ [] then pending else if level < target then range' (level + 1) (min (target - level) 4) else if down then [level - 1] else []
  let s1 := s.set F.PWR_GOV_STATUS_TARGET target
  { s1 with pwr := { s1.pwr with plan := plan, ldLow := if down && limit ≥ level then 0 else low
                                 short := decide (limit < lc) } }

/-- While EN is 0 the governor chooses nothing; VDD_CORE returns to PL0 one step a frame (R503, R506). -/
def State.ungoverned (s : State) : State :=
  let level := s.askedLevel
  let s1 := s.set F.PWR_GOV_STATUS_TARGET 0
  { s1 with pwr := { s1.pwr with plan := if s.pwr.returning && 0 < level then [level - 1] else []
                                 returning := s.pwr.returning && decide (0 < level), ldLow := 0, short := false } }

/-- The level whose capacity is published: the lower of those between which VDD_CORE moves or begins to move down (R40,
R503, R509). -/
def State.publishedLevel (s : State) : Nat :=
  let cur := s.get F.PWR_GOV_STATUS_LEVEL
  (s.pwr.plan.filter (fun l => l < cur)).foldl min (min cur s.askedLevel)

/-- ENERGY_SHORTFALL and OVERCOMMIT of a frame (R94, R506, R519). -/
def State.govEvents (s : State) : State :=
  let en := s.flag F.PWR_GOV_CTRL_EN
  let uncovered := s.flag F.THERM_SUMMARY_THROTTLE && decide (s.get F.PWR_GOV_STATUS_CAPACITY < s.load)
  let short := en && (s.pwr.short || uncovered)
  let s1 := { (s.set F.PWR_GOV_STATUS_SHORT (b2n short)) with pwr := { s.pwr with short := short } }
  let s2 := if short then (s1.inc F.PWR_SHORT_CNT_SHORTFALL 1).raise ⟨.PWR_INT_CAUSE, 3, 0⟩ ⟨.PWR_INT_EN, 3, 0⟩ 2 20 else s1
  if en && s2.get F.PWR_GOV_STATUS_LCOMMIT = 8 then
    (s2.inc F.PWR_SHORT_CNT_OVERCOMMIT 1).raise ⟨.PWR_INT_CAUSE, 3, 0⟩ ⟨.PWR_INT_EN, 3, 0⟩ 1 20
  else s2

/-- The governor's work at a frame boundary. It stops in the safe state (R37, R504 to R510). -/
def State.govBoundary (s : State) : State :=
  if s.safe then s
  else
    let s1 := s.countRing.publishDemand.publishEnergy
    let measured := min (2 ^ 21 - 1) (s1.get F.PWR_CRM_RING * s1.get F.PWR_CRM_KCRM / 2 ^ 12)
    let cur := s1.get F.PWR_GOV_STATUS_LEVEL
    let load := s1.load
    let s2 := (s1.set F.PWR_COMMIT_LOAD (min (2 ^ 27 - 1) load)).set F.PWR_GOV_STATUS_LCOMMIT (levelFor measured cur load)
    let s3 := if s2.flag F.PWR_GOV_CTRL_EN then s2.govern measured else s2.ungoverned
    let l := s3.publishedLevel
    let s4 := s3.set F.PWR_GOV_STATUS_CAPACITY (if l = cur then measured else capAt measured cur l)
    let s5 := { s4 with pwr := { s4.pwr with frameLevel := l, g := s4.grantPressure } }
    s5.govEvents

/-- VDD_STEP: the next set-point frame goes to the regulator, once the step before it has had its time (R502, R503). -/
def execVddStep (s : State) : Host.Outcome State Fault Refusal :=
  match s.pwr.plan, s.pwr.moving with
  | l :: ls, none =>
    let s1 := s.emit (.vddFrame (s.get F.PWR_VREG_PHYAD) (s.get F.PWR_VREG_REGAD) (s.get F.PWR_VID_VID l))
    .next { s1.set F.PWR_GOV_STATUS_MOVING 1 with pwr := { s1.pwr with plan := ls, moving := some l } }
  | _, _ => .next s

/-- VDD_CORE_SETTLED: the step completes and its level is in force (R503, R509). -/
def execVddCoreSettled (s : State) : Host.Outcome State Fault Refusal :=
  match s.pwr.moving with
  | some l =>
    let s1 := (s.set F.PWR_GOV_STATUS_LEVEL l).set F.PWR_GOV_STATUS_MOVING 0
    .next { s1 with pwr := { s1.pwr with moving := none } }
  | none => .next s

/-! Throttle and the thermal level (R94, R507). -/

/-- The throttle lowers the level by one further step; no step up is left in the frame. It never goes below PL0, and the
safe state holds VDD_CORE (R94, R506, R510). -/
def State.throttleDown (s : State) : State :=
  let level := s.askedLevel
  let downs := s.pwr.plan.filter (fun l => l < level)
  let low := downs.foldl min level
  if s.safe then s
  else { s with pwr := { s.pwr with plan := if low = 0 then downs else downs ++ [low - 1] } }

/-- THROTTLE_STEP: the level falls by one further step while a sensor stays at 100 °C or more (R94). -/
def execThrottleStep (s : State) : Host.Outcome State Fault Refusal :=
  if s.flag F.THERM_SUMMARY_THROTTLE && s.pwr.over100 then .next s.throttleDown else .next s

/-- LT falls or rises by one level, between 0 and 7 (R507). -/
def State.ltDown (s : State) : State := { s with pwr := { s.pwr with lt := s.pwr.lt - 1 } }
def State.ltUp (s : State) : State := { s with pwr := { s.pwr with lt := min 7 (s.pwr.lt + 1) } }

/-- LT_STEP: LT moves by one further level while its condition persists (R507). -/
def execLtStep (s : State) : Host.Outcome State Fault Refusal :=
  if s.pwr.ceilHot then .next s.ltDown else if s.pwr.ceilCool then .next s.ltUp else .next s

/-! The governor's registers (R501, R503, R508). -/

/-- A write of PWR_GOV_CTRL (R501, R503). -/
def State.govCtrlWrite (s : State) (r : Reg) (v : Word) : WriteRes :=
  let ceil := fv v F.PWR_GOV_CTRL_CEIL
  let en := fv v F.PWR_GOV_CTRL_EN = 1
  let was := s.flag F.PWR_GOV_CTRL_EN
  judge false (ceil < 40 || 125 < ceil || fv v F.PWR_GOV_CTRL_DOWNHOLD = 0 || fv v F.PWR_GOV_CTRL_CPKT < 64)
    (en && !s.flag F.PWR_VREG_EN)
    (let s1 := s.plainWrite r v
     .done { s1 with pwr := { s1.pwr with returning := !en && (was || s1.pwr.returning), plan := if was && !en then [] else s1.pwr.plan } })

/-- A write of PWR_BUDGET sets the debt to zero (R508). -/
def State.wattsWrite (s : State) (r : Reg) (v : Word) : WriteRes :=
  judge false (fv v F.PWR_BUDGET_WATTS = 0) false
    (let s1 := s.plainWrite r v
     .done { s1 with pwr := { s1.pwr with debt := 0 } })

end Sys2Proof.Machine
end

