-- ==== Sys2Proof/Machine/Faults.lean ====
section
/-! DEFINITION. Faults and the safe state: fatal records, entering the safe state, the sensors and their thresholds, the
voltage monitors, lost supplies, stalled stages, and the fault registers (R45, R65 to R69, R93 to R97, R103, R520 to R531). -/
namespace Sys2Proof.Machine

/-! The safe state (R65 to R69, R526, R527). -/

/-- Every packet inside the device is discarded and its handle released (R527). -/
def State.discardPackets (s : State) : State :=
  let s1 := s.live.foldl (fun s e => s.release e.1 0) s
  { s1 with dp := { s1.dp with swc := [], ingress := [], queues := s1.dp.queues.map (fun e => (e.1, { e.2 with items := [] })) } }

/-- A command engine stops at the next instruction boundary: its fragment ends with ESTATE at the first instruction not
executed (R527). -/
def Engine.stopSafe (en : Engine) : Engine :=
  { en with stall := .none, frag := en.frag.map (fun f => { f with ended := some (f.ended.getD (en.pc, .estate)) }) }

/-- Engines stop, ALIVE stays low, FAULT_N is pulled low, and the governor's plan and a Deep entry are dropped (R65, R66, R510,
R515, R527). -/
def State.stopWork (s : State) : State :=
  { s with
    cmd := s.cmd.map Engine.stopSafe
    map := s.map.map (fun (en : Engine) => { en with run := false, stall := .none })
    boot := { s.boot with alive := false, faultLow := true }
    pwr := { s.pwr with plan := [], deep := if s.pwr.deep = 1 then 0 else s.pwr.deep } }

/-- Every ring is disabled and every laser off (R69, R527). -/
def State.ringsLasersOff (s : State) : State :=
  (range' 0 64).foldl (fun s t => s.set F.PON_TREE_STATUS_TXON 0 t)
    ((range' 0 16).foldl (fun s r => s.set F.HCI_RING_STATUS_ENABLED 0 r) s)

/-- Entry to the safe state (R65, R66, R69, R510, R515, R527). -/
def State.enterSafe (s : State) : State :=
  (s.set F.FLT_STATUS_SAFE 1).discardPackets.ringsLasersOff.stopWork.plinthEvent 6

/-- A fatal fault: its record, and the safe state unless it is in force (R521, R526). -/
def State.fatal (s : State) (source cause addr : Nat) (who : Who := .device) (access status detail : Nat := 0) : State :=
  let s1 := s.faultWrite source cause addr who access status detail
  if s1.safe then s1 else s1.enterSafe

/-- SAFE_REQ_N: a low of 100 ns or more requests the safe state, one under 20 ns does not, and between them either
happens. Before POR_DONE the request waits for it; RESET_N takes precedence (R67, R68, R526). -/
def execSafeReqN (widthNs : Nat) (s : State) : Host.Outcome State Fault Refusal :=
  let (k, s1) := s.fresh
  if s.boot.inReset then .next s
  else if 100 ≤ widthNs || (20 ≤ widthNs && Config.freeBool k) then
    if s1.boot.porDone then .next (s1.fatal 0x38 0x24 0)
    else .next { s1 with boot := { s1.boot with safeReqLow := true } }
  else .next s1

/-! Sensors (R93 to R97). -/

/-- Group of a sensor, and the sensors of a group (R96). -/
def sensorGroup (i : Nat) : Nat := if i < 20 then 0 else if i < 40 then 1 else if i < 56 then 2 else if i < 60 then 3 else 4
def groupSensors (g : Nat) : List Nat := (range' 0 64).filter (fun i => sensorGroup i = g)

/-- A sensor works: it is not marked failed. -/
def State.works (s : State) (i : Nat) : Bool := !s.flag F.THERM_TEMP_FAILED i

/-- A sensor's reading in eighths of a degree (R97). -/
def State.temp (s : State) (i : Nat) : Int := signed 12 (s.get F.THERM_TEMP_TEMP i)

/-- Degrees as a reading. -/
def degrees (d : Nat) : Int := 8 * (d : Int)

/-- The readings of an update; a conversion that failed leaves the last one. -/
def State.takeReadings (s : State) : Nat → List (Option (BitVec 12)) → State
  | _, [] => s
  | i, x :: xs =>
    let s1 := match x with
      | some v => if i < 64 then s.set F.THERM_TEMP_TEMP v.toNat i else s
      | none => s
    State.takeReadings s1 (i + 1) xs

/-- A sensor's reading lies more than 15 °C from the mean of the other working sensors of its group (R96). -/
def State.isApart (s : State) (i : Nat) : Bool :=
  let others := (groupSensors (sensorGroup i)).filter (fun k => k ≠ i && s.works k)
  let n : Int := others.length
  let sum := others.foldl (fun a k => a + s.temp k) 0
  decide (others ≠ []) && decide (n * degrees 15 < ((n * s.temp i - sum).natAbs : Int))

/-- A sensor is marked failed, with its record (R96). -/
def State.sensorFailed (s : State) (i : Nat) : State :=
  ((s.set F.THERM_TEMP_FAILED 1 i).set F.THERM_SUMMARY_SFAIL 1).faultWrite 0x30 0x03 i .device 0 0 0

/-- The sensors judged at an update: failed conversions, then the tenth reading in a row apart from its group (R96). -/
def State.judgeSensors (s : State) (temps : List (Option (BitVec 12))) : State :=
  let noConv := fun i => s.works i && i < temps.length && (nth none temps i).isNone
  let conv := fun i => s.works i && (nth none temps i).isSome
  let base := (range' 0 64).foldl (fun s i => if noConv i then s.set F.THERM_TEMP_FAILED 1 i else s) s
  let runs : SMap Nat := (range' 0 64).foldl (fun m i => if conv i then sput 0 m i (if base.isApart i then sget 0 m i + 1 else 0) else m) s.pwr.apart
  let failed := (range' 0 64).filter (fun i => noConv i || (conv i && 10 ≤ sget 0 runs i))
  let s1 := failed.foldl State.sensorFailed { s with pwr := { s.pwr with apart := runs } }
  (range' 0 3).foldl (fun s g =>
    if failed.any (fun i => sensorGroup i = g) && (groupSensors g).all (fun i => !s.works i) then s.fatal 0x30 0x23 g else s) s1

/-- The hottest working sensor of 0 to 55: the lowest index among those of the highest reading (R97). -/
def State.hottest (s : State) : Option Nat :=
  ((range' 0 56).filter s.works).foldl (fun b i =>
    match b with
    | some k => if s.temp k < s.temp i then some i else some k
    | none => some i) none

/-- THERM_SUMMARY follows the hottest sensor (R97). -/
def State.showHottest (s : State) : State :=
  match s.hottest with
  | some i => (s.set F.THERM_SUMMARY_HOTTEST i).set F.THERM_SUMMARY_TEMP (s.get F.THERM_TEMP_TEMP i)
  | none => s

/-- The 115 °C shutdown: a record for each sensor that comes to it in this update (R95). -/
def State.trip (s : State) (before : State) : State :=
  let above := (range' 0 56).filter (fun i => s.works i && degrees 115 ≤ s.temp i)
  let s1 := if above = [] then s else s.set F.THERM_SUMMARY_TRIP 1
  (above.filter (fun i => before.temp i < degrees 115)).foldl (fun s i => s.fatal 0x30 0x22 i) s1

/-- The throttle at an update: entered at 100 °C, left when every sensor reads 97 °C or less. A shutdown at the same moment
is the shutdown alone (R94, R95). -/
def State.throttle (s : State) (tripped : Bool) : State :=
  let ws := (range' 0 56).filter s.works
  let above := ws.any (fun i => degrees 100 ≤ s.temp i)
  let s1 := { s with pwr := { s.pwr with over100 := above } }
  if s.flag F.THERM_SUMMARY_THROTTLE then
    if ws.all (fun i => s.temp i ≤ degrees 97) then s1.set F.THERM_SUMMARY_THROTTLE 0 else s1
  else if above && !tripped then
    ((s1.set F.THERM_SUMMARY_THROTTLE 1).raise ⟨.PWR_INT_CAUSE, 3, 0⟩ ⟨.PWR_INT_EN, 3, 0⟩ 4 20).throttleDown
  else s1

/-- The thermal level at an update: it moves at once when a condition first holds (R507). -/
def State.ceiling (s : State) : State :=
  let c := s.get F.PWR_GOV_CTRL_CEIL
  let ws := (range' 0 56).filter s.works
  let hot := decide (c < 100) && ws.any (fun i => degrees c ≤ s.temp i)
  let cool := ws.all (fun i => s.temp i ≤ degrees c - degrees 3)
  let s1 := if hot && !s.pwr.ceilHot then s.ltDown else if cool && !s.pwr.ceilCool then s.ltUp else s
  { s1 with pwr := { s1.pwr with ceilHot := hot, ceilCool := cool } }

/-- Hot refresh of memory stack k at an update (R94, R96). -/
def State.hotRefresh (s : State) (k : Nat) : State :=
  let ws := (groupSensors (3 + k)).filter s.works
  let was := if k = 0 then s.pwr.hot0 else s.pwr.hot1
  let put := fun (b : Bool) (s : State) => { s with pwr := if k = 0 then { s.pwr with hot0 := b } else { s.pwr with hot1 := b } }
  if ws = [] then put true s
  else if !was && ws.any (fun i => degrees 95 ≤ s.temp i) then put true (s.faultWrite 0x27 0x02 k .device 0 0 0)
  else if was && ws.all (fun i => s.temp i ≤ degrees 92) then put false s
  else s

/-- SENSOR_UPDATE: the readings of every sensor, none where its conversion failed (R93 to R97, R507). -/
def execSensorUpdate (temps : List (Option (BitVec 12))) (s : State) : Host.Outcome State Fault Refusal :=
  if s.boot.inReset || !s.boot.porDone then .next s
  else
    let s1 := (((s.takeReadings 0 temps).judgeSensors temps).showHottest)
    let s2 := s1.trip s
    let tripped := (range' 0 56).any (fun i => s2.works i && degrees 115 ≤ s2.temp i)
    .next ((((s2.throttle tripped).ceiling).hotRefresh 0).hotRefresh 1)

/-! Voltage monitors (R77, R79, R531). -/

/-- Nominal voltage in mV and tolerance in percent of the monitored rails, VDD_CORE apart (R77, R531). -/
def railBand (i : Nat) : Nat × Nat :=
  if i < 6 then (850, 3) else if i = 6 then (750, 3) else if i < 9 then (1100, 3) else if i = 9 then (400, 3)
  else if i < 12 then (750, 2) else if i < 14 then (1200, 3) else if i = 14 then (750, 2) else if i = 15 then (1200, 3)
  else if i = 16 then (750, 2) else if i = 17 then (1200, 3) else if i = 18 then (750, 2) else if i = 19 then (1200, 3)
  else if i = 20 then (750, 2) else if i = 21 then (900, 2) else (1800, 5)

/-- The set-point of a level in mV (R79). -/
def setPoint (l : Nat) : Nat := nth 850 [600, 635, 670, 705, 740, 775, 810, 850] l

/-- A reading lies in its monitor's band (R531). -/
def State.inBand (s : State) (i mv : Nat) : Bool :=
  if i < 4 then
    let a := s.get F.PWR_GOV_STATUS_LEVEL
    let b := s.askedLevel
    setPoint (min a b) * 98 ≤ mv * 100 && mv * 100 ≤ setPoint (max a b) * 102
  else
    let (v, p) := railBand i
    v * (100 - p) ≤ mv * 100 && mv * 100 ≤ v * (100 + p)

/-- One monitor's update: none where its rail is off (R531). -/
def State.vmon (s : State) (i : Nat) (x : Option (BitVec 12)) : State :=
  match x with
  | none => { s.set F.FLT_VMON_OFF 1 i with flt := { s.flt with vmonOut := sput 0 s.flt.vmonOut i 0 } }
  | some mv =>
    let s1 := (s.set F.FLT_VMON_OFF 0 i).set F.FLT_VMON_MV mv.toNat i
    let n := if s.inBand i mv.toNat then 0 else sget 0 s.flt.vmonOut i + 1
    let s2 := { s1 with flt := { s1.flt with vmonOut := sput 0 s1.flt.vmonOut i n } }
    let s3 := if 3 ≤ n then s2.set F.FLT_VMON_ALARM 1 i else s2
    if n = 3 then s3.faultWrite 0x31 0x04 i .device 0 0 0 else s3

/-- The monitors' updates in order. -/
def State.vmons (s : State) : Nat → List (Option (BitVec 12)) → State
  | _, [] => s
  | i, x :: xs => State.vmons (if i < 24 then s.vmon i x else s) (i + 1) xs

/-- VMON_UPDATE: the readings of the voltage monitors (R531). -/
def execVmonUpdate (mvs : List (Option (BitVec 12))) (s : State) : Host.Outcome State Fault Refusal :=
  if s.boot.inReset || !s.boot.porDone then .next s else .next (s.vmons 0 mvs)

/-! Domains that fail (R103, R123) and stalled stages (R45). -/

/-- A domain becomes FAILED with its cause (R118). -/
def State.domainFailed (s : State) (q cause : Nat) : State :=
  let s1 := s.setDomain q domFAILED
  if q = 0 then s1.set F.PWR_CORE_STATUS_FAILCAUSE cause else s1.set F.QUOIN_STATUS_FAILCAUSE cause (q - 1)

/-- SUPPLY_LOST: the detector of a READY domain drops: fatal for the mortar core and quoin 24, contained elsewhere (R103). -/
def execSupplyLost (q : Dom) (s : State) : Host.Outcome State Fault Refusal :=
  let n := domNo q
  if s.boot.inReset || s.domainState n ≠ domREADY then .next s
  else
    let s1 := s.domainFailed n 4
    if n = 0 || n = 24 then .next (s1.fatal 0x32 0x20 n .device 0 0 4)
    else .next (s1.faultWrite 0x32 0x16 n .device 0 0 4)

/-- STAGE_STALL: a stage of the mortar core is stalled for the first time (R45). -/
def execStageStall (stage : Nat) (s : State) : Host.Outcome State Fault Refusal :=
  if s.domainState 0 ≠ domREADY || s.boot.stalledStages.contains stage then .next s
  else
    let s1 := { s with boot := { s.boot with stalledStages := s.boot.stalledStages ++ [stage] } }
    .next (s1.faultWrite 0x00 0x1C stage .device 0 0 0)

/-! The fault registers (R520, R524, R528). -/

/-- A write of FLT_CTRL: SAFEKEY 0x3C5A enters the safe state, the writer named as MASTER (R528). -/
def State.safeKeyWrite (s : State) (who : Who) (v : Word) : State :=
  if fv v F.FLT_CTRL_SAFEKEY = 0x3C5A then s.fatal 0x39 0x25 0 who 2 0 0 else s

/-- A write of FLT_REC_SEL latches a record, which then counts as read (R520, R524). -/
def State.recSelWrite (s : State) (r : Reg) (v : Word) : State :=
  let age := fv v F.FLT_REC_SEL_AGE
  let s1 := s.plainWrite r v
  let put := fun (s : State) (ws : List Word) => (range' 0 5).foldl (fun s i => s.wr .FLT_REC (nth 0 ws i) i) s
  match findIdx (fun _ => true) (s1.flt.ring.drop age) 0 with
  | some (_, x) =>
    let s2 := { s1 with flt := { s1.flt with ring := setNth { x with read := true } s1.flt.ring age } }
    put s2 [x.w0, x.w1, x.w2, x.w3, x.w4]
  | none => put s1 []

/-- A write to the fault registers (R520). -/
def State.fltWrite (s : State) (r : Reg) (who : Who) (v : Word) : WriteRes :=
  match r.id with
  | .FLT_CTRL => .done (s.safeKeyWrite who v)
  | .FLT_REC_SEL => .done (s.recSelWrite r v)
  | .FLT_FIRST => if r.j = 0 && bit v.toNat 35 then .done (s.set ⟨.FLT_FIRST, 35, 35⟩ 0 r.i 0) else .done s
  | _ => .done (s.plainWrite r v)

end Sys2Proof.Machine
end

