-- ==== Sys2Proof/Machine/Units.lean ====
section
/-! DEFINITION. Units and map engines under software's control: UNIT, ENGCTL, and the service traps and scrub of the engines
(R202, R208, R221, R255, R471, R478, R490). -/
namespace Sys2Proof.Machine

/-! Trees (R255, R312, R314, R391, R463). -/

/-- A tree is enabled: its laser goes on, and frames follow from the next boundary. -/
def State.treeEnable (s : State) (t : Nat) : State :=
  let s1 := (s.set F.PON_TREE_STATUS_ENABLED 1 t).set F.PON_TREE_STATUS_TXON (b2n (!s.safe)) t
  (s1.laneSettle (s1.portOf t)).bondDegClear t

/-- A superframe latch that waits for a tree ends without a latch (R463). -/
def State.snapLost (s : State) (t : Nat) : State :=
  if s.flag F.TIME_SNAP_BUSY && s.get F.TIME_SNAP_TREE = t then (s.set F.TIME_SNAP_BUSY 0).set ⟨.TIME_SNAP_W3, 35, 35⟩ 0 else s

/-- A tree is disabled: its laser goes off, its bursts, reports and held structure are gone, its program stops, and its
egress goes down. -/
def State.treeDisable (s : State) (t : Fin 64) : State :=
  let s1 := (s.set F.PON_TREE_STATUS_ENABLED 0 t).set F.PON_TREE_STATUS_TXON 0 t
  let s2 := if (s1.tr t).held.isSome then s1.inc F.MAP_LINE_CNT_QDROP 1 t else s1
  let s3 := s2.modTree t (fun x => { x with
    build := [], committed := none, window := none, arm := none, held := none, expects := [], reports := [], nextReports := [] })
  let en := s3.map.get t
  let s4 := (s3.setEng (.map t) { en with run := false, stall := .none }).laneSettle (s.portOf t)
  let s5 := if s4.inGroup t then s4.bondDegSet t else s4
  (s5.snapLost t).portFlush (64 + t.val)

/-! Uplink ports and bond bundles (R478, R479, R490, R494). -/

/-- Every lane of the port at l is enabled. -/
def State.portEnable (s : State) (l : Nat) : State := (s.setLanes l (s.portLanes l) true).lanesSettle

/-- Every lane of the port at l is disabled and the port is down. -/
def State.portDisable (s : State) (l : Nat) : State := ((s.uplinkDown l).setLanes l (s.portLanes l) false).lanesSettle

/-- The five lanes of a bundle are enabled. -/
def State.bondEnable (s : State) (b : Nat) : State :=
  { s with dp := { s.dp with bondOn := s.dp.bondOn ||| BitVec.ofNat 4 (2 ^ b) } }.lanesSettle

/-- The five lanes of a bundle are disabled and the bundle is down. -/
def State.bondDisable (s : State) (b : Nat) : State :=
  let s1 := s.bondDown b
  { s1 with dp := { s1.dp with bondOn := s1.dp.bondOn &&& ~~~BitVec.ofNat 4 (2 ^ b) } }.lanesSettle

/-! UNIT (R202). -/

/-- What a UNIT operand names: kind and number. -/
def unitKind (a : Word) : Nat := a.toNat / 256
def unitNo (a : Word) : Nat := a.toNat % 256

/-- Units of each kind. -/
def unitLimit (kind : Nat) : Nat := if kind = 0 then 64 else if kind = 1 then 40 else if kind = 2 then 16 else 0

/-- The named unit is absent on the variant (R11). -/
def Chip.unitAbsent (c : Chip) (a : Word) : Bool :=
  let n := unitNo a
  unitKind a < 3 && n < unitLimit (unitKind a) &&
    (if unitKind a = 0 then c.trees ≤ n else if unitKind a = 1 then c.uplanes ≤ n else !c.bond)

/-- The quoins of the named unit. -/
def unitQuoins (a : Word) : List Nat :=
  let n := unitNo a
  if unitKind a = 0 then [framerQuoin n, receiverQuoin n] else if unitKind a = 1 then [macQuoin n] else [bondQuoin]

/-- The unit is enabled. -/
def State.unitOn (s : State) (a : Word) : Bool :=
  let n := unitNo a
  if unitKind a = 0 then s.flag F.PON_TREE_STATUS_ENABLED n else if unitKind a = 1 then s.dp.lanesOn.getLsbD n
  else s.dp.bondOn.getLsbD (n / 4)

/-- A lane has its pattern generator or checker on (R474). -/
def State.laneProbed (s : State) (k : Nat) : Bool := s.flag F.SER_PRBS_CTRL_GEN k || s.flag F.SER_PRBS_CTRL_CHK k

/-- A tree is one of a switching pair (R296). -/
def State.inSwitch (s : State) (t : Nat) : Bool :=
  (range' 0 64).any (fun w => s.switching w && (w = t || s.get F.PON_PROT_CTRL_PEER w = t))

/-- The state that forbids the request: the unit is already as requested, or a rule of its kind (R292, R296, R474, R490). -/
def State.unitRefused (s : State) (a : Word) (on : Bool) : Bool :=
  let n := unitNo a
  s.unitOn a = on ||
    (if unitKind a = 0 then s.inSwitch n || (on && (s.isPeer n || s.laneProbed (s.portOf n)))
     else if unitKind a = 1 then on && (range' n (s.portLanes n)).any (fun l => s.laneProbed (64 + l))
     else on && (!s.flag F.SYS_ID_SET || (range' 0 4).any (fun i => s.laneProbed (128 + n / 4 * 4 + i)) || s.laneProbed (144 + n / 4)))

/-- The request is carried out. -/
def State.unitSet (s : State) (a : Word) (on : Bool) : State :=
  let n := unitNo a
  if unitKind a = 0 then
    if h : n < 64 then (if on then s.treeEnable n else s.treeDisable ⟨n, h⟩) else s
  else if unitKind a = 1 then (if on then s.portEnable n else s.portDisable n)
  else if on then s.bondEnable (n / 4) else s.bondDisable (n / 4)

/-- UNIT's own work. A disable wakes nothing: a unit of an OFF or DOZE quoin is disabled already (R119, R172, R202, R478). -/
def State.unit (s : State) (e : Eng) (a b : Word) : Res :=
  let on := decide (b = 1)
  if s.chip.unitAbsent a then .fail .eabsent s
  else if 2 ≤ b.toNat || unitLimit (unitKind a) ≤ unitNo a then .fail .erange s
  else if !on && (unitQuoins a).any (fun q => s.domainState q = domOFF || s.domainState q = domDOZE) then .fail .estate s
  else s.touch e (unitQuoins a) (fun s =>
    if unitKind a = 1 && !s.flag F.UPL_PORT_CTRL_CONF (unitNo a) then .fail .erange s
    else if s.unitRefused a on then .fail .estate s
    else .ok (s.unitSet a on))

/-- UNIT enabling: b chooses between enable and disable (R202). -/
def execUnitEnable (e : Eng) (d a b : RegNo) (s : State) : Host.Outcome State Fault Refusal :=
  instr e (.unitEnable e d a b) [a, b] 6 (fun s => s.unit e (s.reg e a) (s.reg e b)) s

/-- UNIT disabling: b chooses between enable and disable (R202). -/
def execUnitDisable (e : Eng) (d a b : RegNo) (s : State) : Host.Outcome State Fault Refusal :=
  instr e (.unitDisable e d a b) [a, b] 6 (fun s => s.unit e (s.reg e a) (s.reg e b)) s

/-! ENGCTL (R202, R221, R226). -/

/-- ENGCTL's own work: a halt waits for the end of the frame, a start takes effect at the next boundary. -/
def State.engctl (s : State) (e : Eng) (a b : Word) : Res :=
  let t := a.toNat
  let st := s.get F.MAP_ENG_STATUS_STATE t
  if t < 64 && s.chip.trees ≤ t then .fail .eabsent s
  else if 64 ≤ t || wbits b 35 17 ≠ 0 then .fail .erange s
  else if st = engFAULTED || st = engSTARTING || s.haltPending t then .fail .estate s
  else if bit b.toNat 0 then
    if st = engSTARTED then .fail .estate s
    else .ok ((s.set F.MAP_ENG_STATUS_STATE engSTARTING t).set F.MAP_ENG_STATUS_ENTRY (wbits b 16 1) t)
  else if st = engHALTED then .fail .estate s
  else .wait (s.setEng e { s.eng e with stall := .halt t })

/-- ENGCTL halting: b[0] chooses between halt and start (R202). -/
def execEngctlHalt (e : Eng) (d a b : RegNo) (s : State) : Host.Outcome State Fault Refusal :=
  instr e (.engctlHalt e d a b) [a, b] 6 (fun s => s.engctl e (s.reg e a) (s.reg e b)) s

/-- ENGCTL starting: b[0] chooses between halt and start (R202). -/
def execEngctlStart (e : Eng) (d a b : RegNo) (s : State) : Host.Outcome State Fault Refusal :=
  instr e (.engctlStart e d a b) [a, b] 6 (fun s => s.engctl e (s.reg e a) (s.reg e b)) s

/-- The ENGCTL in which an engine waits for the halt of map engine t completes. -/
def State.haltSeen (t : Nat) (s : State) (e : Eng) : State :=
  if (s.eng e).stall = .halt t then s.finishInstr e (s.eng e).pc 1 0x3C 6 (.ok s) else s

/-- ENGCTL_HALT_DONE: the halt takes effect at the frame boundary and ENGCTL completes (R202, R221). -/
def execEngctlHaltDone (t : Fin 64) (s : State) : Host.Outcome State Fault Refusal :=
  if s.haltPending t then
    let en := s.map.get t
    let s1 := (s.set F.MAP_ENG_STATUS_STATE engHALTED t).setEng (.map t) { en with run := false, stall := .none }
    .next (((s1.haltSeen t (.cmd 0)).haltSeen t (.cmd 1)).haltSeen t .plinth)
  else .next s

/-! Service traps and the scrub (R208, R221, R222). -/

/-- A service trap of a command engine writes its level-0 save area; the engine then goes on as it stood (R222, R224). -/
def State.serviceTrap (s : State) (c : Fin 2) (vec : Nat) : State := s.writeSave (64 + c.val) 0 (.cmd c) vec 0 (s.cmd.get c).pc

/-- TICK: the service trap of every millisecond of a fragment's execution (R221). -/
def execTick (c : Fin 2) (s : State) : Host.Outcome State Fault Refusal :=
  if s.get F.CMD_ENG_STATUS_STATE c = 2 then .next (s.serviceTrap c 9) else .next s

/-- PATCH_SCRUB: an engine reads its patch RAM; a corrected word sets CSCE and writes a record, whose micro-address is a free
value, because the command names none (R208, R216, R522). -/
def execPatchScrub (e : Eng) (corrected : Bool) (s : State) : Host.Outcome State Fault Refusal :=
  let (k, s1) := s.fresh
  let addr := 0x2000 + Config.freeNat k % 1024
  if !corrected then .next s
  else match e with
    | .plinth => .next s
    | .map t => if s.chip.trees ≤ t then .next s
      else .next ((s1.set F.MAP_ENG_STATUS_CSCE 1 t).faultWrite 0x26 0x01 addr (engWho e) 7 0 0)
    | .cmd c => .next ((s1.set F.CMD_ENG_STATUS_CSCE 1 c).faultWrite 0x26 0x01 addr (engWho e) 7 0 0)

end Sys2Proof.Machine
end

