-- ==== Sys2Proof/Machine/Loads.lean ====
section
/-! DEFINITION. Loads of images into the engines: the load descriptor, microcode patches with their checks and installation,
grant programs and fallback maps (R202, R203, R230 to R235, R318). -/
namespace Sys2Proof.Machine

/-! Keys and tags (R231, R235). -/

/-- A fuse key is programmed and not revoked. -/
def Chip.keyUsable (c : Chip) (k : Nat) : Bool := c.keysPresent.getLsbD k && !c.keysRevoked.getLsbD k

/-- The 36-bit words of a list as 8 little-endian bytes each (R134). -/
def imageBytes (ws : List Word) : List Nat := (ws.map (fun w => (leBytes 8 w.toNat).map BitVec.toNat)).flatten

/-- The last four words of an image hold the CMAC of the words before them under a fuse key (R230, R231). -/
def tagOk (ws : List Word) (k : Fin 4) : Bool :=
  cmac ((beBytes 32 (Config.fuseKey k).toNat).map BitVec.toNat) (imageBytes (ws.take (ws.length - 4))) = wordBytes (ws.drop (ws.length - 4))

/-- The tag words' bits [35:32] are 0 (R230). -/
def tagShape (ws : List Word) : Bool := (ws.drop (ws.length - 4)).all (fun w => wbits w 35 32 = 0)

/-- The image passes its check under the key it names (R231, R232). -/
def Chip.authentic (c : Chip) (ws : List Word) (k : Nat) : Bool :=
  if h : k < 4 then c.keyUsable k && tagOk ws ⟨k, h⟩ else false

/-! The load descriptor and its source (R203). -/

/-- Status of a failed read of host memory (R153). -/
def hostErrStatus (x : HostErr) : Status :=
  match x with
  | .timeout => .etimeout
  | .poisoned => .eparity
  | .rejected => .erange

/-- The words of slots, none where one has a set bit among [63:36] (R134, R203). -/
def slotWords (ws : List (BitVec 64)) : Option (List Word) :=
  if ws.any (fun x => 2 ^ 36 ≤ x.toNat) then none else some (ws.map (fun x => BitVec.ofNat 36 x.toNat))

/-- What the bus delivered for n slots: the words, or the status of a failed transfer (R153, R203). -/
def transferWords (x : Transfer) (n : Nat) : Except Status (List Word) :=
  match x with
  | .absent => .error .etimeout
  | .failed err => .error (hostErrStatus err)
  | .slots ws =>
    match slotWords ((range' 0 n).map (nth 0 ws)) with
    | some r => .ok r
    | none => .error .erange

/-- The image a descriptor names: from host memory, or from plinth memory in the plinth context. -/
def State.loadSource (s : State) (e : Eng) (ws : List Word) (src : Transfer) (k : List Word → Res) : Res :=
  let n := wbits (nth 0 ws 2) 15 0
  match e with
  | .plinth => s.image e (nth 0 ws 0) n k
  | _ =>
    match transferWords src n with
    | .ok r => k r
    | .error st => .fail st s

/-- TARGET of a descriptor. -/
def ldTarget (ws : List Word) : Nat := wbits (nth 0 ws 2) 23 16

/-- A descriptor with a fault: source alignment, reserved bits, a length of 0, or a destination where none is taken. -/
def ldBad (e : Eng) (ws : List Word) (offset : Bool) : Bool :=
  let w1 := nth 0 ws 1
  wbits (nth 0 ws 0) 2 0 ≠ 0 || wbits w1 35 28 ≠ 0 || (e = .plinth && w1 ≠ 0) || wbits (nth 0 ws 2) 35 24 ≠ 0
    || wbits (nth 0 ws 2) 15 0 = 0 || wbits (nth 0 ws 3) 35 16 ≠ 0 || (!offset && nth 0 ws 3 ≠ 0)

/-- The checks every load passes before its transfer: the descriptor, the absent target, the range. -/
def State.loadChecks (s : State) (e : Eng) (a : Word) (targets : Nat → Bool) (offset : Bool) (k : List Word → Res) : Res :=
  s.image e a 4 (fun ws =>
    let t := ldTarget ws
    if t < 64 && s.chip.trees ≤ t then .fail .eabsent s
    else if !targets t || ldBad e ws offset then .fail .erange s
    else k ws)

/-! GPLOAD and FBMAP. -/

/-- GPLOAD: a grant program into a halted map engine's memory (R202, R203, R226). -/
def execGpload (e : Eng) (d a b : RegNo) (src : Transfer) (s : State) : Host.Outcome State Fault Refusal :=
  instr e (.gpload e d a b src) [a] 20 (fun s =>
    s.loadChecks e (s.reg e a) (fun t => t < 64) true (fun ws =>
      let t := ldTarget ws
      let off := wbits (nth 0 ws 3) 15 0
      if 65536 < off + wbits (nth 0 ws 2) 15 0 then .fail .erange s
      else if s.get F.MAP_ENG_STATUS_STATE t ≠ engHALTED then .fail .estate s
      else s.loadSource e ws src (fun ws =>
        if h : t < 64 then .ok (s.storeRange (.map ⟨t, h⟩) off ws) else .fail .erange s))) s

/-- The structures of a fallback-map image from word i on, n of them; the structure before (R318). -/
def fbStructs (ws : List Word) : Nat → Nat → Option Grant → Option (List Grant)
  | 0, _, _ => some []
  | n + 1, i, prev =>
    let x := nth 0 ws i
    let y := nth 0 ws (i + 1)
    let g : Grant := { alloc := wbits x 30 19, start := wbits x 15 0, size := wbits y 15 0, fwi := bit x.toNat 35,
                       ploamu := bit x.toNat 34, dbru := bit x.toNat 33, profile := wbits x 32 31 }
    if wbits x 18 16 ≠ 0 || wbits y 35 16 ≠ 0 || !grantOk prev g then none
    else (fbStructs ws n (i + 2) (some g)).map (fun gs => g :: gs)

/-- A fallback-map image: its structures, or none where it has a fault (R318). -/
def fbImage (ws : List Word) : Option (List Grant) :=
  let n := wbits (nth 0 ws 0) 10 0
  if wbits (nth 0 ws 0) 35 11 ≠ 0 || 1023 < n || ws.length ≠ 1 + 2 * n then none else fbStructs ws n 1 none

/-- FBMAP: the fallback map of a tree from the next frame boundary (R202, R317, R318). -/
def execFbmap (e : Eng) (d a b : RegNo) (src : Transfer) (s : State) : Host.Outcome State Fault Refusal :=
  instr e (.fbmap e d a b src) [a] 20 (fun s =>
    s.loadChecks e (s.reg e a) (fun t => t < 64) false (fun ws =>
      let t := ldTarget ws
      s.loadSource e ws src (fun ws =>
        match fbImage ws with
        | some gs => if h : t < 64 then .ok (s.modTree ⟨t, h⟩ (fun x => { x with nextFallback := some gs })) else .fail .erange s
        | none => .fail .erange s))) s

/-! Patches (R230 to R234). -/

/-- The engines of a target number: map engine t is t, command engine c is 64 + c (R203). -/
def Chip.patchTargets (c : Chip) (t : Nat) : List Nat :=
  if t < 64 then [t] else if t = 64 then [64] else if t = 65 then [65] else if t = 66 then [64, 65]
  else if t = 127 then range' 0 c.trees else []

/-- CHK of an engine (R234). -/
def chkOK : Nat := 1
def chkREJECTED : Nat := 2
def chkPENDING : Nat := 3

/-- The fields of an image. -/
def paVer (ws : List Word) : Nat := wbits (nth 0 ws 0) 15 0
def paRomver (ws : List Word) : Nat := wbits (nth 0 ws 1) 35 20
def paWords (ws : List Word) : Nat := wbits (nth 0 ws 1) 19 9
def paMap (ws : List Word) : Nat := wbits (nth 0 ws 1) 8 0
def paKey (ws : List Word) : Nat := wbits (nth 0 ws 2) 1 0

/-- The patch map entries of an image. -/
def paEntries (ws : List Word) : List Word := (ws.drop 4).take (paMap ws)

/-- Its microwords. -/
def paMicro (ws : List Word) : List Nat :=
  (range' 0 (paWords ws)).map (fun i =>
    let w := fun j => (nth 0 ws (4 + paMap ws + 4 * i + j)).toNat
    w 0 + w 1 * 2 ^ 36 + w 2 * 2 ^ 72 + w 3 % 16 * 2 ^ 108)

/-- The map entries are valid, name a patch RAM word, and name no ROM address twice (R230, R232). -/
def paMapOk (n : Nat) : List Word → Bool
  | [] => true
  | x :: xs => bit x.toNat 35 && wbits x 34 23 = 0 && decide (wbits x 9 0 < n) && xs.all (fun y => wbits y 22 10 ≠ wbits x 22 10) && paMapOk n xs

/-- The format of an image and its ROMVER against every target: the first check of R232. -/
def Chip.patchFormat (c : Chip) (ws : List Word) (targets : List Nat) : Bool :=
  let n := paWords ws
  ws.length = 4 + paMap ws + 4 * n + 4 && wbits (nth 0 ws 0) 35 24 = 1 && wbits (nth 0 ws 0) 23 16 = 0 && paVer ws ≠ 0
    && decide (1 ≤ n) && decide (n ≤ 1024) && decide (paMap ws ≤ 256) && wbits (nth 0 ws 2) 35 2 = 0 && wbits (nth 0 ws 3) 35 32 = 0
    && paMapOk n (paEntries ws) && (range' 0 n).all (fun i => wbits (nth 0 ws (4 + paMap ws + 4 * i + 3)) 35 4 = 0)
    && tagShape ws && targets.all (fun e => c.romver e = paRomver ws)

/-- The patch an image holds. -/
def paPatch (ws : List Word) : Patch := ⟨paVer ws, paEntries ws, paMicro ws⟩

/-- An engine by its number in the tables of R224 and R234. -/
def engByNum (n : Nat) : Eng := if h : n < 64 then .map ⟨n, h⟩ else if n = 64 then .cmd 0 else .cmd 1

/-- A patch is installed in an engine: it replaces the one before entirely (R233). -/
def State.install (p : Patch) (s : State) (n : Nat) : State :=
  let e := engByNum n
  let s1 := s.setEng e { s.eng e with patch := some p, staged := none }
  (s1.set F.MCODE_VERSION_PATCHVER p.ver n).set F.MCODE_VERSION_CHK chkOK n

/-- A checked patch reaches its targets: a map engine takes it now, a command engine at its next fragment (R233). -/
def State.deliverPatch (p : Patch) (s : State) (n : Nat) : State :=
  let e := engByNum n
  if n < 64 then s.install p n else (s.setEng e { s.eng e with staged := some p }).set F.MCODE_VERSION_CHK chkPENDING n

/-- A load that failed its tag: CHK of a target without a staged patch (R232). -/
def State.refusePatch (s : State) (n : Nat) : State :=
  if (s.eng (engByNum n)).staged.isSome then s else s.set F.MCODE_VERSION_CHK chkREJECTED n

/-- A target that cannot take a patch now (R202, R225, R232). -/
def State.patchBlocked (s : State) (n : Nat) : Bool :=
  if n < 64 then s.get F.MAP_ENG_STATUS_STATE n ≠ engHALTED else s.get F.CMD_ENG_STATUS_STATE (n - 64) = engFAULTED

/-- PATCH: loads, checks and installs or stages a patch (R202, R203, R232, R233). -/
def execPatch (e : Eng) (d a b : RegNo) (src : Transfer) (s : State) : Host.Outcome State Fault Refusal :=
  instr e (.patch e d a b src) [a] 20 (fun s =>
    s.loadChecks e (s.reg e a) (fun t => s.chip.patchTargets t ≠ []) false (fun ws =>
      let targets := s.chip.patchTargets (ldTarget ws)
      s.loadSource e ws src (fun ws =>
        if !s.chip.patchFormat ws targets then .fail .erange s
        else if targets.any s.patchBlocked then .fail .estate s
        else if !s.chip.authentic ws (paKey ws) then .fail .eauth (targets.foldl State.refusePatch s)
        else .ok (targets.foldl (State.deliverPatch (paPatch ws)) s)))) s

end Sys2Proof.Machine
end

