-- ==== Sys2Proof/Machine/Counters.lean ====
section
/-! DEFINITION. Reading the counters: CNTRD, PCSEL, PCRD, the levels that performance counters sample, the freeze, and wraps
(R198, R539 to R548). -/
namespace Sys2Proof.Machine

/-! Statistics counters (R198, R540, R541). -/

/-- Events of a family, and its instances; 0 for an unlisted family. -/
def famEvents (f : Nat) : Nat := if f = 1 then 16 else if f = 2 then 9 else if f = 3 then 9 else if f = 4 then 13 else if f = 5 then 5 else if f = 6 then 6 else if f = 7 then 1 else 0
def famInstance (f i : Nat) : Bool :=
  if f = 1 || f = 2 then portListed i else if f = 3 then i < 64 else if f = 4 then i < 16384 else if f = 5 then i < 262144
  else if f = 6 then i < 524288 else f = 7 && i < 65536

/-- An instance of a family belongs to an absent unit (R11). -/
def Chip.famAbsent (c : Chip) (f i : Nat) : Bool :=
  famInstance f i &&
    (if f = 1 || f = 2 then c.portAbsent i else if f = 3 then c.trees ≤ i else if f = 4 then c.trees ≤ i / 256 else false)

/-- CNTRD: a 72-bit counter as one value into d and d + 1, cleared with fn[0] (R198, R540). -/
def execCntrd (e : Eng) (f : FmtA) (s : State) : Host.Outcome State Fault Refusal :=
  instr e (.cntrd e f) [f.a, f.d, f.d + 1] 5 (fun s =>
    let a := s.reg e f.a
    let fam := wbits a 35 30
    let i := wbits a 29 8
    if s.chip.famAbsent fam i then .fail .eabsent s
    else if !famInstance fam i || famEvents fam ≤ wbits a 7 0 then .fail .erange s
    else
      let v := sget 0 s.tel.stats a.toNat
      let s1 := s.putAlu e f.d { v := BitVec.ofNat 36 v.toNat, z := some (v = 0) }
      let s2 := s1.setReg e (f.d + 1) (BitVec.ofNat 36 (v.toNat / 2 ^ 36))
      .ok (if bit f.fn.toNat 0 then { s2 with tel := { s2.tel with stats := sput 0 s2.tel.stats a.toNat 0 } } else s2)) s

/-! Performance counters (R542 to R548). -/

/-- The level of a level source (R544). Tags of the endpoint are held only within a transfer, which the model takes as one
step. -/
def State.perfLevel (s : State) (src i : Nat) : Nat :=
  match src with
  | 0x01 => s.inuse i
  | 0x02 => s.depthBytes i
  | 0x03 => s.hoqDelay i
  | 0x06 => s.inFlight i
  | 0x07 => s.outstanding
  | 0x08 => s.dp.learns.length
  | _ => 0

/-- A source counts events; one that samples a level (R544). -/
def srcEvent (src : Nat) : Bool := src = 0x00 || src = 0x04 || src = 0x05 || src = 0x09 || src = 0x0A || src = 0x0C || src = 0x0D
def srcLevel (src : Nat) : Bool := src = 0x01 || src = 0x02 || src = 0x03 || src = 0x06 || src = 0x07 || src = 0x08 || src = 0x0B

/-- OFF counts nothing (R543). -/
def srcOFF : Nat := 0x3F

/-- INST lies in its source's range (R544). -/
def srcInstance (src i : Nat) : Bool :=
  match src with
  | 0x01 => i < 5
  | 0x02 | 0x03 => i < 262144
  | 0x04 => i < 16
  | 0x05 => i < 14
  | 0x06 => portListed i
  | 0x09 => i < 64
  | 0x0A => i < 8
  | 0x0D => i < 40 || (64 ≤ i && i < 128)
  | _ => i = 0

/-- INST names an absent unit (R543). -/
def Chip.srcAbsent (c : Chip) (src i : Nat) : Bool :=
  srcInstance src i &&
    (match src with
     | 0x01 => i = 3 && !c.stackmem
     | 0x05 => !bit c.swcPresent i
     | 0x06 => c.portAbsent i
     | 0x09 => c.trees ≤ i
     | 0x0D => !c.gates || c.portAbsent i
     | _ => false)

/-- PCSEL: a counter's selection; its value and sticky bit clear (R202, R543, R545). -/
def execPcsel (e : Eng) (d a b : RegNo) (s : State) : Host.Outcome State Fault Refusal :=
  instr e (.pcsel e d a b) [a, b] 4 (fun s =>
    let i := (s.reg e a).toNat
    let p : Perf := { sel := s.reg e b }
    if p.src ≠ srcOFF && s.chip.srcAbsent p.src p.inst then .fail .eabsent s
    else if 256 ≤ i then .fail .erange s
    else if p.src ≠ srcOFF && (!(srcEvent p.src || srcLevel p.src) || !srcInstance p.src p.inst
        || (if p.mode = 0 then srcLevel p.src || wbits p.sel 8 0 ≠ 0 else srcEvent p.src)) then .fail .erange s
    else .ok { s with tel := { s.tel with perf := sput {} s.tel.perf i { p with was := decide (p.thr < s.perfLevel p.src p.inst) } } }) s

/-- PCRD: value and sticky bit of one instant (R202, R546). -/
def execPcrd (e : Eng) (d a b : RegNo) (s : State) : Host.Outcome State Fault Refusal :=
  instr e (.pcrd e d a b) [a, d] 4 (fun s =>
    let i := (s.reg e a).toNat
    if 256 ≤ i then .fail .erange s
    else
      let p := sget {} s.tel.perf i
      .ok (s.setReg e d (BitVec.ofNat 36 (b2n p.sticky * 2 ^ 35 + p.value)))) s

/-- What a counter counts over n cycles in which nothing else changes: CYCLES, and the cycles of a level (R543, R544). -/
def State.perfCycles (s : State) (n : Nat) (p : Perf) : Nat :=
  if p.mode = 0 then (if p.src = 0x00 then n else 0)
  else if !srcLevel p.src then 0
  else
    let above := decide (p.thr < s.perfLevel p.src p.inst)
    if p.mode = 1 then (if above then n else 0)
    else if p.mode = 2 then (if above then 0 else n)
    else if above && !p.was then 1 else 0

/-- n cycles pass for every counter: its count, and whether the level stood above N in the last of them. -/
def State.perfTick (s : State) (n : Nat) : State :=
  if n = 0 then s
  else
    let s1 := State.perfFold (s.perfCycles n) s s.tel.perf
    { s1 with tel := { s1.tel with perf := s1.tel.perf.map (fun e => (e.1, { e.2 with was := decide (e.2.thr < s.perfLevel e.2.src e.2.inst) })) } }

/-- PERF_COUNTER_WRAP: a counter of cycles runs to the carry out of bit 34: as many of its cycles pass for it as that takes
(R546). -/
def execPerfCounterWrap (i : Fin 256) (s : State) : Host.Outcome State Fault Refusal :=
  let p := sget {} s.tel.perf i
  let frozen := p.frz && s.flag F.PC_FRZ_CTRL_FROZEN
  if frozen || s.perfCycles 1 p = 0 then .next s
  else
    let (p', _) := p.add (2 ^ 35 - p.value)
    .next ({ s with tel := { s.tel with perf := sput {} s.tel.perf i p' } }.perfWrapped i)

end Sys2Proof.Machine
end

