-- ==== Sys2Proof/Machine/Hci.lean ====
section
/-! DEFINITION. The host command interface: version negotiation, the rings and their registers, descriptor and fragment
fetch, completion, interrupt moderation, and the links' resets (R107, R125 to R161). -/
namespace Sys2Proof.Machine

/-! Rings. -/

/-- The version of the command interface is 1.0 (R126, R161). -/
def State.v10 (s : State) : Bool := s.get F.HCI_NEGOTIATE_MAJOR = 1 && s.get F.HCI_NEGOTIATE_MINOR = 0

/-- A version is active (R127). -/
def State.negotiated (s : State) : Bool := s.get F.HCI_NEGOTIATE_MAJOR ≠ 0

/-- A ring with its unregistered part changed. -/
def State.modRing (s : State) (r : Nat) (f : RingSt → RingSt) : State :=
  if h : r < 16 then { s with host := { s.host with rings := s.host.rings.set r (f s.host.rings[r]) } } else s

/-- The unregistered part of a ring. -/
def State.ring (s : State) (r : Nat) : RingSt := s.host.rings[r]?.getD {}

/-- Entries of a ring, SIZE lying within 6 to 12 while it is enabled (R141). -/
def State.ringEntries (s : State) (r : Nat) : Nat := 2 ^ s.get F.HCI_RING_CTRL_SIZE r

/-- ERR of a ring takes a status, and source 16 signals (R143, R159). -/
def State.ringErr (s : State) (r : Nat) (st : Status) : State := (s.set F.HCI_RING_STATUS_ERR st.code r).signal 16

/-- A rejected register operation on a ring (R143, R158). -/
def State.rejectRing (s : State) (r : Nat) (st : Status) : State :=
  (s.ringErr r st).reject { reg := true, ring := some r, status := st }

/-- A ring is disabled: nothing of it is fetched, and what it counted is forgotten (R144). -/
def State.ringOff (s : State) (r : Nat) : State :=
  (s.set F.HCI_RING_STATUS_ENABLED 0 r).modRing r (fun _ => {})

/-- An enable is applied: a version must be active and SIZE must lie within 6 to 12 (R144). -/
def State.applyEnable (s : State) (r : Nat) : State :=
  let refused := (s.set F.HCI_RING_CTRL_EN 0 r).modRing r (fun x => { x with heldEnable := false })
  if !s.negotiated then refused.rejectRing r .estate
  else if s.get F.HCI_RING_CTRL_SIZE r < 6 || 12 < s.get F.HCI_RING_CTRL_SIZE r then refused.rejectRing r .erange
  else
    let s1 := ((s.set F.HCI_RING_CTRL_EN 1 r).set F.HCI_RING_TAIL_TAIL 0 r).set F.HCI_RING_HEAD_HEAD 0 r
    ((s1.set F.HCI_RING_STATUS_HALTED 0 r).set F.HCI_RING_STATUS_ENABLED 1 r).modRing r (fun _ => {})

/-- What a write of HCI_RING_CTRL stores: ICOUNT 0 becomes 1, and ITIME stays under version 1.0 (R141, R161). -/
def State.ringCtrlWord (s : State) (r : Reg) (v : Word) : Word :=
  let v1 := if fv v F.HCI_RING_CTRL_ICOUNT = 0 then wput v 7 0 1 else v
  if s.v10 then wput v1 19 10 (s.get F.HCI_RING_CTRL_ITIME r.i) else v1

/-- A write of HCI_RING_CTRL: SIZE is fixed while the ring is enabled; EN enables it, waits for ENABLED to clear, or
disables it (R144, R145). -/
def State.ringCtrlWrite (s : State) (r : Reg) (v : Word) : State :=
  let enabled := s.flag F.HCI_RING_STATUS_ENABLED r.i
  if enabled && fv v F.HCI_RING_CTRL_SIZE ≠ s.get F.HCI_RING_CTRL_SIZE r.i then s.rejectRing r.i .estate
  else
    let was := s.flag F.HCI_RING_CTRL_EN r.i
    let s1 := s.plainWrite r (s.ringCtrlWord r v)
    if fv v F.HCI_RING_CTRL_EN = 1 then
      if !enabled then s1.applyEnable r.i
      else if was then s1
      else s1.modRing r.i (fun x => { x with heldEnable := true })
    else
      let s2 := s1.modRing r.i (fun x => { x with heldEnable := false })
      if enabled && !s.flag F.HCI_RING_STATUS_ACTIVE r.i then s2.ringOff r.i else s2

/-- A write of HCI_RING_TAIL, the doorbell (R146). -/
def State.tailWrite (s : State) (r : Reg) (v : Word) : State :=
  let tail := fv v F.HCI_RING_TAIL_TAIL
  if s.ringEntries r.i < (tail + 8192 - s.get F.HCI_RING_HEAD_HEAD r.i) % 8192 then s.rejectRing r.i .erange
  else s.set F.HCI_RING_TAIL_TAIL tail r.i

/-- A write of a register that an enabled ring holds fixed (R145). -/
def State.ringFixedWrite (s : State) (r : Reg) (v : Word) : State :=
  let s1 := s.plainWrite r v
  if s.flag F.HCI_RING_STATUS_ENABLED r.i && s1.rd r.id r.i ≠ s.rd r.id r.i then s.rejectRing r.i .estate else s1

/-! Negotiation (R125 to R127). -/

/-- A fragment executes, or its completion entry is not written. -/
def State.fragmentRuns (s : State) : Bool := (s.cmd.get 0).frag.isSome || (s.cmd.get 1).frag.isSome

/-- Negotiation refused: STATUS, and the rejection is logged. -/
def State.negotiateFails (s : State) (st : Status) : State :=
  (s.set F.HCI_NEGOTIATE_STATUS st.code).reject { reg := true, ring := none, status := st }

/-- Negotiation with OFFER: the highest common version becomes active (R127). -/
def State.negotiate (s : State) : State :=
  let common := s.get F.HCI_NEGOTIATE_OFFER &&& s.get F.HCI_VER_SUPPORTED_VERSIONS
  let enabled := (range' 0 16).any (fun r => s.flag F.HCI_RING_STATUS_ENABLED r)
  if !s.flag F.BOOT_STATUS_READY || enabled || s.fragmentRuns then s.negotiateFails .estate
  else if common = 0 then
    ((s.set F.HCI_NEGOTIATE_MAJOR 0).set F.HCI_NEGOTIATE_MINOR 0).negotiateFails .erange
  else
    ((s.set F.HCI_NEGOTIATE_MAJOR 1).set F.HCI_NEGOTIATE_MINOR (if bit common 1 then 1 else 0)).set F.HCI_NEGOTIATE_STATUS 0

/-- A write of HCI_NEGOTIATE: REQ is done with when the write ends (R126, R127). -/
def State.negotiateWrite (s : State) (r : Reg) (v : Word) : State :=
  let s1 := s.plainWrite r v
  if fv v F.HCI_NEGOTIATE_REQ = 1 then s1.negotiate else s1

/-! The block's registers. -/

/-- A write of a register of the block (R125 to R159). -/
def State.hciWrite (s : State) (r : Reg) (v : Word) : State :=
  match r.id with
  | .HCI_NEGOTIATE => s.negotiateWrite r v
  | .HCI_FRAG_TIMEOUT => s.set F.HCI_FRAG_TIMEOUT_LIMIT (max 1 (min 1000 (fv v F.HCI_FRAG_TIMEOUT_LIMIT)))
  | .HCI_DESC_LO | .HCI_DESC_HI | .HCI_CPL_LO | .HCI_CPL_HI => s.ringFixedWrite r v
  | .HCI_RING_PERM => if s.v10 then s else s.ringFixedWrite r v
  | .HCI_RING_CTRL => s.ringCtrlWrite r v
  | .HCI_RING_TAIL => s.tailWrite r v
  | _ => s.plainWrite r v

/-- The engine waits for a domain to wake. -/
def Stall.isWake (x : Stall) : Bool :=
  match x with
  | .wake _ => true
  | _ => false

/-- The engine stands at a table operation that the bound of R156 stalls. -/
def State.topStalled (s : State) (c : Fin 2) : Bool :=
  let op := wordOp (s.mem (.cmd c) (s.cmd.get c).pc)
  s.engRuns (.cmd c) && s.atBound (.cmd c) && 0x28 ≤ op && op ≤ 0x2C

/-- BUSY and RING of an engine in HCI_GLOBAL_STATUS: its ring counts while it executes. -/
def State.busyRing (s : State) (c : Fin 2) : Nat × Nat :=
  match (s.cmd.get c).frag with
  | some f => (1, f.ring)
  | none => (0, 0)

/-- HCI_GLOBAL_STATUS (R154). -/
def State.globalStatus (s : State) : Word :=
  let b0 := s.busyRing 0
  let b1 := s.busyRing 1
  BitVec.ofNat 36 (b1.2 * 2 ^ 24 + b0.2 * 2 ^ 20 + b1.1 * 2 ^ 19 + b0.1 * 2 ^ 18
    + b2n (s.topStalled 0 || s.topStalled 1) * 2 ^ 17 + s.outstanding % 2 ^ 11)

/-- What a read of a register of the block returns (R126 to R161). -/
def State.hciValue (s : State) (r : Reg) : Word :=
  let v := s.rd r.id r.i r.j r.k
  match r.id with
  | .HCI_GLOBAL_STATUS => s.globalStatus
  | .HCI_RING_STATUS => wput v 1 1 (b2n (s.get F.HCI_RING_HEAD_HEAD r.i = s.get F.HCI_RING_TAIL_TAIL r.i))
  | .HCI_RING_CTRL => if s.v10 then wput v 19 10 0 else v
  | .HCI_RING_PERM => if s.v10 then 0x3F else v
  | _ => v

/-! Fetch (R135, R137, R138, R147, R148). -/

/-- A descriptor (R135). -/
structure Desc where
  fragAddr : Nat
  resAddr : Nat
  s2 : Nat
  s3 : Nat
  deriving DecidableEq, Repr

/-- The descriptor four slots hold. -/
def Desc.ofSlots (ws : List (BitVec 64)) : Desc :=
  ⟨(nth 0 ws 0).toNat, (nth 0 ws 1).toNat, (nth 0 ws 2).toNat, (nth 0 ws 3).toNat⟩

def Desc.fragLen (d : Desc) : Nat := bits d.s2 11 0
def Desc.resLen (d : Desc) : Nat := bits d.s2 27 16
def Desc.noint (d : Desc) : Bool := bit d.s2 32
def Desc.barrier (d : Desc) : Bool := bit d.s2 33

/-- The device may execute a descriptor's fragment (R138). -/
def Desc.valid (d : Desc) : Bool :=
  d.fragLen ≠ 0 && bits d.s2 63 34 = 0 && bits d.s2 31 28 = 0 && bits d.s2 15 12 = 0 && d.s3 = 0 &&
    d.fragAddr % 8 = 0 && (d.resLen = 0 || (d.resAddr % 8 = 0 && d.resAddr + 8 * d.resLen ≤ 2 ^ 64))

/-- A ring is ready (R147). -/
def State.ringReady (s : State) (r : Nat) : Bool :=
  s.flag F.HCI_RING_STATUS_ENABLED r && !s.flag F.HCI_RING_STATUS_HALTED r && !s.flag F.HCI_RING_STATUS_ACTIVE r &&
    s.get F.HCI_RING_HEAD_HEAD r ≠ s.get F.HCI_RING_TAIL_TAIL r && !(s.ring r).barred

/-- The better of the ring chosen so far and the next one in the round: only a higher PRIO displaces (R147). -/
def State.betterRing (s : State) (best : Option Nat) (r : Nat) : Option Nat :=
  match best with
  | none => some r
  | some b => if s.get F.HCI_RING_CTRL_PRIO b < s.get F.HCI_RING_CTRL_PRIO r then some r else some b

/-- The ring an engine that last served a ring takes (R147). -/
def State.pickRing (s : State) (last : Nat) : Option Nat :=
  (((range' 1 16).map (fun k => (last + k) % 16)).filter s.ringReady).foldl s.betterRing none

/-- An idle engine that may fetch (R133, R147, R225, R515, R527). -/
def State.mayFetch (s : State) (c : Fin 2) : Bool :=
  s.get F.CMD_ENG_STATUS_STATE c = 1 && (s.cmd.get c).frag.isNone && s.canWrite && !s.safe && s.pwr.deep = 0

/-! Completion (R136, R151, R160). -/

/-- The base address of a completion ring (R140). -/
def State.cplBase (s : State) (r : Nat) : Nat :=
  s.get F.HCI_CPL_HI_ADDR r * 2 ^ 32 + s.get F.HCI_CPL_LO_ADDR r * 2 ^ 12

/-- PHASE of a descriptor counter's lap (R136, R141). -/
def cplPhase (entries counter : Nat) : Nat := if counter / entries % 2 = 0 then 1 else 0

/-- The completion entry's two slots (R136). -/
def cplSlot0 (entries counter : Nat) (c : Fin 2) (st : Status) (index : Nat) : Word :=
  BitVec.ofNat 36 (cplPhase entries counter * 2 ^ 35 + c.val * 2 ^ 32 + st.code * 2 ^ 24 + index % 2 ^ 12 * 2 ^ 12 + counter % entries)
def cplSlot1 (last results : Nat) : Word := BitVec.ofNat 36 (last % 2 ^ 12 * 2 ^ 12 + results % 2 ^ 12)

/-- The ring signals (R160). -/
def State.ringSignal (s : State) (r : Nat) : State := (s.modRing r (fun x => { x with counted := 0 })).signal r

/-- The interrupt of a completion: at once where its status is not OK, else each ICOUNT counted completions (R151, R160). -/
def State.ringCount (s : State) (r : Nat) (st : Status) (noint : Bool) : State :=
  if st ≠ .ok then s.ringSignal r
  else if noint then s
  else
    let s1 := s.modRing r (fun x => { x with counted := x.counted + 1 })
    if s.get F.HCI_RING_CTRL_ICOUNT r ≤ (s1.ring r).counted then s1.ringSignal r else s1

/-- A completion entry is written, slot 1 first; the interrupt follows it (R136, R151, R160). -/
def State.complete (s : State) (r counter : Nat) (c : Fin 2) (st : Status) (index last results : Nat) (noint : Bool) : State :=
  let n := s.ringEntries r
  let addr := s.cplBase r + 16 * (counter % n)
  let s1 := s.post (.hostWrite (BitVec.ofNat 64 (addr + 8)) (hostSlot (cplSlot1 last (if s.v10 then 0 else results))))
  let s2 := s1.post (.hostWrite (BitVec.ofNat 64 addr) (hostSlot (cplSlot0 n counter c st index)))
  s2.ringCount r st noint

/-- HEAD of a ring moves past a descriptor. -/
def State.headNext (s : State) (r : Nat) : State :=
  s.set F.HCI_RING_HEAD_HEAD ((s.get F.HCI_RING_HEAD_HEAD r + 1) % 8192) r

/-- The engine has served a ring (R147). -/
def State.served (s : State) (c : Fin 2) (r : Nat) : State :=
  { s with host := { s.host with last := s.host.last.set c r } }

/-- A descriptor that R138 completes without executing anything. -/
def State.badDesc (s : State) (c : Fin 2) (r : Nat) (noint : Bool) : State :=
  let counter := s.get F.HCI_RING_HEAD_HEAD r
  ((s.headNext r).served c r).complete r counter c .erange 0 0xFFF 0 noint

/-- The words of a fragment from word a on, as engine memory. -/
def fragMem : Nat → List Word → SMap Word
  | _, [] => []
  | a, w :: ws => if w = 0 then fragMem (a + 1) ws else (a, w) :: fragMem (a + 1) ws

/-- The words of a fragment whose slots have a set bit among [63:36] (R134). -/
def fragIllegal : Nat → List (BitVec 64) → List Nat
  | _, [] => []
  | a, x :: xs => if 2 ^ 36 ≤ x.toNat then a :: fragIllegal (a + 1) xs else fragIllegal (a + 1) xs

/-- The engine as a fragment finds it: registers, flags and scratch are zero and the fragment's words stand from word 0 (R170,
R175). -/
def Engine.load (en : Engine) (f : Frag) (ws : List (BitVec 64)) : Engine :=
  { en with
    w := Vector.replicate 32 0
    fz := false
    fn := false
    fc := false
    fv := false
    pc := 0
    mem := fragMem 0 (ws.map (fun x => BitVec.ofNat 36 x.toNat))
    bad := []
    stall := .none
    ops := []
    frag := some f }

/-- A staged patch is installed at the fragment's start (R233). -/
def State.fragPatch (s : State) (c : Fin 2) : State :=
  match (s.cmd.get c).staged with
  | some p => s.install p (64 + c.val)
  | none => s

/-- A fragment starts: it has been fetched whole, and HEAD moves past its descriptor (R137, R170). -/
def State.startFragment (s : State) (c : Fin 2) (r : Fin 16) (d : Desc) (slots : List (BitVec 64)) : State :=
  let ws := (range' 0 d.fragLen).map (nth 0 slots)
  let f : Frag := {
    ring := r
    counter := s.get F.HCI_RING_HEAD_HEAD r
    len := d.fragLen
    resAddr := BitVec.ofNat 64 d.resAddr
    resLen := d.resLen
    noint := d.noint
    illegal := fragIllegal 0 ws }
  let s1 := ((s.headNext r).served c r).fragPatch c
  let s2 := s1.setEng (.cmd c) ((s1.cmd.get c).load f ws)
  (s2.set F.HCI_RING_STATUS_ACTIVE 1 r).set F.CMD_ENG_STATUS_STATE 2 c

/-- BARRIER holds a descriptor while a fragment fetched earlier, on any ring, has no completion entry (R135). -/
def State.barrierHolds (s : State) (d : Desc) : Bool := d.barrier && s.fragmentRuns

/-- DESCRIPTOR_FETCH: an idle engine takes the descriptor of the ring it picks, given as its slots in host memory, and its
fragment. A ring whose descriptor must wait for the barrier is passed over from then on (R137, R138, R147; log 110). -/
def execDescriptorFetch (c : Fin 2) (desc frag : List (BitVec 64)) (s : State) : Host.Outcome State Fault Refusal :=
  match s.pickRing (s.host.last.get c) with
  | none => .next s
  | some r =>
    let d := Desc.ofSlots desc
    if !s.mayFetch c then .next s
    else if s.barrierHolds d then .next (s.modRing r (fun x => { x with barred := true }))
    else if !d.valid then .next (s.badDesc c r d.noint)
    else .next (s.startFragment c (Fin.ofNat 16 r) d frag)

/-- HOST_MEMORY_ERROR: the read of the descriptor (no slots given) or of the fragment fails (R153). -/
def execHostMemoryError (c : Fin 2) (desc : List (BitVec 64)) (err : HostErr) (s : State) : Host.Outcome State Fault Refusal :=
  match s.pickRing (s.host.last.get c) with
  | none => .next s
  | some r =>
    let d := Desc.ofSlots desc
    if !s.mayFetch c then .next s
    else if desc ≠ [] && s.barrierHolds d then .next (s.modRing r (fun x => { x with barred := true }))
    else if desc ≠ [] && !d.valid then .next (s.badDesc c r d.noint)
    else
      let counter := s.get F.HCI_RING_HEAD_HEAD r
      let s1 := ((s.headNext r).served c r).complete r counter c (hostErrStatus err) 0 0xFFF 0 d.noint
      .next ((s1.set F.HCI_RING_STATUS_HALTED 1 r).ringErr r (hostErrStatus err))

/-- A fragment's ring after its completion: a ring being disabled becomes so, and a held enable is applied (R144). -/
def State.afterFragment (s : State) (r : Nat) : State :=
  let held := (s.ring r).heldEnable
  let s1 := s.set F.HCI_RING_STATUS_ACTIVE 0 r
  if s1.flag F.HCI_RING_STATUS_ENABLED r && (held || !s1.flag F.HCI_RING_CTRL_EN r) then
    let s2 := s1.ringOff r
    if held then s2.applyEnable r else s2
  else s1

/-- Every ring is no longer passed over: a completion entry has been written (R135, R147). -/
def State.liftBarriers (s : State) : State :=
  { s with host := { s.host with rings := s.host.rings.map (fun x => { x with barred := false }) } }

/-- FRAGMENT_COMPLETION: the fragment has ended and every table operation it issued has finished; its completion entry is
written, unless the link's reset discards it (R107, R136, R144, R151). -/
def execFragmentCompletion (c : Fin 2) (s : State) : Host.Outcome State Fault Refusal :=
  let en := s.cmd.get c
  match en.frag with
  | none => .next s
  | some f =>
    match f.ended with
    | none => .next s
    | some (index, st) =>
      if en.ops ≠ [] then .next s
      else
        let s1 := if f.aborted then s else s.complete f.ring f.counter c st index (f.last.getD 0xFFF) f.results f.noint
        let s2 := s1.setEng (.cmd c) { s1.cmd.get c with frag := none }
        let s3 := if s2.get F.CMD_ENG_STATUS_STATE c = 2 then s2.set F.CMD_ENG_STATUS_STATE 1 c else s2
        .next (s3.liftBarriers.afterFragment f.ring)

/-- FRAGMENT_TIMEOUT: the executing instruction ends with ETIMEOUT. Time stalled at a bound or on a wake does not count, so
an engine that stands so does not exceed LIMIT (R152). -/
def execFragmentTimeout (c : Fin 2) (s : State) : Host.Outcome State Fault Refusal :=
  let en := s.cmd.get c
  if s.engRuns (.cmd c) && !en.stall.isWake && !s.topStalled c then
    .next (s.failInstr (.cmd c) en.pc (wordOp (s.mem (.cmd c) en.pc)) .etimeout)
  else .next s

/-- RING_INTERRUPT: ITIME has passed since the first counted completion (R160). -/
def execRingInterrupt (r : Fin 16) (s : State) : Host.Outcome State Fault Refusal :=
  if s.v11 && s.get F.HCI_RING_CTRL_ITIME r ≠ 0 && 0 < (s.ring r).counted then .next (s.ringSignal r) else .next s

/-! The function's state (R107, R133, R115). -/

/-- BUS_MASTER_DISABLE: Bus Master Enable is cleared, or the function enters D3hot (R133). -/
def execBusMasterDisable (d3hot : Bool) (s : State) : Host.Outcome State Fault Refusal :=
  .next { s with host := if d3hot then { s.host with d3hot := true } else { s.host with busMaster := false } }

/-- BUS_MASTER_ENABLE: the function is in D0 with Bus Master Enable at 1, and what it held is written in order (R133). -/
def execBusMasterEnable (s : State) : Host.Outcome State Fault Refusal :=
  .next { s with host := { s.host with d3hot := false, busMaster := true, held := [] }, outs := s.outs ++ s.host.held }

/-- An access that waits for a domain comes from the host's reads. -/
def Waiting.hostRead (w : Waiting) : Bool :=
  match w with
  | .read _ _ => true
  | _ => false

/-- Every ring is disabled and its EN cleared (R107). -/
def State.ringsReset (s : State) : State := (range' 0 16).foldl (fun s r => (s.set F.HCI_RING_CTRL_EN 0 r).ringOff r) s

/-- Fragments are aborted and what the function held, masked and awaited is gone (R107, R132; log 111). -/
def State.functionClear (s : State) : State :=
  { s with
    cmd := s.cmd.map (fun (en : Engine) => { en with frag := en.frag.map (fun f => { f with aborted := true }) })
    host := { s.host with
      busMaster := true
      d3hot := false
      held := []
      msix := []
      pba := 0
      waiting := s.host.waiting.filter (fun w => !w.hostRead) } }

/-- The effects the link's reset and a Function Level Reset share (R104, R107; log 111). -/
def State.functionReset (s : State) : State :=
  ((s.ringsReset.set F.HCI_NEGOTIATE_MAJOR 0).set F.HCI_NEGOTIATE_MINOR 0).functionClear

/-- PCIE_PERST_N low (R107). -/
def execPciePerstN (s : State) : Host.Outcome State Fault Refusal :=
  let s1 := s.functionReset
  .next { s1 with boot := { s1.boot with perst := true, linkTraining := false, perstRise := false } }

/-- FUNCTION_LEVEL_RESET: the same, the link staying trained (R107). -/
def execFunctionLevelReset (s : State) : Host.Outcome State Fault Refusal := .next s.functionReset

/-- PCIE_PERST_N_RELEASE: link training begins, or waits for POR_DONE (R115). -/
def execPciePerstNRelease (s : State) : Host.Outcome State Fault Refusal :=
  if !s.boot.perst then .next s
  else .next { s with boot := { s.boot with perst := false, linkTraining := s.boot.porDone, perstRise := !s.boot.porDone } }

end Sys2Proof.Machine
end

