-- ==== Sys2Proof/Machine/Power.lean ====
section
/-! DEFINITION. Power states: which domain serves an address, Doze, Rest and Deep, the saved registers, and the power block's
registers (R121, R511 to R519, R561). -/
namespace Sys2Proof.Machine

/-! Addresses and domains (R561). -/

/-- The domains that serve an access to an offset: a tree's two quoins, a lane's quoin, or the domain of its block. The
replication pairs, which may span two MAC groups, are served by quoin 24 as SER_STATUS is (log 112). -/
def servedBy (off : Nat) : List Nat :=
  let b := off / 0x100000
  if b = 0 || b = 13 || b = 14 then [25]
  else if b = 1 then [23]
  else if b = 2 || b = 3 || b = 10 || b = 15 then [24]
  else if b = 4 then [framerQuoin ((off - 0x400000) / 0x4000), receiverQuoin ((off - 0x400000) / 0x4000)]
  else if b = 11 then
    match Reg.ofOffset off with
    | some r =>
      match r.id with
      | .SER_LANE_CTRL | .SER_LANE_STATUS | .SER_LANE_FFE | .SER_PRBS_CTRL | .SER_PRBS_ERR | .SER_PRBS_BITS => laneQuoins r.i
      | .UPL_PORT_CTRL | .UPL_PORT_STATUS | .UPL_FC_CTRL | .UPL_FC_STATUS | .UPL_FEC_CNT | .UPL_RX_CNT => [macQuoin r.i]
      | _ => [24]
    | none => []
  else if b = 12 then
    match Reg.ofOffset off with
    | some r =>
      match r.id with
      | .BND_CTRL | .BND_STATUS | .BND_CNT | .BND_TIME => [bondQuoin]
      | _ => [24]
    | none => [24]
  else [0]

/-- The group of the saved registers that holds a register: the quoin, among 1 to 21, whose supply keeps it, or 0. A tree's
window belongs to the framer's quoin and its lane to the receiver's (log 113). -/
def homeOf (off : Nat) : Nat :=
  match servedBy off with
  | [q] => if 1 ≤ q ∧ q ≤ 21 then q else 0
  | [f, r] => if off / 0x100000 = 4 then f else r
  | _ => 0

/-! The saved registers (R517). -/

/-- Every bit of a word, and all but some. -/
def allBits : Nat := 2 ^ 36 - 1
def allBut (f : Fld) : Nat := allBits - (2 ^ (f.hi + 1) - 2 ^ f.lo)

/-- The bits of a register that are saved: 0 where it is not in the list of R517. LBMODE is a field of PON_DS_CTRL (R238). -/
def RegId.savedBits (id : RegId) : Nat :=
  match id with
  | .PWR_GOV_CTRL | .PWR_BUDGET | .PWR_VREG | .PWR_VID | .PWR_PEST | .PWR_DOZE_DLY | .WAKE_TIMEOUT => allBits
  | .PWR_SLEEP_CTRL => 2 ^ 33
  | .PON_DS_CTRL => allBut F.PON_DS_CTRL_LBMODE
  | .PON_DS_PONID | .PON_US_CTRL | .PON_OPT_CTRL | .PON_RSSI_CTRL | .PON_LOS_CTRL | .PON_ALIGN_CTRL | .PON_PM_CTRL
  | .PON_RNG_CTRL | .PON_DRIFT_CTRL | .PON_ROGUE_CTRL | .PON_PROT_CTRL | .PON_PROT_DELTA => allBits
  | .SER_LANE_CTRL => allBut F.SER_LANE_CTRL_LOOP
  | .SER_LANE_FFE | .UPL_PORT_CTRL | .UPL_FC_CTRL | .UPL_FRER_CTRL | .UPL_FRER_CFG => allBits
  | .SYS_ID | .BND_CTRL | .SYS_ROUTE => allBits
  | .TIME_CTRL => allBut F.TIME_CTRL_STEP
  | .TIME_DOM_CTRL | .TIME_FREQ_CTRL | .TIME_RCLK_CTRL | .TIME_PPS_CTRL | .TIME_TOD_CTRL | .TIME_CAP_CTRL | .TIME_TRIG_CTRL
  | .TIME_PORT_CTRL | .TIME_PORT_RXDLY | .TIME_PORT_TXDLY | .TIME_PORT_ASYM | .TIME_TREE_FIB | .TIME_TREE_RESP
  | .TIME_EVT_EN => allBits
  | .CLS_START | .CLS_MISS_ACT | .CLS_MARK_ACT | .CLS_EXQ_RATE | .FWD_EM_KEY | .FWD_EM_MISS | .FWD_LPM_KEY | .FWD_LPM_MISS
  | .FWD_HASH_SEED0 | .FWD_HASH_SEED1 | .FWD_LRN_CTRL | .FWD_LRN_GEN | .FWD_AGE_CTRL | .FWD_LRN_PORT => allBits
  | .BUF_SEL_CTRL | .BUF_THR | .BUF_ACT | .BUF_POOL_CTRL | .SCH_CAP_CTRL | .SCH_SAMP_PER => allBits
  | .BUF_AUDIT_CTRL => allBut F.BUF_AUDIT_CTRL_GO
  | _ => 0

/-- The saved form of an entry of the register file: its saved bits, the others as at reset. -/
def Chip.savedWord (c : Chip) (e : Nat × Word) : Option (Nat × Word) :=
  match Reg.ofOffset e.1 with
  | some r =>
    let m := BitVec.ofNat 36 r.id.savedBits
    let d := BitVec.ofNat 36 (Reg.reset c r)
    let w := (e.2 &&& m) ||| (d &&& ~~~m)
    if m = 0 ∨ w = d then none else some (e.1, w)
  | none => none

/-- The saved registers of a group that differ from their reset values. -/
def State.groupWords (s : State) (q : Nat) : List (Nat × Word) :=
  (s.regs.filter (fun e => homeOf e.1 = q)).filterMap s.chip.savedWord

/-- The current bins of a tree, SUSPECT, and nothing else of its performance (R269, R517). -/
def Tree.keepBins (x : Tree) : SMap PmScope :=
  let p := sget {} x.pm 256
  let keep : List PmBin → List PmBin := fun bs => match bs with | b :: _ => [{ b with suspect := true }] | [] => []
  sput {} [] 256 { ({} : PmScope) with bins15 := keep p.bins15, bins24 := keep p.bins24 }

/-- What a quoin holds is gone with its supply: its registers, its trees or its bundles. -/
def State.forget (s : State) (q : Nat) : State :=
  let s1 := { s with regs := s.regs.filter (fun e => homeOf e.1 ≠ q) }
  if 1 ≤ q ∧ q ≤ 8 then
    (range' (8 * (q - 1)) 8).foldl (fun s t => s.modTree (Fin.ofNat 64 t) (fun x => { ({} : Tree) with pm := x.keepBins })) s1
  else if q = bondQuoin then { s1 with dp := { s1.dp with bond := Vector.replicate 4 {} } }
  else s1

/-- The slot of a restored protection pair is still valid (R517). -/
def State.slotValid (s : State) (t : Nat) : Bool :=
  let k := s.get F.PON_PROT_CTRL_SLOT t
  4 ≤ k || !s.slotsBad.any (fun x => x / 256 = k)

/-- What follows from a tree's restored registers: EQDLIM, and the state of its protection pair (R282, R517). -/
def State.restoredTree (s : State) (t : Nat) : State :=
  let s1 := s.set F.PON_RNG_LIMIT_EQDLIM (eqdLimit (s.get F.PON_US_CTRL_ORIGIN t)) t
  if s1.flag F.PON_PROT_CTRL_EN t then s1.set F.PON_PROT_STATUS_STATE (if s1.slotValid t then ppARMED else ppOFF) t else s1

/-- A group is restored, or found bad: its registers then keep their reset values (R518). -/
def State.restoreGroup (s : State) (q : Nat) : State :=
  let ws := sget [] s.pwr.saved q
  let s0 := { s with pwr := { s.pwr with saved := serase s.pwr.saved q, savedBad := s.pwr.savedBad.filter (fun x => x ≠ q) } }
  if s.pwr.savedBad.contains q then
    (s0.set F.PWR_SLEEP_STATUS_SAVEBAD 1).faultWrite (if q = 0 then 0x19 else q) 0x18 q .device 0 0 0
  else
    let s1 := { s0 with regs := ws.foldl (fun m e => sinsert m e.1 e.2) s0.regs }
    if 1 ≤ q ∧ q ≤ 8 then (range' (8 * (q - 1)) 8).foldl (fun s t => if t < s.chip.trees then s.restoredTree t else s) s1 else s1

/-! Work and sleep (R511 to R513). -/

/-- The lanes of a quoin among 1 to 21. -/
def quoinLanes (q : Nat) : List Nat :=
  if q ≤ 8 then range' (8 * (q - 1)) 8
  else if q ≤ 16 then range' (8 * (q - 9)) 8
  else if q ≤ 20 then range' (64 + 10 * (q - 17)) 10
  else range' 128 16 ++ range' 144 4

/-- A host access is stalled on a quoin, or an engine's is. -/
def State.accessWaits (s : State) (q : Nat) : Bool :=
  let hit := fun (en : Engine) => match en.stall with | .wake qs => qs.contains q | _ => false
  s.host.waiting.any (fun w => match w with
      | .read off _ => (servedBy off).contains q
      | .write off _ _ => (servedBy off).contains q
      | .remote _ _ _ _ off _ => (servedBy off).contains q)
    || s.cmd.any hit || s.map.any hit || hit s.plinth

/-- A quoin among 1 to 22 has no work (R512). -/
def State.idleQuoin (s : State) (q : Nat) : Bool :=
  if q = 22 then s.get F.BUF_POOL_STATUS_INUSE 3 = 0 && !s.accessWaits 22
  else
    (quoinLanes q).all (fun k => s.chip.laneAbsent k || (!s.laneUnitOn k && s.laneState k ≠ lnACTIVE)) && !s.accessWaits q

/-- DOZE: an idle quoin dozes (R512). -/
def execDoze (q : Fin 25) (s : State) : Host.Outcome State Fault Refusal :=
  let n := q.val + 1
  if s.flag F.PWR_SLEEP_CTRL_DOZEEN && n ≤ 22 && s.domainState n = domREADY && s.idleQuoin n && s.flag F.BOOT_STATUS_READY
  then .next (s.setDomain n domDOZE).lanesSettle
  else .next s

/-- Rest turns a quoin off after it has saved the quoin's registers (R513). -/
def State.turnOff (s : State) (q : Nat) : State :=
  let s1 := { s with pwr := { s.pwr with saved := sput [] s.pwr.saved q (s.groupWords q), rested := s.pwr.rested ++ [q] } }
  (s1.forget q).setDomain q domOFF

/-- A quoin qualifies for Rest (R513). -/
def State.restsNow (s : State) (q : Nat) : Bool :=
  (s.domainState q = domREADY || s.domainState q = domDOZE) && s.idleQuoin q && (q ≠ 22 || s.get F.BUF_SEL_CTRL_P3MODE = 2)

/-- The lanes of disabled units with KEEP 0 in the quoins that stay READY (R513). -/
def State.restableLanes (s : State) : List Nat :=
  (range' 0 148).filter (fun k => s.laneState k = lnDEEP && !s.flag F.SER_LANE_CTRL_KEEP k)

/-- A Rest request: every quoin that qualifies when the write is accepted goes OFF (R513). -/
def State.rest (s : State) : State :=
  let s1 := ((range' 1 22).filter s.restsNow).foldl State.turnOff s
  let s2 := { s1 with pwr := { s1.pwr with restLanes := s1.restableLanes } }
  (s2.set F.PWR_SLEEP_STATUS_LASTREQ Status.ok.code).lanesSettle

/-! Deep (R515). -/

/-- Every enabled unit is disabled as UNIT disables it. -/
def State.disableAll (s : State) : State :=
  let s1 := (range' 0 64).foldl (fun s t => if s.flag F.PON_TREE_STATUS_ENABLED t then s.treeDisable (Fin.ofNat 64 t) else s) s
  let s2 := (range' 0 40).foldl (fun s l => if s.flag F.UPL_PORT_CTRL_CONF l && s.dp.lanesOn.getLsbD l then s.portDisable l else s) s1
  (range' 0 4).foldl (fun s b => if s.dp.bondOn.getLsbD b then s.bondDisable b else s) s2

/-- A Deep request is accepted: steps 1 and 2 (R515). -/
def State.deepStart (s : State) : State :=
  let s1 := s.disableAll
  { s1 with pwr := { s1.pwr with deep := 1 } }

/-- Handles still held are released and counted as flushed at their egress (R515). -/
def State.flushAll (s : State) : State :=
  let s1 := s.dp.queues.foldl (fun s e => match s.egressOf e.1 with | some p => State.flushQueue p s e.1 | none => s) s
  s1.live.foldl (fun s e =>
    let p := match e.2.place with
      | .leaving g _ _ _ => some g
      | .queued q => s.egressOf q
      | .reseq _ => s.egressOf e.2.queue
    let s' := s.release e.1 0xE
    match p with
    | some p => (s'.inc F.BUF_PORT_STATE_FLUSHED 1 p).count 0x02 p 0x05 1
    | none => s') s1

/-- Every group is saved, but for those of quoins that Rest turned off, which are saved already (R517). -/
def State.saveAll (s : State) : State :=
  (range' 0 23).foldl (fun s q =>
    if s.pwr.rested.contains q && s.domainState q = domOFF then s
    else { s with pwr := { s.pwr with saved := sput [] s.pwr.saved q (s.groupWords q) } }) s

/-- The set-point frame with DEEPCODE (R502, R515). -/
def State.deepFrame (s : State) : State :=
  if s.flag F.PWR_VREG_EN then s.emit (.vddFrame (s.get F.PWR_VREG_PHYAD) (s.get F.PWR_VREG_REGAD) (s.get F.PWR_VREG_DEEPCODE)) else s

/-- A map engine stopped and halted (R515). -/
def State.haltEngine (s : State) (t : Nat) : State :=
  let st := s.get F.MAP_ENG_STATUS_STATE t
  let s1 := if st = engSTARTED || st = engSTARTING then s.set F.MAP_ENG_STATUS_STATE engHALTED t else s
  s1.setEng (.map (Fin.ofNat 64 t)) { s1.map.get (Fin.ofNat 64 t) with run := false, stall := .none }

/-- Every domain but quoin 25 is without supply; a FAILED or ABSENT one stays so (R100, R122). -/
def State.domainsOff (s : State) : State :=
  (range' 0 25).foldl (fun s q => if s.domainState q = domFAILED || s.domainState q = domABSENT then s else s.setDomain q domOFF) s

/-! Registers of the power block (R121, R502, R511, R519). -/

/-- The DOZE condition of STATE (R511). -/
def State.allDozing (s : State) : Bool :=
  (range' 1 22).all (fun q => let d := s.domainState q; d = domDOZE || d = domOFF || d = domABSENT) && s.live.isEmpty

/-- STATE of PWR_SLEEP_STATUS: 0 RUN, 1 DOZE, 2 REST, 3 ENTERING (R511). -/
def State.sleepState (s : State) : Nat :=
  if s.pwr.deep = 1 then 3
  else if s.allDozing then 1
  else if s.pwr.rested.any (fun q => s.domainState q = domOFF) then 2
  else 0

/-- A write of PWR_SLEEP_CTRL (R511, R513 to R515). -/
def State.sleepWrite (s : State) (r : Reg) (v : Word) : WriteRes :=
  let rest := fv v F.PWR_SLEEP_CTRL_REST = 1
  let deep := fv v F.PWR_SLEEP_CTRL_DEEP = 1
  judge (deep && !s.chip.plinth) false ((rest || deep) && (s.safe || s.pwr.deep = 1))
    (let s1 := s.plainWrite r v
     let s2 := if rest then s1.rest else s1
     .done (if deep then s2.deepStart else s2))

/-- A value kept within bounds. -/
def clampNat (lo hi v : Nat) : Nat := max lo (min hi v)

/-- A write of a register of the power block; RST_CTRL is the reset's. -/
def State.pwrWrite (s : State) (r : Reg) (v : Word) : WriteRes :=
  match r.id with
  | .WAKE_TIMEOUT => .done (s.set F.WAKE_TIMEOUT_TIMEOUT (clampNat 200 2000 (fv v F.WAKE_TIMEOUT_TIMEOUT)))
  | .PWR_GOV_CTRL => s.govCtrlWrite r v
  | .PWR_BUDGET => s.wattsWrite r v
  | .PWR_VREG | .PWR_VID => judge false false (s.flag F.PWR_GOV_CTRL_EN) (.done (s.plainWrite r v))
  | .PWR_SLEEP_CTRL => s.sleepWrite r v
  | .PWR_DOZE_DLY => .done (s.plainWrite r (atLeast1 v F.PWR_DOZE_DLY_DLY))
  | _ => .done (s.plainWrite r v)

/-- What a read of a register of the power block returns. -/
def State.pwrValue (s : State) (r : Reg) : Word :=
  let v := s.rd r.id r.i r.j r.k
  match r.id with
  | .PWR_SLEEP_STATUS => wput v 35 32 s.sleepState
  | .PWR_GOV_STATUS => wput v 25 25 (s.get F.THERM_SUMMARY_THROTTLE)
  | .PWR_RES_PL_LO => BitVec.ofNat 36 (sget 0 s.pwr.resPl r.i)
  | .PWR_RES_ST_LO => BitVec.ofNat 36 (sget 0 s.pwr.resSt r.i)
  | .BOOT_STATUS => wput v 6 6 (b2n ((range' 0 66).all (fun e => (e < 64 && s.chip.trees ≤ e) || (s.eng (engByNum e)).patch.isSome)))
  | _ => v

/-- The effect of an 8-byte read: a residency counter's LO latches its HI (R519). -/
def State.pwrReadEffect (s : State) (r : Reg) : State :=
  match r.id with
  | .PWR_RES_PL_LO => s.wr .PWR_RES_PL_HI (BitVec.ofNat 36 (sget 0 s.pwr.resPl r.i / 2 ^ 36)) r.i
  | .PWR_RES_ST_LO => s.wr .PWR_RES_ST_HI (BitVec.ofNat 36 (sget 0 s.pwr.resSt r.i / 2 ^ 36)) r.i
  | _ => s.clearRc r

/-- The residency counts of a frame that begins: its level and the state in force (R519). -/
def State.countResidency (s : State) : State :=
  let add := fun (m : SMap Nat) (k : Nat) => smod 0 m k (fun n => (n + 1) % 2 ^ 72)
  if s.pwr.deep = 2 then { s with pwr := { s.pwr with resSt := add s.pwr.resSt 3 } }
  else
    let st := if s.sleepState = 3 then 0 else s.sleepState
    { s with pwr := { s.pwr with resPl := add s.pwr.resPl s.pwr.frameLevel, resSt := add s.pwr.resSt st } }

end Sys2Proof.Machine
end

