-- ==== Sys2Proof/Machine/Egress.lean ====
section
/-! DEFINITION. A packet from the switch core to its egress: release by a resequencer, enqueue or exception record, cut-through
and stomped tails, and the last word's leaving (R29, R30, R346, R379, R388 to R390, R438, R486). -/
namespace Sys2Proof.Machine

/-! Cut-through (R29). -/

/-- The line rate of a port, in units of 100 kbit/s: its lanes' for an uplink or bond link, its mode's for a tree (log 75). -/
def State.lineRate (s : State) (p : Nat) : Nat :=
  if p < 40 then 1062500 * s.portLanes p
  else if p < 128 then (if s.flag F.PON_DS_CTRL_MODE (p - 64) then 497664 else 99533)
  else 1062500 * popcount 4 (s.get F.BND_STATUS_LANES (p - 128))

/-- A packet that reaches the scheduler now is cut through (R29). -/
def State.cutThrough (s : State) (x : Hdl) : Bool :=
  match s.egressOf x.queue with
  | none => false
  | some g =>
    (s.que x.queue).items = [] && s.live.all (fun h => !h.2.place.leaves g) && s.gateOpen g (s.que x.queue).gclass
      && s.lineRate g ≤ s.lineRate x.pkt.port

/-! The same packet's other handles. -/

/-- Another handle holds the same packet. -/
def samePkt (a b : Hdl) : Bool := a.pkt.port = b.pkt.port && a.pkt.seq = b.pkt.seq

/-- Copies of a packet that still wait for their exception records are discarded with it (R390). -/
def State.dropRecords (s : State) (x : Hdl) : State :=
  (s.live.filter (fun h => samePkt h.2 x && h.2.exq.isSome && h.2.place = .reseq outHOST)).foldl (fun s h => s.release h.1 outHOST) s

/-- A stored packet found bad is dropped and counted at its ingress port, with its waiting copies; a copy for a record goes
uncounted while the packet itself is still held (R390). -/
def State.dropBad (s : State) (h : Nat) (x : Hdl) (out : Nat) : State :=
  let other := s.live.any (fun k => k.1 ≠ h && samePkt k.2 x)
  let s1 := s.release h out
  if x.exq.isSome then (if other then s1 else s1.count 0x01 x.pkt.port 0x0A)
  else (s1.count 0x01 x.pkt.port 0x0A).dropRecords x

/-! Release by a resequencer (R388). -/

/-- The oldest packet of a port that waits at an output. -/
def State.nextAt (s : State) (out port : Nat) : Option (Nat × Hdl) :=
  (s.dp.swc.filterMap (fun h => (s.hdl h).map (fun x => (h, x)))).find? (fun e => e.2.pkt.port = port && e.2.place = .reseq out)

/-- It goes to its queue, or its record is written (R346, R389, R390, R405). -/
def State.deliver (s : State) (h : Nat) (x : Hdl) (out : Nat) : State :=
  match x.exq with
  | some r => if x.pkt.bad then s.dropBad h x out else (s.exqDeliver x.pkt r).release h out
  | none =>
    match s.egressOf x.queue with
    | none => s.enqueue h x.queue
    | some g =>
      if !s.admits g then (s.count 0x02 g 0x03).release h out
      else if s.cutThrough x then
        let s1 := (s.setHdl h (some { x with stomp := x.pkt.bad })).enqueue h x.queue
        let s2 := if (s1.que x.queue).items.contains h then s1.count 0x02 g 0x06 else s1
        if x.pkt.bad then s2.dropRecords x else s2
      else if x.pkt.bad then s.dropBad h x out
      else s.enqueue h x.queue

/-- RESEQ_RELEASE: an output releases the oldest packet of a port (R388); one that waits in the port's ingress quoin then
enters (R389). -/
def execReseqRelease (out : Fin 14) (port : Nat) (s : State) : Host.Outcome State Fault Refusal :=
  match s.nextAt out port with
  | none => .next s
  | some (h, x) =>
    let s1 := { s with dp := { s.dp with swc := s.dp.swc.erase h } }
    let s2 := s1.perfEvent 0x05 out (ceilDiv x.pkt.bytes.length 256)
    .next ((if s2.safe then s2.release h out else s2.deliver h x out).nextWaiting port)

/-! The last word leaves (R379). -/

/-- A frame with its FCS inverted (R30). -/
def stompFcs (bs : List Byte) : List Byte := body bs ++ (bs.drop (bs.length - 4)).map (fun b => ~~~b)

/-- A packet's bytes as its egress sends them: R-TAG, time-stamps, stomped tail (R30, R462, R486). -/
def State.wireBytes (s : State) (g : Nat) (x : Hdl) : List Byte :=
  let b1 := match x.fseq with | some n => if g < 40 then addRtag x.pkt.bytes n else x.pkt.bytes | none => x.pkt.bytes
  if x.stomp then (if g < 128 then stompFcs b1 else b1) else s.stampOut g x.pkt.rx b1

/-- Count a packet sent, or stomped, at its egress (R390, R541). -/
def State.countSent (s : State) (g len : Nat) (stomp : Bool) : State :=
  if stomp then s.count 0x02 g 0x04 else (s.count 0x02 g 0x00).count 0x02 g 0x01 len

/-- The packet goes out through its egress; on a tree, one whose key cannot be used is dropped instead (R438). -/
def State.sendOut (s : State) (g u gem : Nat) (enc : Bool) (x : Hdl) : State :=
  let bs := s.wireBytes g x
  if 64 ≤ g ∧ g < 128 then
    let t := g - 64
    match s.downFrame t u gem enc bs with
    | none => s.keyErr t u
    | some (idx, bs') =>
      let s1 := (s.countSent g bs'.length x.stomp).emit (.packet g u gem idx bs' x.stomp)
      ((s1.count 0x03 t 0x07).count 0x04 (t * 256 + u) 0x08).count 0x04 (t * 256 + u) 0x09 bs'.length
  else (s.countSent g bs.length x.stomp).emit (.packet g 0 0 0 bs x.stomp)

/-- HANDLE_RELEASE: the last word of a leaving packet is handed to its egress quoin and its handle returns; where the port
went down meanwhile its words are discarded (R379, R390). -/
def execHandleRelease (h : Nat) (s : State) : Host.Outcome State Fault Refusal :=
  match s.hdl h with
  | none => .next s
  | some x =>
    match x.place with
    | .leaving g enc u gem =>
      let s1 := if s.linkUp g && !s.safe then s.sendOut g u gem enc x else s.count 0x02 g 0x03
      .next ({ s1 with pwr := { s1.pwr with completed := s1.pwr.completed + 1 } }.release h (outputOf g))
    | _ => .next s

end Sys2Proof.Machine
end

