-- ==== Sys2Proof/Machine/Telemetry.lean ====
section
/-! DEFINITION. Sillage: the records of an epoch, coalescing, delivery to the host ring and to an uplink, and the registers of
the block (R548 to R560). -/
namespace Sys2Proof.Machine

/-! Delivery (R556 to R559). -/

/-- Bytes of the host ring (R557). -/
def State.ringBytes (s : State) : Nat := 2 ^ (24 + s.get F.TEL_CTRL_RSIZE)

/-- Unread bytes: WR − RD modulo 2^29. -/
def State.unread (s : State) : Nat := (s.get F.TEL_WR_WR + 2 ^ 29 - s.get F.TEL_RD_RD) % 2 ^ 29

/-- The stream goes to an uplink. -/
def State.telUplink (s : State) : Bool := s.flag F.TEL_CTRL_DEST

/-- COALEV or AVAIL goes from 0 to 1: interrupt source 30 (R560). -/
def State.telFlag (s : State) (f : Fld) : State := if s.flag f then s else (s.set f 1).signal 30

/-- Bytes of the staging ring (R559). -/
def Chip.stagingBytes (c : Chip) : Nat := if c.stackmem then 2 ^ 30 else 2 ^ 23

/-- Bytes that wait in the staging ring, the open frame among them. -/
def State.stagedBytes (s : State) : Nat := (s.tel.staged.map List.length).foldl (· + ·) 0 + 8 * s.tel.frame.length

/-- Free bytes of the ring in use. -/
def State.telFree (s : State) : Nat := if s.telUplink then s.chip.stagingBytes - s.stagedBytes else s.ringBytes - s.unread

/-- Words placed in the host ring at byte counter WR, which advances past them. -/
def State.ringPut (s : State) (ws : List Word) : State :=
  let n := s.ringBytes / 8
  let at_ := s.get F.TEL_WR_WR / 8
  let put := fun (r : SMap Word × Nat) (w : Word) => (sput 0 r.1 ((at_ + r.2) % n) w, r.2 + 1)
  let s1 := { s with tel := { s.tel with ring := (ws.foldl put (s.tel.ring, 0)).1 } }
  s1.set F.TEL_WR_WR ((s.get F.TEL_WR_WR + 8 * ws.length) % 2 ^ 29)

/-- Bytes left before the host ring's end. -/
def State.ringLeft (s : State) : Nat := s.ringBytes - s.get F.TEL_WR_WR % s.ringBytes

/-- A record in the host ring, after a PAD record where it would cross the end; none where it does not fit (R556, R557). -/
def State.ringRecord (s : State) (ws : List Word) : Option State :=
  let left := s.ringLeft
  let pad := if left < 8 * ws.length then left else 0
  if s.telFree < pad + 8 * ws.length then none
  else
    let n := pad / 8
    let s1 := if pad = 0 then s else s.ringPut (BitVec.ofNat 36 (15 * 2 ^ 32 + n) :: List.replicate (n - 1) 0)
    let s2 := s1.ringPut ws
    some (if s2.get F.TEL_ITHR_ITHR ≤ s2.unread then s2.telFlag F.TEL_STATUS_AVAIL else s2)

/-- Bytes of a sillage frame beside its records: addresses, tag, ethertype, header, FCS (R559). -/
def State.frameOverhead (s : State) : Nat := 12 + (if s.flag F.TEL_UPL_TAGEN then 4 else 0) + 2 + 16 + 4

/-- The bytes of the open frame (R559). -/
def State.sillageBytes (s : State) : List Byte :=
  let g := (s.egressOf (s.get F.TEL_UPL_QUEUE)).getD 0
  let mac := fun (hi lo : Nat) => beBytes 2 hi ++ beBytes 4 lo
  let tag := if s.flag F.TEL_UPL_TAGEN then beBytes 2 0x8100 ++ beBytes 2 (s.get F.TEL_UPL_PCP * 8192 + s.get F.TEL_UPL_VID) else []
  let head := beBytes 4 0x01000000 ++ beBytes 4 s.tel.frameSeq ++ beBytes 2 (s.get F.SYS_ID_DEVID) ++ beBytes 2 s.tel.frameRecs ++ beBytes 4 0
  let bs := mac (s.get F.TEL_DMAC_HI_MAC) (s.get F.TEL_DMAC_LO_MAC) ++ mac (s.get F.TEL_PORT_MAC_HI_MAC g) (s.get F.TEL_PORT_MAC_LO_MAC g)
    ++ tag ++ beBytes 2 0x88B5 ++ head ++ (s.tel.frame.map (fun w => leBytes 8 w.toNat)).flatten
  bs ++ fcsOf bs

/-- The port number of packets the device itself makes. -/
def portSELF : Nat := 255

/-- Sillage frames in the queue. -/
def State.sillageQueued (s : State) : Nat :=
  (s.live.filter (fun e => e.2.pkt.port = portSELF && match e.2.place with | .queued _ => true | _ => false)).length

/-- The handle and buffer of a packet of the device's own, which waits where one is lacking (R380). -/
def State.ownPacket (s : State) (bs : List Byte) (q seq : Nat) : Option State :=
  match s.takeHdl with
  | (_, none) => none
  | (s1, some h) =>
    match s1.seekBuf 0 false 4 (s1.poolFor bs.length) with
    | .got s2 p i =>
      let x : Hdl := { pkt := { port := portSELF, seq, bytes := bs }, pool := p, index := i, place := .queued q, queue := q }
      some ((s2.setHdl h (some x)).enqueue h q)
    | _ => none

/-- Staged frames move to the queue while it holds fewer than eight; a frame for a port that is down is dropped at admission
(R380, R391, R559). -/
def State.sillagePump : Nat → State → State
  | 0, s => s
  | n + 1, s =>
    match s.tel.staged with
    | [] => s
    | bs :: rest =>
      let q := s.get F.TEL_UPL_QUEUE
      let s1 := { s with tel := { s.tel with staged := rest } }
      if 8 ≤ s.sillageQueued then s
      else
        match s.egressOf q with
        | some g =>
          if !s.admits g then State.sillagePump n (s1.count 0x02 g 0x02)
          else
            match s1.ownPacket bs q (s.tel.frameSeq + s.tel.staged.length) with
            | some s2 => State.sillagePump n s2
            | none => s
        | none =>
          match s1.ownPacket bs q (s.tel.frameSeq + s.tel.staged.length) with
          | some s2 => State.sillagePump n s2
          | none => s

/-- The open frame is closed and staged (R559). -/
def State.closeFrame (s : State) : State :=
  if s.tel.frame = [] then s
  else
    let bs := s.sillageBytes
    { s with tel := { s.tel with frame := [], frameRecs := 0, frameSeq := (s.tel.frameSeq + 1) % 2 ^ 32, staged := s.tel.staged ++ [bs] } }

/-- A record in the open frame, which is closed first where the record would carry it past FRMLEN; none where the staging
ring is full (R559). -/
def State.frameRecord (s : State) (ws : List Word) : Option State :=
  if s.telFree < 8 * ws.length then none
  else
    let s1 := if s.get F.TEL_CTRL_FRMLEN < s.frameOverhead + 8 * (s.tel.frame.length + ws.length) then s.closeFrame else s
    some { s1 with tel := { s1.tel with frame := s1.tel.frame ++ ws, frameRecs := s1.tel.frameRecs + 1 } }

/-- Write a record: true where it was written. Coalescing begins with the first that does not fit, and none is written while
it lasts (R556). -/
def State.telRecord (s : State) (ws : List Word) : State × Bool :=
  if s.flag F.TEL_STATUS_COAL then (s, false)
  else
    match if s.telUplink then s.frameRecord ws else s.ringRecord ws with
    | some s1 => (s1, true)
    | none => ((s.set F.TEL_STATUS_COAL 1).telFlag F.TEL_STATUS_COALEV, false)

/-! Records (R553 to R555). -/

/-- Word 0: TYPE, COAL, MERGED and the record's own bits. -/
def recHead (type merged low : Nat) : Word :=
  BitVec.ofNat 36 (type * 2 ^ 32 + (if merged = 0 then 0 else 2 ^ 31) + min 8191 merged * 2 ^ 18 + low % 2 ^ 18)

/-- A number cut to its field's largest value. -/
def sat (n v : Nat) : Nat := min (2 ^ n - 1) v

/-- Queues that hold merged data. -/
def State.qpend (s : State) : Nat := sat 20 (s.tel.queues.filter (fun e => e.2.merged ≠ 0)).length

/-- EPOCH. -/
def State.epochRec (s : State) : List Word :=
  [recHead 1 s.tel.epochMerged 0, BitVec.ofNat 36 s.clk.frame, s.now, BitVec.ofNat 36 s.qpend]

/-- DEVICE. -/
def State.deviceRec (s : State) : List Word :=
  let pool := fun p => BitVec.ofNat 36 (s.get F.BUF_POOL_STATUS_STATE p * 2 ^ 32 + s.inuse p % 2 ^ 22)
  let low := s.pwr.g * 2 ^ 15 + s.pwr.frameLevel * 2 ^ 11 + b2n s.pwr.short * 2 ^ 10 + s.get F.THERM_SUMMARY_THROTTLE * 2 ^ 9
    + s.get F.PWR_COMMIT_EBUDGET
  [recHead 2 s.tel.devMerged low, pool 0, pool 1, pool 2, pool 3, pool 4,
   BitVec.ofNat 36 (s.get F.PWR_GOV_STATUS_CAPACITY * 2 ^ 15 + b2n s.tel.hit * 2 ^ 14),
   BitVec.ofNat 36 (s.domState 0 * 2 ^ 32 + s.domState 1 * 2 ^ 28 + s.sel.val * 2 ^ 27 + s.get F.TIME_STATUS_SLEWLIM * 2 ^ 26
     + s.get F.TIME_FREQ_STATUS_STATE * 2 ^ 24 + s.get F.TIME_STATUS_LOCKEDONCE * 2 ^ 23 + s.tel.devEv.toNat * 2 ^ 19)]

/-- The flags of a tree that stand set now: STRAY, SKIP, MISS, BONDDEG, ROGUE, CONT. -/
def State.treeFlags (s : State) (t : Nat) : Nat :=
  s.get F.PON_TREE_STATUS_STRAY t * 128 + s.get F.PON_TREE_STATUS_SKIP t * 64 + s.get F.PON_TREE_STATUS_MISS t * 32
    + s.get F.PON_TREE_STATUS_BONDDEG t * 16 + s.get F.PON_ROGUE_STATUS_ROGUE t * 8 + s.get F.PON_ROGUE_STATUS_CONT t * 4

/-- TREE. -/
def State.treeRec (s : State) (t : Nat) (a : TAcc) : List Word :=
  let low := t * 2 ^ 12 + s.get F.PON_TREE_STATUS_ENABLED t * 2 ^ 11 + s.get F.PON_TREE_STATUS_LOS t * 2 ^ 10
    + (a.flags.toNat ||| s.treeFlags t) * 4 + s.get F.PON_ALIGN_STATUS_STATE t
  [recHead 3 a.merged low, BitVec.ofNat 36 (sat 12 a.expected * 2 ^ 24 + sat 12 a.received * 2 ^ 12 + sat 12 a.missing)]

/-- PORT. -/
def State.portRec (s : State) (p : Nat) (a : PAcc) : List Word :=
  let up := if p < 40 then s.get F.UPL_PORT_STATUS_UP p else b2n (s.get F.BND_STATUS_STATE (p - 128) = bnUP)
  let degr := if p < 40 then 0 else s.get F.BND_STATUS_DEGR (p - 128)
  let rx := if p < 40 then a.rx.toNat ||| s.get F.UPL_FC_STATUS_RXPAUSED p else a.rx.toNat
  let tx := if p < 40 then a.tx.toNat ||| s.get F.UPL_FC_STATUS_TXPAUSED p else a.tx.toNat
  [recHead 5 a.merged (p * 2 ^ 10 + up * 2 ^ 9 + b2n a.downEv * 2 ^ 8 + b2n a.upEv * 2 ^ 7 + degr * 2 ^ 6),
   BitVec.ofNat 36 (rx * 2 ^ 28 + tx * 2 ^ 20)]

/-- QUEUE (R429, R554). -/
def State.queueRec (s : State) (q : Nat) (a : QAcc) : List Word :=
  let units := fun b => sat 18 (ceilDiv b 256)
  [recHead 4 a.merged q, s.now,
   BitVec.ofNat 36 (sat 18 (s.depthPkts q) * 2 ^ 18 + units (s.depthBytes q)),
   BitVec.ofNat 36 (units (max a.maxDepth (s.depthBytes q)) * 2 ^ 18),
   BitVec.ofNat 36 (sat 36 (s.hoqDelay q)), BitVec.ofNat 36 (sat 36 (max a.maxHoq (s.hoqDelay q))),
   BitVec.ofNat 36 (sat 36 a.dqPkt), BitVec.ofNat 36 (sat 36 a.dqByte),
   BitVec.ofNat 36 (sat 12 a.dropG * 2 ^ 24 + sat 12 a.dropY * 2 ^ 12 + sat 12 a.dropR)]

/-! An epoch (R551, R552, R556). -/

def State.epochOut (s : State) : State :=
  match s.telRecord s.epochRec with
  | (s1, true) => { s1 with tel := { s1.tel with epochMerged := 0 } }
  | (s1, false) => { s1 with tel := { s1.tel with epochMerged := s1.tel.epochMerged + 1 } }

def State.deviceOut (s : State) : State :=
  match s.telRecord s.deviceRec with
  | (s1, true) => { s1 with tel := { s1.tel with devMerged := 0, hit := false, devEv := 0 } }
  | (s1, false) => { s1 with tel := { s1.tel with devMerged := s1.tel.devMerged + 1 } }

/-- A TREE record; where it is not written, the flags that stand set belong to the interval that goes on. -/
def State.treeOut (s : State) (t : Nat) : State :=
  let a := sget {} s.tel.trees t
  match s.telRecord (s.treeRec t a) with
  | (s1, true) => { s1 with tel := { s1.tel with trees := sput {} s1.tel.trees t {} } }
  | (s1, false) => s1.treeAcc t (fun a => { a with merged := a.merged + 1, flags := a.flags ||| BitVec.ofNat 8 (s1.treeFlags t) })

def State.portOut (s : State) (p : Nat) : State :=
  let a := sget {} s.tel.ports p
  match s.telRecord (s.portRec p a) with
  | (s1, true) => { s1 with tel := { s1.tel with ports := sput {} s1.tel.ports p {} } }
  | (s1, false) => s1.modPort p (fun a => { a with merged := a.merged + 1 })

/-- An EVENT record, or one more not written. -/
def State.eventOut (s : State) (e : Nat × Word) : State :=
  match s.telRecord [recHead 6 0 e.1, e.2] with
  | (s1, true) => s1
  | (s1, false) => s1.inc F.TEL_CNT_EVDROP 1

/-- The ports that have records: uplink lanes with CONF 1 and present bundles. -/
def State.telPorts (s : State) : List Nat :=
  ((range' 0 40).filter (fun l => s.flag F.UPL_PORT_CTRL_CONF l)) ++ (if s.chip.bond then range' 128 4 else [])

/-- The events of the epoch before: at most 256 are written. -/
def State.eventsOut (s : State) : State :=
  let s1 := (s.tel.events.take 256).foldl State.eventOut s
  let s2 := s1.inc F.TEL_CNT_EVDROP (s.tel.events.length - 256)
  { s2 with tel := { s2.tel with events := [] } }

/-- Coalescing ends where an eighth of the ring is free (R556). -/
def State.coalEnd (s : State) : State :=
  let size := if s.telUplink then s.chip.stagingBytes else s.ringBytes
  if s.flag F.TEL_STATUS_COAL then
    if size ≤ 8 * s.telFree then s.set F.TEL_STATUS_COAL 0 else s.inc F.TEL_CNT_COALEP 1
  else s

/-- A frame boundary for the stream: the epoch before ends, and with it the stream where EN has been cleared; else the fixed
records of the next are written (R551, R557, R559). -/
def State.epoch (s : State) : State :=
  if !s.flag F.TEL_STATUS_ENABLED then { s with tel := { s.tel with events := [] } }
  else
    let s1 := if s.telUplink then s.closeFrame.sillagePump 8 else s
    if s1.tel.stopping then
      let s2 := (s1.set F.TEL_STATUS_ENABLED 0).inc F.TEL_CNT_EVDROP s1.tel.events.length
      { s2 with tel := { s2.tel with stopping := false, events := [] } }
    else
      let s2 := s1.coalEnd.epochOut.deviceOut
      (s2.telPorts.foldl State.portOut ((range' 0 s2.chip.trees).foldl State.treeOut s2)).eventsOut

/-- QUEUE_SAMPLE: a queue's sample at a sampling instant; a queue with EN 0 and no packets is not sampled, and a sample of
nothing counts as written (R428, R429, R552). -/
def execQueueSample (q : Fin 262144) (s : State) : Host.Outcome State Fault Refusal :=
  let a := sget {} s.tel.queues q
  let idle := s.depthPkts q = 0 && !a.enq && a.dqPkt = 0 && a.dropG = 0 && a.dropY = 0 && a.dropR = 0
  let fresh : QAcc := { maxDepth := s.depthBytes q }
  if !s.flag F.TEL_STATUS_ENABLED || (!(s.que q).en && s.depthPkts q = 0) then .next s
  else if idle then .next (s.modQAcc q (fun _ => fresh))
  else
    match s.telRecord (s.queueRec q a) with
    | (s1, true) => .next (s1.modQAcc q (fun _ => fresh))
    | (s1, false) => .next (s1.modQAcc q (fun a => { a with merged := a.merged + 1 }))

/-! Registers (R538, R547, R548, R550, R557 to R560). -/

/-- The stream starts: counters and accounts begin anew (R552, R557, R559). -/
def State.telStart (s : State) : State :=
  let s1 := (((s.set F.TEL_WR_WR 0).set F.TEL_RD_RD 0).set F.TEL_STATUS_ENABLED 1).set F.TEL_STATUS_COAL 0
  { s1 with tel := { s1.tel with stopping := false, events := [], epochMerged := 0, devMerged := 0, hit := false, devEv := 0
                                 queues := [], trees := [], ports := [], frame := [], frameRecs := 0, frameSeq := 0, staged := [] } }

/-- EN with DEST 1 cannot run: no uplink port is configured, or the queue is not rooted at one (R557). -/
def State.telUnrooted (s : State) : Bool :=
  (range' 0 40).all (fun l => !s.flag F.UPL_PORT_CTRL_CONF l) ||
    (match s.egressOf (s.get F.TEL_UPL_QUEUE) with | some g => 40 ≤ g | none => true)

/-- A write of TEL_CTRL (R557, R558). -/
def State.telCtrlWrite (s : State) (r : Reg) (v : Word) : WriteRes :=
  let en := fv v F.TEL_CTRL_EN = 1
  let was := s.flag F.TEL_CTRL_EN
  let size := fv v F.TEL_CTRL_RSIZE
  let len := fv v F.TEL_CTRL_FRMLEN
  let change := fv v F.TEL_CTRL_DEST ≠ s.get F.TEL_CTRL_DEST || size ≠ s.get F.TEL_CTRL_RSIZE || len ≠ s.get F.TEL_CTRL_FRMLEN
  judge (0 < size && !s.chip.stackmem) (4 < size || len < 256 || 9728 < len)
    ((was && change) || (en && !was && fv v F.TEL_CTRL_DEST = 1 && s.telUnrooted))
    (let s1 := s.plainWrite r v
     .done (if en && !was then s1.telStart else if was && !en then { s1 with tel := { s1.tel with stopping := true } } else s1))

/-- A write of TEL_RD (R557). -/
def State.telRdWrite (s : State) (r : Reg) (v : Word) : WriteRes :=
  let rd := fv v F.TEL_RD_RD
  let left := (s.get F.TEL_WR_WR + 2 ^ 29 - rd) % 2 ^ 29
  judge false (s.ringBytes < left || rd % 8 ≠ 0) false (.done (s.plainWrite r v))

/-- A write of PC_FRZ_CTRL (R548). -/
def State.freezeWrite (s : State) (v : Word) : WriteRes :=
  let arm := fv v F.PC_FRZ_CTRL_ARM = 1
  let resume := fv v F.PC_FRZ_CTRL_RESUME = 1
  let busy := s.flag F.PC_FRZ_CTRL_ARMED || s.flag F.PC_FRZ_CTRL_FROZEN
  judge false (arm && timeBefore (s.rd .PC_FRZ_AT) (s.now + 1000)) ((arm && busy) || (resume && !busy))
    (.done (if arm then s.set F.PC_FRZ_CTRL_ARMED 1
      else if resume then (s.set F.PC_FRZ_CTRL_ARMED 0).set F.PC_FRZ_CTRL_FROZEN 0 else s))

/-- A write of a register of the block (R538). -/
def State.telWrite (s : State) (r : Reg) (v : Word) : WriteRes :=
  match r.id with
  | .TEL_CTRL => s.telCtrlWrite r v
  | .TEL_RD => s.telRdWrite r v
  | .TEL_ITHR => judge false (fv v F.TEL_ITHR_ITHR < 8 || s.ringBytes < fv v F.TEL_ITHR_ITHR) false (.done (s.plainWrite r v))
  | .TEL_PORT_MAC_HI => judge false (bit (fv v F.TEL_PORT_MAC_HI_MAC) 8) false (.done (s.plainWrite r v))
  | .PC_FRZ_CTRL => s.freezeWrite v
  | _ => .done (s.plainWrite r v)

end Sys2Proof.Machine
end

