-- ==== Sys2Proof/Machine/Clock.lean ====
section
/-! DEFINITION. Quoin 24's clock and the frame boundary (R36, R211, R446, R447, R453, R509, R519, R551, R567). -/
namespace Sys2Proof.Machine

/-- Cycles of a frame (R21, R567). -/
def frameCycles : Nat := 155520

/-- A domain's clock less the time base after n cycles: the two run at their own rates (R450, R453). -/
def State.domGap (s : State) (n : Nat) (d : Fin 2) : DomSt :=
  let x := s.dom d
  if s.domState d = domFREE then x
  else { x with gap := x.gap + (n : Int) * 3125 * (signed 36 (s.get F.TIME_DOM_FREQ_FREQ d) - signed 36 (s.get F.TIME_RATE_A)) }

/-- n cycles pass with nothing else happening: the time base, the domains' clocks and the performance counters (R447, R544). -/
def State.cycles (s : State) (n : Nat) : State :=
  let s1 := (s.setDom 0 (s.domGap n 0)).setDom 1 (s.domGap n 1)
  let s2 := { s1 with clk := { s1.clk with
    cycle := s.clk.cycle + n
    total := s.clk.total + n
    tb := ((s.clk.tb : Int) + (n : Int) * s.tbInc).toNat } }
  s2.perfTick n

/-- n cycles of quoin 24; the last of a frame lasts until the boundary comes (log 2). -/
def State.advance (s : State) (n : Nat) : State :=
  if s.clk.running then s.cycles (min n (frameCycles - 1 - s.clk.cycle)) else s

/-- The clock moves on to the next frame (R567). -/
def State.nextFrame (s : State) : State :=
  let s1 := s.cycles (frameCycles - s.clk.cycle)
  { s1 with clk := { s1.clk with cycle := 0, frame := s1.clk.frame + 1 } }

/-- FRAME_BOUNDARY: the governor's figures, the capacity cap, the time base's steering, the time-of-day transmitters, every
tree's map and program, the ages, the residency counts and the telemetry stream. In Deep only quoin 25 counts (R211, R312,
R412, R447, R449, R465, R504 to R509, R515, R519, R551, R567). -/
def execFrameBoundary (s : State) : Host.Outcome State Fault Refusal :=
  if s.boot.inReset then .next s
  else if s.pwr.deep = 2 then
    let s1 := s.countResidency
    .next { s1 with tim := { s1.tim with aonTb := s1.tim.aonTb + 125000 * tbPerNs } }
  else if !s.clk.running then .next s
  else
    let s1 := s.nextFrame.govBoundary
    let s2 := ((s1.capFrame (s1.get F.PWR_GOV_STATUS_CAPACITY) s1.loadDown).steer.todDrain 0).todDrain 1
    let s3 := (s2.trees.foldl State.treeBoundary s2).ageAllocs
    let s4 := if s3.pwr.deep = 1 then (range' 0 64).foldl State.haltEngine s3 else s3
    .next s4.countResidency.epoch

end Sys2Proof.Machine
end

