-- ==== Sys2Proof/Machine/Arith.lean ====
section
/-! DEFINITION. Arithmetic and logic: major opcodes 0x00 to 0x0A (R180 to R182). -/
namespace Sys2Proof.Machine

/-- A register-form operation: d receives f a b, with its flags. -/
def State.regOp (e : Eng) (i : Instr) (d a b : RegNo) (cost : Nat) (f : Word → Word → Bool → Alu) (s : State) :
    Host.Outcome State Fault Refusal :=
  instr e i [d, a, b] cost (fun s => .ok (s.putAlu e d (f (s.reg e a) (s.reg e b) (s.eng e).fc))) s

/-- An immediate form: d receives f a, with its flags, or the instruction completes with ERANGE. -/
def State.immOp (e : Eng) (i : Instr) (d a : RegNo) (f : Word → Word → Option Alu) (s : State) :
    Host.Outcome State Fault Refusal :=
  instr e i [d, a] 1 (fun s =>
    match f (s.reg e d) (s.reg e a) with
    | some r => .ok (s.putAlu e d r)
    | none => .fail .erange s) s

/-- The field w bits wide at lsb, where it lies within the word (R182). -/
def fieldArgs (imm : BitVec 20) : Option (Nat × Nat) :=
  let lsb := bits imm.toNat 11 6
  let w := bits imm.toNat 5 0
  if w = 0 ∨ 36 < lsb + w then none else some (lsb, w)

/-- The kind and amount of SHI, where the amount is at most 35 (R181, R182). -/
def shiArgs (imm : BitVec 20) : Option (ShiftKind × Nat) :=
  let n := bits imm.toNat 5 0
  if 35 < n then none else some (shiftKind (bits imm.toNat 7 6), n)

/-- ADD: d ← a + b (R180). -/
def execAdd (e : Eng) (d a b : RegNo) (s : State) : Host.Outcome State Fault Refusal :=
  State.regOp e (.add e d a b) d a b 1 (fun a b _ => aluAdd a b false) s

/-- ADC: d ← a + b + C (R180). -/
def execAdc (e : Eng) (d a b : RegNo) (s : State) : Host.Outcome State Fault Refusal :=
  State.regOp e (.adc e d a b) d a b 1 (fun a b c => aluAdd a b c) s

/-- SUB: d ← a - b (R180). -/
def execSub (e : Eng) (d a b : RegNo) (s : State) : Host.Outcome State Fault Refusal :=
  State.regOp e (.sub e d a b) d a b 1 (fun a b _ => aluSub a b false) s

/-- SBC: d ← a - b - C (R180). -/
def execSbc (e : Eng) (d a b : RegNo) (s : State) : Host.Outcome State Fault Refusal :=
  State.regOp e (.sbc e d a b) d a b 1 (fun a b c => aluSub a b c) s

/-- AND: d ← a and b (R180). -/
def execAnd (e : Eng) (d a b : RegNo) (s : State) : Host.Outcome State Fault Refusal :=
  State.regOp e (.and_ e d a b) d a b 1 (fun a b _ => aluLogic (a &&& b)) s

/-- OR: d ← a or b (R180). -/
def execOr (e : Eng) (d a b : RegNo) (s : State) : Host.Outcome State Fault Refusal :=
  State.regOp e (.or_ e d a b) d a b 1 (fun a b _ => aluLogic (a ||| b)) s

/-- XOR: d ← a xor b (R180). -/
def execXor (e : Eng) (d a b : RegNo) (s : State) : Host.Outcome State Fault Refusal :=
  State.regOp e (.xor e d a b) d a b 1 (fun a b _ => aluLogic (a ^^^ b)) s

/-- ANDN: d ← a and not b (R180). -/
def execAndn (e : Eng) (d a b : RegNo) (s : State) : Host.Outcome State Fault Refusal :=
  State.regOp e (.andn e d a b) d a b 1 (fun a b _ => aluLogic (a &&& ~~~b)) s

/-- SHL: d ← a shifted left by b[5:0] (R180). -/
def execShl (e : Eng) (d a b : RegNo) (s : State) : Host.Outcome State Fault Refusal :=
  State.regOp e (.shl e d a b) d a b 1 (fun a b _ => aluShiftBy .shl a (wbits b 5 0)) s

/-- SHR: d ← a shifted right by b[5:0] (R180). -/
def execShr (e : Eng) (d a b : RegNo) (s : State) : Host.Outcome State Fault Refusal :=
  State.regOp e (.shr e d a b) d a b 1 (fun a b _ => aluShiftBy .shr a (wbits b 5 0)) s

/-- SAR: d ← a shifted right arithmetically by b[5:0] (R180). -/
def execSar (e : Eng) (d a b : RegNo) (s : State) : Host.Outcome State Fault Refusal :=
  State.regOp e (.sar e d a b) d a b 1 (fun a b _ => aluShiftBy .sar a (wbits b 5 0)) s

/-- ROR: d ← a rotated right by b[5:0] mod 36 (R180). -/
def execRor (e : Eng) (d a b : RegNo) (s : State) : Host.Outcome State Fault Refusal :=
  State.regOp e (.ror e d a b) d a b 1 (fun a b _ => aluShiftBy .ror a (wbits b 5 0)) s

/-- MUL: the low 36 bits of the product (R180). -/
def execMul (e : Eng) (d a b : RegNo) (s : State) : Host.Outcome State Fault Refusal :=
  State.regOp e (.mul e d a b) d a b 4 (fun a b _ => aluLogic (a * b)) s

/-- MULHU: the high 36 bits of the unsigned product (R180). -/
def execMulhu (e : Eng) (d a b : RegNo) (s : State) : Host.Outcome State Fault Refusal :=
  State.regOp e (.mulhu e d a b) d a b 4 (fun a b _ => aluLogic (BitVec.ofNat 36 (a.toNat * b.toNat / 2 ^ 36))) s

/-- MINU: the smaller, unsigned (R180). -/
def execMinu (e : Eng) (d a b : RegNo) (s : State) : Host.Outcome State Fault Refusal :=
  State.regOp e (.minu e d a b) d a b 1 (fun a b _ => aluZN (if a.toNat ≤ b.toNat then a else b)) s

/-- MAXU: the larger, unsigned (R180). -/
def execMaxu (e : Eng) (d a b : RegNo) (s : State) : Host.Outcome State Fault Refusal :=
  State.regOp e (.maxu e d a b) d a b 1 (fun a b _ => aluZN (if a.toNat ≤ b.toNat then b else a)) s

/-- CMP: flags of a - b; d is w0 (R180). -/
def execCmp (e : Eng) (d a b : RegNo) (s : State) : Host.Outcome State Fault Refusal :=
  State.regOp e (.cmp e d a b) d a b 1 (fun a b _ => aluSub a b false) s

/-- TST: flags of a and b; d is w0 (R180). -/
def execTst (e : Eng) (d a b : RegNo) (s : State) : Host.Outcome State Fault Refusal :=
  State.regOp e (.tst e d a b) d a b 1 (fun a b _ => aluLogic (a &&& b)) s

/-- CLZ: leading zero bits of a (R180). -/
def execClz (e : Eng) (d a b : RegNo) (s : State) : Host.Outcome State Fault Refusal :=
  State.regOp e (.clz e d a b) d a b 1 (fun a _ _ => aluZ (BitVec.ofNat 36 (leadingZeros 36 a.toNat))) s

/-- POPC: 1 bits of a (R180). -/
def execPopc (e : Eng) (d a b : RegNo) (s : State) : Host.Outcome State Fault Refusal :=
  State.regOp e (.popc e d a b) d a b 1 (fun a _ _ => aluZ (BitVec.ofNat 36 (popcount 36 a.toNat))) s

/-- DIVU: unsigned quotient (R180). -/
def execDivu (e : Eng) (d a b : RegNo) (s : State) : Host.Outcome State Fault Refusal :=
  State.regOp e (.divu e d a b) d a b 38 (fun a b _ => aluDivu a b) s

/-- REMU: unsigned remainder (R180). -/
def execRemu (e : Eng) (d a b : RegNo) (s : State) : Host.Outcome State Fault Refusal :=
  State.regOp e (.remu e d a b) d a b 38 (fun a b _ => aluRemu a b) s

/-- ADDI: d ← a + sign-extended imm20 (R181). -/
def execAddi (e : Eng) (d a : RegNo) (imm : BitVec 20) (s : State) : Host.Outcome State Fault Refusal :=
  State.immOp e (.addi e d a imm) d a (fun _ x => some (aluAdd x (sx20 imm) false)) s

/-- CMPI: flags of a - sign-extended imm20; d is w0 (R181). -/
def execCmpi (e : Eng) (d a : RegNo) (imm : BitVec 20) (s : State) : Host.Outcome State Fault Refusal :=
  State.immOp e (.cmpi e d a imm) d a (fun _ x => some (aluSub x (sx20 imm) false)) s

/-- ANDI: d ← a and zero-extended imm20 (R181). -/
def execAndi (e : Eng) (d a : RegNo) (imm : BitVec 20) (s : State) : Host.Outcome State Fault Refusal :=
  State.immOp e (.andi e d a imm) d a (fun _ x => some (aluLogic (x &&& zx20 imm))) s

/-- ORI: d ← a or zero-extended imm20 (R181). -/
def execOri (e : Eng) (d a : RegNo) (imm : BitVec 20) (s : State) : Host.Outcome State Fault Refusal :=
  State.immOp e (.ori e d a imm) d a (fun _ x => some (aluLogic (x ||| zx20 imm))) s

/-- XORI: d ← a xor zero-extended imm20 (R181). -/
def execXori (e : Eng) (d a : RegNo) (imm : BitVec 20) (s : State) : Host.Outcome State Fault Refusal :=
  State.immOp e (.xori e d a imm) d a (fun _ x => some (aluLogic (x ^^^ zx20 imm))) s

/-- SHI: d ← a shifted by an immediate; ERANGE above 35 (R181). -/
def execShi (e : Eng) (d a : RegNo) (imm : BitVec 20) (s : State) : Host.Outcome State Fault Refusal :=
  State.immOp e (.shi e d a imm) d a (fun _ x => (shiArgs imm).map (fun p => aluShiftBy p.1 x p.2)) s

/-- BFX: d ← a field of a, zero-extended (R181). -/
def execBfx (e : Eng) (d a : RegNo) (imm : BitVec 20) (s : State) : Host.Outcome State Fault Refusal :=
  State.immOp e (.bfx e d a imm) d a (fun _ x => (fieldArgs imm).map (fun p => aluZ (BitVec.ofNat 36 (bits x.toNat (p.1 + p.2 - 1) p.1)))) s

/-- BFI: a field of d replaced by the low bits of a (R181). -/
def execBfi (e : Eng) (d a : RegNo) (imm : BitVec 20) (s : State) : Host.Outcome State Fault Refusal :=
  State.immOp e (.bfi e d a imm) d a (fun old x => (fieldArgs imm).map (fun p => aluZ (wput old (p.1 + p.2 - 1) p.1 x.toNat))) s

/-- LIL: d ← zero-extended imm25 (R181). -/
def execLil (e : Eng) (d : RegNo) (imm : BitVec 25) (s : State) : Host.Outcome State Fault Refusal :=
  instr e (.lil e d imm) [d] 1 (fun s => .ok (s.setReg e d (zx25 imm))) s

/-- LIH: d[35:25] ← imm25[10:0], d[24:0] unchanged (R181). -/
def execLih (e : Eng) (d : RegNo) (imm : BitVec 25) (s : State) : Host.Outcome State Fault Refusal :=
  instr e (.lih e d imm) [d] 1 (fun s => .ok (s.setReg e d (wput (s.reg e d) 35 25 imm.toNat))) s

end Sys2Proof.Machine
end

