-- ==== Sys2Proof/Machine/Firmware.lean ====
section
/-! DEFINITION. The plinth's images and flash: plinth images, image slots, the directory, the event-log mirror, and the
plinth's own instructions SENSE, LOGW, FLASH and UPDATE (R206, R529, R532 to R534, R537). -/
namespace Sys2Proof.Machine

/-! SPI flash (R534). -/

/-- What an erased byte reads. -/
def erased : Byte := 0xFF

/-- A byte of flash. -/
def Pln.byte (p : Pln) (a : Nat) : Byte := sget erased p.flash a

/-- Eight bytes of flash from an address, the first least significant (R134). -/
def Pln.slot (p : Pln) (a : Nat) : Nat := (range' 0 8).foldr (fun i n => n * 256 + (p.byte (a + i)).toNat) 0

/-- The first byte of image slot A or B, and the bytes of a slot. -/
def slotBase (k : Fin 2) : Nat := if k = 0 then 0x010000 else 0x410000
def slotBytes : Nat := 0x400000

/-- The directory, the log region and the platform data region (R534). -/
def inDirectory (a : Nat) : Bool := a < 0x002000
def inLogRegion (a : Nat) : Bool := 0x810000 ≤ a && a < 0x910000
def inPlatform (a : Nat) : Bool := 0x910000 ≤ a && a < 0x920000

/-- The directory copy in force: the valid one with the higher SEQ (R534). -/
def Pln.dir (p : Pln) : Dir :=
  if p.dirA.valid && (!p.dirB.valid || p.dirB.seq < p.dirA.seq) then p.dirA else if p.dirB.valid then p.dirB else {}

/-- A new directory goes into the copy that is not in force (R534). -/
def Pln.putDir (p : Pln) (active : Fin 2) (trial : Option (Fin 2)) : Pln :=
  let d : Dir := { seq := p.dir.seq + 1, active, trial, valid := true }
  if p.dirA.valid && (!p.dirB.valid || p.dirB.seq < p.dirA.seq) then { p with dirB := d } else { p with dirA := d }

/-- An event-log record of type 0x009: the manual gives the directory word no layout, so it is free (R532, R537). -/
def State.logUpdate (s : State) (origin fwver : Nat) : State :=
  let (k, s1) := s.fresh
  s1.logRec 0x009 origin (Config.freeWord k) (BitVec.ofNat 36 fwver)

/-! Images in a slot or in boot memory (R529, R534, R535). -/

/-- A plinth image: its fields. -/
def piVer (ws : List Word) : Nat := wbits (nth 0 ws 0) 15 0
def piWords (ws : List Word) : Nat := wbits (nth 0 ws 1) 35 18
def piLoad (ws : List Word) : Nat := wbits (nth 0 ws 1) 17 0
def piKey (ws : List Word) : Nat := wbits (nth 0 ws 2) 19 18
def piEntry (ws : List Word) : Nat := wbits (nth 0 ws 2) 17 0

/-- The format of a plinth image (R529). -/
def piFormat (ws : List Word) : Bool :=
  let n := piWords ws
  ws.length = 8 + n && wbits (nth 0 ws 0) 35 24 = 2 && wbits (nth 0 ws 0) 23 16 = 0 && piVer ws ≠ 0
    && decide (1 ≤ n) && decide (n ≤ 196592) && decide (0x10000 ≤ piLoad ws) && decide (piLoad ws + n ≤ 0x40000)
    && wbits (nth 0 ws 2) 35 20 = 0 && decide (piLoad ws ≤ piEntry ws) && decide (piEntry ws < piLoad ws + n)
    && wbits (nth 0 ws 3) 35 32 = 0 && tagShape ws

/-- The outcome of a plinth image's check (R112, R529). -/
def Chip.piCheck (c : Chip) (ws : List Word) : Status :=
  if !piFormat ws then .erange else if c.authentic ws (piKey ws) then .ok else .eauth

/-- The outcome of a microcode image's check against some engines (R232). -/
def Chip.paCheck (c : Chip) (ws : List Word) (targets : List Nat) : Status :=
  if !c.patchFormat ws targets then .erange else if c.authentic ws (paKey ws) then .ok else .eauth

/-- The images of a store: each kind (0 the plinth's) with its words, or none where a slot has a bit set among [63:36]. -/
abbrev Images := List (Nat × Option (List Word))

/-- Up to eight images by an index, read through a function from word offsets. -/
def imagesBy (index : List (Nat × Nat × Nat)) (slot : Nat → Nat) : Images :=
  (index.take 8).map (fun x => (x.1, slotWords ((range' x.2.1 x.2.2).map (fun o => BitVec.ofNat 64 (slot o)))))

/-- The images of a flash slot. -/
def Pln.slotImages (p : Pln) (k : Fin 2) : Images :=
  let b := slotBase k
  let mine := (p.flash.filter (fun e => b ≤ e.1 && e.1 < b + slotBytes)).map (fun e => (e.1 - b, e.2))
  imagesBy (Config.slotIndex mine) (fun o => p.slot (b + 8 * o))

/-- The images of boot memory. -/
def Boot.images (b : Boot) : Images := imagesBy (Config.bootIndex b.bootMem) (fun o => (sget 0 b.bootMem o).toNat)

/-- The outcome of one image's check. -/
def Chip.imageCheck (c : Chip) (x : Nat × Option (List Word)) : Status :=
  match x.2 with
  | none => .erange
  | some ws => if x.1 = 0 then c.piCheck ws else c.paCheck ws []

/-- The first status other than OK. -/
def firstBad : List Status → Status
  | [] => .ok
  | st :: sts => if st = .ok then firstBad sts else st

/-- The plinth image among images. -/
def Images.plinth (xs : Images) : Option (List Word) :=
  match xs.find? (fun x => x.1 = 0) with
  | some x => x.2
  | none => none

/-- The microcode image among images for a ROMVER. -/
def Images.microcode (xs : Images) (romver : Nat) : Option (List Word) :=
  match xs.find? (fun x => x.1 ≠ 0 && (match x.2 with | some ws => paRomver ws = romver | none => false)) with
  | some x => x.2
  | none => none

/-- CHECK: every image passes, and the plinth image and the running stepping's microcode are among them (R537). -/
def Chip.checkImages (c : Chip) (xs : Images) : Status :=
  let st := firstBad (xs.map c.imageCheck)
  if st ≠ .ok then st
  else if xs.plinth.isSome && (xs.microcode (c.romver 0)).isSome && (xs.microcode (c.romver 64)).isSome then .ok
  else .erange

/-- A checked plinth image is loaded and runs from its entry (R529). -/
def State.runPlinth (s : State) (ws : List Word) (trial : Bool) (slot : Option (Fin 2)) : State :=
  let s1 := s.storeRange .plinth (piLoad ws) ((ws.drop 4).take (piWords ws))
  let s2 := (s1.set F.PLN_STATUS_STATE (if trial then 3 else 2)).set F.PLN_STATUS_FWVER (piVer ws)
  { s2 with plinth := { s2.plinth with pc := piEntry ws }, pln := { s2.pln with runSlot := slot } }

/-! The flash mirror (R533). -/

/-- The log region with records appended: a full region loses its oldest 128 at a time. -/
def logRegion (old new : List LogRec) : List LogRec :=
  let l := old ++ new
  let above := l.length - 32768
  l.drop ((above + 127) / 128 * 128)

/-- New records are mirrored, or the mirror fails. -/
def State.mirrorLog (s : State) (ok : Bool) : State :=
  if !s.chip.plinth then s
  else if ok then
    { s with pln := { s.pln with
        flashLog := logRegion s.pln.flashLog (s.pln.log.filter (fun r => s.pln.mirrored ≤ r.seq))
        mirrored := s.pln.logSeq } }
  else (s.set F.PLN_STATUS_MIRRORFAIL 1).faultWrite 0x3A 0x05 0 .device 2 0 0

/-- LOG_MIRROR: the plinth mirrors the log, the event of which image firmware is told (R533, R536). -/
def execLogMirror (ok : Bool) (s : State) : Host.Outcome State Fault Refusal :=
  if s.boot.inReset || !s.boot.porDone then .next s else .next ((s.plinthEvent 6).mirrorLog ok)

/-! SENSE and LOGW (R206, R531, R532). -/

/-- The word SENSE returns for an index below 88. -/
def State.senseWord (s : State) (i : Nat) : Word := if i < 64 then s.rd .THERM_TEMP i else s.rd .FLT_VMON (i - 64)

/-- SENSE: the reading of a sensor or monitor. -/
def execSense (e : Eng) (d a b : RegNo) (s : State) : Host.Outcome State Fault Refusal :=
  instr e (.sense e d a b) [d, a] 3 (fun s =>
    let i := (s.reg e a).toNat
    if 88 ≤ i then .fail .erange s else .ok (s.setReg e d (s.senseWord i))) s

/-- LOGW: a record of the firmware's is appended to the event log. -/
def execLogw (e : Eng) (d a b : RegNo) (s : State) : Host.Outcome State Fault Refusal :=
  instr e (.logw e d a b) [a] 8 (fun s =>
    s.image e (s.reg e a) 3 (fun ws =>
      let type := wbits (nth 0 ws 0) 11 0
      if type < 0x800 then .fail .erange s else .ok (s.logRec type 1 (nth 0 ws 1) (nth 0 ws 2)))) s

/-! FLASH (R534). -/

/-- The fields of a request block. -/
def fqOp (ws : List Word) : Nat := wbits (nth 0 ws 0) 35 34
def fqAddr (ws : List Word) : Nat := wbits (nth 0 ws 0) 23 0
def fqMem (ws : List Word) : Nat := wbits (nth 0 ws 1) 17 0
def fqLen (ws : List Word) : Nat := wbits (nth 0 ws 2) 15 0

/-- A request block with a fault. -/
def fqBad (ws : List Word) : Bool :=
  let op := fqOp ws
  let a := fqAddr ws
  op = 3 || wbits (nth 0 ws 0) 33 24 ≠ 0 || wbits (nth 0 ws 1) 35 18 ≠ 0 || wbits (nth 0 ws 2) 35 16 ≠ 0 || nth 0 ws 3 ≠ 0
    || (op ≠ 0 && inDirectory a) || (op = 1 && (32 < fqLen ws || 256 < a % 256 + 8 * fqLen ws)) || (op = 2 && a % 4096 ≠ 0)
    || decide (op ≠ 2 ∧ 2 ^ 24 < a + 8 * fqLen ws)

/-- Bytes of flash replaced from an address on. -/
def Pln.putBytes (p : Pln) : Nat → List Byte → Pln
  | _, [] => p
  | a, b :: bs => Pln.putBytes { p with flash := sput erased p.flash a b } (a + 1) bs

/-- Words as flash bytes (R134). -/
def flashBytes (ws : List Word) : List Byte := (ws.map (fun w => leBytes 8 w.toNat)).flatten

/-- Bytes from a that an operation without response leaves open. -/
def State.openBytes (s : State) (a n : Nat) : State :=
  { s with pln := s.pln.putBytes a ((range' 0 n).map (fun i => BitVec.ofNat 8 (Config.freeNat (s.free + i)))), free := s.free + n }

/-- A word of flash as FLASH reads it: the layout of the directory and of the log region is not given, so it is free there. -/
def State.flashWord (s : State) (a : Nat) : Word :=
  if inDirectory a || inLogRegion a then Config.freeWord (s.free + a) else BitVec.ofNat 36 (s.pln.slot a)

/-- A program clears bits only (log 120). -/
def Pln.program (p : Pln) (a : Nat) (bs : List Byte) : Pln :=
  p.putBytes a ((range' 0 bs.length).map (fun i => p.byte (a + i) &&& nth 0 bs i))

/-- The sector from a is erased. -/
def Pln.erase (p : Pln) (a : Nat) : Pln := { p with flash := p.flash.filter (fun e => e.1 < a || a + 4096 ≤ e.1) }

/-- FLASH: reads, programs or erases SPI flash, which may fail to respond in time (R206, R534). -/
def execFlash (e : Eng) (d a b : RegNo) (responds : Bool) (s : State) : Host.Outcome State Fault Refusal :=
  instr e (.flash e d a b responds) [a] 10 (fun s =>
    s.image e (s.reg e a) 4 (fun ws =>
      let at_ := fqAddr ws
      let n := fqLen ws
      if fqBad ws then .fail .erange s
      else if fqOp ws = 0 then
        s.dest e (BitVec.ofNat 36 (fqMem ws)) n (fun m =>
          let s1 := s.storeRange e m ((range' 0 n).map (fun i => s.flashWord (at_ + 8 * i)))
          .ok { s1 with free := s1.free + 2 ^ 24 })
      else if fqOp ws = 1 then
        s.image e (BitVec.ofNat 36 (fqMem ws)) n (fun data =>
          if responds then .ok { s with pln := s.pln.program at_ (flashBytes data) }
          else .fail .etimeout (s.openBytes at_ (8 * n)))
      else if responds then .ok { s with pln := s.pln.erase at_ }
      else .fail .etimeout (s.openBytes at_ 4096))) s

/-! UPDATE (R537). -/

/-- Key k of the fuses. -/
def Chip.keyLeft (c : Chip) (but : Nat) : Bool := (range' 0 4).any (fun k => k ≠ but && c.keyUsable k)

/-- A record of revocation is read from flash (R537). -/
def Pln.revocation (p : Pln) (a : Nat) : Option (List Word) := slotWords ((range' 0 8).map (fun i => BitVec.ofNat 64 (p.slot (a + 8 * i))))

/-- The format of a revocation record. -/
def rvFormat (ws : List Word) : Bool :=
  nth 0 ws 0 = BitVec.ofNat 36 (0x003 * 2 ^ 24) && wbits (nth 0 ws 1) 35 2 = 0 && wbits (nth 0 ws 2) 35 2 = 0 && wbits (nth 0 ws 3) 35 32 = 0
    && tagShape ws

/-- REVOKE: the record at a flash address revokes a key. -/
def State.revoke (s : State) (a : Nat) : Status × State :=
  match s.pln.revocation a with
  | none => (.erange, s)
  | some ws =>
    let key := wbits (nth 0 ws 1) 1 0
    let by_ := wbits (nth 0 ws 2) 1 0
    if !rvFormat ws then (.erange, s)
    else if by_ = key || !s.chip.keyUsable by_ || !s.chip.keyLeft key then (.estate, s)
    else if !s.chip.authentic ws by_ then (.eauth, s)
    else
      let s1 := { s with chip := { s.chip with keysRevoked := s.chip.keysRevoked ||| BitVec.ofNat 4 (2 ^ key) } }
      (.ok, s1.logUpdate 1 (s1.get F.PLN_STATUS_FWVER))

/-- STAGE: a slot that passes CHECK, and is neither ACTIVE nor running, becomes the TRIAL slot. -/
def State.stage (s : State) (k : Fin 2) (origin : Nat) : Status × State :=
  let st := s.chip.checkImages (s.pln.slotImages k)
  if st = .erange then (.erange, s)
  else if s.pln.dir.active = k || s.pln.runSlot = some k then (.estate, s)
  else if st ≠ .ok then (st, s)
  else
    let s1 := { s with pln := s.pln.putDir s.pln.dir.active (some k) }
    (.ok, s1.logUpdate origin (piVer ((s.pln.slotImages k).plinth.getD [])))

/-- CONFIRM: the running trial slot becomes ACTIVE. -/
def State.confirmTrial (s : State) (origin : Nat) : Status × State :=
  match s.pln.runSlot with
  | some k =>
    if s.get F.PLN_STATUS_STATE ≠ 3 then (.estate, s)
    else
      let s1 := { s with pln := s.pln.putDir k none }.set F.PLN_STATUS_STATE 2
      (.ok, s1.logUpdate origin (s1.get F.PLN_STATUS_FWVER))
  | none => (.estate, s)

/-- An UPDATE descriptor: KIND 1 STAGE, 2 CONFIRM, 3 REVOKE, 4 CHECK. -/
def State.update (s : State) (ws : List Word) : Status × State :=
  let kind := wbits (nth 0 ws 0) 35 32
  let slot : Fin 2 := Fin.ofNat 2 (wbits (nth 0 ws 0) 0 0)
  let w1 := nth 0 ws 1
  if wbits (nth 0 ws 0) 31 1 ≠ 0 || wbits w1 35 24 ≠ 0 || (kind ≠ 3 && w1 ≠ 0) || nth 0 ws 2 ≠ 0 || nth 0 ws 3 ≠ 0 then (.erange, s)
  else if kind = 1 then s.stage slot 1
  else if kind = 2 then s.confirmTrial 1
  else if kind = 3 then s.revoke (wbits w1 23 0)
  else if kind = 4 then (s.chip.checkImages (s.pln.slotImages slot), s)
  else (.erange, s)

/-- UPDATE's own work: the descriptor at a. -/
def State.updateAt (s : State) (e : Eng) (a : Word) : Res :=
  s.image e a 4 (fun ws =>
    match s.update ws with
    | (.ok, s') => .ok s'
    | (st, _) => .fail st s)

/-- UPDATE with KIND CHECK; the descriptor chooses the kind (R206, R537). -/
def execUpdateCheck (e : Eng) (d a b : RegNo) (s : State) : Host.Outcome State Fault Refusal :=
  instr e (.updateCheck e d a b) [a] 20 (fun s => s.updateAt e (s.reg e a)) s

/-- UPDATE with KIND STAGE; the descriptor chooses the kind (R206, R537). -/
def execUpdateStage (e : Eng) (d a b : RegNo) (s : State) : Host.Outcome State Fault Refusal :=
  instr e (.updateStage e d a b) [a] 20 (fun s => s.updateAt e (s.reg e a)) s

/-- UPDATE with KIND CONFIRM; the descriptor chooses the kind (R206, R537). -/
def execUpdateConfirm (e : Eng) (d a b : RegNo) (s : State) : Host.Outcome State Fault Refusal :=
  instr e (.updateConfirm e d a b) [a] 20 (fun s => s.updateAt e (s.reg e a)) s

/-- UPDATE with KIND REVOKE; the descriptor chooses the kind (R206, R537). -/
def execUpdateRevoke (e : Eng) (d a b : RegNo) (s : State) : Host.Outcome State Fault Refusal :=
  instr e (.updateRevoke e d a b) [a] 20 (fun s => s.updateAt e (s.reg e a)) s

end Sys2Proof.Machine
end

