-- ==== Sys2Proof/Machine/Boot.lean ====
section
/-! DEFINITION. Pins, resets and the start-up sequence (R64 to R73, R103 to R116, R129, R516, R565). -/
namespace Sys2Proof.Machine

/-! Resets (R104 to R109). -/

/-- Why a full reset happens. -/
inductive ResetCause where
  | pin
  | soft
  | plinth
  deriving DecidableEq, Repr

/-- The RST_CAUSE bit of a cause. -/
def ResetCause.fld (c : ResetCause) : Fld :=
  match c with
  | .pin => F.RST_CAUSE_PIN
  | .soft => F.RST_CAUSE_SOFT
  | .plinth => F.RST_CAUSE_PLINTH

/-- A register that always-on memory or the latched straps keep through a full reset (R73, R106, R524). -/
def keptReg (off : Nat) : Bool :=
  match Reg.ofOffset off with
  | some r =>
    match r.id with
    | .RST_CAUSE | .ID_STRAP | .FLT_FIRST | .FLT_RING => true
    | _ => false
  | none => false

/-- A register of quoin 25, which Deep keeps: the identity, power and fault blocks, but for what the start-up sequence and the
domains' states set anew (R515, R516). -/
def deepKeptReg (off : Nat) : Bool :=
  match Reg.ofOffset off with
  | some r =>
    match r.id with
    | .BOOT_STATUS | .PWR_CORE_STATUS | .QUOIN_STATUS | .PWR_GOV_STATUS | .PLN_MBOX_CTRL => false
    | _ => servedBy off = [25]
  | none => false

/-- The plinth's processor restarts from ROM with its RAM kept (R529). -/
def Engine.restart (en : Engine) : Engine := { ({} : Engine) with run := true, mem := en.mem, bad := en.bad }

/-- What the plinth keeps through a full reset: the event log, flash and its mirror. -/
def Pln.kept (p : Pln) : Pln :=
  { log := p.log, logSeq := p.logSeq, flash := p.flash, flashLog := p.flashLog, mirrored := p.mirrored, dirA := p.dirA, dirB := p.dirB }

/-- The state at the start of a full reset: every register, table, queue and buffer at reset, but for what R106 keeps. The
level of PCIE_PERST_N and the straps stay. -/
def State.cold (s : State) : State :=
  { State.powerOn s.chip with
    pending := s.pending
    outs := s.outs
    free := s.free
    regs := s.regs.filter (fun e => keptReg e.1)
    plinth := s.plinth.restart
    pln := s.pln.kept
    flt := { ({} : Flt) with ring := s.flt.ring }
    boot := { ({} : Boot) with perst := s.boot.perst, perstRise := !s.boot.perst } }

/-- A full reset: its cause is kept and logged, then everything returns to its reset value (R106, R108, R532). -/
def State.fullReset (s : State) (cause : ResetCause) : State :=
  let s1 := (s.set cause.fld 1).inc F.RST_CAUSE_COUNT 1
  let s2 := if s.safe then s1.set F.RST_CAUSE_SAFE 1 else s1
  (s2.logRec 0x005 0 (s2.rd .RST_CAUSE) 0).cold

/-- The highest SEQ in the flash mirror, plus one: where SEQ continues (R532). -/
def Pln.nextSeq (p : Pln) : Nat := p.flashLog.foldl (fun n r => max n (r.seq + 1)) 0

/-- A power-on reset: always-on memory and the plinth's RAM are lost, flash is not; RESET_N is held low (R102, R104). -/
def State.powerCycle (s : State) : State :=
  { State.powerOn s.chip with
    pending := s.pending
    outs := s.outs
    free := s.free
    pln := { flash := s.pln.flash, flashLog := s.pln.flashLog, dirA := s.pln.dirA, dirB := s.pln.dirB,
             logSeq := s.pln.nextSeq, mirrored := s.pln.nextSeq }
    boot := { ({} : Boot) with inReset := true, perst := s.boot.perst, perstRise := !s.boot.perst } }

/-- POWER_ON: the detector on VDD_AON causes a power-on reset; BROWN where it follows a drop while running (R104, R108). -/
def execPowerOn (s : State) : Host.Outcome State Fault Refusal :=
  if s.boot.aonDown then .next (s.powerCycle.set F.RST_CAUSE_BROWN 1) else .next s.powerCycle

/-- AON_BROWNOUT: the device asserts the safe state and is then held in power-on reset, which loses what the fault collector
wrote (R103, R104). -/
def execAonBrownout (s : State) : Host.Outcome State Fault Refusal :=
  let s1 := s.powerCycle
  .next { s1 with boot := { s1.boot with aonDown := true } }

/-- RESET_N_ASSERT: a low of 10 us or more is a full reset, one under 1 us is not, and between them either happens (R64, R105). -/
def execResetNAssert (widthNs : Nat) (s : State) : Host.Outcome State Fault Refusal :=
  let (k, s1) := s.fresh
  if s.boot.aonDown then .next s
  else if 10000 ≤ widthNs || (1000 ≤ widthNs && Config.freeBool k) then
    let s2 := s1.fullReset .pin
    .next { s2 with boot := { s2.boot with inReset := true } }
  else .next s1

/-- RESET_N_RELEASE: RESET_N rises and the straps are latched (R64, R70 to R73). -/
def execResetNRelease (boot : BitVec 2) (i2ca : BitVec 3) (s : State) : Host.Outcome State Fault Refusal :=
  if !s.boot.inReset || s.boot.aonDown then .next s
  else
    let bad := b2n (s.chip.plinth && boot = 3)
    let s1 := s.wr .ID_STRAP (BitVec.ofNat 36 (bad * 2 ^ 6 + b2n (!s.chip.plinth) * 2 ^ 5 + boot.toNat * 2 ^ 3 + i2ca.toNat))
    .next { s1 with boot := { s1.boot with inReset := false } }

/-- POR_DONE: the always-on domain has reset itself; ALIVE begins to toggle and the start-up sequence to run. A SAFE_REQ_N low
then enters the safe state, and a PCIE_PERST_N that rose before counts from here (R64, R65, R67, R111, R115). -/
def execPorDone (s : State) : Host.Outcome State Fault Refusal :=
  if s.boot.inReset || s.boot.aonDown || s.boot.porDone then .next s
  else
    let s1 := { s with boot := { s.boot with porDone := true, alive := true, linkTraining := s.boot.linkTraining || s.boot.perstRise,
                                             perstRise := false, safeReqLow := false } }
    .next (if s.boot.safeReqLow then s1.fatal 0x38 0x24 0 else s1)

/-- ALIVE_TOGGLE: while the device is healthy (R65). -/
def execAliveToggle (s : State) : Host.Outcome State Fault Refusal :=
  if s.boot.porDone && !s.safe && !s.boot.inReset then .next { s with boot := { s.boot with alive := !s.boot.alive } } else .next s

/-- A write of RST_CTRL: the key starts a full reset, which the plinth's own write attributes to it (R104, R109, R530). -/
def State.rstWrite (s : State) (who : Who) (v : Word) : State :=
  if fv v F.RST_CTRL_KEY = 0xA5C3 then s.fullReset (if who = .plinth then .plinth else .soft) else s

/-! The start-up sequence (R111 to R116). -/

/-- The sequence is in a phase. -/
def State.inPhase (s : State) (p : Nat) : Bool :=
  s.boot.porDone && !s.boot.inReset && s.pwr.deep ≠ 2 && s.get F.BOOT_STATUS_PHASE = p

/-- The status of the first phase that failed is kept (R114). -/
def State.phaseStatus (s : State) (st : Nat) : State :=
  if s.get F.BOOT_STATUS_STATUS = 0 then s.set F.BOOT_STATUS_STATUS st else s

/-- A phase whose failure status the manual does not name: one of the four it allows, or EPARITY (R114; log 121). -/
def State.phaseOpen (s : State) : State :=
  let (k, s1) := s.fresh
  s1.phaseStatus (nth 0x0D [0x0D, 0x0B, 0x0F, 0x0A, 0x09] (Config.freeNat k % 5))

/-- A fatal phase fails: the safe state, and PHASE FAILED (R111, R522). -/
def State.phaseFatal (s : State) (source : Nat) : State :=
  ((s.phaseOpen).set F.BOOT_STATUS_PHASE 0xF).fatal source 0x27 0

/-- A phase fails and the sequence goes on degraded. -/
def State.degrade (s : State) (st : Status) : State := (s.phaseStatus st.code).set F.BOOT_STATUS_DEGRADED 1

/-- The sequence ends: READY, and the log's record (R111, R532). The firmware then accepts messages (log 122). -/
def State.bootDone (s : State) : State :=
  let s1 := (s.set F.BOOT_STATUS_PHASE 8).set F.BOOT_STATUS_READY 1
  let s2 := if s1.chip.plinth then s1.set F.PLN_MBOX_CTRL_READY 1 else s1
  s2.logRec 0x008 0 (s2.pwrValue ⟨.BOOT_STATUS, 0, 0, 0⟩) (s2.rd .MCODE_VERSION)

/-- The phase after SRAM or STACKMEM on a variant (R111). -/
def State.afterMemory (s : State) : State := if s.chip.plinth then s.set F.BOOT_STATUS_PHASE 5 else s.bootDone

/-- PHASE_FUSES ends (R111, R565). -/
def execPhaseFuses (ok : Bool) (s : State) : Host.Outcome State Fault Refusal :=
  if !s.inPhase 1 then .next s else if ok then .next (s.set F.BOOT_STATUS_PHASE 2) else .next (s.phaseFatal 25)

/-- PHASE_CLOCKS ends: quoin 24 is READY, frame 0 begins, and the time base starts from 0, or after Deep from the count quoin
25 has kept (R111, R447, R449, R567). -/
def execPhaseClocks (ok : Bool) (s : State) : Host.Outcome State Fault Refusal :=
  if !s.inPhase 2 then .next s
  else if ok then
    let s1 := (s.setDomain 24 domREADY).set F.BOOT_STATUS_PHASE 3
    .next { s1 with clk := { running := true, tb := if s.pwr.deep = 3 then s.tim.aonTb else 0 } }
  else .next ((s.domainFailed 24 2).phaseFatal 24)

/-- The subsystem IDs: those of the platform data region where it is not blank (R111, R129). -/
def State.subsystem (s : State) : State :=
  let region := s.pln.flash.filter (fun e => inPlatform e.1)
  if s.chip.plinth ∧ region ≠ [] then
    let (v, i) := Config.subsystemIds region
    { s with host := { s.host with subVendor := v % 65536, subId := i % 65536 } }
  else s

/-- The end of phase SRAM in a wake from Deep: the saved registers return and FROMDEEP is set (R516 to R518, R532). -/
def State.deepRestore (s : State) : State :=
  let bad := s.pwr.savedBad ≠ []
  let s1 := (range' 0 23).foldl State.restoreGroup s
  let s2 := s1.set F.PWR_SLEEP_STATUS_FROMDEEP 1
  let s3 := { s2 with pwr := { s2.pwr with deep := 0, rested := [], restLanes := [] } }
  ((if bad then s3.set F.BOOT_STATUS_DEGRADED 1 else s3).logRec 0x007 0 0 0).lanesSettle

/-- PHASE_SRAM ends: the mortar core is READY at PL0 and quoin 23 READY (R111, R116). -/
def execPhaseSram (ok : Bool) (s : State) : Host.Outcome State Fault Refusal :=
  if !s.inPhase 3 then .next s
  else if ok then
    let s1 := ((s.setDomain 0 domREADY).setDomain 23 domREADY).subsystem
    let s2 := if s1.pwr.deep = 3 then s1.deepRestore else s1
    .next (if s2.chip.stackmem then s2.set F.BOOT_STATUS_PHASE 4 else s2.afterMemory)
  else .next ((s.domainFailed 0 2).phaseFatal 0)

/-- PHASE_STACKMEM ends: quoin 22 is READY, or FAILED with a cause the manual leaves open (R111, R116). -/
def execPhaseStackmem (ok : Bool) (s : State) : Host.Outcome State Fault Refusal :=
  if !s.inPhase 4 then .next s
  else if ok && s.domainState 22 ≠ domFAILED then .next (s.setDomain 22 domREADY).afterMemory
  else
    let (k, s1) := s.fresh
    .next (((s1.domainFailed 22 (1 + Config.freeNat k % 2)).phaseOpen).set F.BOOT_STATUS_DEGRADED 1).afterMemory

/-- The boot source: 0 flash, 1 the host, 2 the management port (R71). -/
def State.bootSource (s : State) : Nat := if s.get F.ID_STRAP_BOOT = 3 then 0 else s.get F.ID_STRAP_BOOT

/-- What the boot source delivered as an image: its words, or the status of the failure; a blank flash has no image (R112). -/
def State.delivered (s : State) (src : Transfer) : Except Status (List Word) :=
  match src with
  | .absent => .error (if s.bootSource = 2 then .etimeout else .erange)
  | .failed err => .error (hostErrStatus err)
  | .slots ws =>
    match slotWords ws with
    | some r => .ok r
    | none => .error .erange

/-- The outcome of phase FIRMWARE's image. -/
def State.firmware (s : State) (src : Transfer) : Status × List Word :=
  match s.delivered src with
  | .ok ws => (s.chip.piCheck ws, ws)
  | .error st => (st, [])

/-- The trial slot is given up in a new directory before its image runs, or fails (R537). -/
def State.endTrial (s : State) : State := { s with pln := s.pln.putDir s.pln.dir.active none }

/-- PHASE_FIRMWARE ends: the image of the boot source is loaded and checked. From flash the trial slot goes first, and where it
fails the boot continues from ACTIVE, with the image that the next such command brings. With the host as boot source the
plinth waits for it (R111, R112, R535, R537). -/
def execPhaseFirmware (src : Transfer) (s : State) : Host.Outcome State Fault Refusal :=
  if !s.inPhase 5 then .next s
  else if s.bootSource = 1 then .next ((s.set F.BOOT_STATUS_PHASE 6).set F.PLN_MBOX_CTRL_READY 1)
  else
    let (st, ws) := s.firmware src
    match s.bootSource, s.pln.dir.trial with
    | 0, some k =>
      if st = .ok then .next ((s.endTrial.runPlinth ws true (some k)).set F.BOOT_STATUS_PHASE 7)
      else .next (s.endTrial.logUpdate 0 0)
    | src, _ =>
      if st = .ok then .next ((s.runPlinth ws false (if src = 0 then some s.pln.dir.active else none)).set F.BOOT_STATUS_PHASE 7)
      else .next ((s.degrade st).set F.BOOT_STATUS_PHASE 7)

/-- BOOT_IMAGE_TIMEOUT: no image has come over the management port within 10 s (R112). -/
def execBootImageTimeout (s : State) : Host.Outcome State Fault Refusal :=
  if s.inPhase 5 && s.bootSource = 2 then .next ((s.degrade .etimeout).set F.BOOT_STATUS_PHASE 7) else .next s

/-- A microcode image is checked and installed in engines, or they keep their ROM (R111, R232, R233). -/
def State.bootPatch (s : State) (img : Except Status (List Word)) (targets : List Nat) : State :=
  match img with
  | .error st => s.degrade st
  | .ok ws =>
    match s.chip.paCheck ws targets with
    | .ok => targets.foldl (State.install (paPatch ws)) s
    | .eauth => (targets.foldl State.refusePatch s).degrade .eauth
    | st => s.degrade st

/-- The microcode image of an engine kind: from the boot source, or from what the host delivered to boot memory. -/
def State.microcode (s : State) (src : Transfer) (romver : Nat) : Except Status (List Word) :=
  if s.bootSource = 1 then
    match s.boot.images.microcode romver with
    | some ws => .ok ws
    | none => .error .erange
  else s.delivered src

/-- PHASE_PATCH ends: every map and command engine has its microcode, and READY is set (R111 to R113). -/
def execPhasePatch (map cmd : Transfer) (s : State) : Host.Outcome State Fault Refusal :=
  if !s.inPhase 7 then .next s
  else
    let s1 := s.bootPatch (s.microcode map (s.chip.romver 0)) (s.chip.patchTargets 127)
    .next (s1.bootPatch (s1.microcode cmd (s1.chip.romver 64)) [64, 65]).bootDone

/-! Deep (R515, R516). -/

/-- DEEP_SAVE: steps 3 to 6 of a Deep entry: the registers are saved, quoin 25 takes the time base over, the regulator is
told, Deep is reported ready after a mirror of the log, whose outcome is free, and the link goes down (R449, R515, R532, R533). -/
def execDeepSave (s : State) : Host.Outcome State Fault Refusal :=
  if s.pwr.deep ≠ 1 then .next s
  else
    let (k, s0) := s.fresh
    let s1 := (((range' 0 64).foldl State.haltEngine s0.flushAll).saveAll.deepFrame).mirrorLog (Config.freeBool k)
    let s2 := (((s1.set F.PWR_SLEEP_STATUS_LASTREQ Status.ok.code).logRec 0x006 0 0 0).plinthEvent 5).functionReset.domainsOff
    .next { s2 with
      pwr := { s2.pwr with deep := 2, plan := [], moving := none }
      tim := { s2.tim with aonTb := s2.clk.tb }
      clk := { s2.clk with running := false }
      boot := { s2.boot with linkTraining := false }
      pln := { s2.pln with deepRdy := true } }

/-- The state in which the phases of a wake from Deep begin: quoin 25 keeps its registers and always-on memory, and everything
else is as after a reset. A FAILED quoin stays so (R122). -/
def State.deepCold (s : State) : State :=
  let failed := (range' 1 22).filter (fun q => s.domainState q = domFAILED)
  let s1 := { s.cold with
    regs := s.regs.filter (fun e => deepKeptReg e.1)
    slots := s.slots
    slotsBad := s.slotsBad
    tim := { ({} : Tim) with aonTb := s.tim.aonTb }
    flt := s.flt
    pln := { s.pln with deepRdy := false, runSlot := none }
    boot := { s.boot with linkTraining := !s.boot.perst, stalledStages := [] }
    pwr := { s.pwr with
      plan := []
      moving := none
      returning := false
      debt := 0
      frameLevel := 0
      ldLow := 0
      demand := []
      completed := 0
      deep := 3 } }
  let s2 := ((s1.set F.BOOT_STATUS_PHASE 2).set F.PLN_STATUS_STATE 1).set F.PLN_STATUS_FWVER 0
  failed.foldl (fun x q => x.domainFailed q (s.get F.QUOIN_STATUS_FAILCAUSE (q - 1))) s2

/-- DEEP_WAKE: the rails of group B are good and the phases run from CLOCKS (R449, R516). -/
def execDeepWake (s : State) : Host.Outcome State Fault Refusal :=
  if s.pwr.deep = 2 then .next s.deepCold else .next s

end Sys2Proof.Machine
end

