-- ==== Sys2Proof/Machine/Plinth.lean ====
section
/-! DEFINITION. The plinth's registers, watchdog, mailbox, management port and board controller (R87, R90, R529, R530, R533,
R535, R536). -/
namespace Sys2Proof.Machine

/-- The plinth runs: the variant has one, and the always-on domain is up. -/
def State.plinthUp (s : State) : Bool := s.chip.plinth && s.boot.porDone && !s.boot.inReset

/-! The watchdog and the tick (R530, R536). -/

/-- PLINTH_TICK: each millisecond event 2 is raised and the watchdog counts (R530, R536). -/
def execPlinthTick (s : State) : Host.Outcome State Fault Refusal :=
  if !s.plinthUp then .next s
  else
    let s1 := s.plinthEvent 2
    .next { s1 with pln := { s1.pln with wdog := if s1.flag F.PLN_WDOG_EN then s1.pln.wdog + 1 else 0 } }

/-- WATCHDOG_EXPIRY: the processor restarts from ROM; the ROM firmware serves from then on (R104, R529, R530; log 123). -/
def execWatchdogExpiry (s : State) : Host.Outcome State Fault Refusal :=
  if !s.plinthUp || !s.flag F.PLN_WDOG_EN then .next s
  else
    let s1 := ((s.set F.PLN_STATUS_STATE 1).set F.PLN_STATUS_FWVER 0).inc F.PLN_STATUS_WDOG 1
    let s2 := { s1 with plinth := s1.plinth.restart, pln := { s1.pln with wdog := 0, runSlot := none } }
    .next (s2.faultWrite 0x3A 0x1B 0 .device 0 0 0)

/-- A value below 1 or below a field's least legal one: the manual does not say what is stored, so it is free (log 124). -/
def State.freeIn (s : State) (lo hi : Nat) : Nat × State :=
  let (k, s1) := s.fresh
  (lo + Config.freeNat k % (hi + 1 - lo), s1)

/-- A write of PLN_WDOG: the plinth's alone (R530). -/
def State.wdogWrite (s : State) (r : Reg) (who : Who) (v : Word) : WriteRes :=
  if who ≠ .plinth then .reject .estate
  else
    let t := fv v F.PLN_WDOG_TIMEOUT
    let (t', s1) := if t < 10 then s.freeIn 10 65535 else (t, s)
    let s2 := (s1.plainWrite r v).set F.PLN_WDOG_TIMEOUT t'
    .done (if fv v F.PLN_WDOG_KICK = 1 then { s2 with pln := { s2.pln with wdog := 0 } } else s2)

/-- KICK: plinth firmware writes PLN_WDOG (R530). -/
def execKick (v : Word) (s : State) : Host.Outcome State Fault Refusal :=
  if !s.plinthUp then .next s
  else match s.wdogWrite ⟨.PLN_WDOG, 0, 0, 0⟩ .plinth v with
    | .done s' => .next s'
    | .reject _ => .next s

/-! The plinth's registers (R530, R533, R535). -/

/-- A write of PLN_MBOX_CTRL: a message is posted, or a reply released (R535). -/
def State.mboxWrite (s : State) (v : Word) : WriteRes :=
  let post := fv v F.PLN_MBOX_CTRL_HREQ = 1
  if post && (s.flag F.PLN_MBOX_CTRL_HREQ || s.flag F.PLN_MBOX_CTRL_PRSP || !s.flag F.PLN_MBOX_CTRL_READY) then .reject .estate
  else
    let s1 := if fv v F.PLN_MBOX_CTRL_ACK = 1 then s.set F.PLN_MBOX_CTRL_PRSP 0 else s
    .done (if post then (s1.set F.PLN_MBOX_CTRL_HREQ 1).plinthEvent 0 else s1)

/-- A write of a register of the plinth (R530, R533, R535). -/
def State.plnWrite (s : State) (r : Reg) (who : Who) (v : Word) : WriteRes :=
  match r.id with
  | .PLN_WDOG => s.wdogWrite r who v
  | .PLN_LOG_CTRL =>
    let p := fv v F.PLN_LOG_CTRL_PERIOD
    let (p', s1) := if p = 0 then s.freeIn 1 255 else (p, s)
    .done (s1.set F.PLN_LOG_CTRL_PERIOD p')
  | .PLN_MBOX_CTRL => s.mboxWrite v
  | .PLN_MBOX_H2P => if s.flag F.PLN_MBOX_CTRL_HREQ then .reject .estate else .done (s.plainWrite r v)
  | _ => .done (s.plainWrite r v)

/-! The mailbox (R535). -/

/-- Word i of the message, and its fields. -/
def State.msg (s : State) (i : Nat) : Word := s.rd .PLN_MBOX_H2P i
def State.msgCmd (s : State) : Nat := wbits (s.msg 0) 35 28
def State.msgLen (s : State) : Nat := wbits (s.msg 0) 5 0

/-- The commands of R535. -/
def mboxKnown (cmd : Nat) : Bool := [0x01, 0x02, 0x03, 0x04, 0x10, 0x11, 0x12, 0x20, 0x21].contains cmd

/-- A reply: its words, PRSP, and the interrupt (R159, R535). -/
def State.reply (s : State) (st : Status) (ws : List Word) : State :=
  let w0 := s.msgCmd * 2 ^ 28 + wbits (s.msg 0) 27 20 * 2 ^ 20 + st.code * 2 ^ 12 + ws.length % 64
  let s1 := (range' 0 63).foldl (fun s i => s.wr .PLN_MBOX_P2H (nth 0 ws i) (i + 1)) (s.wr .PLN_MBOX_P2H (BitVec.ofNat 36 w0) 0)
  (s1.set F.PLN_MBOX_CTRL_PRSP 1).signal 18

/-- The plinth takes a message and answers it, where the message is this command or none that it knows. A message that is
shorter than its command needs is out of range (log 125). -/
def State.serve (s : State) (cmd need : Nat) (answer : State → Status × List Word × State) : State :=
  if !s.plinthUp || !s.flag F.PLN_MBOX_CTRL_HREQ then s
  else
    let s1 := s.set F.PLN_MBOX_CTRL_HREQ 0
    if !mboxKnown s.msgCmd then s1.reply .eillegal []
    else if s.msgCmd ≠ cmd then s
    else if s.msgLen < need || wbits (s.msg 0) 19 6 ≠ 0 then s1.reply .erange []
    else
      let (st, ws, s2) := answer s1
      s2.reply st ws

/-- INFO: STATE, FWVER and the ROMVER of the map and command engines, a word each. -/
def execInfo (s : State) : Host.Outcome State Fault Refusal :=
  .next (s.serve 0x01 0 (fun s => (.ok, [s.get F.PLN_STATUS_STATE, s.get F.PLN_STATUS_FWVER, s.chip.romver 0, s.chip.romver 64].map (BitVec.ofNat 36), s)))

/-- The six words of a record (R532). -/
def LogRec.words (r : LogRec) : List Word :=
  [BitVec.ofNat 36 (r.type * 2 ^ 24 + r.origin * 2 ^ 16), BitVec.ofNat 36 r.seq, BitVec.ofNat 36 r.seconds, BitVec.ofNat 36 r.nanos, r.p0, r.p1]

/-- LOGREAD: up to ten records from a SEQ on. -/
def execLogread (s : State) : Host.Outcome State Fault Refusal :=
  .next (s.serve 0x02 1 (fun s =>
    (.ok, (((s.pln.log.filter (fun r => (s.msg 1).toNat ≤ r.seq)).take 10).map LogRec.words).flatten, s)))

/-- SENSORS: up to sixty SENSE words from an index on. -/
def execSensors (s : State) : Host.Outcome State Fault Refusal :=
  .next (s.serve 0x03 1 (fun s =>
    let i := (s.msg 1).toNat
    if 88 ≤ i then (.erange, [], s) else (.ok, (range' i (min 60 (88 - i))).map s.senseWord, s)))

/-- LOGWRITE: a record of the host's. -/
def execLogwrite (s : State) : Host.Outcome State Fault Refusal :=
  .next (s.serve 0x04 3 (fun s =>
    let type := (s.msg 1).toNat
    if type < 0x800 || 0xFFF < type then (.erange, [], s) else (.ok, [], s.logRec type 2 (s.msg 2) (s.msg 3))))

/-- The words that IMGWRITE brings, and where. -/
def State.imgWords (s : State) : List (Nat × Word) := (range' 0 (s.msgLen - 2)).map (fun i => ((s.msg 2).toNat + i, s.msg (3 + i)))

/-- The slot that is not ACTIVE. -/
def State.otherSlot (s : State) : Fin 2 := if s.pln.dir.active = 0 then 1 else 0

/-- IMGWRITE: words go to boot memory or into the inactive slot. -/
def execImgwrite (s : State) : Host.Outcome State Fault Refusal :=
  .next (s.serve 0x10 2 (fun s =>
    let target := wbits (s.msg 1) 35 34
    let ws := s.imgWords
    if wbits (s.msg 1) 33 0 ≠ 0 || 1 < target || (target = 1 && ws.any (fun x => slotBytes ≤ 8 * x.1)) then (.erange, [], s)
    else if target = 0 then
      (.ok, [], { s with boot := { s.boot with bootMem := ws.foldl (fun m x => sput 0 m x.1 x.2) s.boot.bootMem } })
    else
      (.ok, [], { s with pln := ws.foldl (fun p x => p.putBytes (slotBase s.otherSlot + 8 * x.1) (leBytes 8 x.2.toNat)) s.pln })))

/-- The images of boot memory are checked; phase WAIT_HOST then ends, with the plinth image loaded where all passed. -/
def State.bootImages (s : State) : Status × List Word × State :=
  let st := s.chip.checkImages s.boot.images
  let s1 :=
    if !s.inPhase 6 then s
    else if st = .ok then s.runPlinth (s.boot.images.plinth.getD []) false none
    else s.degrade st
  (st, [], if s.inPhase 6 then s1.set F.BOOT_STATUS_PHASE 7 else s1)

/-- IMGDONE: the delivered image is checked, and a slot's is staged. -/
def execImgdone (s : State) : Host.Outcome State Fault Refusal :=
  .next (s.serve 0x11 1 (fun s =>
    let target := wbits (s.msg 1) 35 34
    if wbits (s.msg 1) 33 0 ≠ 0 || 1 < target then (.erange, [], s)
    else if target = 0 then s.bootImages
    else
      let (st, s1) := s.stage s.otherSlot 2
      (st, [], s1)))

/-- CONFIRM: the outcome of UPDATE CONFIRM. -/
def execConfirm (s : State) : Host.Outcome State Fault Refusal :=
  .next (s.serve 0x12 0 (fun s =>
    let (st, s1) := s.confirmTrial 2
    (st, [], s1)))

/-- A full reset the plinth requests, after a mirror of the log, whose outcome is free (R533). -/
def State.plinthReset (s : State) : State :=
  let (k, s1) := s.fresh
  (s1.mirrorLog (Config.freeBool k)).fullReset .plinth

/-- RESET: the key starts a full reset. -/
def execReset (s : State) : Host.Outcome State Fault Refusal :=
  if s.plinthUp && s.flag F.PLN_MBOX_CTRL_HREQ && s.msgCmd = 0x20 && 1 ≤ s.msgLen && wbits (s.msg 0) 19 6 = 0 && s.msg 1 = 0xA5C3 then
    .next s.plinthReset
  else .next (s.serve 0x20 1 (fun s => (.erange, [], s)))

/-- MIRROR: the event log is mirrored to flash; a failure ends with ETIMEOUT (R533, R534). -/
def execMirror (ok : Bool) (s : State) : Host.Outcome State Fault Refusal :=
  .next (s.serve 0x21 0 (fun s => (if ok then .ok else .etimeout, [], s.mirrorLog ok)))

/-! The management port and the board controller (R535). -/

/-- WAKE: a WAKE datagram makes the plinth ask for power. -/
def execWake (s : State) : Host.Outcome State Fault Refusal :=
  if !s.plinthUp then .next s
  else
    let s1 := s.plinthEvent 3
    .next { s1 with pln := { s1.pln with pwrReq := true } }

/-- MGMT_FRAME: a frame reaches plinth memory, and nothing else. -/
def execMgmtFrame (frame : List Byte) (s : State) : Host.Outcome State Fault Refusal :=
  if !s.plinthUp then .next s
  else
    let s1 := s.plinthEvent 3
    .next { s1 with pln := { s1.pln with mgmtRx := s1.pln.mgmtRx ++ [frame] } }

/-- BMC_POWER_RESTORED: CMD 0x01. -/
def execBmcPowerRestored (s : State) : Host.Outcome State Fault Refusal :=
  if !s.plinthUp then .next s
  else
    let s1 := s.plinthEvent 4
    .next { s1 with pln := { s1.pln with pwrReq := false } }

/-- BMC_WAKE_REQUEST: CMD 0x02. -/
def execBmcWakeRequest (s : State) : Host.Outcome State Fault Refusal :=
  if !s.plinthUp then .next s
  else
    let s1 := s.plinthEvent 4
    .next { s1 with pln := { s1.pln with pwrReq := true } }

/-- BMC_RESET: CMD 0x5A, a full reset as RESET. -/
def execBmcReset (s : State) : Host.Outcome State Fault Refusal := if !s.plinthUp then .next s else .next s.plinthReset

/-- The board controller's STATUS, HOTTEST and FATAL bytes (R535). -/
def State.bmcStatus (s : State) : Nat :=
  b2n (s.boot.porDone && !s.safe) + 2 * b2n s.safe + 4 * b2n s.pln.deepRdy + 8 * b2n s.pln.pwrReq + 16 * s.get F.THERM_SUMMARY_THROTTLE
def State.bmcHottest (s : State) : Nat := unsignedOf 8 (signed 12 (s.get F.THERM_SUMMARY_TEMP) / 8)
def State.bmcFatal (s : State) : Nat :=
  let w := s.rd .FLT_FIRST 2 0
  if bit w.toNat 35 then wbits w 23 16 else 0

/-! Low-speed serial ports (R87, R90). -/

/-- CONSOLE_RX: a character is received, or discarded as a framing error. -/
def execConsoleRx (byte : Byte) (stopOk : Bool) (s : State) : Host.Outcome State Fault Refusal :=
  if !s.plinthUp then .next s
  else if stopOk then .next { s with pln := { s.pln with conRx := s.pln.conRx ++ [byte] } }
  else .next { s with pln := { s.pln with conErr := s.pln.conErr + 1 } }

/-- I2C_TIMEOUT: the master ends its operation with STOP and ETIMEOUT. -/
def execI2cTimeout (bus : Nat) (s : State) : Host.Outcome State Fault Refusal :=
  if s.boot.inReset || 4 ≤ bus then .next s
  else .next { s with pln := { s.pln with i2c := sput 0 s.pln.i2c bus Status.etimeout.code } }

end Sys2Proof.Machine
end

