-- ==== Sys2Proof/Machine/Bar.lean ====
section
/-! DEFINITION. Accesses to BAR0 and BAR2: absent units, the blocks' registers, what shuts an access out, sizes, the MSI-X
structures, the waits of R124, and the instructions that act as the host does (R9, R17 to R20, R115, R119 to R124, R132, R204,
R527, R558, R561 to R565). -/
namespace Sys2Proof.Machine

/-! Absent units (R9). -/

/-- The unit of a register is absent on the variant. -/
def Chip.regAbsent (c : Chip) (r : Reg) : Bool :=
  match r.id with
  | .MCODE_VERSION | .MCODE_SAVE => r.i < 64 && c.trees ≤ r.i
  | .MAP_ENG_STATUS | .MAP_EVT_CNT | .MAP_LINE_CNT | .MAP_FB_INFO | .CIP_TREE_CNT | .CIP_TERM_KEY | .TIME_TREE_FIB
  | .TIME_TREE_RESP => c.trees ≤ r.i
  | .FWD_LPM_KEY | .FWD_LPM_MISS => !c.lpm
  | .FWD_LRN_PORT | .BUF_PORT_STATE | .TIME_PORT_CTRL | .TIME_PORT_RXDLY | .TIME_PORT_TXDLY | .TIME_PORT_ASYM => c.portAbsent r.i
  | .BUF_THR | .BUF_ACT | .BUF_POOL_STATUS | .BUF_POOL_CTRL | .BUF_POOL_CNT => r.i = 3 && !c.stackmem
  | .GATE_CTRL | .GATE_BASE_SEC | .GATE_BASE_NS | .GATE_CYCLE | .GATE_STATUS | .GATE_START_SEC | .GATE_START_NS | .GATE_CNT =>
    !c.gates || c.portAbsent r.i
  | .SER_LANE_CTRL | .SER_LANE_STATUS | .SER_LANE_FFE | .SER_PRBS_CTRL | .SER_PRBS_ERR | .SER_PRBS_BITS => c.laneAbsent r.i
  | .UPL_PORT_CTRL | .UPL_PORT_STATUS | .UPL_FC_CTRL | .UPL_FC_STATUS | .UPL_FEC_CNT | .UPL_RX_CNT | .TEL_PORT_MAC_HI
  | .TEL_PORT_MAC_LO => c.uplanes ≤ r.i
  | .BND_CTRL | .BND_STATUS | .BND_CNT | .BND_TIME => !c.bond
  | .PLN_STATUS | .PLN_WDOG | .PLN_LOG_CTRL | .PLN_MBOX_CTRL | .PLN_MBOX_H2P | .PLN_MBOX_P2H => !c.plinth
  | _ => false

/-- An offset lies in the window of an absent unit. -/
def Chip.offAbsent (c : Chip) (off : Nat) : Bool :=
  (off / 0x100000 = 4 && c.trees ≤ (off - 0x400000) / 0x4000) ||
    (match Reg.ofOffset off with
     | some r => c.regAbsent r
     | none => false)

/-! The registers of the blocks. -/

/-- The block of a register, by the number of R561's table. -/
def Reg.block (r : Reg) : Nat := r.offset / 0x100000

/-- The block of an offset answers whatever READY holds (R115). -/
def alwaysOpen (off : Nat) : Bool := [0, 1, 13, 14].contains (off / 0x100000)

/-- A register of the gates; and of the exception queues. -/
def RegId.isGate (id : RegId) : Bool :=
  [.GATE_CTRL, .GATE_BASE_SEC, .GATE_BASE_NS, .GATE_CYCLE, .GATE_STATUS, .GATE_START_SEC, .GATE_START_NS, .GATE_CNT].contains id

def RegId.isExq (id : RegId) : Bool :=
  [.CLS_EXQ_BASE_LO, .CLS_EXQ_BASE_HI, .CLS_EXQ_CTRL, .CLS_EXQ_TAIL, .CLS_EXQ_HEAD, .CLS_EXQ_RATE, .CLS_EXQ_STATUS,
   .CLS_EXQ_CNT].contains id

def RegId.isPln (id : RegId) : Bool :=
  [.PLN_STATUS, .PLN_WDOG, .PLN_LOG_CTRL, .PLN_MBOX_CTRL, .PLN_MBOX_H2P, .PLN_MBOX_P2H].contains id

/-- Trees from base on whose map engine has OVR, TRUNC or FLT set (R229). -/
def State.pendWord (s : State) (base : Nat) : Word :=
  BitVec.ofNat 36 (((range' 0 32).map (fun k =>
    if wbits (s.rd .MAP_ENG_STATUS (base + k)) 31 29 = 0 then 0 else 2 ^ k)).foldl (· + ·) 0)

/-- The value of a register of the engines' block. -/
def State.engValue (s : State) (r : Reg) : Word :=
  match r.id with
  | .MAP_PEND_LO => s.pendWord 0
  | .MAP_PEND_HI => s.pendWord 32
  | _ => s.rd r.id r.i r.j r.k

/-- The value of a register of a present unit. -/
def State.regValue (s : State) (r : Reg) : Word :=
  let b := r.block
  if b = 0 then (if s.get F.BOOT_STATUS_PHASE = 1 then 0 else s.rd r.id r.i r.j r.k)
  else if b = 1 then s.hciValue r
  else if b = 2 then s.engValue r
  else if b = 6 then s.fwdValue r
  else if b = 7 then s.bufValue r
  else if b = 8 then (if r.id.isGate then s.gateValue r else s.schValue r)
  else if b = 10 then s.timeValue r
  else if b = 11 then s.serValue r
  else if b = 13 then s.pwrValue r
  else s.rd r.id r.i r.j r.k

/-- What an 8-byte read of a register does besides (R19, R562). -/
def State.regReadEffect (s : State) (r : Reg) : State :=
  let b := r.block
  if b = 10 then s.timeReadEffect r
  else if b = 13 then s.pwrReadEffect r
  else if r.id = .FLT_FIRST then (if r.j = 5 then s.set ⟨.FLT_FIRST, 15, 0⟩ 0 r.i 5 else s)
  else s.clearRc r

/-- A write of a register of the engines' block: VALID of a level-1 save area is W1C (R224). -/
def State.engWrite (s : State) (r : Reg) (v : Word) : State :=
  if r.id = .MCODE_SAVE then
    (if r.j = 1 && r.k = 0 && v.msb then s.wr .MCODE_SAVE (s.rd .MCODE_SAVE r.i 1 0 &&& 0x7FFFFFFFF) r.i 1 0 else s)
  else s.plainWrite r v

/-- A write of a register of a present unit, in its block. -/
def State.blockWrite (s : State) (who : Who) (r : Reg) (v : Word) : WriteRes :=
  let b := r.block
  if b = 0 then .done s
  else if b = 1 then .done (s.hciWrite r v)
  else if b = 2 then .done (s.engWrite r v)
  else if b = 4 then s.ponWrite r v
  else if b = 5 then (if r.id.isExq then s.exqWrite r v else s.clsWrite r v)
  else if b = 6 then s.fwdWrite r v
  else if b = 7 then s.bufWrite r v
  else if b = 8 then (if r.id.isGate then s.gateWrite r v else s.schWrite r v)
  else if b = 9 then s.cipWrite r v
  else if b = 10 then s.timeWrite r v
  else if b = 11 then s.serWrite r v
  else if b = 12 then s.sysWrite r v
  else if b = 13 then (if r.id = .RST_CTRL then .done (s.rstWrite who v) else s.pwrWrite r v)
  else if b = 14 then (if r.id.isPln then s.plnWrite r who v else s.fltWrite r who v)
  else s.telWrite r v

/-- Where a block keeps the status of its last rejected write. -/
def Reg.errField (r : Reg) : Fld × Nat :=
  let b := r.block
  if b = 4 then (F.PON_TREE_STATUS_ERR, r.i)
  else if b = 5 then (if r.id.isExq then (F.CLS_EXQ_STATUS_ERR, r.i) else (F.CLS_EVT_STATUS_ERR, 0))
  else if b = 6 then (F.FWD_STATUS_ERR, 0)
  else if b = 7 then (F.BUF_STATUS_ERR, 0)
  else if b = 8 then (F.SCH_STATUS_ERR, 0)
  else if b = 9 then (F.CIP_STATUS_ERR, 0)
  else if b = 10 then (F.TIME_STATUS_ERR, 0)
  else if b = 11 then (F.SER_STATUS_ERR, 0)
  else if b = 12 then (F.SYS_STATUS_ERR, 0)
  else if b = 13 then (F.PWR_SLEEP_STATUS_ERR, 0)
  else if b = 14 then (F.FLT_STATUS_ERR, 0)
  else (F.TEL_STATUS_ERR, 0)

/-- A write of a register of a present unit. -/
def State.regWrite (s : State) (who : Who) (r : Reg) (v : Word) : State :=
  match s.blockWrite who r v with
  | .done s' => s'
  | .reject st => s.rejectReg r.errField.1 st r.errField.2

/-! What shuts an access out (R115, R515, R527). -/

/-- A rejection of a write that names no register of a ring. -/
def State.rejectWrite (s : State) (st : Status) : State := s.reject { reg := true, ring := none, status := st }

/-- A Deep entry shuts every block but the identity, power and fault blocks (R515). -/
def State.deepShut (s : State) (off : Nat) : Bool := s.pwr.deep = 1 && !([0, 13, 14].contains (off / 0x100000))

/-- READY shuts the blocks that do not answer before it (R115). -/
def State.readyShut (s : State) (off : Nat) : Bool := !s.flag F.BOOT_STATUS_READY && !alwaysOpen off

/-- The safe state discards a write (R527). A Rest or Deep request goes on to its rejection (R514; log 114). -/
def State.safeShut (s : State) (off : Nat) (v : Word) : Bool :=
  s.safe && off / 0x100000 ≠ 14 && off ≠ Reg.offset ⟨.RST_CTRL, 0, 0, 0⟩ && off ≠ Reg.offset ⟨.RST_CAUSE, 0, 0, 0⟩ &&
    !(off = Reg.offset ⟨.PWR_SLEEP_CTRL, 0, 0, 0⟩ && wbits v 35 34 ≠ 0)

/-- How an access to a slot ends: done, with the value read; shut out; its domain failed; or it waits. -/
inductive Access where
  | done (s : State) (v : Word)
  | shut (s : State)
  | fail (s : State)
  | wait (s : State)

/-- An access finds its domains (R119, R122, R527, R561): the blocks that always answer need none. -/
def State.domains (s : State) (off : Nat) (who : Who) : Reach :=
  if alwaysOpen off then .go s
  else if s.safe && (servedBy off).any (fun q => s.domainState q ≠ domREADY && s.domainState q ≠ domABSENT) then .fail s
  else s.reach (servedBy off) who

/-- A read of a slot; full for one of 8 bytes, which alone has the read's effects (R561, R562). -/
def State.slotRead (s : State) (who : Who) (off : Nat) (full : Bool) : Access :=
  if s.chip.offAbsent off then .done s 0
  else if s.deepShut off || s.readyShut off then .shut s
  else match s.domains off who with
    | .fail s' => .fail s'
    | .wait s' => .wait s'
    | .go s' =>
      match Reg.ofOffset off with
      | none => .done s' 0
      | some r =>
        let s1 := s'.serRefresh r
        .done (if full then s1.regReadEffect r else s1) (s1.regValue r)

/-- A write of a slot (R115, R561, R563). -/
def State.slotWrite (s : State) (who : Who) (off : Nat) (v : Word) : Access :=
  if s.chip.offAbsent off then .done s 0
  else if s.safeShut off v || s.deepShut off then .shut s
  else if s.readyShut off then .shut (s.rejectWrite .estate)
  else match s.domains off who with
    | .fail s' => .fail s'
    | .wait s' => .wait s'
    | .go s' =>
      match Reg.ofOffset off with
      | none => .done s' 0
      | some r => .done (s'.regWrite who r v) 0

/-! The MSI-X structures (R132, R563). -/

/-- An offset lies in the vector table, or in the pending-bit array. -/
def inMsix (off : Nat) : Bool := (0x108000 ≤ off && off < 0x108400) || (0x109000 ≤ off && off < 0x109008)

/-- A 32-bit field of the two structures, by its offset. -/
def State.msixWord (s : State) (off : Nat) : Nat :=
  if off < 0x109000 then (s.msixField ((off - 0x108000) / 4)).toNat
  else (s.host.pba.toNat / 2 ^ (8 * (off - 0x109000))) % 2 ^ 32

/-- A read of the two structures; none for one that completes with Completer Abort. -/
def State.msixRead (s : State) (off size : Nat) : Option (BitVec 64) :=
  if off % 8 = 0 && size = 8 then some (BitVec.ofNat 64 (s.msixWord off + s.msixWord (off + 4) * 2 ^ 32))
  else if off % 4 + size ≤ 4 then some (BitVec.ofNat 64 (s.msixWord (off - off % 4) / 2 ^ (8 * (off % 4)) % 2 ^ (8 * size)))
  else none

/-- A field of the vector table written: a vector unmasked while its pending bit is set signals (R132). -/
def State.msixPut (s : State) (off : Nat) (v : Nat) : State :=
  if 0x109000 ≤ off then s
  else
    let n := (off - 0x108000) / 4
    let ctl := n % 4 = 3
    let d : BitVec 32 := if ctl then 1 else 0
    let w := BitVec.ofNat 32 (if ctl then v % 2 else if n % 4 = 0 then v - v % 4 else v)
    let s1 := { s with host := { s.host with msix := sput d s.host.msix n w } }
    let bitV : BitVec 64 := BitVec.ofNat 64 (2 ^ (n / 4))
    if ctl && w = 0 && s1.host.pba &&& bitV ≠ 0 then
      { s1 with host := { s1.host with pba := s1.host.pba &&& ~~~bitV } }.signalVector (n / 4)
    else s1

/-- A write of the two structures. -/
def State.msixWrite (s : State) (off size : Nat) (v : BitVec 64) : State :=
  if off % 8 = 0 && size = 8 then (s.msixPut off (v.toNat % 2 ^ 32)).msixPut (off + 4) (v.toNat / 2 ^ 32)
  else if off % 4 = 0 && size = 4 then s.msixPut off (v.toNat % 2 ^ 32)
  else s.rejectWrite .erange

/-! The host's accesses. -/

/-- The host reaches the BARs: the link is up and the SRAM is ready (R107, R115, R515). -/
def State.barOpen (s : State) : Bool :=
  s.boot.porDone && s.boot.linkTraining && !s.boot.perst && !s.boot.inReset && 4 ≤ s.get F.BOOT_STATUS_PHASE && s.pwr.deep ≠ 2

/-- A write waits for a domain: what comes later waits behind it (R124). -/
def State.writeWaits (s : State) : Bool :=
  s.host.waiting.any (fun w => match w with | .write _ _ _ => true | _ => false)

/-- An access waits (R119, R124). -/
def State.await (s : State) (w : Waiting) : State := { s with host := { s.host with waiting := s.host.waiting ++ [w] } }

/-- The bytes of a slot that a read asks for (R562). -/
def sliceSlot (v : Word) (at_ size : Nat) : BitVec 64 := BitVec.ofNat 64 (v.toNat / 2 ^ (8 * at_) % 2 ^ (8 * size))

/-- Bytes of the host ring of the sillage stream (R558). -/
def State.ringRead (s : State) (off size : Nat) : BitVec 64 :=
  let w := if off < s.ringBytes then sget 0 s.tel.ring (off / 8) else 0
  sliceSlot w (off % 8) size

/-- The place of BAR2 in the offsets a read names (log 115). -/
def bar2 : Nat := 0x10000000

/-- A host read (R115, R119, R122, R558, R562, R563). -/
def State.barRead (s : State) (off size : Nat) : State :=
  let fits := off % 8 + size ≤ 8
  if !s.barOpen then s
  else if bar2 ≤ off then (if fits then s.emit (.readData (s.ringRead (off - bar2) size)) else s.emit .completerAbort)
  else if 0x1000000 ≤ off then s
  else if inMsix off && !s.deepShut off then
    (match s.msixRead off size with
     | some v => s.emit (.readData v)
     | none => s.emit .completerAbort)
  else if !fits then s.emit .completerAbort
  else if s.writeWaits then s.await (.read off size)
  else match s.slotRead .host (off - off % 8) (size = 8) with
    | .done s' v => s'.emit (.readData (sliceSlot v (off % 8) size))
    | .shut s' => s'.emit .completerAbort
    | .fail s' => s'.emit .completerAbort
    | .wait s' => s'.await (.read off size)

/-- A host write (R115, R119, R122, R527, R563). -/
def State.barWrite (s : State) (off size : Nat) (v : BitVec 64) : State :=
  let w : Word := v.truncate 36
  if !s.barOpen || 0x1000000 ≤ off then s
  else if s.safeShut (off - off % 8) w || s.deepShut off then s
  else if inMsix off then s.msixWrite off size v
  else if size ≠ 8 || off % 8 ≠ 0 then s.rejectWrite .erange
  else if s.writeWaits then s.await (.write off size v)
  else match s.slotWrite .host off w with
    | .done s' _ => s'
    | .shut s' => s'
    | .fail s' => s'
    | .wait s' => s'.await (.write off size v)

/-! Instructions (R204). -/

/-- An offset that RDREG, WRREG and remote accesses refuse (R204, R498). -/
def offRefused (off : Nat) : Bool := off % 8 ≠ 0 || 0x1000000 ≤ off || off / 0x100000 = 1

/-- RDREG's own work. A read that is shut out has no value and ends as a failed one (log 116). -/
def State.rdregWork (s : State) (e : Eng) (d : RegNo) (off : Nat) : Res :=
  if offRefused off then .fail .erange s
  else match s.slotRead (engWho e) off true with
    | .done s' v => .ok (s'.setReg e d v)
    | .shut s' => .fail .ewake s'
    | .fail s' => .fail .ewake s'
    | .wait s' => .wait (s'.setEng e { s'.eng e with stall := .wake (servedBy off) })

/-- RDREG (R204). -/
def execRdreg (e : Eng) (d a b : RegNo) (s : State) : Host.Outcome State Fault Refusal :=
  instr e (.rdreg e d a b) [d, a] 6 (fun s => s.rdregWork e d (s.reg e a).toNat) s

/-- A fragment that put the device into the safe state stops after the write that did so (R527). -/
def State.stopAfter (s s' : State) (e : Eng) : State :=
  if s'.safe && !s.safe then
    let en := s'.eng e
    s'.setEng e { en with frag := en.frag.map (fun f => { f with ended := some ((s.eng e).pc + 1, .estate) }) }
  else s'

/-- WRREG's own work. A write that is shut out is discarded as the host's is; one that resets the device does not return. -/
def State.wrregWork (s : State) (e : Eng) (off : Nat) (v : Word) : Res :=
  if offRefused off then .fail .erange s
  else match s.slotWrite (engWho e) off v with
    | .done s' _ =>
      if off = Reg.offset ⟨.RST_CTRL, 0, 0, 0⟩ && fv v F.RST_CTRL_KEY = 0xA5C3 then .wait s' else .ok (s.stopAfter s' e)
    | .shut s' => .ok s'
    | .fail s' => .fail .ewake s'
    | .wait s' => .wait (s'.setEng e { s'.eng e with stall := .wake (servedBy off) })

/-- WRREG (R204). -/
def execWrreg (e : Eng) (d a b : RegNo) (s : State) : Host.Outcome State Fault Refusal :=
  instr e (.wrreg e d a b) [a, b] 4 (fun s => s.wrregWork e (s.reg e a).toNat (s.reg e b)) s

/-! The commands that are register accesses of the host. -/

/-- A host write of 8 bytes to a register. -/
def State.writeOf (s : State) (id : RegId) (i j : Nat) (v : Word) : Host.Outcome State Fault Refusal :=
  .next (s.barWrite (Reg.offset ⟨id, i, j, 0⟩) 8 (v.zeroExtend 64))

/-- DOORBELL: the host writes a ring's TAIL (R146). -/
def execDoorbell (r : Fin 16) (v : Word) (s : State) : Host.Outcome State Fault Refusal := s.writeOf .HCI_RING_TAIL r 0 v

/-- RING_ENABLE: the host writes a ring's control register with EN set (R144). -/
def execRingEnable (r : Fin 16) (v : Word) (s : State) : Host.Outcome State Fault Refusal := s.writeOf .HCI_RING_CTRL r 0 v

/-- RING_DISABLE: the host writes it with EN clear (R144). -/
def execRingDisable (r : Fin 16) (v : Word) (s : State) : Host.Outcome State Fault Refusal := s.writeOf .HCI_RING_CTRL r 0 v

/-- NEGOTIATE: the host writes HCI_NEGOTIATE (R127). -/
def execNegotiate (v : Word) (s : State) : Host.Outcome State Fault Refusal := s.writeOf .HCI_NEGOTIATE 0 0 v

/-- SOFT_RESET: the host writes RST_CTRL (R109). -/
def execSoftReset (v : Word) (s : State) : Host.Outcome State Fault Refusal := s.writeOf .RST_CTRL 0 0 v

/-- SAFEKEY: the host writes FLT_CTRL (R528). -/
def execSafekey (v : Word) (s : State) : Host.Outcome State Fault Refusal := s.writeOf .FLT_CTRL 0 0 v

/-- FLT_REC_SEL: the host selects a fault record (R524). -/
def execFltRecSel (v : Word) (s : State) : Host.Outcome State Fault Refusal := s.writeOf .FLT_REC_SEL 0 0 v

/-- HREQ: the host posts a mailbox message (R535). -/
def execHreq (v : Word) (s : State) : Host.Outcome State Fault Refusal := s.writeOf .PLN_MBOX_CTRL 0 0 v

/-- ACK: the host releases a mailbox reply (R535). -/
def execAck (v : Word) (s : State) : Host.Outcome State Fault Refusal := s.writeOf .PLN_MBOX_CTRL 0 0 v

/-- PWR_GOV_EN: the host writes PWR_GOV_CTRL (R503). -/
def execPwrGovEn (v : Word) (s : State) : Host.Outcome State Fault Refusal := s.writeOf .PWR_GOV_CTRL 0 0 v

/-- WATTS: the host writes PWR_BUDGET (R508). -/
def execWatts (v : Word) (s : State) : Host.Outcome State Fault Refusal := s.writeOf .PWR_BUDGET 0 0 v

/-- REST: the host requests Rest (R513). -/
def execRest (v : Word) (s : State) : Host.Outcome State Fault Refusal := s.writeOf .PWR_SLEEP_CTRL 0 0 v

/-- DEEP: the host requests Deep (R515). -/
def execDeep (v : Word) (s : State) : Host.Outcome State Fault Refusal := s.writeOf .PWR_SLEEP_CTRL 0 0 v

/-- PON_DS_CTRL: the host writes a tree's mode or loopback (R239). -/
def execPonDsCtrl (t : Fin 64) (v : Word) (s : State) : Host.Outcome State Fault Refusal := s.writeOf .PON_DS_CTRL t 0 v

/-- PON_BOND_CTRL: the host forms or dissolves a channel-bonding group (R263). -/
def execPonBondCtrl (t : Fin 64) (v : Word) (s : State) : Host.Outcome State Fault Refusal := s.writeOf .PON_BOND_CTRL t 0 v

/-- PON_PM_CTRL: the host writes the bins' control (R269). -/
def execPonPmCtrl (t : Fin 64) (v : Word) (s : State) : Host.Outcome State Fault Refusal := s.writeOf .PON_PM_CTRL t 0 v

/-- PON_PM_SEL: the host latches a bin (R270). -/
def execPonPmSel (t : Fin 64) (v : Word) (s : State) : Host.Outcome State Fault Refusal := s.writeOf .PON_PM_SEL t 0 v

/-- PROT_EN: the host forms or dissolves a protection pair (R292). -/
def execProtEn (t : Fin 64) (v : Word) (s : State) : Host.Outcome State Fault Refusal := s.writeOf .PON_PROT_CTRL t 0 v

/-- SWITCH: the host starts a switchover (R296). -/
def execSwitch (t : Fin 64) (v : Word) (s : State) : Host.Outcome State Fault Refusal := s.writeOf .PON_PROT_CTRL t 0 v

/-- DONE: the host ends its restoration (R295). -/
def execDone (t : Fin 64) (v : Word) (s : State) : Host.Outcome State Fault Refusal := s.writeOf .PON_PROT_CTRL t 0 v

/-- FWD_FLUSH: the host starts a bulk removal (R371). -/
def execFwdFlush (v : Word) (s : State) : Host.Outcome State Fault Refusal := s.writeOf .FWD_FLUSH 0 0 v

/-- BUF_THR: the host writes a pool's threshold (R381). -/
def execBufThr (p : Fin 5) (k : Fin 4) (v : Word) (s : State) : Host.Outcome State Fault Refusal := s.writeOf .BUF_THR p k v

/-- BUF_FLUSH: the host flushes a port (R392). -/
def execBufFlush (v : Word) (s : State) : Host.Outcome State Fault Refusal := s.writeOf .BUF_FLUSH 0 0 v

/-- AUDIT_GO: the host starts an audit pass (R394). -/
def execAuditGo (v : Word) (s : State) : Host.Outcome State Fault Refusal := s.writeOf .BUF_AUDIT_CTRL 0 0 v

/-- CLS_EXQ_CTRL: the host writes an exception queue's control (R344). -/
def execClsExqCtrl (q : Fin 8) (v : Word) (s : State) : Host.Outcome State Fault Refusal := s.writeOf .CLS_EXQ_CTRL q 0 v

/-- CLS_EXQ_HEAD: the host returns slots (R345). -/
def execClsExqHead (q : Fin 8) (v : Word) (s : State) : Host.Outcome State Fault Refusal := s.writeOf .CLS_EXQ_HEAD q 0 v

/-- COMMIT: the host makes a gate list pending (R421). -/
def execCommit (g : Fin 128) (v : Word) (s : State) : Host.Outcome State Fault Refusal := s.writeOf .GATE_CTRL g 0 v

/-- CANCEL: the host discards a pending gate list (R420). -/
def execCancel (g : Fin 128) (v : Word) (s : State) : Host.Outcome State Fault Refusal := s.writeOf .GATE_CTRL g 0 v

/-- GATE_DISABLE: the host clears EN of a gate (R420). -/
def execGateDisable (g : Fin 128) (v : Word) (s : State) : Host.Outcome State Fault Refusal := s.writeOf .GATE_CTRL g 0 v

/-- CIP_NONCE_EPOCH: the host writes the nonce epoch (R443). -/
def execCipNonceEpoch (v : Word) (s : State) : Host.Outcome State Fault Refusal := s.writeOf .CIP_NONCE_EPOCH 0 0 v

/-- MEASUREMENT: the host submits an offset (R451). -/
def execMeasurement (d : Fin 2) (v : Word) (s : State) : Host.Outcome State Fault Refusal := s.writeOf .TIME_DOM_GO d 0 v

/-- REQUAL: the host returns a domain to ACQUIRING (R450). -/
def execRequal (d : Fin 2) (v : Word) (s : State) : Host.Outcome State Fault Refusal := s.writeOf .TIME_DOM_CTRL d 0 v

/-- STEP: the host steps the time base (R448). -/
def execStep (v : Word) (s : State) : Host.Outcome State Fault Refusal := s.writeOf .TIME_CTRL 0 0 v

/-- TIME_SNAP: the host takes a snapshot (R456). -/
def execTimeSnap (v : Word) (s : State) : Host.Outcome State Fault Refusal := s.writeOf .TIME_SNAP 0 0 v

/-- TOD_TX: the host sends a byte (R465). -/
def execTodTx (i : Fin 2) (v : Word) (s : State) : Host.Outcome State Fault Refusal := s.writeOf .TIME_TOD_TX i 0 v

/-- PC_FRZ_ARM: the host arms a freeze (R548). -/
def execPcFrzArm (v : Word) (s : State) : Host.Outcome State Fault Refusal := s.writeOf .PC_FRZ_CTRL 0 0 v

/-- RESUME: the host ends a freeze (R548). -/
def execResume (v : Word) (s : State) : Host.Outcome State Fault Refusal := s.writeOf .PC_FRZ_CTRL 0 0 v

/-- TEL_EN: the host starts or stops the stream (R557). -/
def execTelEn (v : Word) (s : State) : Host.Outcome State Fault Refusal := s.writeOf .TEL_CTRL 0 0 v

/-- TEL_RD: the host returns stream bytes (R557). -/
def execTelRd (v : Word) (s : State) : Host.Outcome State Fault Refusal := s.writeOf .TEL_RD 0 0 v

/-- INJ1: the host injects one error (R474). -/
def execInj1 (k : Fin 148) (v : Word) (s : State) : Host.Outcome State Fault Refusal := s.writeOf .SER_PRBS_CTRL k 0 v

/-- CLR: the host clears the checker's counts (R474). -/
def execClr (k : Fin 148) (v : Word) (s : State) : Host.Outcome State Fault Refusal := s.writeOf .SER_PRBS_CTRL k 0 v

/-- SER_PRBS_CTRL: the host writes a lane's pattern control (R474). -/
def execSerPrbsCtrl (k : Fin 148) (v : Word) (s : State) : Host.Outcome State Fault Refusal := s.writeOf .SER_PRBS_CTRL k 0 v

/-- UPL_PORT_CTRL: the host defines an uplink port (R478). -/
def execUplPortCtrl (l : Fin 40) (v : Word) (s : State) : Host.Outcome State Fault Refusal := s.writeOf .UPL_PORT_CTRL l 0 v

/-- UPL_FC_CTRL: the host writes a port's flow control (R482). -/
def execUplFcCtrl (l : Fin 40) (v : Word) (s : State) : Host.Outcome State Fault Refusal := s.writeOf .UPL_FC_CTRL l 0 v

/-- UPL_FRER_CTRL: the host writes a replication pair (R485). -/
def execUplFrerCtrl (j : Fin 8) (v : Word) (s : State) : Host.Outcome State Fault Refusal := s.writeOf .UPL_FRER_CTRL j 0 v

/-- SYS_RMT_GO: the host starts a remote access (R498). -/
def execSysRmtGo (v : Word) (s : State) : Host.Outcome State Fault Refusal := s.writeOf .SYS_RMT_CTRL 0 0 v

/-- SYS_ID: the host writes the identifiers (R489). -/
def execSysId (v : Word) (s : State) : Host.Outcome State Fault Refusal := s.writeOf .SYS_ID 0 0 v

/-- REGISTER_WRITE: a host write of any offset and size (R18, R563). -/
def execRegisterWrite (off size : Nat) (v : BitVec 64) (s : State) : Host.Outcome State Fault Refusal := .next (s.barWrite off size v)

/-- REGISTER_READ: a host read of any offset and size (R119, R562). -/
def execRegisterRead (off size : Nat) (s : State) : Host.Outcome State Fault Refusal := .next (s.barRead off size)

/-- TIME_CAP_DATA: the host takes a capture (R467). -/
def execTimeCapData (i : Fin 6) (s : State) : Host.Outcome State Fault Refusal :=
  .next (s.barRead (Reg.offset ⟨.TIME_CAP_DATA, i, 0, 0⟩) 8)

end Sys2Proof.Machine
end

