-- ==== Sys2Proof/Machine/Control.lean ====
section
/-! DEFINITION. Control flow: major opcodes 0x18 to 0x1E (R185 to R187), and the end of a wait. -/
namespace Sys2Proof.Machine

/-- BR: a branch by imm25 words where the condition code in d holds (R185). -/
def execBr (e : Eng) (d : RegNo) (imm : BitVec 25) (s : State) : Host.Outcome State Fault Refusal :=
  instr e (.br e d imm) [] 1 (fun s =>
    if s.cond e d.toNat then s.target e (BitVec.ofNat 36 (s.eng e).pc + imm.signExtend 36) 3 s else .ok s) s

/-- JAL: d ← pc + 1; a jump by imm25 words (R185). -/
def execJal (e : Eng) (d : RegNo) (imm : BitVec 25) (s : State) : Host.Outcome State Fault Refusal :=
  instr e (.jal e d imm) [d] 3 (fun s =>
    let pc := (s.eng e).pc
    s.target e (BitVec.ofNat 36 pc + imm.signExtend 36) 3 (s.setReg e d (BitVec.ofNat 36 (pc + 1)))) s

/-- JALR: d ← pc + 1; a jump to a + imm20, a read before d is written (R165, R185). -/
def execJalr (e : Eng) (d a : RegNo) (imm : BitVec 20) (s : State) : Host.Outcome State Fault Refusal :=
  instr e (.jalr e d a imm) [d, a] 3 (fun s =>
    s.target e (s.reg e a + sx20 imm) 3 (s.setReg e d (BitVec.ofNat 36 ((s.eng e).pc + 1)))) s

/-- DBNZ: d ← d - 1; a branch by imm20 words while d is not zero (R185). -/
def execDbnz (e : Eng) (d a : RegNo) (imm : BitVec 20) (s : State) : Host.Outcome State Fault Refusal :=
  instr e (.dbnz e d a imm) [d] 1 (fun s =>
    let v := s.reg e d - 1
    let s1 := s.setReg e d v
    if s1.reg e d ≠ 0 then
      (if (BitVec.ofNat 36 (s.eng e).pc + sx20 imm).toNat < s.fetchLimit e then
         .jump s1 (BitVec.ofNat 36 (s.eng e).pc + sx20 imm).toNat 3
       else .fail .erange s)
    else .ok s1) s

/-- A fragment ends with OK at its END, which is also its last effect (R136, R150). -/
def State.endFrag (s : State) (c : Fin 2) : State :=
  let en := s.cmd.get c
  s.setEng (.cmd c) { en with stall := .none, frag := en.frag.map (fun f => { f with ended := some (en.pc, .ok), last := some en.pc }) }

/-- A map program commits its map: the engine idles until the next boundary and reports not taken are dropped (R185,
R190, R211). -/
def State.commitMap (s : State) (t : Fin 64) : State :=
  let en := s.map.get t
  (s.setEng (.map t) { en with run := false }).modTree t (fun x => { x with committed := some x.build, reports := [] })

/-- The plinth returns from its event routine; with none running it stays at END (R185, R536, log 30). -/
def State.plinthReturn (s : State) : State :=
  match s.plinth.ret with
  | some pc => { s with plinth := { s.plinth with pc, ret := none } }
  | none => s

/-- END: a fragment ends once its table operations have finished, a map is committed, a routine returns (R179, R185). -/
def execEnd (e : Eng) (f : FmtA) (s : State) : Host.Outcome State Fault Refusal :=
  instr e (.end_ e f) [] 2 (fun s =>
    if (s.eng e).ops ≠ [] then .wait s
    else
      match e with
      | .cmd c => .done (s.endFrag c)
      | .map t => .done (s.commitMap t)
      | .plinth => .done (s.plinthReturn.plinthTake 7)) s

/-- The microcycles until NOW is not earlier than a target that lies ahead of it. -/
def State.cyclesUntil (s : State) (cycle : Nat) (target : Word) : Nat :=
  let tb := s.tbAt cycle
  let goal := (tb / tbPerNs + (target - s.nowAt cycle).toNat) * tbPerNs
  ceilDiv (goal - tb) s.tbInc.toNat

/-- WAIT: completes at once where the target is not later than NOW, else the engine waits (R186). -/
def execWait (e : Eng) (d a : RegNo) (imm : BitVec 20) (s : State) : Host.Outcome State Fault Refusal :=
  instr e (.wait e d a imm) [a] 2 (fun s =>
    let target := s.reg e a
    if timeBefore (s.nowAt (s.engCycle e)) target then .wait (s.setEng e { s.eng e with stall := .until_ target })
    else .ok s) s

/-- WAIT_DONE: NOW reaches the target of the engine's WAIT. A map engine stands at the first microcycle at which that
holds; past the budget it stands at the deadline (R186). -/
def execWaitDone (e : Eng) (s : State) : Host.Outcome State Fault Refusal :=
  let en := s.eng e
  match en.stall with
  | .until_ target =>
    if !s.engRuns e then .next s
    else
      let w := match e with | .map _ => s.cyclesUntil en.cyc target | _ => 0
      .next (s.finishInstr e en.pc 1 0x1C (2 + w) (.ok s))
  | _ => .next s

/-- TRAP: completes with the coded status (R187). -/
def execTrap (e : Eng) (d a : RegNo) (imm : BitVec 20) (s : State) : Host.Outcome State Fault Refusal :=
  instr e (.trap e d a imm) [] 2 (fun s => .fail ((trapCode imm.toNat).getD .eillegal) s) s

end Sys2Proof.Machine
end

