-- ==== Sys2Proof/Machine/Remote.lean ====
section
/-! DEFINITION. Remote register accesses: requests served or sent on, and replies (R498). -/
namespace Sys2Proof.Machine

/-- A message goes on over the route to its device, where there is one and it stays within 16 hops. -/
def State.rmtForward (s : State) (dst hops : Nat) (words : Nat → List Nat) : State :=
  if 16 ≤ hops then s
  else match s.routeTo dst with
    | some b => s.emit (.bondMsg b 7 (words (hops + 1)))
    | none => s

/-- The reply to a request starts on its way back. -/
def State.rmtAnswer (s : State) (src : Nat) (st : Status) (v : Word) : State :=
  s.rmtForward src 0 (fun h => rmtReply src h st.code v)

/-- A request that names this device: the access, by the rules of R204, and its reply, or a wait for a domain. A read that is
shut out ends as one whose domain failed, and a write that is shut out is discarded (log 116). -/
def State.rmtServe (s : State) (bundle src hops : Nat) (wr : Bool) (off : Nat) (v : Word) : State :=
  if offRefused off then s.rmtAnswer src .erange 0
  else match (if wr then s.slotWrite .remote off v else s.slotRead .remote off true) with
    | .done s' w => s'.rmtAnswer src .ok w
    | .shut s' => s'.rmtAnswer src (if wr then .ok else .ewake) 0
    | .fail s' => s'.rmtAnswer src .ewake 0
    | .wait s' => s'.await (.remote bundle src hops wr off v)

/-- A reply that reaches the device that asked: the data of a read, the status, and BUSY clears; one that comes after the time
bound finds BUSY clear and changes nothing. -/
def State.rmtEnd (s : State) (status : Nat) (v : Word) : State :=
  if !s.flag F.SYS_RMT_CTRL_BUSY then s
  else
    let s1 := (s.set F.SYS_RMT_CTRL_BUSY 0).set F.SYS_RMT_CTRL_STATUS status
    if status = 0 && !s.flag F.SYS_RMT_CTRL_WRITE then s1.wr .SYS_RMT_DATA v else s1

/-- RMT: a message of a bundle that is UP. -/
def execRmt (b : Fin 4) (m : RmtMsg) (s : State) : Host.Outcome State Fault Refusal :=
  let own := s.get F.SYS_ID_DEVID
  if s.bondState b ≠ bnUP then .next s
  else match m with
    | .request src dst hops wr off v =>
      if dst.toNat = own then .next (s.rmtServe b src.toNat hops wr off.toNat v)
      else .next (s.rmtForward dst.toNat hops (fun h => rmtRequest src.toNat dst.toNat h wr off.toNat v))
    | .reply dst hops st v =>
      if dst.toNat = own then .next (s.rmtEnd st.toNat v)
      else .next (s.rmtForward dst.toNat hops (fun h => rmtReply dst.toNat h st.toNat v))

end Sys2Proof.Machine
end

