-- ==== Sys2Proof/Machine/TimeOps.lean ====
section
/-! DEFINITION. Time instructions: TCMP, TGET, TTRIG and TCAP (R199 to R201). -/
namespace Sys2Proof.Machine

/-- TCMP: d ← a - b as an interval; N where a is the earlier (R200). -/
def execTcmp (e : Eng) (f : FmtA) (s : State) : Host.Outcome State Fault Refusal :=
  instr e (.tcmp e f) [f.d, f.a, f.b] 1 (fun s =>
    let t := s.reg e f.a - s.reg e f.b
    .ok (s.putAlu e f.d { v := t, z := some (t = 0), n := some t.msb, c := some false, o := some false })) s

/-- TGET: the four words of a clock, latched at one instant, go to engine memory at a (R199). -/
def execTget (e : Eng) (f : FmtA) (s : State) : Host.Outcome State Fault Refusal :=
  instr e (.tget e f) [f.a] 6 (fun s =>
    s.dest e (s.reg e f.a) 4 (fun a =>
      let dom := f.fn.toNat % 4
      .ok (s.storeRange e a (clockWords (s.domClock dom (s.engCycle e)) (s.domValid dom))))) s

/-- TTRIG: output a fires at b (R201). -/
def execTtrig (e : Eng) (f : FmtA) (s : State) : Host.Outcome State Fault Refusal :=
  instr e (.ttrig e f) [f.a, f.b] 4 (fun s =>
    let i := (s.reg e f.a).toNat
    let t := s.reg e f.b
    if 4 ≤ i || timeBefore t (s.nowAt (s.engCycle e) + 1000) then .fail .erange s
    else if s.flag F.TIME_TRIG_CTRL_PEND i then .fail .estate s
    else .ok ((s.set F.TIME_TRIG_CTRL_PEND 1 i).wr .TIME_TRIG_TIME t i)) s

/-- TTRIG with cancel: output a has no pending instant (R201). -/
def execTtrigCancel (e : Eng) (f : FmtA) (s : State) : Host.Outcome State Fault Refusal :=
  instr e (.ttrigCancel e f) [f.a] 4 (fun s =>
    let i := (s.reg e f.a).toNat
    if 4 ≤ i then .fail .erange s else .ok ((s.set F.TIME_TRIG_CTRL_PEND 0 i).wr .TIME_TRIG_TIME 0 i)) s

/-- TCAP: d ← the capture of input a, taken from its latch (R199, R467). -/
def execTcap (e : Eng) (f : FmtA) (s : State) : Host.Outcome State Fault Refusal :=
  instr e (.tcap e f) [f.d, f.a] 3 (fun s =>
    let i := (s.reg e f.a).toNat
    if 4 ≤ i then .fail .erange s
    else
      let new := s.flag F.TIME_CAP_STAT_NEW i
      let v := if new then s.rd .TIME_CAP_DATA i else 0
      let s1 := (s.wr .TIME_CAP_DATA 0 i).set F.TIME_CAP_STAT_NEW 0 i
      .ok (s1.putAlu e f.d { v, z := some (!new) })) s

end Sys2Proof.Machine
end

