-- ==== Sys2Proof/Machine/WakeEnd.lean ====
section
/-! DEFINITION. The end of a wake: the domain becomes READY with its saved registers, or FAILED, and every access that waited
for it goes on (R119, R120, R122 to R124, R518). -/
namespace Sys2Proof.Machine

/-- A waiting access is made again: it is served, ended, or waits for another domain. -/
def State.retry (s : State) (w : Waiting) : State :=
  match w with
  | .read off size => s.barRead off size
  | .write off size v => s.barWrite off size v
  | .remote b src hops wr off v => s.rmtServe b src hops wr off v

/-- Every waiting access is made again, in order (R124). -/
def State.drain (s : State) : State :=
  s.host.waiting.foldl State.retry { s with host := { s.host with waiting := [] } }

/-- The quoins an engine waits for: the engine waits for this one. -/
def Engine.wakesOn (en : Engine) (q : Nat) : Bool :=
  match en.stall with
  | .wake qs => qs.contains q
  | _ => false

/-- The engines, in the order of R234's numbers, the plinth last. -/
def allEngines : List Eng :=
  (range' 0 64).map (fun t => Eng.map (Fin.ofNat 64 t)) ++ [Eng.cmd 0, Eng.cmd 1, Eng.plinth]

/-- An engine's stall ends; a command engine takes the service trap of vector 10 (R221). -/
def State.unstall (q : Nat) (s : State) (e : Eng) : State :=
  let en := s.eng e
  if en.wakesOn q then
    let s1 := match e with
      | .cmd c => s.serviceTrap c 0xA
      | _ => s
    s1.setEng e { s1.eng e with stall := .none }
  else s

/-- An instruction that waited ends with EWAKE (R122). -/
def State.endWait (q : Nat) (s : State) (e : Eng) : State :=
  let en := s.eng e
  if en.wakesOn q then s.failInstr e en.pc (wordOp (s.mem e en.pc)) .ewake else s

/-- A domain has woken: READY, what was saved restored, and what waited goes on. -/
def State.woken (s : State) (q : Nat) : State :=
  let wakestat := fun (s : State) (st : Status) =>
    if q = 0 then s.set F.PWR_CORE_STATUS_WAKESTAT st.code else s.set F.QUOIN_STATUS_WAKESTAT st.code (q - 1)
  let s1 := wakestat (s.setDomain q domREADY) .ok
  let s2 := s1.restoreGroup q
  let s3 := { s2 with
    pwr := { s2.pwr with rested := s2.pwr.rested.filter (fun x => x ≠ q) }
    host := { s2.host with waker := serase s2.host.waker q } }
  (allEngines.foldl (State.unstall q) s3.lanesSettle).drain

/-- A domain's wake has failed, with its record where one is due: everything that waited ends with EWAKE. -/
def State.wakeEnds (s : State) (q cause : Nat) : State :=
  let s1 := s.domainFailed q cause
  let s2 := if q = 0 then s1.set F.PWR_CORE_STATUS_WAKESTAT Status.ewake.code
    else s1.set F.QUOIN_STATUS_WAKESTAT Status.ewake.code (q - 1)
  let s3 := { s2 with host := { s2.host with waker := serase s2.host.waker q } }
  let s4 := s3.raise ⟨.PWR_INT_CAUSE, 3, 0⟩ ⟨.PWR_INT_EN, 3, 0⟩ 8 20
  (allEngines.foldl (State.endWait q) s4.lanesSettle).drain

/-- A wake is in progress that an access started; the start-up's own are the phases' (R116). -/
def State.wakes (s : State) (q : Nat) : Option Who :=
  if s.domainState q = domWAKING then (s.host.waker.find? (fun e => e.1 = q)).map (fun e => e.2) else none

/-- WAKE_COMPLETE: the domain reports READY. Where a check of its saved registers fails it is FAILED instead (R518). -/
def execWakeComplete (q : Dom) (s : State) : Host.Outcome State Fault Refusal :=
  let n := domNo q
  match s.wakes n with
  | none => .next s
  | some _ =>
    if s.pwr.savedBad.contains n then .next ((s.restoreGroup n).wakeEnds n 3)
    else .next (s.woken n)

/-- FAILCAUSE of a cause (R118). -/
def failCode (c : FailCause) : Nat :=
  match c with
  | .supply => 1
  | .clock => 2
  | .saved => 3

/-- The one record of a failed wake: fatal for the mortar core and quoin 24; its DETAIL is the FAILCAUSE, or the port of the
packet that started the wake (R122, R123, R523). -/
def State.wakeRecord (s : State) (n : Nat) (who : Who) (code : Nat) : State :=
  let detail := match who with
    | .packet p => p
    | _ => code
  if n = 0 || n = 24 then s.fatal n 0x20 n who 4 Status.ewake.code detail
  else s.faultWrite n 0x15 n who 4 Status.ewake.code detail

/-- WAKE_FAIL: the timeout expires first (R122, R123), or the saved registers fail their check (R518). -/
def execWakeFail (q : Dom) (cause : FailCause) (s : State) : Host.Outcome State Fault Refusal :=
  let n := domNo q
  match s.wakes n with
  | none => .next s
  | some who =>
    if cause = .saved then
      .next (({ s with pwr := { s.pwr with savedBad := n :: s.pwr.savedBad } }.restoreGroup n).wakeEnds n 3)
    else .next ((s.wakeRecord n who (failCode cause)).wakeEnds n (failCode cause))

end Sys2Proof.Machine
end

