-- ==== Sys2Proof/Machine/Dispatch.lean ====
section
/-! DEFINITION. The dispatcher: one arm per command. -/
namespace Sys2Proof.Machine

/-- The meaning of a command. -/
def exec (i : Instr) (s : State) : Host.Outcome State Fault Refusal :=
  match i with
  | .add e d a b => Sys2Proof.Machine.execAdd e d a b s
  | .adc e d a b => Sys2Proof.Machine.execAdc e d a b s
  | .sub e d a b => Sys2Proof.Machine.execSub e d a b s
  | .sbc e d a b => Sys2Proof.Machine.execSbc e d a b s
  | .and_ e d a b => Sys2Proof.Machine.execAnd e d a b s
  | .or_ e d a b => Sys2Proof.Machine.execOr e d a b s
  | .xor e d a b => Sys2Proof.Machine.execXor e d a b s
  | .andn e d a b => Sys2Proof.Machine.execAndn e d a b s
  | .shl e d a b => Sys2Proof.Machine.execShl e d a b s
  | .shr e d a b => Sys2Proof.Machine.execShr e d a b s
  | .sar e d a b => Sys2Proof.Machine.execSar e d a b s
  | .ror e d a b => Sys2Proof.Machine.execRor e d a b s
  | .mul e d a b => Sys2Proof.Machine.execMul e d a b s
  | .mulhu e d a b => Sys2Proof.Machine.execMulhu e d a b s
  | .minu e d a b => Sys2Proof.Machine.execMinu e d a b s
  | .maxu e d a b => Sys2Proof.Machine.execMaxu e d a b s
  | .cmp e d a b => Sys2Proof.Machine.execCmp e d a b s
  | .tst e d a b => Sys2Proof.Machine.execTst e d a b s
  | .clz e d a b => Sys2Proof.Machine.execClz e d a b s
  | .popc e d a b => Sys2Proof.Machine.execPopc e d a b s
  | .divu e d a b => Sys2Proof.Machine.execDivu e d a b s
  | .remu e d a b => Sys2Proof.Machine.execRemu e d a b s
  | .addi e d a imm => Sys2Proof.Machine.execAddi e d a imm s
  | .cmpi e d a imm => Sys2Proof.Machine.execCmpi e d a imm s
  | .andi e d a imm => Sys2Proof.Machine.execAndi e d a imm s
  | .ori e d a imm => Sys2Proof.Machine.execOri e d a imm s
  | .xori e d a imm => Sys2Proof.Machine.execXori e d a imm s
  | .shi e d a imm => Sys2Proof.Machine.execShi e d a imm s
  | .lil e d imm => Sys2Proof.Machine.execLil e d imm s
  | .lih e d imm => Sys2Proof.Machine.execLih e d imm s
  | .bfx e d a imm => Sys2Proof.Machine.execBfx e d a imm s
  | .bfi e d a imm => Sys2Proof.Machine.execBfi e d a imm s
  | .ld e d a imm => Sys2Proof.Machine.execLd e d a imm s
  | .st e d a imm => Sys2Proof.Machine.execSt e d a imm s
  | .rst e d a imm => Sys2Proof.Machine.execRst e d a imm s
  | .mfsr e d a imm => Sys2Proof.Machine.execMfsr e d a imm s
  | .mtsr e d a imm => Sys2Proof.Machine.execMtsr e d a imm s
  | .sel e f => Sys2Proof.Machine.execSel e f s
  | .br e d imm => Sys2Proof.Machine.execBr e d imm s
  | .jal e d imm => Sys2Proof.Machine.execJal e d imm s
  | .jalr e d a imm => Sys2Proof.Machine.execJalr e d a imm s
  | .end_ e f => Sys2Proof.Machine.execEnd e f s
  | .wait e d a imm => Sys2Proof.Machine.execWait e d a imm s
  | .waitDone e => Sys2Proof.Machine.execWaitDone e s
  | .trap e d a imm => Sys2Proof.Machine.execTrap e d a imm s
  | .dbnz e d a imm => Sys2Proof.Machine.execDbnz e d a imm s
  | .grant e f => Sys2Proof.Machine.execGrant e f s
  | .rpt e f => Sys2Proof.Machine.execRpt e f s
  | .ard e f => Sys2Proof.Machine.execArd e f s
  | .trd e f => Sys2Proof.Machine.execTrd e f s
  | .quiet e f => Sys2Proof.Machine.execQuiet e f s
  | .rssi e f => Sys2Proof.Machine.execRssi e f s
  | .twrite e f => Sys2Proof.Machine.execTwrite e f s
  | .tread e f => Sys2Proof.Machine.execTread e f s
  | .tinsert e f => Sys2Proof.Machine.execTinsert e f s
  | .tdelete e f => Sys2Proof.Machine.execTdelete e f s
  | .tlookup e f => Sys2Proof.Machine.execTlookup e f s
  | .tableOpFinish e k => Sys2Proof.Machine.execTableOpFinish e k s
  | .tbank e f => Sys2Proof.Machine.execTbank e f s
  | .bankDrainEnd => Sys2Proof.Machine.execBankDrainEnd s
  | .fence e f => Sys2Proof.Machine.execFence e f s
  | .fenceDone e => Sys2Proof.Machine.execFenceDone e s
  | .tgen e f => Sys2Proof.Machine.execTgen e f s
  | .qset e f => Sys2Proof.Machine.execQset e f s
  | .qread e f => Sys2Proof.Machine.execQread e f s
  | .cset e f => Sys2Proof.Machine.execCset e f s
  | .clink e f => Sys2Proof.Machine.execClink e f s
  | .cdel e f => Sys2Proof.Machine.execCdel e f s
  | .mset e f => Sys2Proof.Machine.execMset e f s
  | .mread e f => Sys2Proof.Machine.execMread e f s
  | .cntrd e f => Sys2Proof.Machine.execCntrd e f s
  | .tcmp e f => Sys2Proof.Machine.execTcmp e f s
  | .tget e f => Sys2Proof.Machine.execTget e f s
  | .ttrig e f => Sys2Proof.Machine.execTtrig e f s
  | .ttrigCancel e f => Sys2Proof.Machine.execTtrigCancel e f s
  | .tcap e f => Sys2Proof.Machine.execTcap e f s
  | .rdreg e d a b => Sys2Proof.Machine.execRdreg e d a b s
  | .wrreg e d a b => Sys2Proof.Machine.execWrreg e d a b s
  | .patch e d a b src => Sys2Proof.Machine.execPatch e d a b src s
  | .gpload e d a b src => Sys2Proof.Machine.execGpload e d a b src s
  | .fbmap e d a b src => Sys2Proof.Machine.execFbmap e d a b src s
  | .engctlHalt e d a b => Sys2Proof.Machine.execEngctlHalt e d a b s
  | .engctlHaltDone t => Sys2Proof.Machine.execEngctlHaltDone t s
  | .engctlStart e d a b => Sys2Proof.Machine.execEngctlStart e d a b s
  | .unitEnable e d a b => Sys2Proof.Machine.execUnitEnable e d a b s
  | .unitDisable e d a b => Sys2Proof.Machine.execUnitDisable e d a b s
  | .pcsel e d a b => Sys2Proof.Machine.execPcsel e d a b s
  | .pcrd e d a b => Sys2Proof.Machine.execPcrd e d a b s
  | .tmact e d a b => Sys2Proof.Machine.execTmact e d a b s
  | .tmdeact e d a b => Sys2Proof.Machine.execTmdeact e d a b s
  | .tmeqd e d a b => Sys2Proof.Machine.execTmeqd e d a b s
  | .plsend e d a b => Sys2Proof.Machine.execPlsend e d a b s
  | .plrecv e d a b => Sys2Proof.Machine.execPlrecv e d a b s
  | .kload e d a b => Sys2Proof.Machine.execKload e d a b s
  | .kclr e d a b => Sys2Proof.Machine.execKclr e d a b s
  | .cval e d a b => Sys2Proof.Machine.execCval e d a b s
  | .sense e d a b => Sys2Proof.Machine.execSense e d a b s
  | .logw e d a b => Sys2Proof.Machine.execLogw e d a b s
  | .flash e d a b responds => Sys2Proof.Machine.execFlash e d a b responds s
  | .updateCheck e d a b => Sys2Proof.Machine.execUpdateCheck e d a b s
  | .updateStage e d a b => Sys2Proof.Machine.execUpdateStage e d a b s
  | .updateConfirm e d a b => Sys2Proof.Machine.execUpdateConfirm e d a b s
  | .updateRevoke e d a b => Sys2Proof.Machine.execUpdateRevoke e d a b s
  | .deadline t => Sys2Proof.Machine.execDeadline t s
  | .tick c => Sys2Proof.Machine.execTick c s
  | .patchScrub e corrected => Sys2Proof.Machine.execPatchScrub e corrected s
  | .doorbell r v => Sys2Proof.Machine.execDoorbell r v s
  | .ringEnable r v => Sys2Proof.Machine.execRingEnable r v s
  | .ringDisable r v => Sys2Proof.Machine.execRingDisable r v s
  | .descriptorFetch c desc frag => Sys2Proof.Machine.execDescriptorFetch c desc frag s
  | .fragmentCompletion c => Sys2Proof.Machine.execFragmentCompletion c s
  | .fragmentTimeout c => Sys2Proof.Machine.execFragmentTimeout c s
  | .hostMemoryError c desc err => Sys2Proof.Machine.execHostMemoryError c desc err s
  | .ringInterrupt r => Sys2Proof.Machine.execRingInterrupt r s
  | .negotiate v => Sys2Proof.Machine.execNegotiate v s
  | .busMasterDisable d3hot => Sys2Proof.Machine.execBusMasterDisable d3hot s
  | .busMasterEnable => Sys2Proof.Machine.execBusMasterEnable s
  | .pciePerstN => Sys2Proof.Machine.execPciePerstN s
  | .functionLevelReset => Sys2Proof.Machine.execFunctionLevelReset s
  | .registerWrite off size v => Sys2Proof.Machine.execRegisterWrite off size v s
  | .powerOn => Sys2Proof.Machine.execPowerOn s
  | .resetNAssert widthNs => Sys2Proof.Machine.execResetNAssert widthNs s
  | .resetNRelease boot i2ca => Sys2Proof.Machine.execResetNRelease boot i2ca s
  | .porDone => Sys2Proof.Machine.execPorDone s
  | .softReset v => Sys2Proof.Machine.execSoftReset v s
  | .phaseFuses ok => Sys2Proof.Machine.execPhaseFuses ok s
  | .phaseClocks ok => Sys2Proof.Machine.execPhaseClocks ok s
  | .phaseSram ok => Sys2Proof.Machine.execPhaseSram ok s
  | .phaseStackmem ok => Sys2Proof.Machine.execPhaseStackmem ok s
  | .phaseFirmware src => Sys2Proof.Machine.execPhaseFirmware src s
  | .bootImageTimeout => Sys2Proof.Machine.execBootImageTimeout s
  | .phasePatch map cmd => Sys2Proof.Machine.execPhasePatch map cmd s
  | .supplyLost q => Sys2Proof.Machine.execSupplyLost q s
  | .aonBrownout => Sys2Proof.Machine.execAonBrownout s
  | .wakeComplete q => Sys2Proof.Machine.execWakeComplete q s
  | .wakeFail q cause => Sys2Proof.Machine.execWakeFail q cause s
  | .stageStall stage => Sys2Proof.Machine.execStageStall stage s
  | .sensorUpdate temps => Sys2Proof.Machine.execSensorUpdate temps s
  | .throttleStep => Sys2Proof.Machine.execThrottleStep s
  | .vmonUpdate mvs => Sys2Proof.Machine.execVmonUpdate mvs s
  | .safeReqN widthNs => Sys2Proof.Machine.execSafeReqN widthNs s
  | .safekey v => Sys2Proof.Machine.execSafekey v s
  | .fltRecSel v => Sys2Proof.Machine.execFltRecSel v s
  | .watchdogExpiry => Sys2Proof.Machine.execWatchdogExpiry s
  | .kick v => Sys2Proof.Machine.execKick v s
  | .plinthTick => Sys2Proof.Machine.execPlinthTick s
  | .logMirror ok => Sys2Proof.Machine.execLogMirror ok s
  | .hreq v => Sys2Proof.Machine.execHreq v s
  | .ack v => Sys2Proof.Machine.execAck v s
  | .info => Sys2Proof.Machine.execInfo s
  | .logread => Sys2Proof.Machine.execLogread s
  | .sensors => Sys2Proof.Machine.execSensors s
  | .logwrite => Sys2Proof.Machine.execLogwrite s
  | .imgwrite => Sys2Proof.Machine.execImgwrite s
  | .imgdone => Sys2Proof.Machine.execImgdone s
  | .confirm => Sys2Proof.Machine.execConfirm s
  | .reset => Sys2Proof.Machine.execReset s
  | .mirror ok => Sys2Proof.Machine.execMirror ok s
  | .wake => Sys2Proof.Machine.execWake s
  | .mgmtFrame frame => Sys2Proof.Machine.execMgmtFrame frame s
  | .bmcPowerRestored => Sys2Proof.Machine.execBmcPowerRestored s
  | .bmcWakeRequest => Sys2Proof.Machine.execBmcWakeRequest s
  | .bmcReset => Sys2Proof.Machine.execBmcReset s
  | .frameBoundary => Sys2Proof.Machine.execFrameBoundary s
  | .vddStep => Sys2Proof.Machine.execVddStep s
  | .ltStep => Sys2Proof.Machine.execLtStep s
  | .pwrGovEn v => Sys2Proof.Machine.execPwrGovEn v s
  | .watts v => Sys2Proof.Machine.execWatts v s
  | .doze q => Sys2Proof.Machine.execDoze q s
  | .rest v => Sys2Proof.Machine.execRest v s
  | .deep v => Sys2Proof.Machine.execDeep v s
  | .deepSave => Sys2Proof.Machine.execDeepSave s
  | .deepWake => Sys2Proof.Machine.execDeepWake s
  | .burstRst t => Sys2Proof.Machine.execBurstRst t s
  | .rssiTrig t => Sys2Proof.Machine.execRssiTrig t s
  | .burstReceived t b => Sys2Proof.Machine.execBurstReceived t b s
  | .driftHoldoffEnd t u => Sys2Proof.Machine.execDriftHoldoffEnd t u s
  | .burstMissing t => Sys2Proof.Machine.execBurstMissing t s
  | .sdChange t level => Sys2Proof.Machine.execSdChange t level s
  | .cont t => Sys2Proof.Machine.execCont t s
  | .los t => Sys2Proof.Machine.execLos t s
  | .alignCheck t pos errs count => Sys2Proof.Machine.execAlignCheck t pos errs count s
  | .ponDsCtrl t v => Sys2Proof.Machine.execPonDsCtrl t v s
  | .ponBondCtrl t v => Sys2Proof.Machine.execPonBondCtrl t v s
  | .ponPmCtrl t v => Sys2Proof.Machine.execPonPmCtrl t v s
  | .ponPmSel t v => Sys2Proof.Machine.execPonPmSel t v s
  | .pmSecond => Sys2Proof.Machine.execPmSecond s
  | .protEn t v => Sys2Proof.Machine.execProtEn t v s
  | .switch t v => Sys2Proof.Machine.execSwitch t v s
  | .portExchange t => Sys2Proof.Machine.execPortExchange t s
  | .protLaneTimeout t => Sys2Proof.Machine.execProtLaneTimeout t s
  | .rwaitExpiry t u => Sys2Proof.Machine.execRwaitExpiry t u s
  | .done t v => Sys2Proof.Machine.execDone t v s
  | .packetArrival p => Sys2Proof.Machine.execPacketArrival p s
  | .learnRequest => Sys2Proof.Machine.execLearnRequest s
  | .freezeHoldEnd key => Sys2Proof.Machine.execFreezeHoldEnd key s
  | .ageTick => Sys2Proof.Machine.execAgeTick s
  | .fwdFlush v => Sys2Proof.Machine.execFwdFlush v s
  | .fwdFlushDone => Sys2Proof.Machine.execFwdFlushDone s
  | .reseqRelease out port => Sys2Proof.Machine.execReseqRelease out port s
  | .selection egress => Sys2Proof.Machine.execSelection egress s
  | .handleRelease h => Sys2Proof.Machine.execHandleRelease h s
  | .bufThr p k v => Sys2Proof.Machine.execBufThr p k v s
  | .bufFlush v => Sys2Proof.Machine.execBufFlush v s
  | .portFlushDone => Sys2Proof.Machine.execPortFlushDone s
  | .auditGo v => Sys2Proof.Machine.execAuditGo v s
  | .auditPeriod => Sys2Proof.Machine.execAuditPeriod s
  | .auditVisit pool index => Sys2Proof.Machine.execAuditVisit pool index s
  | .clsExqCtrl q v => Sys2Proof.Machine.execClsExqCtrl q v s
  | .clsExqHead q v => Sys2Proof.Machine.execClsExqHead q v s
  | .commit g v => Sys2Proof.Machine.execCommit g v s
  | .cancel g v => Sys2Proof.Machine.execCancel g v s
  | .gateDisable g v => Sys2Proof.Machine.execGateDisable g v s
  | .gateListStart g => Sys2Proof.Machine.execGateListStart g s
  | .gateEntry g => Sys2Proof.Machine.execGateEntry g s
  | .queueSample q => Sys2Proof.Machine.execQueueSample q s
  | .cipNonceEpoch v => Sys2Proof.Machine.execCipNonceEpoch v s
  | .measurement d v => Sys2Proof.Machine.execMeasurement d v s
  | .dhold d => Sys2Proof.Machine.execDhold d s
  | .wtrExpiry => Sys2Proof.Machine.execWtrExpiry s
  | .requal d v => Sys2Proof.Machine.execRequal d v s
  | .step v => Sys2Proof.Machine.execStep v s
  | .timeSnap v => Sys2Proof.Machine.execTimeSnap v s
  | .sfdone => Sys2Proof.Machine.execSfdone s
  | .freqSourceLoss => Sys2Proof.Machine.execFreqSourceLoss s
  | .freqSourceReturn => Sys2Proof.Machine.execFreqSourceReturn s
  | .ppsOut n => Sys2Proof.Machine.execPpsOut n s
  | .todTx n v => Sys2Proof.Machine.execTodTx n v s
  | .todRx n byte stopOk => Sys2Proof.Machine.execTodRx n byte stopOk s
  | .triggerFire n => Sys2Proof.Machine.execTriggerFire n s
  | .capture n rising => Sys2Proof.Machine.execCapture n rising s
  | .timeCapData n => Sys2Proof.Machine.execTimeCapData n s
  | .pcFrzArm v => Sys2Proof.Machine.execPcFrzArm v s
  | .pcFreeze => Sys2Proof.Machine.execPcFreeze s
  | .resume v => Sys2Proof.Machine.execResume v s
  | .telEn v => Sys2Proof.Machine.execTelEn v s
  | .telRd v => Sys2Proof.Machine.execTelRd v s
  | .inj1 k v => Sys2Proof.Machine.execInj1 k v s
  | .clr k v => Sys2Proof.Machine.execClr k v s
  | .serPrbsCtrl k v => Sys2Proof.Machine.execSerPrbsCtrl k v s
  | .prbsLockLoss k => Sys2Proof.Machine.execPrbsLockLoss k s
  | .laneExitDone k => Sys2Proof.Machine.execLaneExitDone k s
  | .uplPortCtrl l v => Sys2Proof.Machine.execUplPortCtrl l v s
  | .linkUp l => Sys2Proof.Machine.execLinkUp l s
  | .linkDown l remote => Sys2Proof.Machine.execLinkDown l remote s
  | .trainingRestart l => Sys2Proof.Machine.execTrainingRestart l s
  | .uplFcCtrl l v => Sys2Proof.Machine.execUplFcCtrl l v s
  | .pauseRefresh l => Sys2Proof.Machine.execPauseRefresh l s
  | .pause l quanta => Sys2Proof.Machine.execPause l quanta s
  | .pfc l classes quanta => Sys2Proof.Machine.execPfc l classes quanta s
  | .pauseExpiry l c => Sys2Proof.Machine.execPauseExpiry l c s
  | .uplFrerCtrl j v => Sys2Proof.Machine.execUplFrerCtrl j v s
  | .frerReset j c => Sys2Proof.Machine.execFrerReset j c s
  | .bondTrainDone b => Sys2Proof.Machine.execBondTrainDone b s
  | .caps b m => Sys2Proof.Machine.execCaps b m s
  | .bondRetrain b => Sys2Proof.Machine.execBondRetrain b s
  | .flitError b => Sys2Proof.Machine.execFlitError b s
  | .nak b seq => Sys2Proof.Machine.execNak b seq s
  | .credit b m => Sys2Proof.Machine.execCredit b m s
  | .stop b classes => Sys2Proof.Machine.execStop b classes s
  | .go b classes => Sys2Proof.Machine.execGo b classes s
  | .down b => Sys2Proof.Machine.execDown b s
  | .time b m => Sys2Proof.Machine.execTime b m s
  | .timeExchange b => Sys2Proof.Machine.execTimeExchange b s
  | .rmt b m => Sys2Proof.Machine.execRmt b m s
  | .sysRmtGo v => Sys2Proof.Machine.execSysRmtGo v s
  | .remoteTimeout => Sys2Proof.Machine.execRemoteTimeout s
  | .sysId v => Sys2Proof.Machine.execSysId v s
  | .registerRead off size => Sys2Proof.Machine.execRegisterRead off size s
  | .pciePerstNRelease => Sys2Proof.Machine.execPciePerstNRelease s
  | .prbsLock k => Sys2Proof.Machine.execPrbsLock k s
  | .forwardedClockLoss b => Sys2Proof.Machine.execForwardedClockLoss b s
  | .flitAlignmentLoss b lane => Sys2Proof.Machine.execFlitAlignmentLoss b lane s
  | .linkTrainingFailed l an => Sys2Proof.Machine.execLinkTrainingFailed l an s
  | .frequencyLoopLock => Sys2Proof.Machine.execFrequencyLoopLock s
  | .rclkOutResume => Sys2Proof.Machine.execRclkOutResume s
  | .consoleRx byte stopOk => Sys2Proof.Machine.execConsoleRx byte stopOk s
  | .i2cTimeout bus => Sys2Proof.Machine.execI2cTimeout bus s
  | .aliveToggle => Sys2Proof.Machine.execAliveToggle s
  | .perfCounterWrap n => Sys2Proof.Machine.execPerfCounterWrap n s
  | .vddCoreSettled => Sys2Proof.Machine.execVddCoreSettled s
  | .receiverAdapted k => Sys2Proof.Machine.execReceiverAdapted k s

end Sys2Proof.Machine
end

