-- ==== Sys2Proof/Machine/Step.lean ====
section
/-! DEFINITION. One step: the command at the front of the queue, or one cycle of quoin 24. -/
namespace Sys2Proof.Machine

/-- A step: the command at the front acts on the state without it; with no command waiting the clock runs one cycle
(DESIGN CHOICE: log 2). -/
def step (s : State) : Host.Outcome State Fault Refusal :=
  match s.pending with
  | [] => .next (s.advance 1)
  | c :: cs => exec c { s with pending := cs }

/-- The state with the command that a word spells at the front of its queue; the table gives no bits, so none. -/
def State.withFetchWord (s : State) (nbits w : Nat) : State :=
  match Sys2Proof.decodeTableWord nbits w with
  | some c => { s with pending := c :: s.pending }
  | none => s

end Sys2Proof.Machine
end

