-- ==== Sys2Proof/Safety.lean ====
section
/-! DEFINITION. What a safe run is, and the terms statements speak in: an engine that takes the instruction at which it
stands, and what an instruction leaves as it was. -/
namespace Sys2Proof.Machine

/-- A step that does not stop. -/
def SafeStep (s : State) : Prop := ∃ t, step s = .next t

/-- A run of n steps that does not stop. -/
def SafeRun (n : Nat) (s : State) : Prop := ∃ t, Host.Core.run Sys2Proof.core n s = .next t

/-- Every register of BAR0 holds in t what it held in s, but perhaps those at offsets of which P holds. -/
def RegsBut (s t : State) (P : Nat → Prop) : Prop := ∀ d off, ¬ P off → sget d t.regs off = sget d s.regs off

/-- Engine e stands at instruction i, which it may run now: it runs and waits in nothing, no fault is pending, the words at
its pc are the instruction's, lie in its program and are good, its context and ring permit it, no register of regs waits
for a table operation, and the microcycles of cost fit the frame (R155, R163, R164, R171, R172, R179, R210, R223). -/
def State.takes (s : State) (e : Eng) (i : Instr) (regs : List RegNo) (cost : Nat) : Bool :=
  let en := s.eng e
  let pc := en.pc
  let w0 := s.mem e pc
  s.engRuns e && en.stall.open && en.fault.isNone && decide (pc < s.fetchLimit e) && !en.badIn pc (instrLen w0)
    && !(isX w0 && s.fetchLimit e ≤ pc + 1)
    && !(s.slotIllegal e pc || (isX w0 && s.slotIllegal e (pc + 1)) || illegalWord e w0 (s.mem e (pc + 1)))
    && s.spells e i && permitted e w0 && s.ringPermits e w0 && !regs.any en.regPending && !s.overBudget e cost

/-- The words of the instruction at which an engine stands. -/
def State.lenAt (s : State) (e : Eng) : Nat := instrLen (s.mem e (s.eng e).pc)

/-- The registers that keeping a rejection may change (R158, R532). -/
def rejectRegs (o : Nat) : Prop :=
  (∃ n, n < 16 ∧ o = Reg.offset ⟨.HCI_REJECT, n, 0, 0⟩) ∨ o = Reg.offset ⟨.HCI_REJECT_COUNT, 0, 0, 0⟩
    ∨ o = Reg.offset ⟨.PLN_LOG_CTRL, 0, 0, 0⟩

/-- The registers that writing a fault record may change (R521 to R525). -/
def faultRegs (o : Nat) : Prop :=
  o = Reg.offset ⟨.FLT_RING, 0, 0, 0⟩ ∨ o = Reg.offset ⟨.FLT_STATUS, 0, 0, 0⟩ ∨ o = Reg.offset ⟨.FLT_CNT, 0, 0, 0⟩
    ∨ o = Reg.offset ⟨.FLT_INT_CAUSE, 0, 0, 0⟩ ∨ ∃ c i, c < 3 ∧ i < 6 ∧ o = Reg.offset ⟨.FLT_FIRST, c, i, 0⟩

/-- The newest fault record of t is one that s did not hold, with these contents, and the ring has counted it (R521, R523,
R524). -/
structure Recorded (s t : State) (source cause addr : Nat) (who : Who) (access status detail : Nat) : Prop where
  newest : ∃ r, t.flt.ring = (r :: s.flt.ring).take 256 ∧ r.read = false ∧ wbits r.w0 35 35 = 1 ∧ wbits r.w0 34 33 = faultClass cause
    ∧ wbits r.w0 31 24 = source % 256 ∧ wbits r.w0 23 16 = cause % 256 ∧ wbits r.w0 15 0 = s.get F.FLT_RING_NEXTSEQ
    ∧ r.w1 = BitVec.ofNat 36 addr ∧ wbits r.w2 35 28 = who.master ∧ wbits r.w2 27 24 = access % 16 ∧ wbits r.w2 23 16 = status % 256
    ∧ wbits r.w2 15 0 = detail % 65536
  seq : t.get F.FLT_RING_NEXTSEQ = (s.get F.FLT_RING_NEXTSEQ + 1) % 65536
  count : t.get F.FLT_RING_COUNT = min 256 (s.flt.ring.length + 1)

/-- A register write is rejected with a status: the error field f of its block takes it, the rejection is kept and logged, and
nothing else changes (R18, R163, R532). -/
structure Rejected (s t : State) (f : Fld) (i : Nat) (st : Status) : Prop where
  err : t.get f i = st.code
  rest : t = { s with regs := t.regs, pln := t.pln }
  regs : RegsBut s t (fun o => o = Reg.offset ⟨f.id, i, 0, 0⟩ ∨ rejectRegs o)

/-- The packet side changes: t is s but for registers, counters, packets, queues, buffers, tables, what is sent, logged and
signalled, and the fences that command engines and the plinth wait at. Clocks, the boot, the supplies, the trees and their
map engines, and what a command names as waiting are as they were. -/
structure OnlyData (s t : State) : Prop where
  pending : t.pending = s.pending
  chip : t.chip = s.chip
  clk : t.clk = s.clk
  boot : t.boot = s.boot
  pwr : t.pwr = s.pwr
  map : t.map = s.map
  tree : t.tree = s.tree
  slots : t.slots = s.slots
  slotsBad : t.slotsBad = s.slotsBad
  tim : t.tim = s.tim

/-- A host write of v to register r reaches its block: the link is up, neither the safe state, a Deep entry nor READY shuts
it out, no earlier write waits, the unit is present, and every domain that serves it is ready (R9, R107, R115, R119, R124,
R515, R527). -/
structure WriteReaches (s : State) (r : Reg) (v : Word) : Prop where
  up : s.barOpen = true
  safe : s.safeShut r.offset v = false
  deep : s.deepShut r.offset = false
  ready : s.readyShut r.offset = false
  order : s.writeWaits = false
  present : s.chip.offAbsent r.offset = false
  domains : ∀ q, q ∈ servedBy r.offset → s.domainState q = domREADY ∨ s.domainState q = domABSENT

/-- The safe state is entered between s and t: SAFE is set, ALIVE stays low and FAULT_N is pulled low, every fragment ends and
every map program stops, rings are disabled, lasers off, and packets discarded (R65, R66, R526, R527). -/
structure EntersSafe (s t : State) : Prop where
  safe : t.safe = true
  alive : t.boot.alive = false
  faultN : t.boot.faultLow = true
  fragments : ∀ c f, (t.cmd.get c).frag = some f → f.ended ≠ none
  maps : ∀ m, (t.map.get m).run = false
  rings : ∀ r : Fin 16, t.get F.HCI_RING_STATUS_ENABLED r = 0
  lasers : ∀ k : Fin 64, t.get F.PON_TREE_STATUS_TXON k = 0
  packets : t.dp.swc = [] ∧ t.dp.ingress = [] ∧ ∀ q, (t.que q).items = []
  kept : t.pending = s.pending ∧ t.chip = s.chip ∧ t.tree = s.tree ∧ t.tim = s.tim ∧ t.clk = s.clk ∧ t.slots = s.slots

/-- An engine's registers, memory and program are as before, but for register d, the flags, the pc, the wait it stood in, the
microcycles it has used and the fragment's record of its last instruction. -/
structure Engine.OnlyReg (a b : Engine) (d : RegNo) : Prop where
  reg : ∀ r, r ≠ d → b.reg r = a.reg r
  mem : b.mem = a.mem
  bad : b.bad = a.bad
  fault : b.fault = a.fault
  run : b.run = a.run
  ops : b.ops = a.ops
  tags : b.tags = a.tags
  patch : b.patch = a.patch
  staged : b.staged = a.staged
  frag : ∀ f, b.frag = some f → ∃ l, a.frag = some { f with last := l }
  trapCause : b.trapCause = a.trapCause
  trapPc : b.trapPc = a.trapPc
  tvec : b.tvec = a.tvec

/-- Beside engine e, t is s: every register of BAR0 but PC_WRAP, every table, queue, buffer, tree, port and clock. An
engine's microcycles are an event of the performance counters, which may wrap and signal (R544, R546); the plinth may take
a waiting event when its instruction ends (R536). -/
structure OnlyEngine (s t : State) (e : Eng) : Prop where
  pending : t.pending = s.pending
  chip : t.chip = s.chip
  regs : ∀ d off, (∀ i, off ≠ Reg.offset ⟨.PC_WRAP, i, 0, 0⟩) → sget d t.regs off = sget d s.regs off
  clk : t.clk = s.clk
  boot : t.boot = s.boot
  host : { t.host with pba := s.host.pba, held := s.host.held } = s.host
  pwr : t.pwr = s.pwr
  flt : t.flt = s.flt
  pln : { t.pln with events := s.pln.events } = s.pln
  tel : { t.tel with perf := s.tel.perf } = s.tel
  eng : ∀ e', e' ≠ e → t.eng e' = s.eng e'
  tree : t.tree = s.tree
  slots : t.slots = s.slots
  slotsBad : t.slotsBad = s.slotsBad
  tim : t.tim = s.tim
  dp : t.dp = s.dp
  /-- Command engines and the plinth count no microcycles, so that nothing at all differs there. -/
  quiet : (∀ m, e ≠ .map m) → t.regs = s.regs ∧ t.host = s.host ∧ t.tel = s.tel ∧ t.outs = s.outs ∧ t.free = s.free
  events : e ≠ .plinth → t.pln = s.pln

/-- An instruction of engine e that writes register d, flags and nothing else has ended: the frame of every such
instruction, and where the engine stands (R166, R172, R180, R181). -/
structure RegInstr (s t : State) (e : Eng) (d : RegNo) : Prop where
  frame : OnlyEngine s t e
  engine : (s.eng e).OnlyReg (t.eng e) d
  stall : (t.eng e).stall = .none

/-- The engine stands at word n; the plinth, where an event waits, in the event's routine (R536). -/
def State.standsAt (t : State) (e : Eng) (n : Nat) : Prop := e ≠ .plinth → (t.eng e).pc = n

/-- The four flags of an engine: Z, N, C, V. -/
def Engine.flags (en : Engine) : Bool × Bool × Bool × Bool := (en.fz, en.fn, en.fc, en.fv)

/-! What R166 says of the flags Z, N, C, V: of a sum, of a difference with C as borrow, of a result that clears C and V, and
of a shift whose last bit out is c. -/

def sumFlags (x y : Word) (c : Nat) : Bool × Bool × Bool × Bool :=
  let r := x + y + BitVec.ofNat 36 c
  (r = 0, r.msb, 2 ^ 36 ≤ x.toNat + y.toNat + c, x.toInt + y.toInt + c ≠ r.toInt)

def diffFlags (x y : Word) (c : Nat) : Bool × Bool × Bool × Bool :=
  let r := x - y - BitVec.ofNat 36 c
  (r = 0, r.msb, x.toNat < y.toNat + c, x.toInt - y.toInt - c ≠ r.toInt)

def logicFlags (r : Word) : Bool × Bool × Bool × Bool := (r = 0, r.msb, false, false)

def shiftFlags (r : Word) (c : Bool) : Bool × Bool × Bool × Bool := (r = 0, r.msb, c, false)

/-- Wherever engine e takes instruction i, i completes: register d receives v (w0 stays zero), the flags become fl, the engine
stands behind the instruction, a map engine has spent cost microcycles, and all else is as before. -/
def Computes (e : Eng) (i : Instr) (regs : List RegNo) (cost : Nat) (d : RegNo) (v : State → Word)
    (fl : State → Bool × Bool × Bool × Bool) : Prop :=
  ∀ s, s.takes e i regs cost = true → ∃ t, exec i s = .next t ∧ RegInstr s t e d
    ∧ t.reg e d = (if d = 0 then 0 else v s) ∧ (t.eng e).flags = fl s
    ∧ t.standsAt e ((s.eng e).pc + s.lenAt e) ∧ (∀ m, e = .map m → (t.eng e).cyc = (s.eng e).cyc + cost)

/-- Wherever engine e takes instruction i in a state of which P holds, i completes: what it does is to turn the state s into
u s; beside that only the end of the instruction shows, where the engine stands and the microcycles it has spent. -/
def Does (e : Eng) (i : Instr) (regs : List RegNo) (cost : Nat) (P : State → Prop) (u : State → State) : Prop :=
  ∀ s, s.takes e i regs cost = true → P s → ∃ t, exec i s = .next t ∧ RegInstr (u s) t e 0
    ∧ (t.eng e).flags = ((u s).eng e).flags ∧ t.standsAt e ((s.eng e).pc + s.lenAt e)
    ∧ (∀ m, e = .map m → (t.eng e).cyc = ((u s).eng e).cyc + cost)

/-- The instruction at which engine e stood has completed with a status other than OK and none of its effect (R173, R226):
a fragment ends at it, a map engine drops its map and stops for the frame, the plinth goes on at TVEC. Registers, flags,
memory, the other engines and the packets, tables and trees of the rest are as they were. -/
structure Failed (s t : State) (e : Eng) (st : Status) : Prop where
  regs : ∀ r, t.reg e r = s.reg e r
  flags : (t.eng e).flags = (s.eng e).flags
  mem : (t.eng e).mem = (s.eng e).mem
  stall : (t.eng e).stall = .none
  others : ∀ e', e' ≠ e → t.eng e' = s.eng e'
  frame : t.pending = s.pending ∧ t.chip = s.chip ∧ t.clk = s.clk ∧ t.boot = s.boot ∧ t.pwr = s.pwr ∧ t.flt = s.flt
    ∧ t.slots = s.slots ∧ t.slotsBad = s.slotsBad ∧ t.tim = s.tim ∧ t.dp = s.dp
  cmd : ∀ c, e = .cmd c → (t.eng e).frag = (s.eng e).frag.map (fun f => { f with ended := some ((s.eng e).pc, st) })
    ∧ t.get F.CMD_ENG_STATUS_LASTVEC c = 5 ∧ t.tree = s.tree
  map : ∀ m, e = .map m → (t.eng e).run = false ∧ (t.tr m).committed = none ∧ (t.tr m).build = []
    ∧ t.get F.MAP_ENG_STATUS_FLT m = 1 ∧ t.get F.MAP_ENG_STATUS_LASTSTAT m = st.code ∧ t.get F.MAP_ENG_STATUS_LASTVEC m = 5
    ∧ (∀ m', m' ≠ m → t.tr m' = s.tr m')
  plinth : e = .plinth → (t.eng e).trapCause = BitVec.ofNat 36 st.code ∧ (t.eng e).trapPc = BitVec.ofNat 36 (s.eng e).pc
    ∧ (t.eng e).pc = (s.eng e).tvec.toNat ∧ t.tree = s.tree

/-- Wherever engine e takes instruction i, i completes with status st and has no effect of its own. -/
def FailsWith (e : Eng) (i : Instr) (regs : List RegNo) (cost : Nat) (st : Status) : Prop :=
  ∀ s, s.takes e i regs cost = true → ∃ t, exec i s = .next t ∧ Failed s t e st

/-- Wherever engine e takes instruction i in a state of which P holds, i completes with status st and has no effect of its
own. -/
def FailsIf (e : Eng) (i : Instr) (regs : List RegNo) (cost : Nat) (P : State → Prop) (st : Status) : Prop :=
  ∀ s, s.takes e i regs cost = true → P s → ∃ t, exec i s = .next t ∧ Failed s t e st

end Sys2Proof.Machine
end

