-- ==== Sys2Proof/Certificates/Slice0/Obligations.lean ====
section
/-! DEFINITION. The statements for the provers, family by family. -/
open Sys2Proof Sys2Proof.Machine

/-- R180, R181: addition and subtraction, with and without carry, register and immediate, and the comparisons. -/
def Obligations.AddAndSubtract : Prop :=
  ∀ (e : Eng) (d a b : RegNo) (imm : BitVec 20),
    Computes e (.add e d a b) [d, a, b] 1 d (fun s => s.reg e a + s.reg e b) (fun s => sumFlags (s.reg e a) (s.reg e b) 0)
    ∧ Computes e (.adc e d a b) [d, a, b] 1 d (fun s => s.reg e a + s.reg e b + BitVec.ofNat 36 (s.eng e).fc.toNat)
        (fun s => sumFlags (s.reg e a) (s.reg e b) (s.eng e).fc.toNat)
    ∧ Computes e (.sub e d a b) [d, a, b] 1 d (fun s => s.reg e a - s.reg e b) (fun s => diffFlags (s.reg e a) (s.reg e b) 0)
    ∧ Computes e (.sbc e d a b) [d, a, b] 1 d (fun s => s.reg e a - s.reg e b - BitVec.ofNat 36 (s.eng e).fc.toNat)
        (fun s => diffFlags (s.reg e a) (s.reg e b) (s.eng e).fc.toNat)
    ∧ Computes e (.cmp e 0 a b) [0, a, b] 1 0 (fun _ => 0) (fun s => diffFlags (s.reg e a) (s.reg e b) 0)
    ∧ Computes e (.addi e d a imm) [d, a] 1 d (fun s => s.reg e a + imm.signExtend 36)
        (fun s => sumFlags (s.reg e a) (imm.signExtend 36) 0)
    ∧ Computes e (.cmpi e 0 a imm) [0, a] 1 0 (fun _ => 0) (fun s => diffFlags (s.reg e a) (imm.signExtend 36) 0)

/-- R180, R181: the logical operations, the constants LIL and LIH, which set no flag. -/
def Obligations.LogicAndConstants : Prop :=
  ∀ (e : Eng) (d a b : RegNo) (imm : BitVec 20) (imm25 : BitVec 25),
    Computes e (.and_ e d a b) [d, a, b] 1 d (fun s => s.reg e a &&& s.reg e b)
        (fun s => logicFlags (s.reg e a &&& s.reg e b))
    ∧ Computes e (.or_ e d a b) [d, a, b] 1 d (fun s => s.reg e a ||| s.reg e b)
        (fun s => logicFlags (s.reg e a ||| s.reg e b))
    ∧ Computes e (.xor e d a b) [d, a, b] 1 d (fun s => s.reg e a ^^^ s.reg e b)
        (fun s => logicFlags (s.reg e a ^^^ s.reg e b))
    ∧ Computes e (.andn e d a b) [d, a, b] 1 d (fun s => s.reg e a &&& ~~~s.reg e b)
        (fun s => logicFlags (s.reg e a &&& ~~~s.reg e b))
    ∧ Computes e (.tst e 0 a b) [0, a, b] 1 0 (fun _ => 0) (fun s => logicFlags (s.reg e a &&& s.reg e b))
    ∧ Computes e (.andi e d a imm) [d, a] 1 d (fun s => s.reg e a &&& imm.zeroExtend 36)
        (fun s => logicFlags (s.reg e a &&& imm.zeroExtend 36))
    ∧ Computes e (.ori e d a imm) [d, a] 1 d (fun s => s.reg e a ||| imm.zeroExtend 36)
        (fun s => logicFlags (s.reg e a ||| imm.zeroExtend 36))
    ∧ Computes e (.xori e d a imm) [d, a] 1 d (fun s => s.reg e a ^^^ imm.zeroExtend 36)
        (fun s => logicFlags (s.reg e a ^^^ imm.zeroExtend 36))
    ∧ Computes e (.lil e d imm25) [d] 1 d (fun _ => imm25.zeroExtend 36) (fun s => (s.eng e).flags)
    ∧ (imm25.toNat < 2048 → Computes e (.lih e d imm25) [d] 1 d
        (fun s => BitVec.ofNat 36 (imm25.toNat * 2 ^ 25 + (s.reg e d).toNat % 2 ^ 25)) (fun s => (s.eng e).flags))

/-- R180 to R182: the shifts, by a register's low six bits or by an immediate amount up to 35, with C the last bit shifted
out; ROR turns modulo 36 and clears C. -/
def Obligations.ShiftAndRotate : Prop :=
  ∀ (e : Eng) (d a b : RegNo),
    Computes e (.shl e d a b) [d, a, b] 1 d (fun s => s.reg e a <<< ((s.reg e b).toNat % 64))
        (fun s => let n := (s.reg e b).toNat % 64
          shiftFlags (s.reg e a <<< n) (0 < n && n ≤ 36 && (s.reg e a).getLsbD (36 - n)))
    ∧ Computes e (.shr e d a b) [d, a, b] 1 d (fun s => s.reg e a >>> ((s.reg e b).toNat % 64))
        (fun s => let n := (s.reg e b).toNat % 64
          shiftFlags (s.reg e a >>> n) (0 < n && (s.reg e a).getLsbD (n - 1)))
    ∧ Computes e (.sar e d a b) [d, a, b] 1 d (fun s => (s.reg e a).sshiftRight ((s.reg e b).toNat % 64))
        (fun s => let n := (s.reg e b).toNat % 64
          shiftFlags ((s.reg e a).sshiftRight n) (0 < n && (s.reg e a).getLsbD (min (n - 1) 35)))
    ∧ Computes e (.ror e d a b) [d, a, b] 1 d (fun s => (s.reg e a).rotateRight ((s.reg e b).toNat % 64 % 36))
        (fun s => logicFlags ((s.reg e a).rotateRight ((s.reg e b).toNat % 64 % 36)))
    ∧ (∀ n : Nat, n < 36 →
        Computes e (.shi e d a (BitVec.ofNat 20 n)) [d, a] 1 d (fun s => s.reg e a <<< n)
            (fun s => shiftFlags (s.reg e a <<< n) (0 < n && (s.reg e a).getLsbD (36 - n)))
        ∧ Computes e (.shi e d a (BitVec.ofNat 20 (64 + n))) [d, a] 1 d (fun s => s.reg e a >>> n)
            (fun s => shiftFlags (s.reg e a >>> n) (0 < n && (s.reg e a).getLsbD (n - 1)))
        ∧ Computes e (.shi e d a (BitVec.ofNat 20 (128 + n))) [d, a] 1 d (fun s => (s.reg e a).sshiftRight n)
            (fun s => shiftFlags ((s.reg e a).sshiftRight n) (0 < n && (s.reg e a).getLsbD (n - 1)))
        ∧ Computes e (.shi e d a (BitVec.ofNat 20 (192 + n))) [d, a] 1 d (fun s => (s.reg e a).rotateRight n)
            (fun s => logicFlags ((s.reg e a).rotateRight n)))

/-- R180, R182: products, quotients, remainders, the smaller and the larger, and the bit counts. MINU and MAXU leave C and V;
CLZ and POPC set Z alone; DIVU and REMU set Z, and V for a division by zero. -/
def Obligations.MultiplyDivideCount : Prop :=
  ∀ (e : Eng) (d a b : RegNo),
    Computes e (.mul e d a b) [d, a, b] 4 d (fun s => s.reg e a * s.reg e b)
        (fun s => logicFlags (s.reg e a * s.reg e b))
    ∧ Computes e (.mulhu e d a b) [d, a, b] 4 d
        (fun s => BitVec.ofNat 36 ((s.reg e a).toNat * (s.reg e b).toNat / 2 ^ 36))
        (fun s => logicFlags (BitVec.ofNat 36 ((s.reg e a).toNat * (s.reg e b).toNat / 2 ^ 36)))
    ∧ Computes e (.minu e d a b) [d, a, b] 1 d (fun s => BitVec.ofNat 36 (min (s.reg e a).toNat (s.reg e b).toNat))
        (fun s => let r := BitVec.ofNat 36 (min (s.reg e a).toNat (s.reg e b).toNat)
          (r = 0, r.msb, (s.eng e).fc, (s.eng e).fv))
    ∧ Computes e (.maxu e d a b) [d, a, b] 1 d (fun s => BitVec.ofNat 36 (max (s.reg e a).toNat (s.reg e b).toNat))
        (fun s => let r := BitVec.ofNat 36 (max (s.reg e a).toNat (s.reg e b).toNat)
          (r = 0, r.msb, (s.eng e).fc, (s.eng e).fv))
    ∧ Computes e (.clz e d a 0) [d, a, 0] 1 d (fun s => if s.reg e a = 0 then 36 else BitVec.ofNat 36 (35 - (s.reg e a).toNat.log2))
        (fun s => ((s.reg e a).msb, (s.eng e).fn, (s.eng e).fc, (s.eng e).fv))
    ∧ Computes e (.popc e d a 0) [d, a, 0] 1 d
        (fun s => BitVec.ofNat 36 ((List.range 36).countP (fun i => (s.reg e a).getLsbD i)))
        (fun s => (s.reg e a = 0, (s.eng e).fn, (s.eng e).fc, (s.eng e).fv))
    ∧ Computes e (.divu e d a b) [d, a, b] 38 d
        (fun s => if s.reg e b = 0 then 0xFFFFFFFFF else BitVec.ofNat 36 ((s.reg e a).toNat / (s.reg e b).toNat))
        (fun s => (decide (s.reg e b ≠ 0 ∧ (s.reg e a).toNat < (s.reg e b).toNat), (s.eng e).fn, (s.eng e).fc,
          decide (s.reg e b = 0)))
    ∧ Computes e (.remu e d a b) [d, a, b] 38 d (fun s => BitVec.ofNat 36 ((s.reg e a).toNat % (s.reg e b).toNat))
        (fun s => (decide ((s.reg e a).toNat % (s.reg e b).toNat = 0), (s.eng e).fn, (s.eng e).fc, decide (s.reg e b = 0)))

/-- R181, R182: BFX takes a field of a, zero-extended, and BFI puts the low bits of a into a field of d; each sets Z alone. -/
def Obligations.BitFields : Prop :=
  ∀ (e : Eng) (d a : RegNo) (lsb w : Nat), 1 ≤ w → lsb + w ≤ 36 →
    let imm := BitVec.ofNat 20 (lsb * 64 + w)
    let put := fun s : State => (s.reg e d).toNat - (s.reg e d).toNat / 2 ^ lsb % 2 ^ w * 2 ^ lsb
      + (s.reg e a).toNat % 2 ^ w * 2 ^ lsb
    Computes e (.bfx e d a imm) [d, a] 1 d (fun s => BitVec.ofNat 36 ((s.reg e a).toNat / 2 ^ lsb % 2 ^ w))
        (fun s => (decide ((s.reg e a).toNat / 2 ^ lsb % 2 ^ w = 0), (s.eng e).fn, (s.eng e).fc, (s.eng e).fv))
    ∧ Computes e (.bfi e d a imm) [d, a] 1 d (fun s => BitVec.ofNat 36 (put s))
        (fun s => (decide (put s = 0), (s.eng e).fn, (s.eng e).fc, (s.eng e).fv))

/-- R182: an SHI amount above 35, a BFX or BFI field of no width or beyond bit 35 complete with ERANGE, whatever the kind. -/
def Obligations.ImmediateOutOfRange : Prop :=
  ∀ (e : Eng) (d a : RegNo) (imm : BitVec 20),
    (35 < imm.toNat % 64 → FailsWith e (.shi e d a imm) [d, a] 1 .erange)
    ∧ (imm.toNat % 64 = 0 ∨ 36 < imm.toNat / 64 % 64 + imm.toNat % 64 →
        FailsWith e (.bfx e d a imm) [d, a] 1 .erange ∧ FailsWith e (.bfi e d a imm) [d, a] 1 .erange)

/-- R175, R183: LD reads, ST writes the engine's own memory at a plus the sign-extended immediate; outside it, and where a
command engine's fragment or the plinth's ROM stands, the instruction completes with ERANGE. A word that an outstanding
table operation will write is waited for (R179); a word with an uncorrectable error is rewritten by a store (R223). -/
def Obligations.LoadAndStore : Prop :=
  ∀ (e : Eng) (d a : RegNo) (imm : BitVec 20) (s : State),
    let x := effAddr (s.reg e a) imm
    (s.takes e (.ld e d a imm) [d, a] 2 = true →
      (x < engMemWords e → (s.eng e).memPending x 1 = false → x ∉ (s.eng e).bad →
        ∃ t, exec (.ld e d a imm) s = .next t ∧ RegInstr s t e d ∧ t.reg e d = (if d = 0 then 0 else s.mem e x)
          ∧ (t.eng e).flags = (s.eng e).flags ∧ t.standsAt e ((s.eng e).pc + 1))
      ∧ (engMemWords e ≤ x → ∃ t, exec (.ld e d a imm) s = .next t ∧ Failed s t e .erange))
    ∧ (s.takes e (.st e d a imm) [d, a] 1 = true →
      (engStorable e x 1 = true → (s.eng e).memPending x 1 = false →
        ∃ t, exec (.st e d a imm) s = .next t ∧ OnlyEngine s t e ∧ t.mem e x = s.reg e d
          ∧ (∀ e' x', (e' ≠ e ∨ x' ≠ x) → t.mem e' x' = s.mem e' x') ∧ x ∉ (t.eng e).bad
          ∧ (∀ r, t.reg e r = s.reg e r) ∧ (t.eng e).flags = (s.eng e).flags ∧ t.standsAt e ((s.eng e).pc + 1))
      ∧ (engStorable e x 1 = false → ∃ t, exec (.st e d a imm) s = .next t ∧ Failed s t e .erange))

/-- R184: RST writes the word to RESULT_ADDR + 8 x index as a posted write and keeps one more than the highest index; at or
above RESULT_LEN it completes with ERANGE. Without Bus Master Enable, or in D3hot, the write is held (R133). -/
def Obligations.ResultStore : Prop :=
  ∀ (c : Fin 2) (d a : RegNo) (imm : BitVec 20) (s : State) (f : Frag),
    let e := Eng.cmd c
    let x := effAddr (s.reg e a) imm
    let w := Out.hostWrite (f.resAddr + BitVec.ofNat 64 (8 * x)) ((s.reg e d).zeroExtend 64)
    s.takes e (.rst e d a imm) [d, a] 2 = true → (s.cmd.get c).frag = some f →
      (x < f.resLen → f.aborted = false →
        ∃ t, exec (.rst e d a imm) s = .next t
          ∧ t = { s with outs := t.outs, host := { s.host with held := t.host.held }, cmd := t.cmd }
          ∧ (s.host.busMaster = true → s.host.d3hot = false → t.outs = s.outs ++ [w] ∧ t.host.held = s.host.held)
          ∧ (s.host.busMaster = false ∨ s.host.d3hot = true → t.outs = s.outs ∧ t.host.held = s.host.held ++ [w])
          ∧ (t.cmd.get c).frag = some { f with results := max f.results (x + 1), last := some (s.cmd.get c).pc }
          ∧ (∀ r, t.reg e r = s.reg e r) ∧ (t.cmd.get c).flags = (s.cmd.get c).flags ∧ t.standsAt e ((s.cmd.get c).pc + 1)
          ∧ (∀ c', c' ≠ c → t.cmd.get c' = s.cmd.get c'))
      ∧ (f.resLen ≤ x → ∃ t, exec (.rst e d a imm) s = .next t ∧ Failed s t e .erange)

/-- R167, R168, R169, R183: MFSR reads a special register, MTSR writes FLAGS, and in the plinth TVEC, SEL chooses by a
condition; what each special register and each condition code is. -/
def Obligations.SpecialRegistersAndSelect : Prop :=
  ∀ (e : Eng) (d a b : RegNo) (imm : BitVec 20) (fn : BitVec 15) (c : Fin 2) (m : Fin 64),
    Computes e (.mfsr e d 0 imm) [d] 1 d (fun s => BitVec.ofNat 36 (s.special e imm.toNat)) (fun s => (s.eng e).flags)
    ∧ Computes e (.sel e ⟨d, a, b, fn⟩) [d, a, b] 1 d
        (fun s => if condHolds fn.toNat (s.eng e).fz (s.eng e).fn (s.eng e).fc (s.eng e).fv then s.reg e a else s.reg e b)
        (fun s => (s.eng e).flags)
    ∧ Computes e (.mtsr e 0 a 0) [a] 1 0 (fun _ => 0)
        (fun s => ((s.reg e a).getLsbD 2, (s.reg e a).getLsbD 3, (s.reg e a).getLsbD 1, (s.reg e a).getLsbD 0))
    ∧ (∀ s, s.takes .plinth (.mtsr .plinth 0 a 0x12) [a] 1 = true → ∃ t, exec (.mtsr .plinth 0 a 0x12) s = .next t
        ∧ OnlyEngine s t .plinth ∧ t.plinth.tvec = s.reg .plinth a ∧ (∀ r, t.reg .plinth r = s.reg .plinth r)
        ∧ t.plinth.flags = s.plinth.flags ∧ t.plinth.mem = s.plinth.mem)
    ∧ (∀ s : State,
        s.special e 0 = 8 * (s.eng e).fn.toNat + 4 * (s.eng e).fz.toNat + 2 * (s.eng e).fc.toNat + (s.eng e).fv.toNat
        ∧ s.special (.cmd c) 1 = s.nowNs % 2 ^ 36 ∧ s.special e 2 = s.clk.frame % 2 ^ 36
        ∧ s.special e 3 = s.get F.PWR_GOV_STATUS_CAPACITY ∧ s.special e 4 = s.get F.PWR_COMMIT_EBUDGET
        ∧ s.special (.map m) 5 = m.val ∧ s.special (.cmd c) 5 = 64 ∧ s.special .plinth 5 = 64
        ∧ s.special (.map m) 6 = m.val ∧ s.special (.cmd c) 6 = 64 + c.val ∧ s.special .plinth 6 = 128
        ∧ s.special (.map m) 7 = (s.map.get m).cyc ∧ s.special (.map m) 8 = 143078 ∧ s.special (.cmd c) 8 = 0
        ∧ (∀ f, (s.cmd.get c).frag = some f → s.special (.cmd c) 0x0C = f.resLen ∧ s.special (.cmd c) 0x0D = f.results)
        ∧ s.special (.cmd c) 0x0E = (s.cmd.get c).ops.length ∧ s.special .plinth 0x12 = s.plinth.tvec.toNat
        ∧ s.special .plinth 0x10 = s.plinth.trapCause.toNat ∧ s.special .plinth 0x11 = s.plinth.trapPc.toNat)
    ∧ (∀ z n k v : Bool, (List.range 16).map (fun i => condHolds i z n k v)
        = [true, z, !z, n != v, n == v, !z && n == v, z || n != v, k, !k, !k && !z, k || z, n, !n, v, !v, false])

/-- R185: branches and jumps count from the instruction's own first word. A branch not taken goes on at the next word; a
target outside the program's words completes with ERANGE. -/
def Obligations.BranchAndJump : Prop :=
  ∀ (e : Eng) (d a : RegNo) (imm : BitVec 20) (imm25 : BitVec 25) (s : State),
    let pc := (s.eng e).pc
    let t25 := (BitVec.ofNat 36 pc + imm25.signExtend 36).toNat
    let t20 := (BitVec.ofNat 36 pc + imm.signExtend 36).toNat
    let ta := (s.reg e a + imm.signExtend 36).toNat
    let en := s.eng e
    let taken := condHolds d.toNat en.fz en.fn en.fc en.fv
    (s.takes e (.br e d imm25) [] 1 = true →
      (taken = false → ∃ t, exec (.br e d imm25) s = .next t ∧ RegInstr s t e 0 ∧ (t.eng e).flags = en.flags
          ∧ t.standsAt e (pc + 1))
      ∧ (taken = true → t25 < s.fetchLimit e → s.overBudget e 3 = false → ∃ t, exec (.br e d imm25) s = .next t
          ∧ RegInstr s t e 0 ∧ (t.eng e).flags = en.flags ∧ t.standsAt e t25
          ∧ (∀ m, e = .map m → (t.eng e).cyc = en.cyc + 3))
      ∧ (taken = true → s.fetchLimit e ≤ t25 → ∃ t, exec (.br e d imm25) s = .next t ∧ Failed s t e .erange))
    ∧ (s.takes e (.jal e d imm25) [d] 3 = true →
      (t25 < s.fetchLimit e → ∃ t, exec (.jal e d imm25) s = .next t ∧ RegInstr s t e d
          ∧ t.reg e d = (if d = 0 then 0 else BitVec.ofNat 36 (pc + 1)) ∧ (t.eng e).flags = en.flags ∧ t.standsAt e t25)
      ∧ (s.fetchLimit e ≤ t25 → ∃ t, exec (.jal e d imm25) s = .next t ∧ Failed s t e .erange))
    ∧ (s.takes e (.jalr e d a imm) [d, a] 3 = true →
      (ta < s.fetchLimit e → ∃ t, exec (.jalr e d a imm) s = .next t ∧ RegInstr s t e d
          ∧ t.reg e d = (if d = 0 then 0 else BitVec.ofNat 36 (pc + 1)) ∧ (t.eng e).flags = en.flags ∧ t.standsAt e ta)
      ∧ (s.fetchLimit e ≤ ta → ∃ t, exec (.jalr e d a imm) s = .next t ∧ Failed s t e .erange))
    ∧ (s.takes e (.dbnz e d 0 imm) [d] 1 = true →
      let v := s.reg e d - 1
      (d = 0 ∨ v = 0 → ∃ t, exec (.dbnz e d 0 imm) s = .next t ∧ RegInstr s t e d ∧ t.reg e d = 0
          ∧ (t.eng e).flags = en.flags ∧ t.standsAt e (pc + 1))
      ∧ (d ≠ 0 → v ≠ 0 → t20 < s.fetchLimit e → s.overBudget e 3 = false → ∃ t, exec (.dbnz e d 0 imm) s = .next t
          ∧ RegInstr s t e d ∧ t.reg e d = v ∧ (t.eng e).flags = en.flags ∧ t.standsAt e t20)
      ∧ (d ≠ 0 → v ≠ 0 → s.fetchLimit e ≤ t20 → ∃ t, exec (.dbnz e d 0 imm) s = .next t ∧ Failed s t e .erange))

/-- R179, R185, R186: END ends a fragment with OK once its table operations have finished, commits a map, and returns the
plinth from its routine; WAIT completes at once where its target is not later than NOW, else the engine waits in it until
WAIT_DONE. -/
def Obligations.EndAndWait : Prop :=
  ∀ (a : RegNo) (c : Fin 2) (m : Fin 64) (e : Eng) (f : Frag) (s : State),
    (s.takes (.cmd c) (.end_ (.cmd c) ⟨0, 0, 0, 0⟩) [] 2 = true → (s.cmd.get c).frag = some f →
      ((s.cmd.get c).ops = [] → ∃ t, exec (.end_ (.cmd c) ⟨0, 0, 0, 0⟩) s = .next t ∧ OnlyEngine s t (.cmd c)
        ∧ t.cmd.get c = { s.cmd.get c with stall := .none
                                           frag := some { f with ended := some ((s.cmd.get c).pc, .ok)
                                                                 last := some (s.cmd.get c).pc } })
      ∧ ((s.cmd.get c).ops ≠ [] → exec (.end_ (.cmd c) ⟨0, 0, 0, 0⟩) s = .next s))
    ∧ (s.takes (.map m) (.end_ (.map m) ⟨0, 0, 0, 0⟩) [] 2 = true → (s.map.get m).ops = [] →
      ∃ t, exec (.end_ (.map m) ⟨0, 0, 0, 0⟩) s = .next t ∧ (t.map.get m).run = false
        ∧ t.tr m = { s.tr m with committed := some (s.tr m).build, reports := [] }
        ∧ (∀ m', m' ≠ m → t.tr m' = s.tr m' ∧ t.map.get m' = s.map.get m') ∧ t.dp = s.dp ∧ t.cmd = s.cmd)
    ∧ (s.takes .plinth (.end_ .plinth ⟨0, 0, 0, 0⟩) [] 2 = true → s.plinth.ops = [] → s.pln.events = 0 → ∀ pc, s.plinth.ret = some pc →
      ∃ t, exec (.end_ .plinth ⟨0, 0, 0, 0⟩) s = .next t ∧ t = { s with plinth := { s.plinth with pc, ret := none } })
    ∧ (s.takes e (.wait e 0 a 0) [a] 2 = true →
      let now := s.nowAt (s.engCycle e)
      ((now - s.reg e a).msb = false → ∃ t, exec (.wait e 0 a 0) s = .next t ∧ RegInstr s t e 0
          ∧ (t.eng e).flags = (s.eng e).flags ∧ t.standsAt e ((s.eng e).pc + 1))
      ∧ ((now - s.reg e a).msb = true → exec (.wait e 0 a 0) s = .next (s.setEng e { s.eng e with stall := .until_ (s.reg e a) })))
    ∧ (∀ target, (s.eng e).stall = .until_ target → s.engRuns e = true →
      let w := match e with | .map _ => 2 + s.cyclesUntil (s.eng e).cyc target | _ => 2
      s.overBudget e w = false → ∃ t, exec (.waitDone e) s = .next t ∧ RegInstr s t e 0
        ∧ (t.eng e).flags = (s.eng e).flags ∧ t.standsAt e ((s.eng e).pc + 1))

/-- R187: a TRAP whose d and a are 0 and whose immediate codes a status other than OK completes with that status, as R173
says; any other TRAP is an illegal word, and completes with EILLEGAL. -/
def Obligations.TrapCompletesWithItsStatus : Prop :=
  ∀ (e : Eng) (d a : RegNo) (imm : BitVec 20) (st : Status),
    (st ≠ .ok → imm.toNat = st.code → FailsWith e (.trap e 0 0 imm) [] 2 st)
    ∧ ((d ≠ 0 ∨ a ≠ 0 ∨ ∀ st : Status, st ≠ .ok → imm.toNat ≠ st.code) → ∀ s : State,
        s.engRuns e = true → (s.eng e).stall.open = true → (s.eng e).fault = none → (s.eng e).pc < s.fetchLimit e →
        (s.eng e).badIn (s.eng e).pc 1 = false → s.overBudget e 1 = false →
        s.mem e (s.eng e).pc = BitVec.ofNat 36 (0x1D * 2 ^ 30 + d.toNat * 2 ^ 25 + a.toNat * 2 ^ 20 + imm.toNat) →
        ∃ t, exec (.trap e d a imm) s = .next t ∧ Failed s t e .eillegal)

/-- R188, R189, R301, R302, R304: GRANT appends one structure to the map under construction; a start of all ones continues
the burst of the structure before it; a map of 1,024 structures takes no more and sets MAP_TRUNC; operands out of range
complete with ERANGE. -/
def Obligations.GrantAppendsAStructure : Prop :=
  ∀ (m : Fin 64) (f : FmtX),
    let e := Eng.map m
    let shape := fun (s : State) (start : Nat) =>
      ({ alloc := (s.reg e f.a).toNat, start, size := (s.reg e f.c).toNat, fwi := f.fn.getLsbD 6, ploamu := f.fn.getLsbD 5
         dbru := f.fn.getLsbD 4, profile := f.fn.toNat / 4 % 4 } : Grant)
    let inRange := fun s : State => (s.reg e f.a).toNat < 4096 ∧ (s.reg e f.c).toNat < 65536
      ∧ ((s.reg e f.c).toNat ≠ 0 ∨ f.fn.getLsbD 4 = true ∨ f.fn.getLsbD 5 = true)
    let follows := fun s : State => f.fn.getLsbD 5 = false ∧ f.fn.getLsbD 6 = false
      ∧ ∃ p, (s.tr m).build.getLast? = some p ∧ p.quiet = none ∧ p.profile = f.fn.toNat / 4 % 4
    Does e (.grant e f) [f.a, f.b, f.c] 4 (fun s => inRange s ∧ (s.reg e f.b).toNat < 38880 ∧ (s.tr m).mapCount < 1024)
      (fun s => s.modTree m (fun x => { x with build := x.build ++ [shape s (s.reg e f.b).toNat] }))
    ∧ Does e (.grant e f) [f.a, f.b, f.c] 4
      (fun s => inRange s ∧ s.reg e f.b = 0xFFFFFFFFF ∧ follows s ∧ (s.tr m).mapCount < 1024)
      (fun s => s.modTree m (fun x => { x with build := x.build ++ [shape s startCONT] }))
    ∧ (∀ s, s.takes e (.grant e f) [f.a, f.b, f.c] 4 = true → inRange s → (s.reg e f.b).toNat < 38880 → 1024 ≤ (s.tr m).mapCount →
      ∃ t, exec (.grant e f) s = .next t ∧ (t.tr m).build = (s.tr m).build ∧ (t.tr m).trunc = true
        ∧ ((s.tr m).trunc = false → t.get F.MAP_ENG_STATUS_TRUNC m = 1) ∧ (∀ r, t.reg e r = s.reg e r)
        ∧ t.standsAt e ((s.eng e).pc + 2))
    ∧ FailsIf e (.grant e f) [f.a, f.b, f.c] 4 (fun s => ¬ inRange s ∨ (38880 ≤ (s.reg e f.b).toNat ∧ s.reg e f.b ≠ 0xFFFFFFFFF)
        ∨ (s.reg e f.b = 0xFFFFFFFFF ∧ ¬ follows s)) .erange

/-- R188, R190, R276, R308: RPT takes the oldest report with Z at 0, or reads 0 with Z at 1; ARD reads an allocation's four
words, TRD a terminal's summary; an index outside the tree's completes with ERANGE. -/
def Obligations.ReportsAndEntries : Prop :=
  ∀ (m : Fin 64) (f : FmtX) (i occ : Nat) (rest : List (Nat × Nat)),
    let e := Eng.map m
    let entry := fun s : State => sget [] s.dp.tab (0x40 * 2 ^ 22 + m * 4096 + (s.reg e f.a).toNat)
    let term := fun s : State => (s.reg e f.a).toNat
    (i < 4096 → occ < 2 ^ 24 → ∀ s, s.takes e (.rpt e f) [f.d] 3 = true → (s.tr m).reports = (i, occ) :: rest →
      ∃ t, exec (.rpt e f) s = .next t ∧ RegInstr (s.modTree m (fun x => { x with reports := rest })) t e f.d
        ∧ t.reg e f.d = (if f.d = 0 then 0 else BitVec.ofNat 36 (i * 2 ^ 24 + occ))
        ∧ (t.eng e).flags = (false, (s.eng e).fn, (s.eng e).fc, (s.eng e).fv) ∧ t.standsAt e ((s.eng e).pc + 2))
    ∧ (∀ s, s.takes e (.rpt e f) [f.d] 3 = true → (s.tr m).reports = [] →
      ∃ t, exec (.rpt e f) s = .next t ∧ RegInstr s t e f.d ∧ t.reg e f.d = 0
        ∧ (t.eng e).flags = (true, (s.eng e).fn, (s.eng e).fc, (s.eng e).fv) ∧ t.standsAt e ((s.eng e).pc + 2))
    ∧ Does e (.ard e f) [f.a, f.d, f.d + 1, f.d + 2, f.d + 3] 6 (fun s => (s.reg e f.a).toNat < 4096)
      (fun s => (((s.setReg e f.d (nth 0 (entry s) 0)).setReg e (f.d + 1) (nth 0 (entry s) 1)).setReg e (f.d + 2)
        (nth 0 (entry s) 2)).setReg e (f.d + 3) (nth 0 (entry s) 3))
    ∧ Does e (.trd e f) [f.a, f.d] 4 (fun s => term s < 256)
      (fun s => s.setReg e f.d (BitVec.ofNat 36 (s.get F.PON_TERM_STATE_STATE m (term s) * 2 ^ 32
        + s.get F.PON_TERM_STATE_LOSI m (term s) * 2 ^ 31 + s.get F.PON_TERM_STATE_PROF m (term s) * 2 ^ 25
        + s.get F.PON_TERM_EQD_EQD m (term s))))
    ∧ FailsIf e (.ard e f) [f.a, f.d, f.d + 1, f.d + 2, f.d + 3] 6 (fun s => 4096 ≤ (s.reg e f.a).toNat) .erange
    ∧ FailsIf e (.trd e f) [f.a, f.d] 4 (fun s => 256 ≤ term s) .erange

/-- R258, R278, R313: QUIET opens the frame's quiet window and appends its structure, or holds it for the map in whose
upstream frame its start time lies; a second window is ESTATE. RSSI arms the tree's RSSI_TRIG for the newest structure. -/
def Obligations.QuietWindowAndRssi : Prop :=
  ∀ (m : Fin 64) (f : FmtX),
    let e := Eng.map m
    let ranging := f.fn.getLsbD 0
    let a := fun s : State => (s.reg e f.a).toNat
    let b := fun s : State => (s.reg e f.b).toNat
    let u := fun s : State => (s.reg e f.c).toNat
    let pre := fun s : State => s.get F.PON_RNG_CTRL_PRE m
    let start := fun s : State => (2 * a s + pre s) / 2
    let inRange := fun s : State => a s < 38880 ∧ b s ≠ 0 ∧ b s ≤ 155520 ∧ pre s < 2 * b s ∧ (ranging = true → u s < 256)
    let free := fun s : State => (s.tr m).window = none ∧ (s.tr m).held = none
      ∧ (ranging = true → s.get F.PON_TERM_STATE_STATE m (u s) = 1)
    let prof := fun s : State => if ranging then s.get F.PON_TERM_STATE_PROF m (u s) else 0
    let win := fun s : State =>
      ({ term := if ranging then some (u s) else none, w := 2 * a s, len := 2 * b s, s := start s, profile := prof s
         after := (s.tr m).build.length } : Window)
    let g := fun s : State =>
      ({ alloc := 0, start := start s % 38880, size := 0, ploamu := true, profile := prof s
         quiet := some (if ranging then u s else 1023) } : Grant)
    Does e (.quiet e f) [f.a, f.b, f.c] 4 (fun s => inRange s ∧ free s ∧ start s < 38880 ∧ (s.tr m).mapCount < 1024)
      (fun s => s.modTree m (fun x => { x with build := x.build ++ [g s], window := some (win s) }))
    ∧ Does e (.quiet e f) [f.a, f.b, f.c] 4 (fun s => inRange s ∧ free s ∧ 38880 ≤ start s)
      (fun s => s.modTree m (fun x => { x with window := some (win s), held := some (start s / 38880, g s) }))
    ∧ FailsIf e (.quiet e f) [f.a, f.b, f.c] 4 (fun s => ¬ inRange s) .erange
    ∧ FailsIf e (.quiet e f) [f.a, f.b, f.c] 4 (fun s => inRange s ∧ ¬ free s) .estate
    ∧ Does e (.rssi e f) [f.a] 3 (fun s => (s.tr m).build ≠ [] ∧ a s + s.get F.PON_RSSI_CTRL_WIDTH m ≤ s.recentLen m)
      (fun s => s.modTree m (fun x => { x with arm := some (x.build.length - 1, a s) }))
    ∧ FailsIf e (.rssi e f) [f.a] 3 (fun s => (s.tr m).build ≠ [] ∧ s.recentLen m < a s + s.get F.PON_RSSI_CTRL_WIDTH m) .erange
    ∧ FailsIf e (.rssi e f) [f.a] 3 (fun s => (s.tr m).build = []) .estate

/-- R156, R178, R179, R191, R192: the five table operations check the unit, the table, the operation, n and the index, copy
their image and stay outstanding; at the bound of outstanding operations the engine waits at them; TGEN sets the engine's
tag of a table. -/
def Obligations.TableOperationsIssue : Prop :=
  ∀ (e : Eng) (f : FmtX),
    let tid := f.tid.toNat
    let n := tabN tid + 1
    let b := fun s : State => (s.reg e f.b).toNat
    let a := fun s : State => (s.reg e f.a).toNat
    let words := fun s : State => (List.range' (a s) n).map (s.mem e)
    let source := fun s : State => a s + n ≤ engMemWords e ∧ (s.eng e).memPending (a s) n = false ∧ (s.eng e).badIn (a s) n = false
    let dest := fun s : State => engStorable e (a s) n = true ∧ (s.eng e).memPending (a s) n = false
    let good := fun (s : State) (k : TKind) => s.chip.tabAbsent tid = false ∧ tabOp tid k = true ∧ f.n.toNat = tabN tid
    let entry := fun s : State => s.chip.entryAbsent tid (b s) = false ∧ tabIndex tid (b s) = true
    let issue := fun (s : State) (o : TabOp) => s.setEng e { s.eng e with ops := (s.eng e).ops ++ [o] }
    let tag := fun s : State => sget 0 (s.eng e).tags tid
    Does e (.twrite e f) [f.a, f.b] 3
      (fun s => good s .write ∧ entry s ∧ source s ∧ s.imageCheck .write tid (b s) (words s) = none ∧ s.atBound e = false)
      (fun s => issue s ⟨.write, (s.eng e).pc, tid, b s, words s, 0, 0, 0, tag s⟩)
    ∧ Does e (.tread e f) [f.a, f.b] 3 (fun s => good s .read ∧ entry s ∧ dest s ∧ s.atBound e = false)
      (fun s => issue s ⟨.read, (s.eng e).pc, tid, b s, [], 0, a s, n, tag s⟩)
    ∧ Does e (.tinsert e f) [f.d, f.a] 3
      (fun s => good s .insert ∧ source s ∧ s.imageCheck .insert tid 0 (words s) = none ∧ s.atBound e = false)
      (fun s => issue s ⟨.insert, (s.eng e).pc, tid, 0, words s, f.d, 0, 0, tag s⟩)
    ∧ Does e (.tdelete e f) [f.d, f.a] 3 (fun s => good s .delete ∧ source s ∧ s.atBound e = false)
      (fun s => issue s ⟨.delete, (s.eng e).pc, tid, 0, words s, f.d, 0, 0, tag s⟩)
    ∧ Does e (.tlookup e f) [f.d, f.a] 3 (fun s => good s .lookup ∧ dest s ∧ source s ∧ s.atBound e = false)
      (fun s => issue s ⟨.lookup, (s.eng e).pc, tid, 0, words s, f.d, a s, n, tag s⟩)
    ∧ Does e (.tgen e f) [f.a] 3 (fun s => s.chip.tabAbsent tid = false ∧ (tid = 0x10 ∨ tid = 0x20 ∨ tid = 0x21) ∧ a s < 2 ^ 16)
      (fun s => s.setEng e { s.eng e with tags := sput 0 (s.eng e).tags tid (BitVec.ofNat 16 (a s)) })
    ∧ (∀ s, s.takes e (.twrite e f) [f.a, f.b] 3 = true → good s .write → entry s → source s →
      s.imageCheck .write tid (b s) (words s) = none → s.atBound e = true → exec (.twrite e f) s = .next s)
    ∧ FailsIf e (.twrite e f) [f.a, f.b] 3 (fun s => s.chip.tabAbsent tid = true) .eabsent
    ∧ FailsIf e (.tread e f) [f.a, f.b] 3 (fun s => s.chip.tabAbsent tid = true) .eabsent
    ∧ FailsIf e (.tlookup e f) [f.d, f.a] 3 (fun s => s.chip.tabAbsent tid = false ∧ (tabOp tid .lookup = false ∨ f.n.toNat ≠ tabN tid)) .erange
    ∧ FailsIf e (.twrite e f) [f.a, f.b] 3 (fun s => s.chip.tabAbsent tid = false ∧ s.chip.entryAbsent tid (b s) = false
        ∧ (tabOp tid .write = false ∨ f.n.toNat ≠ tabN tid ∨ tabIndex tid (b s) = false)) .erange
    ∧ FailsIf e (.tgen e f) [f.a] 3 (fun s => s.chip.tabAbsent tid = false ∧ ((tid ≠ 0x10 ∧ tid ≠ 0x20 ∧ tid ≠ 0x21) ∨ 2 ^ 16 ≤ a s)) .erange

/-- R178, R192, R193: TABLE_OP_FINISH. An operation waits for an earlier one that touches the same entry. A write replaces
its entry whole, an image with VALID at 0 leaves it all zero; a read stores the entry's words in engine memory; a delete
reads back where its entry lay, which is then all zero, or no location where no entry holds the key. The operation is then no longer outstanding. -/
def Obligations.TableOperationsFinish : Prop :=
  ∀ (e : Eng) (k : Nat) (o : TabOp) (s : State),
    let word := fun (s : State) (tid i j : Nat) => nth (0 : Word) (sget [] s.dp.tab (tid * 2 ^ 22 + i)) j
    let rest := (s.eng e).ops.take k ++ (s.eng e).ops.drop (k + 1)
    ((s.eng e).ops.length ≤ k → exec (.tableOpFinish e k) s = .next s)
    ∧ ((s.eng e).ops[k]? = some o →
      (((s.eng e).ops.take k).any (fun x => x.meets o) = true → exec (.tableOpFinish e k) s = .next s)
      ∧ (((s.eng e).ops.take k).any (fun x => x.meets o) = false →
        (o.kind = .write → o.tid < 4 → o.index < 2 ^ 22 →
          ∃ t, exec (.tableOpFinish e k) s = .next t ∧ (t.eng e).ops = rest ∧ (∀ r, t.reg e r = s.reg e r)
            ∧ (∀ j, word t o.tid o.index j = if 2 ^ 35 ≤ (nth 0 o.image 0).toNat then nth 0 o.image j else 0)
            ∧ (∀ tid i j, i < 2 ^ 22 → (tid ≠ o.tid ∨ i ≠ o.index) → word t tid i j = word s tid i j)
            ∧ (∀ e', e' ≠ e → t.eng e' = s.eng e') ∧ t.regs = s.regs ∧ t.outs = s.outs)
        ∧ (o.kind = .read → sget none s.dp.bad (o.tid * 2 ^ 22 + o.index) = none → (e = .plinth → 0x10000 ≤ o.dst) →
          ∃ t, exec (.tableOpFinish e k) s = .next t ∧ (t.eng e).ops = rest ∧ (∀ r, t.reg e r = s.reg e r)
            ∧ (∀ j, j < tabN o.tid + 1 → t.mem e (o.dst + j) = word s o.tid o.index j)
            ∧ (∀ x, x < o.dst ∨ o.dst + (tabN o.tid + 1) ≤ x → t.mem e x = s.mem e x)
            ∧ t.dp = s.dp ∧ t.regs = s.regs ∧ t.outs = s.outs)
        ∧ (o.kind = .delete → s.htFind o.tid (htBytes o.tid o.image) = none → s.htBadMet o.tid (htBytes o.tid o.image) = [] →
          ∃ t, exec (.tableOpFinish e k) s = .next t ∧ (t.eng e).ops = rest
            ∧ t.reg e o.d = (if o.d = 0 then 0 else 0xFFFFFFFFF) ∧ (∀ r, r ≠ o.d → t.reg e r = s.reg e r) ∧ t.dp = s.dp)
        ∧ (∀ i, o.kind = .delete → o.tid ≠ 0x10 → s.htFind o.tid (htBytes o.tid o.image) = some (o.tid, i) → i < 2 ^ 22 →
          ∃ t, exec (.tableOpFinish e k) s = .next t ∧ (t.eng e).ops = rest
            ∧ t.reg e o.d = (if o.d = 0 then 0 else locWord o.tid o.tid i 0) ∧ (∀ r, r ≠ o.d → t.reg e r = s.reg e r)
            ∧ (∀ j, word t o.tid i j = 0)
            ∧ (∀ tid i' j, i' < 2 ^ 22 → (tid ≠ o.tid ∨ i' ≠ i) → word t tid i' j = word s tid i' j))))

/-- R195, R196, R342: TBANK switches the rule bank of packets that start classification and waits until the other bank has
drained; FENCE waits for every packet that has looked up; both begin once the engine's own operations have finished. -/
def Obligations.BanksAndFences : Prop :=
  ∀ (e : Eng) (f : FmtX) (c : Fin 2) (s : State),
    let a := (s.reg e f.a).toNat
    (s.takes e (.tbank e f) [f.a] 4 = true → (s.eng e).ops = [] → a ≤ 1 → s.flag F.CLS_BANK_STATUS_SWAP = false →
      a ≠ s.get F.CLS_BANK_STATUS_ACTIVE → ∃ t, exec (.tbank e f) s = .next t ∧ t.get F.CLS_BANK_STATUS_ACTIVE = a
        ∧ t.flag F.CLS_BANK_STATUS_SWAP = true ∧ t.eng e = { s.eng e with stall := .bank }
        ∧ (∀ e', e' ≠ e → t.eng e' = s.eng e') ∧ t.dp = s.dp
        ∧ RegsBut s t (fun o => o = Reg.offset ⟨.CLS_BANK_STATUS, 0, 0, 0⟩))
    ∧ FailsIf e (.tbank e f) [f.a] 4 (fun s => (s.eng e).ops = [] ∧ 1 < (s.reg e f.a).toNat) .erange
    ∧ FailsIf e (.tbank e f) [f.a] 4 (fun s => (s.eng e).ops = [] ∧ (s.reg e f.a).toNat ≤ 1
        ∧ (s.flag F.CLS_BANK_STATUS_SWAP = true ∨ (s.reg e f.a).toNat = s.get F.CLS_BANK_STATUS_ACTIVE)) .estate
    ∧ (s.flag F.CLS_BANK_STATUS_SWAP = true → (s.cmd.get c).stall = .bank → (∀ c', c' ≠ c → (s.cmd.get c').stall ≠ .bank) →
      s.plinth.stall ≠ .bank → ∃ t, exec .bankDrainEnd s = .next t ∧ t.flag F.CLS_BANK_STATUS_SWAP = false
        ∧ t.get F.CLS_BANK_STATUS_ACTIVE = s.get F.CLS_BANK_STATUS_ACTIVE ∧ (t.cmd.get c).stall = .none
        ∧ (t.cmd.get c).pc = (s.cmd.get c).pc + 2 ∧ (∀ r, t.reg (.cmd c) r = s.reg (.cmd c) r) ∧ t.dp = s.dp)
    ∧ (s.takes e (.fence e f) [] 4 = true → (s.eng e).ops = [] → s.dp.hdls = [] →
      ∃ t, exec (.fence e f) s = .next t ∧ RegInstr s t e 0 ∧ (t.eng e).flags = (s.eng e).flags ∧ t.standsAt e ((s.eng e).pc + 2))
    ∧ (s.takes e (.fence e f) [] 4 = true → (s.eng e).ops = [] → s.dp.hdls ≠ [] →
      exec (.fence e f) s = .next (s.setEng e { s.eng e with stall := .fence (s.dp.hdls.map Prod.fst) }))
    ∧ ((s.eng e).stall = .fence [] → s.engRuns e = true → s.overBudget e 4 = false →
      ∃ t, exec (.fenceDone e) s = .next t ∧ RegInstr s t e 0 ∧ (t.eng e).flags = (s.eng e).flags ∧ t.standsAt e ((s.eng e).pc + 2))
    ∧ (∀ h hs, (s.eng e).stall = .fence (h :: hs) → exec (.fenceDone e) s = .next s)

/-- R197, R404, R414: QSET gives a queue its image whole; a queue already configured keeps its packets and its balances, filled
to now at the old rates and clipped to the new bursts. An image that breaks a rule of R404, or would raise the sampling load
above its bound, completes with ERANGE, a change of PARENT while packets wait with ESTATE. QREAD reads depth or delay. -/
def Obligations.QueueInstructions : Prop :=
  ∀ (e : Eng) (f : FmtA),
    let a := fun s : State => (s.reg e f.a).toNat
    let q := fun s : State => (s.reg e f.b).toNat
    let words := fun s : State => (List.range' (a s) 7).map (s.mem e)
    let readable := fun s : State => a s + 7 ≤ engMemWords e ∧ (s.eng e).memPending (a s) 7 = false ∧ (s.eng e).badIn (a s) 7 = false
    let before := fun s : State => if (s.que (q s)).cfg = [] then ({ com := { last := s.clk.total }, peak := { last := s.clk.total } } : Node)
      else (s.que (q s)).node.fill (nth 0 (s.que (q s)).cfg 1).toNat (nth 0 (s.que (q s)).cfg 2).toNat s.clk.total
    let after := fun s : State => ({ cfg := words s, items := (s.que (q s)).items
                                     node := (before s).fill (nth 0 (words s) 1).toNat (nth 0 (words s) 2).toNat s.clk.total } : Que)
    let bad := fun s : State => s.queueImageBad (words s) = true ∨ 524288 < (s.setQue (q s) (after s)).sampLoad
    let moved := fun s : State => (s.que (q s)).cfg ≠ [] ∧ (s.que (q s)).parent ≠ ef (words s) 0 18 0 ∧ (s.que (q s)).items ≠ []
    let depth := fun s : State => (f.fn.toNat % 4 = 0 ∧ s.depthBytes (a s) < 2 ^ 36) ∨ (f.fn.toNat % 4 = 1 ∧ s.depthPkts (a s) < 2 ^ 36)
    Does e (.qset e f) [f.a, f.b] 8 (fun s => q s < 262144 ∧ readable s ∧ ¬ bad s ∧ ¬ moved s)
      (fun s => { s.setQue (q s) (after s) with tel := { s.tel with queues := serase s.tel.queues (q s) } })
    ∧ FailsIf e (.qset e f) [f.a, f.b] 8 (fun s => 262144 ≤ q s ∨ engMemWords e < a s + 7 ∨ (readable s ∧ bad s)) .erange
    ∧ FailsIf e (.qset e f) [f.a, f.b] 8 (fun s => q s < 262144 ∧ readable s ∧ ¬ bad s ∧ moved s) .estate
    ∧ (∀ (s : State) (ws : List Word), s.queueImageBad ws = true ↔
        (ef ws 0 23 19 ≠ 0 ∨ ef ws 1 35 29 ≠ 0 ∨ ef ws 2 35 29 ≠ 0 ∨ ef ws 3 17 0 ≠ 0 ∨ ef ws 6 34 32 ≠ 0 ∨ ef ws 6 23 16 ≠ 0
          ∨ ef ws 0 31 24 = 0 ∨ ovh (ef ws 3 35 27) < -32
          ∨ ef ws 4 35 18 = 0 ∨ ef ws 4 17 0 = 0 ∨ ef ws 5 35 18 = 0 ∨ ef ws 5 17 0 = 0
          ∨ ef ws 4 17 0 < ef ws 5 35 18 ∨ ef ws 4 35 18 < ef ws 4 17 0
          ∨ ratesCross ws 1 2 = true ∨ (s.crs (ef ws 0 18 0)).cfg = []))
    ∧ (∀ s, s.takes e (.qread e f) [f.d, f.a] 4 = true → a s < 262144 → depth s →
        ∃ t, exec (.qread e f) s = .next t ∧ RegInstr s t e f.d
          ∧ (f.d ≠ 0 → (t.reg e f.d).toNat = if f.fn.toNat % 4 = 0 then s.depthBytes (a s) else s.depthPkts (a s))
          ∧ ((t.eng e).fz = true ↔ (if f.fn.toNat % 4 = 0 then s.depthBytes (a s) else s.depthPkts (a s)) = 0)
          ∧ t.standsAt e ((s.eng e).pc + 1))
    ∧ (∀ s, s.takes e (.qread e f) [f.d, f.a] 4 = true → a s < 262144 → f.fn.toNat % 4 = 2 →
        ∃ t, exec (.qread e f) s = .next t ∧ RegInstr s t e f.d
          ∧ (f.d ≠ 0 → (t.reg e f.d).toNat = min (2 ^ 36 - 1) (s.hoqDelay (a s))))
    ∧ FailsIf e (.qread e f) [f.d, f.a] 4 (fun s => 262144 ≤ a s) .erange

/-- R197, R407, R414: CSET puts a course in use or changes it, CLINK links a course under its parent, CDEL frees a course; the
conditions under which each completes with ERANGE, EABSENT or ESTATE instead. -/
def Obligations.CourseInstructions : Prop :=
  ∀ (e : Eng) (f : FmtA),
    let a := fun s : State => (s.reg e f.a).toNat
    let b := fun s : State => (s.reg e f.b).toNat
    let words := fun s : State => (List.range' (a s) 4).map (s.mem e)
    let readable := fun s : State => a s + 4 ≤ engMemWords e ∧ (s.eng e).memPending (a s) 4 = false ∧ (s.eng e).badIn (a s) 4 = false
    let root := fun s : State => ef (words s) 0 35 35 = 1
    let egress := fun s : State => ef (words s) 0 7 0
    let absent := fun s : State => root s ∧ s.chip.portAbsent (egress s) = true
    let other := fun s : State => root s ∧ ∃ y, s.rootAt (egress s) = some y ∧ y ≠ b s
    let attached := fun (s : State) (c : Nat) => s.subCourses c ≠ [] ∨ s.subQueues c ≠ []
    let rebuilt := fun s : State => (s.crs (b s)).cfg ≠ []
      ∧ (ef (s.crs (b s)).cfg 0 35 34 ≠ ef (words s) 0 35 34 ∨ (s.crs (b s)).egress ≠ egress s)
      ∧ ((s.crs (b s)).parent ≠ none ∨ attached s (b s))
    let bad := fun s : State => 393216 ≤ b s ∨ courseImageBad (words s) = true
    let before := fun s : State => if (s.crs (b s)).cfg = [] then ({ com := { last := s.clk.total }, peak := { last := s.clk.total } } : Node)
      else (s.crs (b s)).node.fill (nth 0 (s.crs (b s)).cfg 1).toNat (nth 0 (s.crs (b s)).cfg 2).toNat s.clk.total
    let deep := fun s : State => 8 < s.levelFrom 9 (b s) + s.heightFrom 9 (a s)
    let unlinkable := fun s : State => 393216 ≤ a s ∨ 393216 ≤ b s ∨ (s.crs (a s)).cfg = [] ∨ (s.crs (b s)).cfg = []
      ∨ ef (s.crs (a s)).cfg 0 35 35 = 1 ∨ s.above (a s) 9 (b s) = true ∨ deep s
    Does e (.cset e f) [f.a, f.b] 10 (fun s => readable s ∧ ¬ absent s ∧ ¬ bad s ∧ ¬ other s ∧ ¬ rebuilt s)
      (fun s => s.setCrs (b s) { s.crs (b s) with
        cfg := words s, node := (before s).fill (nth 0 (words s) 1).toNat (nth 0 (words s) 2).toNat s.clk.total })
    ∧ FailsIf e (.cset e f) [f.a, f.b] 10 (fun s => readable s ∧ absent s) .eabsent
    ∧ FailsIf e (.cset e f) [f.a, f.b] 10 (fun s => readable s ∧ ¬ absent s ∧ bad s) .erange
    ∧ FailsIf e (.cset e f) [f.a, f.b] 10 (fun s => readable s ∧ ¬ absent s ∧ ¬ bad s ∧ (other s ∨ rebuilt s)) .estate
    ∧ Does e (.clink e f) [f.a, f.b] 12 (fun s => ¬ unlinkable s ∧ (s.crs (a s)).parent = none)
      (fun s => s.setCrs (a s) { s.crs (a s) with parent := some (b s) })
    ∧ FailsIf e (.clink e f) [f.a, f.b] 12 (fun s => unlinkable s) .erange
    ∧ FailsIf e (.clink e f) [f.a, f.b] 12 (fun s => ¬ unlinkable s ∧ (s.crs (a s)).parent ≠ none) .estate
    ∧ Does e (.cdel e f) [f.a] 8 (fun s => a s < 393216 ∧ (s.crs (a s)).cfg ≠ [] ∧ ¬ attached s (a s)) (fun s => s.setCrs (a s) {})
    ∧ FailsIf e (.cdel e f) [f.a] 8 (fun s => a s < 393216 ∧ ((s.crs (a s)).cfg = [] ∨ attached s (a s))) .estate

/-- R197, R415, R416: MSET gives a meter its image and fills its buckets; MREAD writes its image and its balances in whole bytes,
filled to now; the colour a meter gives, in each mode, and what it takes from which bucket. -/
def Obligations.MeterInstructions : Prop :=
  ∀ (e : Eng) (f : FmtA),
    let a := fun s : State => (s.reg e f.a).toNat
    let b := fun s : State => (s.reg e f.b).toNat
    let words := fun s : State => (List.range' (a s) 3).map (s.mem e)
    let readable := fun s : State => a s + 3 ≤ engMemWords e ∧ (s.eng e).memPending (a s) 3 = false ∧ (s.eng e).badIn (a s) 3 = false
    let full := fun (s : State) (k : Nat) => ({ bal := burstBytes (ef (words s) k 11 0) * byteUnits, last := s.clk.total } : Bucket)
    Does e (.mset e f) [f.a, f.b] 8 (fun s => b s < 524288 ∧ readable s ∧ meterImageBad (words s) = false)
      (fun s => s.setMtr (b s) { cfg := words s, tc := full s 1, tp := full s 2 })
    ∧ FailsIf e (.mset e f) [f.a, f.b] 8 (fun s => 524288 ≤ b s ∨ (readable s ∧ (ef (words s) 0 35 34 = 3 ∨ ef (words s) 0 22 0 ≠ 0
        ∨ ef (words s) 1 35 29 ≠ 0 ∨ ef (words s) 2 35 29 ≠ 0))) .erange
    ∧ Does e (.mread e f) [f.a, f.b] 6 (fun s => b s < 524288 ∧ engStorable e (a s) 5 = true ∧ (s.eng e).memPending (a s) 5 = false)
      (fun s =>
        let m := (s.mtr (b s)).fill s.clk.total
        s.storeRange e (a s) [nth 0 m.cfg 0, nth 0 m.cfg 1, nth 0 m.cfg 2, BitVec.ofNat 36 m.tc.bytes, BitVec.ofNat 36 m.tp.bytes])
    ∧ FailsIf e (.mread e f) [f.a, f.b] 6 (fun s => 524288 ≤ b s ∨ engStorable e (a s) 5 = false) .erange
    ∧ (∀ (m : Mtr) (pre : Nat) (len : Int),
        let aware := ef m.cfg 0 33 33 = 1
        let green := { m with tc := { m.tc with bal := m.tc.bal - len } }
        let peak := { m with tp := { m.tp with bal := m.tp.bal - len } }
        (m.mode = 0 → m.judge pre len = (pre, m))
        ∧ (m.mode = 1 → aware → pre = 2 → m.judge pre len = (2, m))
        ∧ (m.mode = 1 → (pre = 0 ∨ ¬ aware) → len ≤ m.tc.bal → m.judge pre len = (0, green))
        ∧ (m.mode = 1 → ¬ (aware ∧ pre = 2) → ¬ ((pre = 0 ∨ ¬ aware) ∧ len ≤ m.tc.bal) → len ≤ m.tp.bal → m.judge pre len = (1, peak))
        ∧ (m.mode = 2 → ((aware ∧ pre = 2) ∨ m.tp.bal < len) → m.judge pre len = (2, m))
        ∧ (m.mode = 2 → ¬ (aware ∧ pre = 2) → len ≤ m.tp.bal → ((aware ∧ pre = 1) ∨ m.tc.bal < len) → m.judge pre len = (1, peak))
        ∧ (m.mode = 2 → ¬ (aware ∧ (pre = 1 ∨ pre = 2)) → len ≤ m.tp.bal → len ≤ m.tc.bal →
            m.judge pre len = (0, { green with tp := peak.tp })))

/-- R198, R202, R540 to R546: CNTRD reads a 72-bit statistics counter into d and d + 1 in one step and clears it with fn[0];
PCSEL selects what a performance counter counts and clears it; PCRD reads its sticky bit and value. -/
def Obligations.CounterInstructions : Prop :=
  ∀ (e : Eng) (f : FmtA) (d a b : RegNo),
    let k := fun s : State => s.reg e f.a
    let v := fun s : State => (sget 0 s.tel.stats (k s).toNat : BitVec 72)
    let listed := fun s : State => famInstance (wbits (k s) 35 30) (wbits (k s) 29 8) = true
      ∧ wbits (k s) 7 0 < famEvents (wbits (k s) 35 30)
    let i := fun s : State => (s.reg e a).toNat
    let src := fun s : State => wbits (s.reg e b) 35 30
    let mode := fun s : State => wbits (s.reg e b) 29 28
    let inst := fun s : State => wbits (s.reg e b) 26 9
    let limit := fun s : State => wbits (s.reg e b) 8 4 * 4 ^ wbits (s.reg e b) 3 0
    let counts := fun s : State => (mode s = 0 ∧ srcEvent (src s) = true ∧ wbits (s.reg e b) 8 0 = 0)
      ∨ (mode s ≠ 0 ∧ srcLevel (src s) = true)
    (∀ s, s.takes e (.cntrd e f) [f.a, f.d, f.d + 1] 5 = true → s.chip.famAbsent (wbits (k s) 35 30) (wbits (k s) 29 8) = false →
      listed s → ∃ t, exec (.cntrd e f) s = .next t
        ∧ RegInstr (if f.fn.getLsbD 0 = true then { s.setReg e (f.d + 1) ((v s).extractLsb' 36 36) with
              tel := { s.tel with stats := sput 0 s.tel.stats (k s).toNat 0 } }
            else s.setReg e (f.d + 1) ((v s).extractLsb' 36 36)) t e f.d
        ∧ (f.d ≠ 0 → t.reg e f.d = (v s).extractLsb' 0 36) ∧ ((t.eng e).fz = true ↔ v s = 0)
        ∧ t.standsAt e ((s.eng e).pc + 1))
    ∧ FailsIf e (.cntrd e f) [f.a, f.d, f.d + 1] 5
        (fun s => s.chip.famAbsent (wbits (k s) 35 30) (wbits (k s) 29 8) = true) .eabsent
    ∧ FailsIf e (.cntrd e f) [f.a, f.d, f.d + 1] 5
        (fun s => s.chip.famAbsent (wbits (k s) 35 30) (wbits (k s) 29 8) = false ∧ ¬ listed s) .erange
    ∧ Does e (.pcsel e d a b) [a, b] 4 (fun s => i s < 256
        ∧ (src s = 0x3F ∨ (s.chip.srcAbsent (src s) (inst s) = false ∧ srcInstance (src s) (inst s) = true ∧ counts s)))
      (fun s =>
        let p : Perf := { sel := s.reg e b, value := 0, sticky := false, was := decide (limit s < s.perfLevel (src s) (inst s)) }
        { s with tel := { s.tel with perf := sput {} s.tel.perf (i s) p } })
    ∧ FailsIf e (.pcsel e d a b) [a, b] 4 (fun s => src s ≠ 0x3F ∧ s.chip.srcAbsent (src s) (inst s) = true) .eabsent
    ∧ FailsIf e (.pcsel e d a b) [a, b] 4 (fun s => (src s = 0x3F ∨ s.chip.srcAbsent (src s) (inst s) = false)
        ∧ (256 ≤ i s ∨ (src s ≠ 0x3F ∧ (srcInstance (src s) (inst s) = false ∨ ¬ counts s)))) .erange
    ∧ Does e (.pcrd e d a b) [a, d] 4 (fun s => i s < 256)
      (fun s => s.setReg e d (BitVec.ofNat 36 ((sget {} s.tel.perf (i s)).sticky.toNat * 2 ^ 35 + (sget {} s.tel.perf (i s)).value)))
    ∧ FailsIf e (.pcrd e d a b) [a, d] 4 (fun s => 256 ≤ i s) .erange

/-- R199, R200, R201: TCMP compares two time words as an interval; TGET stores a clock's four words; TTRIG sets a trigger
output's instant, at least a microsecond ahead, and TTRIG with cancel clears it; TCAP takes the latest capture of an input. -/
def Obligations.TimeInstructions : Prop :=
  ∀ (e : Eng) (f : FmtA),
    let a := fun s : State => (s.reg e f.a).toNat
    let i := fun s : State => (s.reg e f.a).toNat
    let dom := f.fn.toNat % 4
    let tb := fun s : State => s.domClock dom (s.engCycle e)
    let ns := fun s : State => tb s / (3888 * 10 ^ 15)
    let new := fun s : State => s.get F.TIME_CAP_STAT_NEW (i s) = 1
    let soon := fun s : State => (s.reg e f.b - (s.nowAt (s.engCycle e) + 1000)).msb = true
    Computes e (.tcmp e f) [f.d, f.a, f.b] 1 f.d (fun s => s.reg e f.a - s.reg e f.b) (fun s => logicFlags (s.reg e f.a - s.reg e f.b))
    ∧ Does e (.tget e f) [f.a] 6 (fun s => engStorable e (a s) 4 = true ∧ (s.eng e).memPending (a s) 4 = false)
      (fun s => s.storeRange e (a s) [BitVec.ofNat 36 (ns s / 10 ^ 9 % 2 ^ 48 / 2 ^ 36), BitVec.ofNat 36 (ns s / 10 ^ 9 % 2 ^ 48),
        BitVec.ofNat 36 (ns s % 10 ^ 9), BitVec.ofNat 36 ((s.domValid dom).toNat * 2 ^ 35 + tb s * 65536 / (3888 * 10 ^ 15) % 65536)])
    ∧ FailsIf e (.tget e f) [f.a] 6 (fun s => engStorable e (a s) 4 = false) .erange
    ∧ Does e (.ttrig e f) [f.a, f.b] 4 (fun s => i s < 4 ∧ ¬ soon s ∧ s.get F.TIME_TRIG_CTRL_PEND (i s) = 0)
      (fun s => (s.set F.TIME_TRIG_CTRL_PEND 1 (i s)).wr .TIME_TRIG_TIME (s.reg e f.b) (i s))
    ∧ FailsIf e (.ttrig e f) [f.a, f.b] 4 (fun s => 4 ≤ i s ∨ soon s) .erange
    ∧ FailsIf e (.ttrig e f) [f.a, f.b] 4 (fun s => i s < 4 ∧ ¬ soon s ∧ s.get F.TIME_TRIG_CTRL_PEND (i s) = 1) .estate
    ∧ Does e (.ttrigCancel e f) [f.a] 4 (fun s => i s < 4) (fun s => (s.set F.TIME_TRIG_CTRL_PEND 0 (i s)).wr .TIME_TRIG_TIME 0 (i s))
    ∧ (∀ s, s.takes e (.tcap e f) [f.d, f.a] 3 = true → i s < 4 →
        ∃ t, exec (.tcap e f) s = .next t ∧ RegInstr ((s.wr .TIME_CAP_DATA 0 (i s)).set F.TIME_CAP_STAT_NEW 0 (i s)) t e f.d
          ∧ (f.d ≠ 0 → new s → t.reg e f.d = s.rd .TIME_CAP_DATA (i s)) ∧ (f.d ≠ 0 → ¬ new s → t.reg e f.d = 0)
          ∧ ((t.eng e).fz = true ↔ ¬ new s) ∧ t.standsAt e ((s.eng e).pc + 1))
    ∧ FailsIf e (.tcap e f) [f.d, f.a] 3 (fun s => 4 ≤ i s) .erange

/-- R119, R122, R202, R255, R478, R490: UNIT enables or disables a present tree, uplink port or bond bundle whose domains are
ready; b chooses. An absent unit completes with EABSENT, a number or b out of range with ERANGE, a unit already as requested
with ESTATE, a failed domain with EWAKE; an enable starts a sleeping domain's wake and waits. -/
def Obligations.UnitEnablesAndDisables : Prop :=
  ∀ (e : Eng) (d a b : RegNo) (i : Instr) (n : Fin 64) (l : Fin 40) (k : Fin 16),
    i = .unitEnable e d a b ∨ i = .unitDisable e d a b →
    let names := fun (s : State) (x : Nat) (on : Word) => (s.reg e a).toNat = x ∧ s.reg e b = on
    let treeReady := fun s : State => n < s.chip.trees ∧ s.domainState (1 + n.val / 8) = 3 ∧ s.domainState (9 + n.val / 8) = 3
    let laneReady := fun s : State => l < s.chip.uplanes ∧ s.domainState (17 + l.val / 10) = 3 ∧ s.flag F.UPL_PORT_CTRL_CONF l = true
    let bondReady := fun s : State => s.chip.bond = true ∧ s.domainState 21 = 3
    let treeOn := fun s : State => s.flag F.PON_TREE_STATUS_ENABLED n
    let portProbed := fun s : State => (List.range' l.val (s.portLanes l)).any (fun x => s.laneProbed (64 + x))
    let bundleProbed := fun s : State => s.laneProbed (128 + k.val / 4 * 4) || s.laneProbed (129 + k.val / 4 * 4) || s.laneProbed (130 + k.val / 4 * 4)
      || s.laneProbed (131 + k.val / 4 * 4) || s.laneProbed (144 + k.val / 4)
    Does e i [a, b] 6 (fun s => names s n.val 1 ∧ treeReady s ∧ treeOn s = false ∧ s.inSwitch n = false ∧ s.isPeer n = false
        ∧ s.laneProbed (s.portOf n) = false) (fun s => s.treeEnable n)
    ∧ Does e i [a, b] 6 (fun s => names s n.val 0 ∧ treeReady s ∧ treeOn s = true ∧ s.inSwitch n = false) (fun s => s.treeDisable n)
    ∧ Does e i [a, b] 6 (fun s => names s (256 + l.val) 1 ∧ laneReady s ∧ s.dp.lanesOn.getLsbD l = false ∧ portProbed s = false)
      (fun s => s.portEnable l)
    ∧ Does e i [a, b] 6 (fun s => names s (256 + l.val) 0 ∧ laneReady s ∧ s.dp.lanesOn.getLsbD l = true) (fun s => s.portDisable l)
    ∧ Does e i [a, b] 6 (fun s => names s (512 + k.val) 1 ∧ bondReady s ∧ s.dp.bondOn.getLsbD (k.val / 4) = false ∧ s.flag F.SYS_ID_SET = true
        ∧ bundleProbed s = false) (fun s => s.bondEnable (k.val / 4))
    ∧ Does e i [a, b] 6 (fun s => names s (512 + k.val) 0 ∧ bondReady s ∧ s.dp.bondOn.getLsbD (k.val / 4) = true) (fun s => s.bondDisable (k.val / 4))
    ∧ FailsIf e i [a, b] 6 (fun s => (s.reg e a).toNat = n ∧ s.chip.trees ≤ n) .eabsent
    ∧ FailsIf e i [a, b] 6 (fun s => ((s.reg e a).toNat = n ∧ n < s.chip.trees ∧ 2 ≤ (s.reg e b).toNat) ∨ 768 ≤ (s.reg e a).toNat) .erange
    ∧ FailsIf e i [a, b] 6 (fun s => names s n.val 1 ∧ treeReady s ∧ (treeOn s = true ∨ s.inSwitch n = true ∨ s.isPeer n = true)) .estate
    ∧ FailsIf e i [a, b] 6 (fun s => names s n.val 0 ∧ n < s.chip.trees ∧ s.domainState (1 + n.val / 8) = 1) .estate
    ∧ FailsIf e i [a, b] 6 (fun s => names s (256 + l.val) 1 ∧ l < s.chip.uplanes ∧ s.domainState (17 + l.val / 10) = 5) .ewake
    ∧ (∀ s, s.takes e i [a, b] 6 = true → names s (256 + l.val) 1 → l < s.chip.uplanes → s.domainState (17 + l.val / 10) = 1 →
        ∃ t, exec i s = .next t ∧ (t.eng e).stall = .wake [17 + l.val / 10] ∧ (t.eng e).pc = (s.eng e).pc ∧ t.domainState (17 + l.val / 10) = 2
          ∧ t.dp = s.dp ∧ t.tree = s.tree ∧ RegsBut s t (fun o => o = Reg.offset ⟨.QUOIN_STATUS, 16 + l.val / 10, 0, 0⟩))
    ∧ (∀ s : State, (s.treeEnable n).flag F.PON_TREE_STATUS_ENABLED n = true ∧ (s.treeEnable n).flag F.PON_TREE_STATUS_TXON n = !s.safe
        ∧ (s.treeEnable n).map = s.map ∧ (s.treeEnable n).tree = s.tree ∧ (s.treeEnable n).dp = s.dp)
    ∧ (∀ s : State, ((s.treeDisable n).map.get n).run = false ∧ (s.treeDisable n).tr n = { s.tr n with
          build := [], committed := none, window := none, arm := none, held := none, expects := [], reports := [], nextReports := [] }
        ∧ (∀ m, m ≠ n → (s.treeDisable n).tr m = s.tr m ∧ (s.treeDisable n).map.get m = s.map.get m))
    ∧ (∀ s : State, (∀ x, x < 40 → (s.portEnable l).dp.lanesOn.getLsbD x
          = (s.dp.lanesOn.getLsbD x || decide (l.val ≤ x ∧ x < l + s.portLanes l)))
        ∧ (s.portDisable l).dp.lanesOn.getLsbD l = false
        ∧ (s.bondEnable (k.val / 4)).dp.bondOn.getLsbD (k.val / 4) = true ∧ (s.bondDisable (k.val / 4)).dp.bondOn.getLsbD (k.val / 4) = false)

/-- R202, R221, R226: ENGCTL starts a halted map engine, which reads STARTING until the next frame boundary, or waits for the
halt of a started one, which takes effect at ENGCTL_HALT_DONE; b[0] chooses. -/
def Obligations.EngineControl : Prop :=
  ∀ (e : Eng) (d a b : RegNo) (i : Instr) (m : Fin 64) (c : Fin 2) (s : State),
    i = .engctlStart e d a b ∨ i = .engctlHalt e d a b →
    let state := fun s : State => s.get F.MAP_ENG_STATUS_STATE m
    let names := fun s : State => (s.reg e a).toNat = m ∧ m < s.chip.trees ∧ (s.reg e b).toNat < 2 ^ 17
    let start := fun s : State => (s.reg e b).getLsbD 0
    Does e i [a, b] 6 (fun s => names s ∧ start s = true ∧ state s = 1 ∧ s.haltPending m = false)
      (fun s => (s.set F.MAP_ENG_STATUS_STATE 4 m).set F.MAP_ENG_STATUS_ENTRY ((s.reg e b).toNat / 2) m)
    ∧ (∀ s, s.takes e i [a, b] 6 = true → names s → start s = false → state s = 2 → s.haltPending m = false →
        exec i s = .next (s.setEng e { s.eng e with stall := .halt m }))
    ∧ FailsIf e i [a, b] 6 (fun s => (s.reg e a).toNat = m ∧ s.chip.trees ≤ m) .eabsent
    ∧ FailsIf e i [a, b] 6 (fun s => (s.reg e a).toNat = m ∧ m < s.chip.trees ∧ 2 ^ 17 ≤ (s.reg e b).toNat) .erange
    ∧ FailsIf e i [a, b] 6 (fun s => names s ∧ (state s = 3 ∨ state s = 4 ∨ s.haltPending m = true
        ∨ (start s = true ∧ state s = 2) ∨ (start s = false ∧ state s = 1))) .estate
    ∧ ((s.cmd.get c).stall = .halt m → (∀ c', c' ≠ c → (s.cmd.get c').stall ≠ .halt m) → s.plinth.stall ≠ .halt m →
        ∃ t, exec (.engctlHaltDone m) s = .next t ∧ t.get F.MAP_ENG_STATUS_STATE m = 1 ∧ (t.map.get m).run = false
          ∧ (t.cmd.get c).stall = .none ∧ (t.cmd.get c).pc = (s.cmd.get c).pc + 1 ∧ (∀ r, t.reg (.cmd c) r = s.reg (.cmd c) r)
          ∧ t.tree = s.tree ∧ t.dp = s.dp ∧ (∀ m', m' ≠ m → t.map.get m' = s.map.get m')
          ∧ RegsBut s t (fun o => o = Reg.offset ⟨.MAP_ENG_STATUS, m, 0, 0⟩))
    ∧ (s.haltPending m = false → exec (.engctlHaltDone m) s = .next s)

/-- R202, R203, R232, R233, R317, R318: GPLOAD stores a grant program in a halted map engine's memory, FBMAP gives a tree the
fallback map of its next boundary, PATCH installs a checked patch in a halted map engine or stages it for a command engine. -/
def Obligations.ImageLoads : Prop :=
  ∀ (c : Fin 2) (d a b : RegNo) (slots : List (BitVec 64)) (m : Fin 64),
    let e := Eng.cmd c
    let x := fun s : State => (s.reg e a).toNat
    let w := fun (s : State) (k : Nat) => s.mem e (x s + k)
    let n := fun s : State => wbits (w s 2) 15 0
    let target := fun s : State => wbits (w s 2) 23 16
    let off := fun s : State => wbits (w s 3) 15 0
    let image := fun s : State => (List.range' 0 (n s)).map (fun j => BitVec.ofNat 36 (nth 0 slots j).toNat)
    let good := fun s : State => x s + 4 ≤ 8192 ∧ (s.eng e).memPending (x s) 4 = false ∧ (s.eng e).badIn (x s) 4 = false
      ∧ wbits (w s 0) 2 0 = 0 ∧ wbits (w s 1) 35 28 = 0 ∧ wbits (w s 2) 35 24 = 0 ∧ n s ≠ 0 ∧ (∀ j, j < n s → (nth 0 slots j).toNat < 2 ^ 36)
    Does e (.gpload e d a b (.slots slots)) [a] 20 (fun s => good s ∧ target s = m ∧ m < s.chip.trees ∧ wbits (w s 3) 35 16 = 0
        ∧ off s + n s ≤ 65536 ∧ s.get F.MAP_ENG_STATUS_STATE m = 1) (fun s => s.storeRange (.map m) (off s) (image s))
    ∧ FailsIf e (.gpload e d a b (.slots slots)) [a] 20 (fun s => good s ∧ target s = m ∧ m < s.chip.trees ∧ wbits (w s 3) 35 16 = 0
        ∧ off s + n s ≤ 65536 ∧ s.get F.MAP_ENG_STATUS_STATE m ≠ 1) .estate
    ∧ FailsIf e (.gpload e d a b (.slots slots)) [a] 20 (fun s => good s ∧ target s = m ∧ s.chip.trees ≤ m) .eabsent
    ∧ (∀ err, FailsIf e (.gpload e d a b (.failed err)) [a] 20 (fun s => good s ∧ target s = m ∧ m < s.chip.trees
        ∧ wbits (w s 3) 35 16 = 0 ∧ off s + n s ≤ 65536 ∧ s.get F.MAP_ENG_STATUS_STATE m = 1)
        (match err with | .timeout => .etimeout | .poisoned => .eparity | .rejected => .erange))
    ∧ (∀ gs, Does e (.fbmap e d a b (.slots slots)) [a] 20 (fun s => good s ∧ target s = m ∧ m < s.chip.trees ∧ w s 3 = 0
        ∧ fbImage (image s) = some gs) (fun s => s.modTree m (fun y => { y with nextFallback := some gs })))
    ∧ FailsIf e (.fbmap e d a b (.slots slots)) [a] 20 (fun s => good s ∧ target s = m ∧ m < s.chip.trees ∧ w s 3 = 0
        ∧ fbImage (image s) = none) .erange
    ∧ Does e (.patch e d a b (.slots slots)) [a] 20 (fun s => good s ∧ target s = m ∧ m < s.chip.trees ∧ w s 3 = 0
        ∧ s.chip.patchFormat (image s) [m.val] = true ∧ s.get F.MAP_ENG_STATUS_STATE m = 1 ∧ s.chip.authentic (image s) (paKey (image s)) = true)
      (fun s => ((s.setEng (.map m) { s.eng (.map m) with patch := some (paPatch (image s)), staged := none }).set
        F.MCODE_VERSION_PATCHVER (wbits (nth 0 (image s) 0) 15 0) m).set F.MCODE_VERSION_CHK 1 m)
    ∧ (∀ c' : Fin 2, Does e (.patch e d a b (.slots slots)) [a] 20 (fun s => good s ∧ target s = 64 + c'.val ∧ w s 3 = 0
        ∧ s.chip.patchFormat (image s) [64 + c'.val] = true ∧ s.get F.CMD_ENG_STATUS_STATE c' ≠ 3
        ∧ s.chip.authentic (image s) (paKey (image s)) = true)
      (fun s => (s.setEng (.cmd c') { s.eng (.cmd c') with staged := some (paPatch (image s)) }).set F.MCODE_VERSION_CHK 3 (64 + c'.val)))
    ∧ FailsIf e (.patch e d a b (.slots slots)) [a] 20 (fun s => good s ∧ target s = m ∧ m < s.chip.trees ∧ w s 3 = 0
        ∧ s.chip.patchFormat (image s) [m.val] = true ∧ s.get F.MAP_ENG_STATUS_STATE m ≠ 1) .estate

/-- R204, R9, R119: RDREG and WRREG act as the host's read and write of the same register; outside the permitted offsets they
complete with ERANGE; an absent unit's register reads zero and takes no write; a sleeping domain wakes and the engine waits. -/
def Obligations.RegisterInstructions : Prop :=
  ∀ (e : Eng) (d a b : RegNo) (r : Reg),
    let x := fun s : State => (s.reg e a).toNat
    let refused := fun s : State => x s % 8 ≠ 0 ∨ 0x1000000 ≤ x s ∨ (0x100000 ≤ x s ∧ x s < 0x200000)
    let open_ := fun s : State => s.chip.offAbsent r.offset = false ∧ s.deepShut r.offset = false ∧ s.readyShut r.offset = false
      ∧ (∀ q, q ∈ servedBy r.offset → s.domainState q = 3 ∨ s.domainState q = 0)
    FailsIf e (.rdreg e d a b) [d, a] 6 refused .erange
    ∧ FailsIf e (.wrreg e d a b) [a, b] 4 refused .erange
    ∧ Does e (.rdreg e d a b) [d, a] 6 (fun s => x s = r.offset ∧ ¬ refused s ∧ s.chip.offAbsent r.offset = true) (fun s => s.setReg e d 0)
    ∧ Does e (.wrreg e d a b) [a, b] 4 (fun s => x s = r.offset ∧ ¬ refused s ∧ s.chip.offAbsent r.offset = true) (fun s => s)
    ∧ (Reg.ofOffset r.offset = some r →
      Does e (.rdreg e d a b) [d, a] 6 (fun s => x s = r.offset ∧ ¬ refused s ∧ open_ s)
        (fun s => ((s.serRefresh r).regReadEffect r).setReg e d ((s.serRefresh r).regValue r))
      ∧ (r.id ≠ .RST_CTRL → Does e (.wrreg e d a b) [a, b] 4 (fun s => x s = r.offset ∧ ¬ refused s ∧ open_ s
          ∧ s.safeShut r.offset (s.reg e b) = false ∧ ((s.regWrite (engWho e) r (s.reg e b)).safe = true → s.safe = true))
        (fun s => s.regWrite (engWho e) r (s.reg e b))))
    ∧ (∀ s q, s.takes e (.wrreg e d a b) [a, b] 4 = true → x s = r.offset → ¬ refused s → s.chip.offAbsent r.offset = false →
        s.safe = false → s.pwr.deep ≠ 1 → s.readyShut r.offset = false → alwaysOpen r.offset = false → servedBy r.offset = [q] →
        1 ≤ q → q ≤ 25 → s.domainState q = 4 →
        ∃ t, exec (.wrreg e d a b) s = .next t ∧ (t.eng e).stall = .wake [q] ∧ (t.eng e).pc = (s.eng e).pc ∧ t.domainState q = 2
          ∧ t.dp = s.dp ∧ t.tree = s.tree ∧ RegsBut s t (fun o => o = Reg.offset ⟨.QUOIN_STATUS, q - 1, 0, 0⟩))

/-- R9, R18, R107, R115, R119, R124, R562, R563: a host access of 8 bytes to a register that answers is that register's write or
read. An access before the link is up has no effect; an access to an absent unit reads zero and takes no write; one of another
size or alignment, and one that READY shuts out, does not reach a register; one that a sleeping domain serves waits for it. -/
def Obligations.HostRegisterAccess : Prop :=
  ∀ (s : State) (r : Reg) (v : Word) (off size : Nat) (w : BitVec 64) (q : Nat) (k : Fin 32) (i : Fin 6),
    (s.barOpen = false → exec (.registerWrite off size w) s = .next s ∧ exec (.registerRead off size) s = .next s)
    ∧ (Reg.ofOffset r.offset = some r → r.offset < 0x1000000 → r.offset % 8 = 0 → inMsix r.offset = false → WriteReaches s r v →
        exec (.registerWrite r.offset 8 (v.zeroExtend 64)) s = .next (s.regWrite .host r v))
    ∧ (WriteReaches s ⟨.HCI_INT_MAP, k, 0, 0⟩ v → ∃ t, exec (.registerWrite (0x10A000 + 8 * k.val) 8 (v.zeroExtend 64)) s = .next t
        ∧ t = { s with regs := t.regs } ∧ t.get F.HCI_INT_MAP_VECTOR k = v.toNat % 64 ∧ t.flag F.HCI_INT_MAP_EN k = v.getLsbD 8
        ∧ RegsBut s t (fun o => o = 0x10A000 + 8 * k.val))
    ∧ (s.barOpen = true → off < 0x1000000 → s.safe = false → s.pwr.deep = 0 → inMsix off = false → (size ≠ 8 ∨ off % 8 ≠ 0) →
        exec (.registerWrite off size w) s = .next (s.reject { reg := true, ring := none, status := .erange }))
    ∧ (s.barOpen = true → off < 0x1000000 → s.safe = false → s.pwr.deep = 0 → inMsix off = false → off % 8 = 0 → s.writeWaits = false →
        (s.chip.offAbsent off = true → exec (.registerWrite off 8 w) s = .next s
          ∧ exec (.registerRead off 8) s = .next (s.emit (.readData 0)))
        ∧ (s.chip.offAbsent off = false → s.readyShut off = true →
            exec (.registerWrite off 8 w) s = .next (s.reject { reg := true, ring := none, status := .estate })
            ∧ exec (.registerRead off 8) s = .next (s.emit .completerAbort))
        ∧ (s.chip.offAbsent off = false → s.readyShut off = false → alwaysOpen off = false → servedBy off = [q] → 1 ≤ q →
            s.domainState q = 1 ∨ s.domainState q = 4 →
            ∃ t, exec (.registerWrite off 8 w) s = .next t ∧ t.host.waiting = s.host.waiting ++ [.write off 8 w]
              ∧ t.domainState q = 2 ∧ t.outs = s.outs ∧ t.dp = s.dp ∧ RegsBut s t (fun o => o = Reg.offset ⟨.QUOIN_STATUS, q - 1, 0, 0⟩)))
    ∧ (s.barOpen = true → off < 0x1000000 → s.pwr.deep = 0 → inMsix off = false → 8 < off % 8 + size →
        exec (.registerRead off size) s = .next (s.emit .completerAbort))
    ∧ (Reg.ofOffset r.offset = some r → r.offset < 0x1000000 → r.offset % 8 = 0 → inMsix r.offset = false → WriteReaches s r v →
        s.pwr.deep = 0 → exec (.registerRead r.offset 8) s
          = .next (((s.serRefresh r).regReadEffect r).emit (.readData (((s.serRefresh r).regValue r).zeroExtend 64))))
    ∧ (WriteReaches s ⟨.TIME_CAP_DATA, i, 0, 0⟩ v → s.pwr.deep = 0 → ∃ t, exec (.timeCapData i) s = .next t
        ∧ t.outs = s.outs ++ [.readData ((s.rd .TIME_CAP_DATA i).zeroExtend 64)] ∧ t.get F.TIME_CAP_STAT_NEW i = 0
        ∧ t.rd .TIME_CAP_DATA i = 0 ∧ RegsBut s t (fun o => o = Reg.offset ⟨.TIME_CAP_DATA, i, 0, 0⟩ ∨ o = Reg.offset ⟨.TIME_CAP_STAT, i, 0, 0⟩))

/-- R127, R141, R143, R144, R146: an enable starts a ring from empty where a version is active and SIZE lies within 6 to 12, and
is rejected otherwise; a disable takes effect at once where no fragment of the ring runs; the doorbell sets TAIL within the
ring's size; NEGOTIATE makes the highest common version active. -/
def Obligations.RingRegisters : Prop :=
  ∀ (r : Fin 16) (v : Word) (s : State),
    let ctrl : Reg := ⟨.HCI_RING_CTRL, r, 0, 0⟩
    let size := fv v F.HCI_RING_CTRL_SIZE
    let span := (fv v F.HCI_RING_TAIL_TAIL + 8192 - s.get F.HCI_RING_HEAD_HEAD r) % 8192
    let common := fv v F.HCI_NEGOTIATE_OFFER &&& s.get F.HCI_VER_SUPPORTED_VERSIONS
    let idle := s.get F.BOOT_STATUS_READY = 1 ∧ (∀ k : Fin 16, s.get F.HCI_RING_STATUS_ENABLED k = 0)
      ∧ (s.cmd.get 0).frag = none ∧ (s.cmd.get 1).frag = none
    (WriteReaches s ctrl v → fv v F.HCI_RING_CTRL_EN = 1 → s.get F.HCI_RING_STATUS_ENABLED r = 0 →
      ∃ t, exec (.ringEnable r v) s = .next t ∧ t.cmd = s.cmd ∧ t.dp = s.dp
        ∧ (s.get F.HCI_NEGOTIATE_MAJOR ≠ 0 → 6 ≤ size → size ≤ 12 → t.get F.HCI_RING_CTRL_EN r = 1 ∧ t.get F.HCI_RING_CTRL_SIZE r = size
            ∧ t.get F.HCI_RING_STATUS_ENABLED r = 1 ∧ t.get F.HCI_RING_STATUS_HALTED r = 0
            ∧ t.get F.HCI_RING_HEAD_HEAD r = 0 ∧ t.get F.HCI_RING_TAIL_TAIL r = 0 ∧ t.ring r = {})
        ∧ (s.get F.HCI_NEGOTIATE_MAJOR = 0 → t.get F.HCI_RING_CTRL_EN r = 0 ∧ t.get F.HCI_RING_STATUS_ENABLED r = 0
            ∧ t.get F.HCI_RING_STATUS_ERR r = Status.estate.code)
        ∧ (s.get F.HCI_NEGOTIATE_MAJOR ≠ 0 → (size < 6 ∨ 12 < size) → t.get F.HCI_RING_CTRL_EN r = 0
            ∧ t.get F.HCI_RING_STATUS_ENABLED r = 0 ∧ t.get F.HCI_RING_STATUS_ERR r = Status.erange.code))
    ∧ (WriteReaches s ctrl v → fv v F.HCI_RING_CTRL_EN = 0 → s.get F.HCI_RING_STATUS_ENABLED r = 1 → size = s.get F.HCI_RING_CTRL_SIZE r →
      ∃ t, exec (.ringDisable r v) s = .next t ∧ t.get F.HCI_RING_CTRL_EN r = 0
        ∧ t.get F.HCI_RING_STATUS_ENABLED r = s.get F.HCI_RING_STATUS_ACTIVE r
        ∧ t = { s with regs := t.regs, host := { s.host with rings := t.host.rings } })
    ∧ (WriteReaches s ⟨.HCI_RING_TAIL, r, 0, 0⟩ v →
      (span ≤ 2 ^ s.get F.HCI_RING_CTRL_SIZE r → ∃ t, exec (.doorbell r v) s = .next t ∧ t = { s with regs := t.regs }
        ∧ t.get F.HCI_RING_TAIL_TAIL r = fv v F.HCI_RING_TAIL_TAIL ∧ RegsBut s t (fun o => o = Reg.offset ⟨.HCI_RING_TAIL, r, 0, 0⟩))
      ∧ (2 ^ s.get F.HCI_RING_CTRL_SIZE r < span → ∃ t, exec (.doorbell r v) s = .next t
        ∧ t.get F.HCI_RING_TAIL_TAIL r = s.get F.HCI_RING_TAIL_TAIL r ∧ t.get F.HCI_RING_STATUS_ERR r = Status.erange.code
        ∧ t.dp = s.dp ∧ t.cmd = s.cmd))
    ∧ (WriteReaches s ⟨.HCI_NEGOTIATE, 0, 0, 0⟩ v → fv v F.HCI_NEGOTIATE_REQ = 1 → idle → common ≠ 0 →
      ∃ t, exec (.negotiate v) s = .next t ∧ t = { s with regs := t.regs } ∧ t.get F.HCI_NEGOTIATE_MAJOR = 1
        ∧ t.get F.HCI_NEGOTIATE_MINOR = (if bit common 1 then 1 else 0) ∧ t.get F.HCI_NEGOTIATE_STATUS = 0
        ∧ t.get F.HCI_NEGOTIATE_OFFER = fv v F.HCI_NEGOTIATE_OFFER ∧ RegsBut s t (fun o => o = Reg.offset ⟨.HCI_NEGOTIATE, 0, 0, 0⟩))
    ∧ (WriteReaches s ⟨.HCI_NEGOTIATE, 0, 0, 0⟩ v → fv v F.HCI_NEGOTIATE_REQ = 1 → idle → common = 0 →
      ∃ t, exec (.negotiate v) s = .next t ∧ t.get F.HCI_NEGOTIATE_MAJOR = 0 ∧ t.get F.HCI_NEGOTIATE_MINOR = 0
        ∧ t.get F.HCI_NEGOTIATE_STATUS = Status.erange.code)

/-- R133 to R138, R144, R147, R150 to R153, R160, R170: what an idle engine does with the descriptor of the ring it picks: its
fragment starts with every register, flag and scratch word zero; a descriptor the device may not execute completes ERANGE; one
that a barrier holds is passed over; a failed host read halts the ring with its status. A fragment that has ended and whose
table operations have finished completes, writing slot 1 of its entry, then slot 0; past LIMIT its instruction ends ETIMEOUT. -/
def Obligations.FragmentsFetchRunAndComplete : Prop :=
  ∀ (s : State) (c : Fin 2) (r : Fin 16) (desc frag : List (BitVec 64)) (err : HostErr),
    let d := Desc.ofSlots desc
    let counter := s.get F.HCI_RING_HEAD_HEAD r
    let entry (t : State) (st : Status) (index last results : Nat) := ∃ more,
      t.outs = s.outs ++ [.hostWrite (BitVec.ofNat 64 (s.cplBase r + 16 * (counter % s.ringEntries r) + 8)) (hostSlot (cplSlot1 last results)),
        .hostWrite (BitVec.ofNat 64 (s.cplBase r + 16 * (counter % s.ringEntries r))) (hostSlot (cplSlot0 (s.ringEntries r) counter c st index))] ++ more
      ∧ more.length ≤ 2
    (s.pickRing (s.host.last.get c) = some r.val → s.mayFetch c = true →
      (s.barrierHolds d = false → d.valid = true → (s.cmd.get c).staged = none → ∃ t, exec (.descriptorFetch c desc frag) s = .next t
        ∧ t.get F.HCI_RING_HEAD_HEAD r = (counter + 1) % 8192 ∧ t.get F.HCI_RING_STATUS_ACTIVE r = 1 ∧ t.get F.CMD_ENG_STATUS_STATE c = 2
        ∧ (∀ k, t.reg (.cmd c) k = 0) ∧ (t.cmd.get c).pc = 0 ∧ (t.cmd.get c).flags = (false, false, false, false)
        ∧ (∀ a, t.mem (.cmd c) a = if a < d.fragLen then BitVec.ofNat 36 (nth 0 frag a).toNat else 0)
        ∧ (∃ f, (t.cmd.get c).frag = some f ∧ f.ring = r ∧ f.counter = counter ∧ f.len = d.fragLen ∧ f.resLen = d.resLen ∧ f.ended = none)
        ∧ (∀ c', c' ≠ c → t.cmd.get c' = s.cmd.get c') ∧ t = { s with regs := t.regs, host := t.host, cmd := t.cmd }
        ∧ RegsBut s t (fun o => o = Reg.offset ⟨.HCI_RING_HEAD, r, 0, 0⟩ ∨ o = Reg.offset ⟨.HCI_RING_STATUS, r, 0, 0⟩
            ∨ o = Reg.offset ⟨.CMD_ENG_STATUS, c, 0, 0⟩))
      ∧ (s.barrierHolds d = false → d.valid = false → ∃ t, exec (.descriptorFetch c desc frag) s = .next t
        ∧ t.get F.HCI_RING_HEAD_HEAD r = (counter + 1) % 8192 ∧ entry t .erange 0 0xFFF 0
        ∧ t = { s with regs := t.regs, host := t.host, outs := t.outs } ∧ RegsBut s t (fun o => o = Reg.offset ⟨.HCI_RING_HEAD, r, 0, 0⟩))
      ∧ (s.barrierHolds d = true → ∃ t, exec (.descriptorFetch c desc frag) s = .next t ∧ (t.ring r).barred = true
        ∧ t = { s with host := { s.host with rings := t.host.rings } })
      ∧ (desc = [] ∨ s.barrierHolds d = false ∧ d.valid = true → ∃ t, exec (.hostMemoryError c desc err) s = .next t
        ∧ t.get F.HCI_RING_HEAD_HEAD r = (counter + 1) % 8192 ∧ entry t (hostErrStatus err) 0 0xFFF 0
        ∧ t.get F.HCI_RING_STATUS_HALTED r = 1 ∧ t.get F.HCI_RING_STATUS_ERR r = (hostErrStatus err).code
        ∧ t = { s with regs := t.regs, host := t.host, outs := t.outs }))
    ∧ (s.mayFetch c = false → exec (.descriptorFetch c desc frag) s = .next s ∧ exec (.hostMemoryError c desc err) s = .next s)
    ∧ (∀ f index st, (s.cmd.get c).frag = some f → f.ended = some (index, st) → (s.cmd.get c).ops = [] → f.ring = r → f.counter = counter →
        f.aborted = false → s.canWrite = true → s.get F.CMD_ENG_STATUS_STATE c = 2 → s.get F.HCI_RING_STATUS_ENABLED r = 1 →
        s.get F.HCI_RING_CTRL_EN r = 1 → (s.ring r).heldEnable = false → s.v10 = false →
        ∃ t, exec (.fragmentCompletion c) s = .next t ∧ entry t st index (f.last.getD 0xFFF) f.results
          ∧ (t.cmd.get c).frag = none ∧ t.get F.CMD_ENG_STATUS_STATE c = 1 ∧ t.get F.HCI_RING_STATUS_ACTIVE r = 0
          ∧ (∀ k, (t.ring k).barred = false) ∧ t.dp = s.dp ∧ t.tree = s.tree ∧ t.map = s.map)
    ∧ (s.engRuns (.cmd c) = true → (s.cmd.get c).stall.isWake = false → s.topStalled c = false →
        ∃ t, exec (.fragmentTimeout c) s = .next t ∧ Failed s t (.cmd c) .etimeout)
    ∧ (s.get F.HCI_NEGOTIATE_MAJOR = 1 → s.get F.HCI_NEGOTIATE_MINOR = 1 → s.get F.HCI_RING_CTRL_ITIME r ≠ 0 → 0 < (s.ring r).counted →
        ∃ t, exec (.ringInterrupt r) s = .next t ∧ (t.ring r).counted = 0 ∧ t = { s with host := t.host, outs := t.outs }
          ∧ (s.flag F.HCI_INT_MAP_EN r = true → s.canWrite = true → (s.msixField (4 * s.get F.HCI_INT_MAP_VECTOR r + 3)).toNat % 2 = 0 →
              t.outs = s.outs ++ [.msix (s.get F.HCI_INT_MAP_VECTOR r)]))

/-- R64, R65, R67, R70 to R73, R102 to R109, R524, R532: a full reset (RESET_N low for 10 us or more, or the key in RST_CTRL)
keeps its cause, the straps, the fault ring and the event log with the record of the reset, and puts every other register and
every table and engine at its reset value; a power-on reset keeps flash alone, and BROWN where the supply had dropped. RESET_N
rising latches the straps; POR_DONE starts ALIVE and takes a SAFE_REQ_N that is low. -/
def Obligations.ResetsAndPins : Prop :=
  ∀ (s : State) (v : Word) (width : Nat) (boot : BitVec 2) (i2ca : BitVec 3),
    let o := State.powerOn s.chip
    let cold (t : State) := t.pending = s.pending ∧ t.chip = s.chip ∧ t.dp = o.dp ∧ t.tel = o.tel ∧ t.tim = o.tim ∧ t.pwr = o.pwr ∧ t.clk = o.clk
      ∧ t.cmd = o.cmd ∧ t.map = o.map ∧ t.tree = o.tree ∧ t.slots = [] ∧ t.host = o.host ∧ t.boot.porDone = false
    let full (t : State) := cold t ∧ t.flt.ring = s.flt.ring ∧ t.pln.flash = s.pln.flash ∧ t.pln.dirA = s.pln.dirA ∧ t.pln.dirB = s.pln.dirB
      ∧ (∀ id i j k, keptReg (Reg.offset ⟨id, i, j, k⟩) = false → t.rd id i j k = o.rd id i j k)
      ∧ (∀ id i j k, keptReg (Reg.offset ⟨id, i, j, k⟩) = true → id ≠ .RST_CAUSE → Reg.offset ⟨id, i, j, k⟩ ≠ Reg.offset ⟨.RST_CAUSE, 0, 0, 0⟩ →
          t.rd id i j k = s.rd id i j k)
      ∧ (s.chip.plinth = true → ∃ r, t.pln.log.getLast? = some r ∧ r.type = 5 ∧ r.seq = s.pln.logSeq)
    (s.boot.aonDown = false → 10000 ≤ width → ∃ t, exec (.resetNAssert width) s = .next t ∧ full t ∧ t.boot.inReset = true
        ∧ t.get F.RST_CAUSE_PIN = 1 ∧ t.get F.RST_CAUSE_SOFT = s.get F.RST_CAUSE_SOFT
        ∧ t.get F.RST_CAUSE_COUNT = min (2 ^ (F.RST_CAUSE_COUNT.hi + 1 - F.RST_CAUSE_COUNT.lo) - 1) (s.get F.RST_CAUSE_COUNT + 1))
    ∧ (width < 1000 → ∃ t, exec (.resetNAssert width) s = .next t ∧ t = { s with free := t.free })
    ∧ (WriteReaches s ⟨.RST_CTRL, 0, 0, 0⟩ v →
        (fv v F.RST_CTRL_KEY = 0xA5C3 → ∃ t, exec (.softReset v) s = .next t ∧ full t ∧ t.boot.inReset = false ∧ t.get F.RST_CAUSE_SOFT = 1)
        ∧ (fv v F.RST_CTRL_KEY ≠ 0xA5C3 → exec (.softReset v) s = .next s))
    ∧ (∃ t, exec .powerOn s = .next t ∧ cold t ∧ t.boot.inReset = true ∧ t.flt = {} ∧ t.pln.log = [] ∧ t.pln.flash = s.pln.flash
        ∧ t.get F.RST_CAUSE_BROWN = (if s.boot.aonDown then 1 else o.get F.RST_CAUSE_BROWN)
        ∧ ∀ id i j k, Reg.offset ⟨id, i, j, k⟩ ≠ Reg.offset ⟨.RST_CAUSE, 0, 0, 0⟩ → t.rd id i j k = o.rd id i j k)
    ∧ (∃ t, exec .aonBrownout s = .next t ∧ cold t ∧ t.boot.inReset = true ∧ t.boot.aonDown = true ∧ t.flt = {} ∧ t.regs = [])
    ∧ (s.boot.inReset = true → s.boot.aonDown = false → ∃ t, exec (.resetNRelease boot i2ca) s = .next t ∧ t.boot.inReset = false
        ∧ t.get F.ID_STRAP_BOOT = boot.toNat ∧ t.get F.ID_STRAP_I2CA = i2ca.toNat ∧ t.get F.ID_STRAP_IGNORED = b2n (!s.chip.plinth)
        ∧ t = { s with regs := t.regs, boot := { s.boot with inReset := false } } ∧ RegsBut s t (fun o => o = Reg.offset ⟨.ID_STRAP, 0, 0, 0⟩))
    ∧ (s.boot.inReset = false → s.boot.aonDown = false → s.boot.porDone = false → ∃ t, exec .porDone s = .next t ∧ t.boot.porDone = true
        ∧ t.boot.safeReqLow = false ∧ (s.boot.safeReqLow = false → t.boot.alive = true ∧ t = { s with boot := t.boot })
        ∧ (s.boot.safeReqLow = true → s.safe = false → EntersSafe s t))
    ∧ (s.boot.inReset = false → s.boot.porDone = true → s.safe = false → ∃ t, exec .aliveToggle s = .next t ∧ t.boot.alive = !s.boot.alive
        ∧ t = { s with boot := { s.boot with alive := t.boot.alive } })

/-- R104, R107, R115, R133: Bus Master Enable and the D-states decide whether the function writes, and what it held is written
in order once it may; a Function Level Reset and a low PCIE_PERST_N disable every ring, end the negotiated version, mask every
vector and abort what fragments do, and leave the switch core as it was; the link trains once PCIE_PERST_N is high and POR_DONE
has come. -/
def Obligations.LinkAndFunction : Prop :=
  ∀ (s : State) (d3hot : Bool),
    let reset (t : State) := (∀ r : Fin 16, t.get F.HCI_RING_CTRL_EN r = 0 ∧ t.get F.HCI_RING_STATUS_ENABLED r = 0 ∧ t.ring r = {})
      ∧ t.get F.HCI_NEGOTIATE_MAJOR = 0 ∧ t.get F.HCI_NEGOTIATE_MINOR = 0 ∧ t.host.msix = [] ∧ t.host.pba = 0 ∧ t.host.held = []
      ∧ (∀ c f, (t.cmd.get c).frag = some f → f.aborted = true) ∧ (∀ w, w ∈ t.host.waiting → w.hostRead = false)
      ∧ t.dp = s.dp ∧ t.tree = s.tree ∧ t.map = s.map ∧ t.tel = s.tel ∧ t.outs = s.outs
      ∧ RegsBut s t (fun o => (∃ r, r < 16 ∧ (o = Reg.offset ⟨.HCI_RING_CTRL, r, 0, 0⟩ ∨ o = Reg.offset ⟨.HCI_RING_STATUS, r, 0, 0⟩))
          ∨ o = Reg.offset ⟨.HCI_NEGOTIATE, 0, 0, 0⟩)
    (∃ t, exec (.busMasterDisable d3hot) s = .next t ∧ t.canWrite = false
        ∧ t = { s with host := { s.host with busMaster := t.host.busMaster, d3hot := t.host.d3hot } })
    ∧ (∃ t, exec .busMasterEnable s = .next t ∧ t.canWrite = true ∧ t.outs = s.outs ++ s.host.held ∧ t.host.held = []
        ∧ t = { s with outs := t.outs, host := { s.host with busMaster := true, d3hot := false, held := [] } })
    ∧ (∃ t, exec .functionLevelReset s = .next t ∧ reset t ∧ t.boot = s.boot)
    ∧ (∃ t, exec .pciePerstN s = .next t ∧ reset t ∧ t.boot.perst = true ∧ t.barOpen = false)
    ∧ (s.boot.perst = true → ∃ t, exec .pciePerstNRelease s = .next t ∧ t.boot.perst = false ∧ t.boot.linkTraining = s.boot.porDone
        ∧ t = { s with boot := t.boot })

/-- R111 to R116, R447, R535, R537: the start-up phases in order, each from the phase before it. Fuses, clocks and SRAM end in
the next phase or in the safe state with PHASE FAILED; a failed stack memory, image or microcode leaves the device degraded and
goes on; clocks start frame 0 and the time base, SRAM wakes the mortar core and quoin 23, and READY is set at the end. A command
that ends a phase which does not run has no effect. -/
def Obligations.StartUpPhases : Prop :=
  ∀ (s : State) (ok : Bool) (src map cmd : Transfer),
    s.boot.porDone = true → s.boot.inReset = false → s.pwr.deep = 0 → s.safe = false →
    let phase := s.get F.BOOT_STATUS_PHASE
    let next := if s.chip.plinth then 5 else 8
    let trial := s.pln.dir.trial
    let good := (s.firmware src).1 = .ok
    (phase = 1 → ∃ t, exec (.phaseFuses ok) s = .next t
        ∧ (ok = true → t = { s with regs := t.regs } ∧ t.get F.BOOT_STATUS_PHASE = 2 ∧ RegsBut s t (fun o => o = Reg.offset ⟨.BOOT_STATUS, 0, 0, 0⟩))
        ∧ (ok = false → EntersSafe s t ∧ t.get F.BOOT_STATUS_PHASE = 0xF))
    ∧ (phase = 2 → ∃ t, exec (.phaseClocks ok) s = .next t
        ∧ (ok = true → t.clk = { running := true, tb := 0 } ∧ t.domainState 24 = domREADY ∧ t.get F.BOOT_STATUS_PHASE = 3
            ∧ t = { s with regs := t.regs, clk := t.clk })
        ∧ (ok = false → t.safe = true ∧ t.domainState 24 = domFAILED ∧ t.get F.BOOT_STATUS_PHASE = 0xF))
    ∧ (phase = 3 → ∃ t, exec (.phaseSram ok) s = .next t
        ∧ (ok = true → t.domainState 0 = domREADY ∧ t.domainState 23 = domREADY ∧ t.get F.BOOT_STATUS_PHASE = (if s.chip.stackmem then 4 else next)
            ∧ (s.chip.stackmem = false → s.chip.plinth = false → t.get F.BOOT_STATUS_READY = 1) ∧ t.dp = s.dp ∧ t.tree = s.tree ∧ t.clk = s.clk)
        ∧ (ok = false → t.safe = true ∧ t.domainState 0 = domFAILED ∧ t.get F.BOOT_STATUS_PHASE = 0xF))
    ∧ (phase = 4 → ∃ t, exec (.phaseStackmem ok) s = .next t ∧ t.get F.BOOT_STATUS_PHASE = next ∧ t.dp = s.dp ∧ t.tree = s.tree
        ∧ (ok = true → s.domainState 22 ≠ domFAILED → t.domainState 22 = domREADY)
        ∧ (ok = false → t.domainState 22 = domFAILED ∧ t.get F.BOOT_STATUS_DEGRADED = 1))
    ∧ (phase = 5 → ∃ t, exec (.phaseFirmware src) s = .next t
        ∧ (s.bootSource = 1 → t.get F.BOOT_STATUS_PHASE = 6 ∧ t.get F.PLN_MBOX_CTRL_READY = 1 ∧ t = { s with regs := t.regs })
        ∧ (s.bootSource ≠ 1 → (s.bootSource = 0 → trial = none) → t.get F.BOOT_STATUS_PHASE = 7
            ∧ (good → t.plinth.pc = piEntry (s.firmware src).2 ∧ t.get F.PLN_STATUS_FWVER = piVer (s.firmware src).2 ∧ t.get F.PLN_STATUS_STATE = 2)
            ∧ (¬ good → t.get F.BOOT_STATUS_DEGRADED = 1 ∧ t.plinth = s.plinth))
        ∧ (∀ k, s.bootSource = 0 → trial = some k → t.pln.dir.trial = none
            ∧ (good → t.get F.BOOT_STATUS_PHASE = 7 ∧ t.pln.runSlot = some k ∧ t.get F.PLN_STATUS_STATE = 3)
            ∧ (¬ good → t.get F.BOOT_STATUS_PHASE = 5 ∧ t.plinth = s.plinth)))
    ∧ (phase = 5 → s.bootSource = 2 → ∃ t, exec .bootImageTimeout s = .next t ∧ t.get F.BOOT_STATUS_PHASE = 7 ∧ t.get F.BOOT_STATUS_DEGRADED = 1
        ∧ (s.get F.BOOT_STATUS_STATUS = 0 → t.get F.BOOT_STATUS_STATUS = Status.etimeout.code) ∧ t = { s with regs := t.regs })
    ∧ (phase = 7 → ∃ t, exec (.phasePatch map cmd) s = .next t ∧ t.get F.BOOT_STATUS_PHASE = 8 ∧ t.get F.BOOT_STATUS_READY = 1 ∧ t.dp = s.dp
        ∧ t.tree = s.tree)
    ∧ (phase ≠ 1 → exec (.phaseFuses ok) s = .next s) ∧ (phase ≠ 2 → exec (.phaseClocks ok) s = .next s) ∧ (phase ≠ 3 → exec (.phaseSram ok) s = .next s)
    ∧ (phase ≠ 4 → exec (.phaseStackmem ok) s = .next s) ∧ (phase ≠ 5 → exec (.phaseFirmware src) s = .next s ∧ exec .bootImageTimeout s = .next s)
    ∧ (phase ≠ 7 → exec (.phasePatch map cmd) s = .next s)

/-- R205, R274, R275, R282, R285, R297, R309: TMACT puts a FREE terminal into RANGING with EQD 0, or into RESTORED with the
image's delay in force; TMDEACT makes it FREE, zeroes its context, discards its queued messages and withdraws its allocations;
TMEQD makes it OPERATING with delay b and starts its drift hold-off. What each completes with otherwise. -/
def Obligations.TerminalInstructions : Prop :=
  ∀ (e : Eng) (d a b : RegNo) (n : Fin 64) (u : Fin 256),
    let names := fun s : State => (s.reg e a).toNat = n.val * 256 + u.val
    let awake := fun s : State => n.val < s.chip.trees ∧ s.domainState (1 + n.val / 8) = 3 ∧ s.domainState (9 + n.val / 8) = 3
    let b' := fun s : State => (s.reg e b).toNat
    let words := fun s : State => (List.range' (b' s) 4).map (s.mem e)
    let readable := fun s : State => b' s + 4 ≤ engMemWords e ∧ (s.eng e).memPending (b' s) 4 = false ∧ (s.eng e).badIn (b' s) 4 = false
    let state := fun s : State => s.get F.PON_TERM_STATE_STATE n u
    let limit := fun s : State => s.get F.PON_RNG_LIMIT_EQDLIM n
    let switching := fun s : State => s.get F.PON_PROT_STATUS_STATE n = 2
    let restore := fun s : State => ef (words s) 0 35 35 = 1
    let ctx := fun (s : State) (st : Nat) => ({ state := st, prof := ef (words s) 0 34 33, pik := ef (words s) 2 14 0, vid := ef (words s) 0 31 0, vssn := ef (words s) 1 31 0, eqd := ef (words s) 3 24 0 } : LineCtx)
    let image := fun s : State => ef (words s) 0 32 32 = 0 ∧ ef (words s) 1 35 32 = 0 ∧ ef (words s) 2 35 15 = 0 ∧ ef (words s) 3 35 25 = 0
      ∧ (restore s ∨ ef (words s) 3 24 0 = 0) ∧ ef (words s) 3 24 0 ≤ limit s
      ∧ ef (s.tabGet 0x41 (n.val * 4 + ef (words s) 0 34 33)) 0 35 35 ≠ 0
    let held := fun s : State => ∃ v : Fin 256, v ≠ u ∧ s.get F.PON_TERM_STATE_STATE n v ≠ 0
      ∧ s.get F.PON_TERM_VID_VID n v = ef (words s) 0 31 0 ∧ s.get F.PON_TERM_VSSN_VSSN n v = ef (words s) 1 31 0
    let clean := fun s : State => s.modTree n (fun x =>
      { x with pm := sput {} x.pm u.val {}, missRun := sput 0 x.missRun u.val 0, holdoff := x.holdoff.filter (fun v => v ≠ u.val) })
    Does e (.tmact e d a b) [a, b] 14 (fun s => names s ∧ awake s ∧ readable s ∧ image s ∧ state s = 0 ∧ ¬ held s ∧ ¬ restore s ∧ ¬ switching s)
      (fun s => (clean s).putCtx n u (ctx s 1))
    ∧ Does e (.tmact e d a b) [a, b] 14 (fun s => names s ∧ awake s ∧ readable s ∧ image s ∧ state s = 0 ∧ ¬ held s ∧ restore s ∧ ¬ switching s)
      (fun s => (clean s).putCtx n u (ctx s 3))
    ∧ FailsIf e (.tmact e d a b) [a, b] 14 (fun s => names s ∧ s.chip.trees ≤ n.val) .eabsent
    ∧ FailsIf e (.tmact e d a b) [a, b] 14 (fun s => names s ∧ awake s ∧ readable s ∧ ¬ image s) .erange
    ∧ FailsIf e (.tmact e d a b) [a, b] 14 (fun s => names s ∧ awake s ∧ readable s ∧ image s ∧ (state s ≠ 0 ∨ held s)) .estate
    ∧ FailsIf e (.tmact e d a b) [a, b] 14 (fun s => names s ∧ awake s ∧ readable s ∧ image s ∧ state s = 0 ∧ ¬ held s ∧ switching s
        ∧ (¬ restore s ∨ s.get F.PON_PROT_CTRL_SLOT n < 4)) .ebusy
    ∧ (∀ (s : State) (c : LineCtx), c.state < 4 → c.prof < 4 → c.pik < 32768 → c.vid < 2 ^ 32 → c.vssn < 2 ^ 32 → c.eqd < 2 ^ 25 →
        let t := s.putCtx n u c
        t = { s with regs := t.regs } ∧ t.get F.PON_TERM_STATE_STATE n u = c.state ∧ t.get F.PON_TERM_STATE_PROF n u = c.prof
        ∧ t.get F.PON_TERM_STATE_PIKSLOT n u = c.pik ∧ t.get F.PON_TERM_STATE_RANGED n u = 0 ∧ t.get F.PON_TERM_STATE_LOSI n u = 0
        ∧ t.get F.PON_TERM_VID_VID n u = c.vid ∧ t.get F.PON_TERM_VSSN_VSSN n u = c.vssn ∧ t.get F.PON_TERM_EQD_EQD n u = c.eqd
        ∧ t.get F.PON_TERM_EQD_AVG n u = 0)
    ∧ Does e (.tmdeact e d a b) [a] 10 (fun s => names s ∧ awake s ∧ state s ≠ 0 ∧ ¬ switching s)
      (fun s => ((((s.zeroTerm n u).withdraw n u).tabTidy).modTree n (fun x =>
        { x with ploamTx := x.ploamTx.filter (fun m => m.1 ≠ u.val), ploamOwn := x.ploamOwn.filter (fun m => m.1 ≠ u.val), missRun := sput 0 x.missRun u.val 0, holdoff := x.holdoff.filter (fun v => v ≠ u.val) })).downFlush (64 + n.val) (some u.val))
    ∧ (∀ s : State, let t := s.zeroTerm n u
        t = { s with regs := t.regs } ∧ t.rd .PON_TERM_STATE n u = 0 ∧ t.rd .PON_TERM_VID n u = 0 ∧ t.rd .PON_TERM_VSSN n u = 0
        ∧ t.rd .PON_TERM_EQD n u = 0)
    ∧ FailsIf e (.tmdeact e d a b) [a] 10 (fun s => names s ∧ s.chip.trees ≤ n.val) .eabsent
    ∧ FailsIf e (.tmdeact e d a b) [a] 10 (fun s => names s ∧ awake s ∧ state s = 0) .estate
    ∧ Does e (.tmeqd e d a b) [a, b] 6 (fun s => names s ∧ awake s ∧ b' s ≤ limit s ∧ state s ≠ 0 ∧ ¬ switching s)
      (fun s => (((((s.set F.PON_TERM_STATE_STATE 2 n u).set F.PON_TERM_STATE_RANGED 0 n u).set F.PON_TERM_STATE_LOSI 0 n u).wr .PON_TERM_EQD
        (BitVec.ofNat 36 (b' s)) n u).dropOwn n u).modTree n (fun x =>
          { x with missRun := sput 0 x.missRun u.val 0, holdoff := u.val :: x.holdoff.filter (fun v => v ≠ u.val) }))
    ∧ FailsIf e (.tmeqd e d a b) [a, b] 6 (fun s => names s ∧ s.chip.trees ≤ n.val) .eabsent
    ∧ FailsIf e (.tmeqd e d a b) [a, b] 6 (fun s => names s ∧ n.val < s.chip.trees ∧ limit s < b' s) .erange
    ∧ FailsIf e (.tmeqd e d a b) [a, b] 6 (fun s => names s ∧ awake s ∧ b' s ≤ limit s ∧ state s = 0) .estate

/-- R205, R243, R275, R280, R286: PLSEND queues the ten words at b as a downstream message of a terminal that is not FREE, 64 at
most; PLRECV takes the oldest upstream message of a tree, writes its fourteen words at b and answers its terminal, or Z where
none waits (d is then a free value). -/
def Obligations.PloamInstructions : Prop :=
  ∀ (e : Eng) (d a b : RegNo) (n : Fin 64) (u : Fin 256),
    let names := fun s : State => (s.reg e a).toNat = n.val * 256 + u.val
    let awake := fun s : State => n.val < s.chip.trees ∧ s.domainState (1 + n.val / 8) = 3 ∧ s.domainState (9 + n.val / 8) = 3
    let b' := fun s : State => (s.reg e b).toNat
    let words := fun s : State => (List.range' (b' s) 10).map (s.mem e)
    let readable := fun s : State => b' s + 10 ≤ engMemWords e ∧ (s.eng e).memPending (b' s) 10 = false ∧ (s.eng e).badIn (b' s) 10 = false
    let clear := fun s : State => ∀ w, w ∈ words s → wbits w 35 32 = 0
    let bytes := fun s : State => ((words s).map (fun w => beBytes 4 (wbits w 31 0))).flatten
    let able := fun s : State => s.get F.PON_TERM_STATE_STATE n u ≠ 0 ∧ (s.ploamKey n u).isSome = true
    let switching := fun s : State => s.get F.PON_PROT_STATUS_STATE n = 2
    let tree := fun s : State => (s.reg e a).toNat = n.val
    let room := fun s : State => engStorable e (b' s) 14 = true ∧ (s.eng e).memPending (b' s) 14 = false
    Does e (.plsend e d a b) [a, b] 12 (fun s => names s ∧ awake s ∧ readable s ∧ clear s ∧ able s ∧ ¬ switching s ∧ (s.tr n).ploamTx.length < 64)
      (fun s => s.modTree n (fun x => { x with ploamTx := x.ploamTx ++ [(u.val, bytes s)] }))
    ∧ FailsIf e (.plsend e d a b) [a, b] 12 (fun s => names s ∧ s.chip.trees ≤ n.val) .eabsent
    ∧ FailsIf e (.plsend e d a b) [a, b] 12 (fun s => names s ∧ awake s ∧ readable s ∧ ¬ clear s) .erange
    ∧ FailsIf e (.plsend e d a b) [a, b] 12 (fun s => names s ∧ awake s ∧ readable s ∧ clear s ∧ ¬ able s) .estate
    ∧ FailsIf e (.plsend e d a b) [a, b] 12 (fun s => names s ∧ awake s ∧ readable s ∧ clear s ∧ able s ∧ ¬ switching s
        ∧ 64 ≤ (s.tr n).ploamTx.length) .efull
    ∧ (∀ s m rest, s.takes e (.plrecv e d a b) [d, a, b] 10 = true → tree s → awake s → room s → (s.tr n).ploamRx = m :: rest →
        ∃ t, exec (.plrecv e d a b) s = .next t
          ∧ RegInstr ((s.modTree n (fun x => { x with ploamRx := rest })).storeRange e (b' s)
              ((List.range' 0 12).map (fun k => BitVec.ofNat 36 (beNat ((m.bytes.drop (4 * k)).take 4))) ++ [m.w12, m.w13])) t e d
          ∧ t.reg e d = (if d = 0 then 0 else BitVec.ofNat 36 m.term) ∧ (t.eng e).fz = false)
    ∧ (∀ s, s.takes e (.plrecv e d a b) [d, a, b] 10 = true → tree s → awake s → room s → (s.tr n).ploamRx = [] →
        ∃ t, exec (.plrecv e d a b) s = .next t ∧ RegInstr { s with free := s.free + 1 } t e d ∧ (t.eng e).fz = true)
    ∧ FailsIf e (.plrecv e d a b) [d, a, b] 10 (fun s => tree s ∧ s.chip.trees ≤ n.val) .eabsent
    ∧ FailsIf e (.plrecv e d a b) [d, a, b] 10 (fun s => 64 ≤ (s.reg e a).toNat ∨ (tree s ∧ n.val < s.chip.trees ∧ engStorable e (b' s) 14 = false)) .erange

/-- R205, R431, R434, R441 to R443: KLOAD puts the key of a nine-word image into a slot, whole or one half of a pair; KCLR empties
a slot; CVAL writes the tag of its message, with a nonce the device never repeats for GMAC, or compares it, and answers the
status word; EPOCH is written once. What each completes with otherwise. -/
def Obligations.KeyInstructions : Prop :=
  ∀ (e : Eng) (d a b : RegNo),
    let k := fun s : State => (s.reg e a).toNat
    let words := fun s : State => (List.range' (s.reg e b).toNat 9).map (s.mem e)
    let readable := fun s : State => (s.reg e b).toNat + 9 ≤ engMemWords e ∧ (s.eng e).memPending (s.reg e b).toNat 9 = false
      ∧ (s.eng e).badIn (s.reg e b).toNat 9 = false
    let clear := fun s : State => ef (words s) 0 31 0 = 0 ∧ ∀ i : Fin 8, ef (words s) (1 + i.val) 35 32 = 0
    let unused := fun (s : State) (j : Nat) => ∀ i : Fin 4, nth 0 (words s) (j + i.val) = 0
    let is := fun (s : State) (kind part : Nat) => k s < 32768 ∧ readable s ∧ clear s ∧ ef (words s) 0 35 34 = kind ∧ ef (words s) 0 33 32 = part
    let half := fun (s : State) (j : Nat) => keyOf (words s) j
    let load := fun (P : State → Prop) (x : State → KeySlot) => Does e (.kload e d a b) [a, b] 10 P (fun s => s.setSlot (k s) (x s))
    let block := fun s : State => (List.range' (k s) 10).map (s.mem e)
    let req := fun s : State => cvalReq (block s)
    let reads := fun s : State => k s + 10 ≤ engMemWords e ∧ (s.eng e).memPending (k s) 10 = false ∧ (s.eng e).badIn (k s) 10 = false
    let legal := fun s : State => reads s ∧ cvalRange e (block s) = true ∧ ((req s).verify = true ∨ engStorable e (k s) 10 = true)
    let message := fun s : State => (s.eng e).memPending (req s).addr (req s).words = false ∧ (s.eng e).badIn (req s).addr (req s).words = false
    let fresh := fun s : State => (req s).gmac = true → (req s).verify = false →
      s.get F.CIP_NONCE_EPOCH_SET = 1 ∧ s.get F.CIP_NONCE_CNT_COUNT ≠ 0xFFFFFFFF
    let msg := fun s : State => (wordBytes ((List.range' (req s).addr (req s).words).map (s.mem e))).take (req s).len
    let nonce := fun s : State => if (req s).verify = true then ((block s).drop 7).take 3 else s.nonceWords
    let tag := fun (s : State) (key : List Nat) => if (req s).gmac = true then gmac key (wordBytes (nonce s)) (msg s) else cmac key (msg s)
    let equal := fun (s : State) (key : List Nat) => (wordBytes (((block s).drop 3).take 4)).take (req s).tlen = (tag s key).take (req s).tlen
    load (fun s => is s 0 0 ∧ unused s 5) (fun s => .k128 (half s 1))
    ∧ load (fun s => is s 1 0) (fun s => .k256 (half s 1 ++ half s 5))
    ∧ load (fun s => is s 2 3) (fun s => .pair (half s 1) (half s 5))
    ∧ (∀ k0 k1, load (fun s => is s 2 1 ∧ unused s 5 ∧ s.slot (k s) = .pair k0 k1) (fun s => .pair (half s 1) k1)
      ∧ load (fun s => is s 2 2 ∧ unused s 1 ∧ s.slot (k s) = .pair k0 k1) (fun s => .pair k0 (half s 5)))
    ∧ FailsIf e (.kload e d a b) [a, b] 10 (fun s => 32768 ≤ k s ∨ (readable s ∧ (¬ clear s ∨ ef (words s) 0 35 34 = 3
        ∨ (ef (words s) 0 35 34 < 2 ∧ ef (words s) 0 33 32 ≠ 0) ∨ (ef (words s) 0 35 34 = 2 ∧ ef (words s) 0 33 32 = 0)
        ∨ (ef (words s) 0 35 34 = 0 ∧ ¬ unused s 5) ∨ (ef (words s) 0 35 34 = 2 ∧ ef (words s) 0 33 32 = 1 ∧ ¬ unused s 5)
        ∨ (ef (words s) 0 35 34 = 2 ∧ ef (words s) 0 33 32 = 2 ∧ ¬ unused s 1)
        ∨ (ef (words s) 0 35 34 = 2 ∧ ef (words s) 0 33 32 < 3 ∧ ∀ k0 k1, s.slot (k s) ≠ .pair k0 k1)))) .erange
    ∧ Does e (.kclr e d a b) [a] 4 (fun s => k s < 32768) (fun s => s.setSlot (k s) .empty)
    ∧ FailsIf e (.kclr e d a b) [a] 4 (fun s => 32768 ≤ k s) .erange
    ∧ (∀ s key, s.takes e (.cval e d a b) [d, a] 16 = true → legal s → message s → (s.slot (req s).slot).bytes = some key → fresh s →
        ((req s).verify = false → ∃ t, exec (.cval e d a b) s = .next t
          ∧ RegInstr ((if (req s).gmac = true then s.set F.CIP_NONCE_CNT_COUNT (s.get F.CIP_NONCE_CNT_COUNT + 1) else s).storeRange e (k s + 3)
              (tagWords (tag s key) (req s).tlen ++ (if (req s).gmac = true then s.nonceWords else []))) t e d
          ∧ t.reg e d = (if d = 0 then 0 else cvalStatus (req s) .ok))
        ∧ ((req s).verify = true → equal s key → ∃ t, exec (.cval e d a b) s = .next t ∧ RegInstr s t e d
          ∧ t.reg e d = (if d = 0 then 0 else cvalStatus (req s) .ok))
        ∧ ((req s).verify = true → ¬ equal s key → ∃ t, exec (.cval e d a b) s = .next t
          ∧ Failed (s.setReg e d (cvalStatus (req s) .eauth)) t e .eauth))
    ∧ FailsIf e (.cval e d a b) [d, a] 16 (fun s => engMemWords e < k s + 10
        ∨ (reads s ∧ (cvalRange e (block s) = false ∨ ((req s).verify = false ∧ engStorable e (k s) 10 = false)))) .erange
    ∧ FailsIf e (.cval e d a b) [d, a] 16 (fun s => legal s ∧ message s ∧ ((s.slot (req s).slot).bytes = none ∨ ¬ fresh s)) .estate
    ∧ (∀ (s : State) (v : Word), WriteReaches s ⟨.CIP_NONCE_EPOCH, 0, 0, 0⟩ v →
        (s.get F.CIP_NONCE_EPOCH_SET = 0 → ∃ t, exec (.cipNonceEpoch v) s = .next t ∧ t = { s with regs := t.regs }
          ∧ t.get F.CIP_NONCE_EPOCH_SET = 1 ∧ t.get F.CIP_NONCE_EPOCH_EPOCH = fv v F.CIP_NONCE_EPOCH_EPOCH
          ∧ RegsBut s t (fun o => o = Reg.offset ⟨.CIP_NONCE_EPOCH, 0, 0, 0⟩))
        ∧ (s.get F.CIP_NONCE_EPOCH_SET = 1 → ∃ t, exec (.cipNonceEpoch v) s = .next t ∧ Rejected s t F.CIP_STATUS_ERR 0 .estate))

/-- R206, R531, R532, R534: SENSE answers a sensor's or a monitor's register; LOGW appends the firmware's record to the event
log; FLASH reads words of flash, programs up to 32 words within a page, which clears bits alone, or erases a sector, none of
it in the directory. A flash that does not respond ends it with ETIMEOUT, and what it was to change is then free. -/
def Obligations.PlinthInstructions : Prop :=
  ∀ (e : Eng) (d a b : RegNo) (responds : Bool),
    let i := fun s : State => (s.reg e a).toNat
    let words := fun (s : State) (n : Nat) => (List.range' (i s) n).map (s.mem e)
    let readable := fun (s : State) (x n : Nat) => x + n ≤ engMemWords e ∧ (s.eng e).memPending x n = false ∧ (s.eng e).badIn x n = false
    let type := fun s : State => ef (words s 3) 0 11 0
    let op := fun s : State => ef (words s 4) 0 35 34
    let at_ := fun s : State => ef (words s 4) 0 23 0
    let mem := fun s : State => ef (words s 4) 1 17 0
    let len := fun s : State => ef (words s 4) 2 15 0
    let bad := fun s : State => op s = 3 ∨ ef (words s 4) 0 33 24 ≠ 0 ∨ ef (words s 4) 1 35 18 ≠ 0 ∨ ef (words s 4) 2 35 16 ≠ 0
      ∨ nth 0 (words s 4) 3 ≠ 0 ∨ (op s ≠ 0 ∧ at_ s < 0x2000) ∨ (op s = 1 ∧ (32 < len s ∨ 256 < at_ s % 256 + 8 * len s))
      ∨ (op s = 2 ∧ at_ s % 4096 ≠ 0) ∨ (op s ≠ 2 ∧ 2 ^ 24 < at_ s + 8 * len s)
    let data := fun s : State => flashBytes ((List.range' (mem s) (len s)).map (s.mem e))
    let flash := fun r : Bool => Instr.flash e d a b r
    (∀ s, s.takes e (.sense e d a b) [d, a] 3 = true → i s < 88 → ∃ t, exec (.sense e d a b) s = .next t ∧ RegInstr s t e d
        ∧ t.reg e d = (if d = 0 then 0 else if i s < 64 then s.rd .THERM_TEMP (i s) else s.rd .FLT_VMON (i s - 64)))
    ∧ FailsIf e (.sense e d a b) [d, a] 3 (fun s => 88 ≤ i s) .erange
    ∧ Does e (.logw e d a b) [a] 8 (fun s => readable s (i s) 3 ∧ 0x800 ≤ type s)
      (fun s => s.logRec (type s) 1 (nth 0 (words s 3) 1) (nth 0 (words s 3) 2))
    ∧ FailsIf e (.logw e d a b) [a] 8 (fun s => engMemWords e < i s + 3 ∨ (readable s (i s) 3 ∧ type s < 0x800)) .erange
    ∧ (∀ (s : State) (ty o : Nat) (p0 p1 : Word), s.chip.plinth = true → let t := s.logRec ty o p0 p1
        t.pln.log.getLast? = some { type := ty, origin := o, seq := s.pln.logSeq, seconds := s.seconds, nanos := s.nanos, p0 := p0, p1 := p1 }
        ∧ t.pln.logSeq = (s.pln.logSeq + 1) % 2 ^ 36 ∧ t.pln.log.length ≤ 768)
    ∧ Does e (flash responds) [a] 10 (fun s => readable s (i s) 4 ∧ ¬ bad s ∧ op s = 0 ∧ engStorable e (mem s) (len s) = true
        ∧ (s.eng e).memPending (mem s) (len s) = false)
      (fun s => { s.storeRange e (mem s) ((List.range' 0 (len s)).map (fun j => s.flashWord (at_ s + 8 * j))) with free := s.free + 2 ^ 24 })
    ∧ Does e (flash true) [a] 10 (fun s => readable s (i s) 4 ∧ ¬ bad s ∧ op s = 1 ∧ readable s (mem s) (len s))
      (fun s => { s with pln := s.pln.program (at_ s) (data s) })
    ∧ Does e (flash true) [a] 10 (fun s => readable s (i s) 4 ∧ ¬ bad s ∧ op s = 2) (fun s => { s with pln := s.pln.erase (at_ s) })
    ∧ (∀ s, s.takes e (flash false) [a] 10 = true → readable s (i s) 4 → ¬ bad s → op s ≠ 0 → (op s = 1 → readable s (mem s) (len s)) →
        ∃ t, exec (flash false) s = .next t
          ∧ Failed (s.openBytes (at_ s) (if op s = 1 then 8 * len s else 4096)) t e .etimeout)
    ∧ FailsIf e (flash responds) [a] 10 (fun s => engMemWords e < i s + 4 ∨ (readable s (i s) 4 ∧ bad s)) .erange
    ∧ (∀ (p : Pln) (x y : Nat) (bs : List Byte),
        (p.program x bs).byte y = (if x ≤ y ∧ y < x + bs.length then p.byte y &&& nth 0 bs (y - x) else p.byte y)
        ∧ (p.erase x).byte y = (if x ≤ y ∧ y < x + 4096 then 0xFF else p.byte y))
    ∧ (∀ (s : State) (x : Nat), 0x2000 ≤ x → ¬ (0x810000 ≤ x ∧ x < 0x910000) → s.flashWord x = BitVec.ofNat 36 (s.pln.slot x))

/-- R206, R529, R534, R537: UPDATE checks a slot's images and changes nothing, stages a slot that passes as the trial slot,
confirms the running trial slot as the active one, or revokes a key by an authentic record; each change is logged. What each
kind completes with otherwise. -/
def Obligations.UpdateInstruction : Prop :=
  ∀ (e : Eng) (d a b : RegNo) (i : Instr) (slot : Fin 2), i ∈ [.updateCheck e d a b, .updateStage e d a b, .updateConfirm e d a b, .updateRevoke e d a b] →
    let words := fun s : State => (List.range' (s.reg e a).toNat 4).map (s.mem e)
    let readable := fun s : State => (s.reg e a).toNat + 4 ≤ engMemWords e ∧ (s.eng e).memPending (s.reg e a).toNat 4 = false
      ∧ (s.eng e).badIn (s.reg e a).toNat 4 = false
    let legal := fun s : State => ef (words s) 0 31 1 = 0 ∧ ef (words s) 1 35 24 = 0 ∧ (ef (words s) 0 35 32 ≠ 3 → nth 0 (words s) 1 = 0)
      ∧ nth 0 (words s) 2 = 0 ∧ nth 0 (words s) 3 = 0
    let kind := fun (s : State) (n : Nat) => readable s ∧ legal s ∧ ef (words s) 0 35 32 = n ∧ (ef (words s) 0 0 0 = slot.val ∨ n = 2 ∨ n = 3)
    let check := fun s : State => s.chip.checkImages (s.pln.slotImages slot)
    let inUse := fun s : State => s.pln.dir.active = slot ∨ s.pln.runSlot = some slot
    let record := fun s : State => (s.pln.revocation (ef (words s) 1 23 0)).getD []
    let key := fun s : State => ef (record s) 1 1 0
    let by_ := fun s : State => ef (record s) 2 1 0
    let format := fun s : State => s.pln.revocation (ef (words s) 1 23 0) ≠ none ∧ rvFormat (record s) = true
    let allowed := fun s : State => by_ s ≠ key s ∧ s.chip.keyUsable (by_ s) = true ∧ s.chip.keyLeft (key s) = true
    Does e i [a] 20 (fun s => kind s 4 ∧ check s = .ok) (fun s => s)
    ∧ (∀ st, st ≠ .ok → FailsIf e i [a] 20 (fun s => kind s 4 ∧ check s = st) st)
    ∧ Does e i [a] 20 (fun s => kind s 1 ∧ check s = .ok ∧ ¬ inUse s)
      (fun s => ({ s with pln := s.pln.putDir s.pln.dir.active (some slot) } : State).logUpdate 1 (piVer ((s.pln.slotImages slot).plinth.getD [])))
    ∧ FailsIf e i [a] 20 (fun s => kind s 1 ∧ check s = .erange) .erange
    ∧ FailsIf e i [a] 20 (fun s => kind s 1 ∧ check s ≠ .erange ∧ inUse s) .estate
    ∧ FailsIf e i [a] 20 (fun s => kind s 1 ∧ check s = .eauth ∧ ¬ inUse s) .eauth
    ∧ Does e i [a] 20 (fun s => kind s 2 ∧ s.pln.runSlot = some slot ∧ s.get F.PLN_STATUS_STATE = 3)
      (fun s => (({ s with pln := s.pln.putDir slot none } : State).set F.PLN_STATUS_STATE 2).logUpdate 1 (s.get F.PLN_STATUS_FWVER))
    ∧ FailsIf e i [a] 20 (fun s => kind s 2 ∧ (s.pln.runSlot = none ∨ s.get F.PLN_STATUS_STATE ≠ 3)) .estate
    ∧ Does e i [a] 20 (fun s => kind s 3 ∧ format s ∧ allowed s ∧ s.chip.authentic (record s) (by_ s) = true)
      (fun s => ({ s with chip := { s.chip with keysRevoked := s.chip.keysRevoked ||| BitVec.ofNat 4 (2 ^ key s) } } : State).logUpdate 1
        (s.get F.PLN_STATUS_FWVER))
    ∧ FailsIf e i [a] 20 (fun s => kind s 3 ∧ ¬ format s) .erange
    ∧ FailsIf e i [a] 20 (fun s => kind s 3 ∧ format s ∧ ¬ allowed s) .estate
    ∧ FailsIf e i [a] 20 (fun s => kind s 3 ∧ format s ∧ allowed s ∧ s.chip.authentic (record s) (by_ s) = false) .eauth
    ∧ FailsIf e i [a] 20 (fun s => engMemWords e < (s.reg e a).toNat + 4
        ∨ (readable s ∧ (¬ legal s ∨ ef (words s) 0 35 32 = 0 ∨ 4 < ef (words s) 0 35 32))) .erange
    ∧ (∀ (p : Pln) (x : Fin 2) (trial : Option (Fin 2)),
        (p.putDir x trial).dir = { seq := p.dir.seq + 1, active := x, trial := trial, valid := true } ∧ (p.putDir x trial).flash = p.flash)

/-- R45, R65 to R68, R103, R118, R208, R521 to R524, R526, R528: a stalled stage, a lost supply and a corrected patch word each
write one record; a lost supply of the mortar core or of quoin 24, the key in FLT_CTRL and a SAFE_REQ_N held low for 100 ns
enter the safe state, and a low before POR_DONE waits for it; FLT_REC_SEL latches a record, which then counts as read. -/
def Obligations.FaultsAreRecorded : Prop :=
  ∀ (s : State) (stage : Nat) (q : Dom) (c : Fin 2) (m : Fin 64) (v : Word) (width : Nat),
    let n := domNo q
    let central := n = 0 ∨ n = 24
    let only (t : State) := t.pending = s.pending ∧ t.chip = s.chip ∧ t.dp = s.dp ∧ t.cmd = s.cmd ∧ t.map = s.map ∧ t.tree = s.tree ∧ t.tel = s.tel
    let failed (t : State) := t.domainState n = 5 ∧ (if n = 0 then t.get F.PWR_CORE_STATUS_FAILCAUSE else t.get F.QUOIN_STATUS_FAILCAUSE (n - 1)) = 4
    let age := fv v F.FLT_REC_SEL_AGE
    let pick := nth { w0 := 0, w1 := 0, w2 := 0, w3 := 0, w4 := 0, read := false } s.flt.ring age
    (s.domainState 0 = 3 → stage ∉ s.boot.stalledStages → ∃ t, exec (.stageStall stage) s = .next t
        ∧ Recorded s t 0x00 0x1C stage .device 0 0 0 ∧ only t ∧ t.boot = { s.boot with stalledStages := s.boot.stalledStages ++ [stage] }
        ∧ RegsBut s t faultRegs)
    ∧ (s.domainState 0 ≠ 3 ∨ stage ∈ s.boot.stalledStages → exec (.stageStall stage) s = .next s)
    ∧ (s.boot.inReset = false → s.domainState n = 3 → ¬ central → ∃ t, exec (.supplyLost q) s = .next t ∧ failed t
        ∧ Recorded s t 0x32 0x16 n .device 0 0 4 ∧ only t ∧ t.boot = s.boot
        ∧ RegsBut s t (fun o => faultRegs o ∨ o = Reg.offset ⟨.QUOIN_STATUS, n - 1, 0, 0⟩))
    ∧ (s.boot.inReset = false → s.domainState n = 3 → central → s.safe = false → ∃ t, exec (.supplyLost q) s = .next t ∧ EntersSafe s t)
    ∧ (s.boot.inReset = true ∨ s.domainState n ≠ 3 → exec (.supplyLost q) s = .next s)
    ∧ (∃ t addr, exec (.patchScrub (.cmd c) true) s = .next t ∧ 0x2000 ≤ addr ∧ addr < 0x2400 ∧ t.get F.CMD_ENG_STATUS_CSCE c = 1
        ∧ Recorded s t 0x26 0x01 addr (.cmd c) 7 0 0 ∧ only t
        ∧ RegsBut s t (fun o => faultRegs o ∨ o = Reg.offset ⟨.CMD_ENG_STATUS, c, 0, 0⟩))
    ∧ (m.val < s.chip.trees → ∃ t addr, exec (.patchScrub (.map m) true) s = .next t ∧ 0x2000 ≤ addr ∧ addr < 0x2400
        ∧ t.get F.MAP_ENG_STATUS_CSCE m = 1 ∧ Recorded s t 0x26 0x01 addr (.map m) 7 0 0 ∧ only t
        ∧ RegsBut s t (fun o => faultRegs o ∨ o = Reg.offset ⟨.MAP_ENG_STATUS, m, 0, 0⟩))
    ∧ (∀ e, exec (.patchScrub e false) s = .next s)
    ∧ (WriteReaches s ⟨.FLT_CTRL, 0, 0, 0⟩ v →
        (fv v F.FLT_CTRL_SAFEKEY = 0x3C5A → s.safe = false → ∃ t, exec (.safekey v) s = .next t ∧ EntersSafe s t)
        ∧ (fv v F.FLT_CTRL_SAFEKEY ≠ 0x3C5A → exec (.safekey v) s = .next s))
    ∧ (s.boot.inReset = false → 100 ≤ width → s.boot.porDone = true → s.safe = false → ∃ t, exec (.safeReqN width) s = .next t ∧ EntersSafe s t)
    ∧ (s.boot.inReset = false → 100 ≤ width → s.boot.porDone = false → ∃ t, exec (.safeReqN width) s = .next t ∧ t.boot.safeReqLow = true
        ∧ t = { s with free := t.free, boot := { s.boot with safeReqLow := true } })
    ∧ (width < 20 → ∃ t, exec (.safeReqN width) s = .next t ∧ t = { s with free := t.free })
    ∧ (WriteReaches s ⟨.FLT_REC_SEL, 0, 0, 0⟩ v →
        (age < s.flt.ring.length → ∃ t, exec (.fltRecSel v) s = .next t ∧ t.rd .FLT_REC 0 = pick.w0 ∧ t.rd .FLT_REC 1 = pick.w1
          ∧ t.rd .FLT_REC 2 = pick.w2 ∧ t.rd .FLT_REC 3 = pick.w3 ∧ t.rd .FLT_REC 4 = pick.w4
          ∧ t.flt.ring = setNth { pick with read := true } s.flt.ring age ∧ t = { s with regs := t.regs, flt := t.flt })
        ∧ (s.flt.ring.length ≤ age → ∃ t, exec (.fltRecSel v) s = .next t ∧ (∀ i : Fin 5, t.rd .FLT_REC i = 0)
          ∧ t = { s with regs := t.regs }))

/-- R118 to R124, R221: a domain that reports READY in time becomes READY with WAKESTAT OK, and every engine that waited for it
goes on; one that does not becomes FAILED with its cause and WAKESTAT EWAKE, writes one record that names who started the wake,
or enters the safe state for the mortar core and quoin 24, and no engine waits for it any longer. -/
def Obligations.DomainsWakeOrFail : Prop :=
  ∀ (s : State) (q : Dom) (cause : FailCause) (who : Who),
    let n := domNo q
    let central := n = 0 ∨ n = 24
    let wakestat (t : State) := if n = 0 then t.get F.PWR_CORE_STATUS_WAKESTAT else t.get F.QUOIN_STATUS_WAKESTAT (n - 1)
    let failcause (t : State) := if n = 0 then t.get F.PWR_CORE_STATUS_FAILCAUSE else t.get F.QUOIN_STATUS_FAILCAUSE (n - 1)
    let waits (t : State) (e : Eng) := ∃ qs, (t.eng e).stall = .wake qs ∧ n ∈ qs
    let waking := s.domainState n = 2 ∧ (s.host.waker.find? (fun e => e.1 = n)).map (fun e => e.2) = some who ∧ s.host.waiting = []
    let code := match cause with | .supply => 1 | .clock => 2 | .saved => 3
    let detail := match who with | .packet p => p | _ => code
    (waking → n ∉ s.pwr.savedBad → sget [] s.pwr.saved n = [] → ∃ t, exec (.wakeComplete q) s = .next t ∧ t.domainState n = 3
        ∧ wakestat t = Status.ok.code ∧ (∀ e, ¬ waits t e) ∧ t.host.waker = serase s.host.waker n ∧ n ∉ t.pwr.rested
        ∧ t.dp = s.dp ∧ t.tree = s.tree ∧ t.boot = s.boot ∧ t.flt = s.flt ∧ t.pending = s.pending)
    ∧ (waking → n ∈ s.pwr.savedBad → ∃ t, exec (.wakeComplete q) s = .next t ∧ t.domainState n = 5 ∧ failcause t = 3
        ∧ wakestat t = Status.ewake.code ∧ t.host.waker = serase s.host.waker n)
    ∧ (waking → cause ≠ .saved → ∃ t, exec (.wakeFail q cause) s = .next t ∧ t.domainState n = 5 ∧ failcause t = code
        ∧ wakestat t = Status.ewake.code ∧ t.host.waker = serase s.host.waker n
        ∧ (¬ central → Recorded s t n 0x15 n who 4 Status.ewake.code detail ∧ t.dp = s.dp ∧ t.boot = s.boot)
        ∧ (central → t.safe = true))
    ∧ (waking → cause = .saved → ∃ t, exec (.wakeFail q cause) s = .next t ∧ t.domainState n = 5 ∧ failcause t = 3
        ∧ wakestat t = Status.ewake.code ∧ t.get F.PWR_SLEEP_STATUS_SAVEBAD = 1)
    ∧ (s.domainState n ≠ 2 ∨ s.host.waker.find? (fun e => e.1 = n) = none →
        exec (.wakeComplete q) s = .next s ∧ exec (.wakeFail q cause) s = .next s)

/-- R511 to R513, R515 to R517: an idle quoin dozes while DOZEEN is 1 and the device is READY; a Rest request turns off every quoin that
qualifies; a Deep request begins the entry, which shuts the blocks; DEEP_SAVE ends it with the supplies gone and the time base
handed over, and DEEP_WAKE begins the phases again with the always-on state kept. What a wake clears besides is the model's
(log 111). -/
def Obligations.SleepStates : Prop :=
  ∀ (s : State) (q : Fin 25) (v : Word),
    let n := q.val + 1
    let dozes := s.get F.PWR_SLEEP_CTRL_DOZEEN = 1 ∧ n ≤ 22 ∧ s.domainState n = 3 ∧ s.idleQuoin n = true ∧ s.get F.BOOT_STATUS_READY = 1
    let rest := fv v F.PWR_SLEEP_CTRL_REST = 1
    let deep := fv v F.PWR_SLEEP_CTRL_DEEP = 1
    let u := s.plainWrite ⟨.PWR_SLEEP_CTRL, 0, 0, 0⟩ v
    (dozes → ∃ t, exec (.doze q) s = .next t ∧ t.domainState n = 4 ∧ (∀ m, m ≠ n → m < 26 → t.domainState m = s.domainState m)
        ∧ t.dp = s.dp ∧ t.tree = s.tree ∧ t.cmd = s.cmd ∧ t.map = s.map ∧ t.pwr = s.pwr ∧ t.pending = s.pending)
    ∧ (¬ dozes → exec (.doze q) s = .next s)
    ∧ (WriteReaches s ⟨.PWR_SLEEP_CTRL, 0, 0, 0⟩ v → rest → ¬ deep → s.safe = false → s.pwr.deep ≠ 1 →
        ∃ t, exec (.rest v) s = .next t ∧ t.get F.PWR_SLEEP_STATUS_LASTREQ = Status.ok.code
          ∧ (∀ m, 1 ≤ m → m ≤ 22 → u.restsNow m = true → t.domainState m = 1 ∧ m ∈ t.pwr.rested)
          ∧ (∀ m, m < 26 → (m < 1 ∨ 22 < m ∨ u.restsNow m = false) → t.domainState m = s.domainState m)
          ∧ t.cmd = s.cmd ∧ t.boot = s.boot ∧ t.pending = s.pending)
    ∧ (WriteReaches s ⟨.PWR_SLEEP_CTRL, 0, 0, 0⟩ v → deep → ¬ rest → s.chip.plinth = true → s.safe = false → s.pwr.deep ≠ 1 →
        ∃ t, exec (.deep v) s = .next t ∧ t.pwr.deep = 1 ∧ t.sleepState = 3
          ∧ (∀ off, off / 0x100000 ≠ 0 → off / 0x100000 ≠ 13 → off / 0x100000 ≠ 14 → t.deepShut off = true))
    ∧ (s.pwr.deep = 1 → ∃ t, exec .deepSave s = .next t ∧ t.pwr.deep = 2 ∧ t.clk.running = false ∧ t.pln.deepRdy = true
        ∧ t.boot.linkTraining = false ∧ (∀ m, m < 25 → t.domainState m = 0 ∨ t.domainState m = 1 ∨ t.domainState m = 5))
    ∧ (s.pwr.deep ≠ 1 → exec .deepSave s = .next s)
    ∧ (s.pwr.deep = 2 → ∃ t, exec .deepWake s = .next t ∧ t.pwr.deep = 3 ∧ t.slots = s.slots ∧ t.flt = s.flt
        ∧ t.pwr.saved = s.pwr.saved ∧ t.tim.aonTb = s.tim.aonTb ∧ t.chip = s.chip ∧ t.pending = s.pending)
    ∧ (s.pwr.deep ≠ 2 → exec .deepWake s = .next s)

/-- R514: a Rest or Deep request while the device is ENTERING, or in the safe state, is rejected with ESTATE, and a Deep request
without a plinth with EABSENT. -/
def Obligations.SleepRequestsRejected : Prop :=
  ∀ (s : State) (v : Word), WriteReaches s ⟨.PWR_SLEEP_CTRL, 0, 0, 0⟩ v →
    let rest := fv v F.PWR_SLEEP_CTRL_REST = 1
    let deep := fv v F.PWR_SLEEP_CTRL_DEEP = 1
    (deep → s.chip.plinth = false → ∃ t, exec (.deep v) s = .next t ∧ Rejected s t F.PWR_SLEEP_STATUS_ERR 0 .eabsent)
    ∧ (deep → s.chip.plinth = true → s.safe = true ∨ s.pwr.deep = 1 →
        ∃ t, exec (.deep v) s = .next t ∧ Rejected s t F.PWR_SLEEP_STATUS_ERR 0 .estate)
    ∧ (rest → deep → s.chip.plinth = false → ∃ t, exec (.rest v) s = .next t ∧ Rejected s t F.PWR_SLEEP_STATUS_ERR 0 .eabsent)
    ∧ (rest → ¬ deep ∨ s.chip.plinth = true → s.safe = true ∨ s.pwr.deep = 1 →
        ∃ t, exec (.rest v) s = .next t ∧ Rejected s t F.PWR_SLEEP_STATUS_ERR 0 .estate)

/-- R93 to R97, R507, R531: an update stores the readings of the sensors and shows the throttle: entered where a working sensor of
0 to 55 reads 100 °C and none 115 °C, left where all read 97 °C or less; one that newly reads 115 °C sets TRIP and enters the
safe state. A monitor's update stores its reading, or OFF where its rail is off. Before POR_DONE neither has an effect. -/
def Obligations.SensorsAndMonitors : Prop :=
  ∀ (s : State) (temps mvs : List (Option (BitVec 12))),
    let up := s.boot.inReset = false ∧ s.boot.porDone = true
    let hot (t : State) (d : Nat) (i : Nat) := i < 56 ∧ t.works i = true ∧ 8 * (d : Int) ≤ t.temp i
    (up → ∃ t, exec (.sensorUpdate temps) s = .next t
        ∧ (∀ (i : Nat) (v : BitVec 12), i < 64 → temps[i]? = some (some v) → t.get F.THERM_TEMP_TEMP i = v.toNat)
        ∧ ((∃ i, hot t 115 i) → t.get F.THERM_SUMMARY_TRIP = 1)
        ∧ ((∃ i, hot t 115 i ∧ s.temp i < 8 * 115) → t.safe = true)
        ∧ (s.get F.THERM_SUMMARY_THROTTLE = 0 → (∃ i, hot t 100 i) → (∀ i, ¬ hot t 115 i) → t.get F.THERM_SUMMARY_THROTTLE = 1)
        ∧ (s.get F.THERM_SUMMARY_THROTTLE = 0 → (∀ i, ¬ hot t 100 i) → t.get F.THERM_SUMMARY_THROTTLE = 0)
        ∧ (s.get F.THERM_SUMMARY_THROTTLE = 1 → (∀ i, i < 56 → t.works i = true → t.temp i ≤ 8 * 97) → t.get F.THERM_SUMMARY_THROTTLE = 0)
        ∧ t.pending = s.pending ∧ t.tree = s.tree ∧ t.slots = s.slots ∧ t.tim = s.tim)
    ∧ (up → ∃ t, exec (.vmonUpdate mvs) s = .next t
        ∧ (∀ (i : Nat) (v : BitVec 12), i < 24 → mvs[i]? = some (some v) → t.get F.FLT_VMON_MV i = v.toNat ∧ t.get F.FLT_VMON_OFF i = 0)
        ∧ (∀ i : Nat, i < 24 → mvs[i]? = some none → t.get F.FLT_VMON_OFF i = 1)
        ∧ t.pending = s.pending ∧ t.tree = s.tree ∧ t.dp = s.dp ∧ t.pwr = s.pwr ∧ t.cmd = s.cmd ∧ t.map = s.map)
    ∧ (¬ up → exec (.sensorUpdate temps) s = .next s ∧ exec (.vmonUpdate mvs) s = .next s)

/-- R94, R501 to R508: VDD_CORE moves by one set-point frame at a time, the level in force once it has settled; the throttle adds
one step down, the thermal level moves by one between 0 and 7; EN starts the governor or starts the return to PL0, and a new
budget clears the debt; values out of range are rejected with ERANGE, EN without the regulator's interface with ESTATE. -/
def Obligations.GovernorCommands : Prop :=
  ∀ (s : State) (l : Nat) (ls : List Nat) (v : Word),
    let bad := fv v F.PWR_GOV_CTRL_CEIL < 40 ∨ 125 < fv v F.PWR_GOV_CTRL_CEIL ∨ fv v F.PWR_GOV_CTRL_DOWNHOLD = 0 ∨ fv v F.PWR_GOV_CTRL_CPKT < 64
    let en := fv v F.PWR_GOV_CTRL_EN = 1
    let was := s.get F.PWR_GOV_CTRL_EN = 1
    (s.pwr.plan = l :: ls → s.pwr.moving = none → ∃ t, exec .vddStep s = .next t
        ∧ t.outs = s.outs ++ [.vddFrame (s.get F.PWR_VREG_PHYAD) (s.get F.PWR_VREG_REGAD) (s.get F.PWR_VID_VID l)]
        ∧ t.get F.PWR_GOV_STATUS_MOVING = 1 ∧ t.get F.PWR_GOV_STATUS_LEVEL = s.get F.PWR_GOV_STATUS_LEVEL
        ∧ t.pwr = { s.pwr with plan := ls, moving := some l } ∧ t = { s with regs := t.regs, outs := t.outs, pwr := t.pwr })
    ∧ (s.pwr.plan = [] ∨ s.pwr.moving ≠ none → exec .vddStep s = .next s)
    ∧ (l < 8 → s.pwr.moving = some l → ∃ t, exec .vddCoreSettled s = .next t ∧ t.get F.PWR_GOV_STATUS_LEVEL = l
        ∧ t.get F.PWR_GOV_STATUS_MOVING = 0 ∧ t.pwr = { s.pwr with moving := none } ∧ t = { s with regs := t.regs, pwr := t.pwr })
    ∧ (s.pwr.moving = none → exec .vddCoreSettled s = .next s)
    ∧ (s.get F.THERM_SUMMARY_THROTTLE = 1 → s.pwr.over100 = true → s.safe = false → s.pwr.plan = [] → 0 < s.askedLevel →
        ∃ t, exec .throttleStep s = .next t ∧ t.pwr = { s.pwr with plan := [s.askedLevel - 1] } ∧ t = { s with pwr := t.pwr })
    ∧ (s.get F.THERM_SUMMARY_THROTTLE = 0 ∨ s.pwr.over100 = false ∨ s.safe = true → exec .throttleStep s = .next s)
    ∧ (s.pwr.ceilHot = true → ∃ t, exec .ltStep s = .next t ∧ t.pwr.lt = s.pwr.lt - 1 ∧ t = { s with pwr := t.pwr })
    ∧ (s.pwr.ceilHot = false → s.pwr.ceilCool = true → ∃ t, exec .ltStep s = .next t ∧ t.pwr.lt = min 7 (s.pwr.lt + 1) ∧ t = { s with pwr := t.pwr })
    ∧ (s.pwr.ceilHot = false → s.pwr.ceilCool = false → exec .ltStep s = .next s)
    ∧ (WriteReaches s ⟨.PWR_GOV_CTRL, 0, 0, 0⟩ v →
        (bad → ∃ t, exec (.pwrGovEn v) s = .next t ∧ Rejected s t F.PWR_SLEEP_STATUS_ERR 0 .erange)
        ∧ (¬ bad → en → s.get F.PWR_VREG_EN = 0 → ∃ t, exec (.pwrGovEn v) s = .next t ∧ Rejected s t F.PWR_SLEEP_STATUS_ERR 0 .estate)
        ∧ (¬ bad → en → s.get F.PWR_VREG_EN = 1 → ∃ t, exec (.pwrGovEn v) s = .next t ∧ t.get F.PWR_GOV_CTRL_EN = 1
            ∧ t.get F.PWR_GOV_CTRL_CEIL = fv v F.PWR_GOV_CTRL_CEIL ∧ t.pwr = { s.pwr with returning := false } ∧ t = { s with regs := t.regs, pwr := t.pwr })
        ∧ (¬ bad → ¬ en → was → ∃ t, exec (.pwrGovEn v) s = .next t ∧ t.get F.PWR_GOV_CTRL_EN = 0
            ∧ t.pwr = { s.pwr with returning := true, plan := [] } ∧ t = { s with regs := t.regs, pwr := t.pwr }))
    ∧ (WriteReaches s ⟨.PWR_BUDGET, 0, 0, 0⟩ v →
        (fv v F.PWR_BUDGET_WATTS = 0 → ∃ t, exec (.watts v) s = .next t ∧ Rejected s t F.PWR_SLEEP_STATUS_ERR 0 .erange)
        ∧ (fv v F.PWR_BUDGET_WATTS ≠ 0 → ∃ t, exec (.watts v) s = .next t ∧ t.get F.PWR_BUDGET_WATTS = fv v F.PWR_BUDGET_WATTS
            ∧ t.pwr = { s.pwr with debt := 0 } ∧ t = { s with regs := t.regs, pwr := t.pwr }))

/-- R535, R537: a host message is posted where none waits, no reply stands and the plinth is READY, and is rejected with ESTATE else;
ACK releases a reply. Each mailbox command answers with its status and words, HREQ 0 and PRSP 1; RESET with its key is a full
reset; a command the plinth does not know is answered with EILLEGAL, and a row finds no effect where no message waits. What the
INFO and IMGWRITE words hold is the model's reading (log 125). -/
def Obligations.MailboxCommands : Prop :=
  ∀ (s : State) (v : Word) (ok : Bool),
    let posted (cmd need : Nat) := s.plinthUp = true ∧ s.get F.PLN_MBOX_CTRL_HREQ = 1 ∧ s.msgCmd = cmd ∧ need ≤ s.msgLen ∧ wbits (s.msg 0) 19 6 = 0
    let answers (t : State) (st : Status) (ws : List Word) := t.get F.PLN_MBOX_CTRL_HREQ = 0 ∧ t.get F.PLN_MBOX_CTRL_PRSP = 1
      ∧ t.rd .PLN_MBOX_P2H 0 = BitVec.ofNat 36 (s.msgCmd * 2 ^ 28 + wbits (s.msg 0) 27 20 * 2 ^ 20 + st.code * 2 ^ 12 + ws.length % 64)
      ∧ (∀ i : Fin 63, t.rd .PLN_MBOX_P2H (i.val + 1) = nth 0 ws i) ∧ t.dp = s.dp ∧ t.cmd = s.cmd ∧ t.map = s.map ∧ t.tree = s.tree ∧ t.pending = s.pending
    let simple (i : Instr) (cmd need : Nat) (st : Status) (ws : List Word) := posted cmd need → ∃ t, exec i s = .next t ∧ answers t st ws
        ∧ t.boot = s.boot ∧ t.pln = s.pln ∧ t.flt = s.flt
    let first := (s.msg 1).toNat
    let target := wbits (s.msg 1) 35 34
    (WriteReaches s ⟨.PLN_MBOX_CTRL, 0, 0, 0⟩ v →
        let free := s.get F.PLN_MBOX_CTRL_HREQ = 0 ∧ s.get F.PLN_MBOX_CTRL_PRSP = 0 ∧ s.get F.PLN_MBOX_CTRL_READY = 1
        (fv v F.PLN_MBOX_CTRL_HREQ = 1 → free → ∃ t, exec (.hreq v) s = .next t ∧ t.get F.PLN_MBOX_CTRL_HREQ = 1 ∧ t = { s with regs := t.regs, pln := t.pln }
            ∧ t.pln = { s.pln with events := t.pln.events })
        ∧ (fv v F.PLN_MBOX_CTRL_HREQ = 1 → ¬ free → ∃ t, exec (.hreq v) s = .next t ∧ Rejected s t F.FLT_STATUS_ERR 0 .estate)
        ∧ (fv v F.PLN_MBOX_CTRL_HREQ = 0 → fv v F.PLN_MBOX_CTRL_ACK = 1 → ∃ t, exec (.ack v) s = .next t ∧ t.get F.PLN_MBOX_CTRL_PRSP = 0
            ∧ t.get F.PLN_MBOX_CTRL_HREQ = s.get F.PLN_MBOX_CTRL_HREQ ∧ t = { s with regs := t.regs }))
    ∧ simple .info 0x01 0 .ok ([s.get F.PLN_STATUS_STATE, s.get F.PLN_STATUS_FWVER, s.chip.romver 0, s.chip.romver 64].map (BitVec.ofNat 36))
    ∧ simple .logread 0x02 1 .ok (((s.pln.log.filter (fun r => first ≤ r.seq)).take 10).map LogRec.words).flatten
    ∧ (first < 88 → simple .sensors 0x03 1 .ok ((range' first (min 60 (88 - first))).map s.senseWord))
    ∧ (88 ≤ first → simple .sensors 0x03 1 .erange [])
    ∧ (first < 0x800 ∨ 0xFFF < first → simple .logwrite 0x04 3 .erange [])
    ∧ (0x800 ≤ first → first ≤ 0xFFF → posted 0x04 3 → ∃ t r, exec .logwrite s = .next t ∧ answers t .ok [] ∧ t.pln.log.getLast? = some r
        ∧ r.type = first ∧ r.origin = 2 ∧ r.p0 = s.msg 2 ∧ r.p1 = s.msg 3 ∧ r.seq = s.pln.logSeq ∧ t.boot = s.boot ∧ t.flt = s.flt)
    ∧ (wbits (s.msg 1) 33 0 ≠ 0 ∨ 1 < target → simple .imgwrite 0x10 2 .erange [] ∧ simple .imgdone 0x11 1 .erange [])
    ∧ (s.msg 1 = 0 → posted 0x10 2 → ∃ t, exec .imgwrite s = .next t ∧ answers t .ok [] ∧ t.pln = s.pln
        ∧ (∀ i, i < s.msgLen - 2 → sget 0 t.boot.bootMem ((s.msg 2).toNat + i) = s.msg (3 + i))
        ∧ (∀ o, o < (s.msg 2).toNat ∨ (s.msg 2).toNat + (s.msgLen - 2) ≤ o → sget 0 t.boot.bootMem o = sget 0 s.boot.bootMem o))
    ∧ (s.msg 1 = 0 → s.get F.BOOT_STATUS_PHASE ≠ 6 → simple .imgdone 0x11 1 (s.chip.checkImages s.boot.images) [])
    ∧ (s.get F.PLN_STATUS_STATE ≠ 3 ∨ s.pln.runSlot = none → simple .confirm 0x12 0 .estate [])
    ∧ (∀ k, s.get F.PLN_STATUS_STATE = 3 → s.pln.runSlot = some k → posted 0x12 0 → ∃ t, exec .confirm s = .next t ∧ answers t .ok []
        ∧ t.get F.PLN_STATUS_STATE = 2 ∧ t.pln.dir.active = k ∧ t.pln.dir.trial = none)
    ∧ (s.msg 1 ≠ 0xA5C3 → simple .reset 0x20 1 .erange [])
    ∧ (s.msg 1 = 0xA5C3 → posted 0x20 1 → ∃ t, exec .reset s = .next t ∧ t.get F.RST_CAUSE_PLINTH = 1 ∧ t.boot.porDone = false
        ∧ t.dp = (State.powerOn s.chip).dp ∧ t.cmd = (State.powerOn s.chip).cmd ∧ t.pending = s.pending ∧ t.chip = s.chip)
    ∧ (posted 0x21 0 → ∃ t, exec (.mirror ok) s = .next t ∧ answers t (if ok then .ok else .etimeout) []
        ∧ (ok = true → t.pln.mirrored = s.pln.logSeq ∧ t.flt = s.flt)
        ∧ (ok = false → t.get F.PLN_STATUS_MIRRORFAIL = 1 ∧ Recorded s t 0x3A 0x05 0 .device 2 0 0))
    ∧ (∀ i ∈ [Instr.info, .logread, .sensors, .logwrite, .imgwrite, .imgdone, .confirm, .mirror ok, .reset],
        (s.plinthUp = true → s.get F.PLN_MBOX_CTRL_HREQ = 1 → mboxKnown s.msgCmd = false → ∃ t, exec i s = .next t ∧ answers t .eillegal [])
        ∧ (s.plinthUp = false ∨ s.get F.PLN_MBOX_CTRL_HREQ = 0 → exec i s = .next s))

/-- R87, R90, R529, R530, R533, R535, R536: the plinth's watchdog, its tick, the mirror of its log, frames and requests that reach it
through the management port and the board controller, and its serial ports. Where the plinth is absent or not up, they have no
effect. -/
def Obligations.PlinthEvents : Prop :=
  ∀ (s : State) (v : Word) (frame : List Byte) (byte : Byte) (bus : Nat) (ok : Bool),
    let keeps (t : State) := t = { s with pln := t.pln }
    let event (t : State) (k : Nat) (p : Pln) := keeps t ∧ t.pln = { p with events := s.pln.events ||| BitVec.ofNat 7 (2 ^ k) }
    (s.plinthUp = true →
      (∃ t, exec .plinthTick s = .next t ∧ event t 2 { s.pln with wdog := if s.get F.PLN_WDOG_EN = 1 then s.pln.wdog + 1 else 0 })
      ∧ (∃ t, exec .wake s = .next t ∧ event t 3 { s.pln with pwrReq := true })
      ∧ (∃ t, exec (.mgmtFrame frame) s = .next t ∧ event t 3 { s.pln with mgmtRx := s.pln.mgmtRx ++ [frame] })
      ∧ (∃ t, exec .bmcPowerRestored s = .next t ∧ event t 4 { s.pln with pwrReq := false })
      ∧ (∃ t, exec .bmcWakeRequest s = .next t ∧ event t 4 { s.pln with pwrReq := true })
      ∧ (∃ t, exec .bmcReset s = .next t ∧ t.get F.RST_CAUSE_PLINTH = 1 ∧ t.boot.porDone = false ∧ t.dp = (State.powerOn s.chip).dp
          ∧ t.cmd = (State.powerOn s.chip).cmd ∧ t.pending = s.pending ∧ t.chip = s.chip)
      ∧ (∃ t, exec (.consoleRx byte true) s = .next t ∧ keeps t ∧ t.pln = { s.pln with conRx := s.pln.conRx ++ [byte] })
      ∧ (∃ t, exec (.consoleRx byte false) s = .next t ∧ keeps t ∧ t.pln = { s.pln with conErr := s.pln.conErr + 1 })
      ∧ (10 ≤ fv v F.PLN_WDOG_TIMEOUT → ∃ t, exec (.kick v) s = .next t ∧ t.get F.PLN_WDOG_TIMEOUT = fv v F.PLN_WDOG_TIMEOUT
          ∧ t.pln = { s.pln with wdog := if fv v F.PLN_WDOG_KICK = 1 then 0 else s.pln.wdog } ∧ t = { s with regs := t.regs, pln := t.pln })
      ∧ (s.get F.PLN_WDOG_EN = 1 → ∃ t, exec .watchdogExpiry s = .next t ∧ t.get F.PLN_STATUS_STATE = 1 ∧ t.get F.PLN_STATUS_FWVER = 0
          ∧ t.plinth = s.plinth.restart ∧ t.pln.wdog = 0 ∧ Recorded s t 0x3A 0x1B 0 .device 0 0 0 ∧ t.boot = s.boot ∧ t.dp = s.dp ∧ t.cmd = s.cmd ∧ t.map = s.map)
      ∧ (∃ t, exec (.logMirror true) s = .next t ∧ keeps t ∧ t.pln.mirrored = s.pln.logSeq ∧ t.pln.log = s.pln.log
          ∧ t.pln.flashLog = logRegion s.pln.flashLog (s.pln.log.filter (fun r => s.pln.mirrored ≤ r.seq)))
      ∧ (∃ t, exec (.logMirror false) s = .next t ∧ t.get F.PLN_STATUS_MIRRORFAIL = 1 ∧ Recorded s t 0x3A 0x05 0 .device 2 0 0
          ∧ t.pln.flashLog = s.pln.flashLog))
    ∧ (s.plinthUp = false → ∀ i ∈ [Instr.plinthTick, .wake, .mgmtFrame frame, .bmcPowerRestored, .bmcWakeRequest, .bmcReset, .consoleRx byte ok,
        .kick v, .watchdogExpiry], exec i s = .next s)
    ∧ (s.boot.inReset = false → bus < 4 → ∃ t, exec (.i2cTimeout bus) s = .next t ∧ keeps t ∧ sget 0 t.pln.i2c bus = Status.etimeout.code)

/-- R253, R259, R267, R278 to R281, R284, R287, R289: a burst found where its grant is expected clears LOS and its terminal's LOSI,
a missing one counts, sets MISS and, LOSIN times in a row, LOSI; a ranging window measures the equalisation delay; a collision in
a quiet window counts, a burst found between expected ones names the suspect; light where none is expected is a STRAY, light for a
whole frame sets CONT, dark frames set LOS. Where the receiver of the tree handles no bursts, nothing happens. -/
def Obligations.BurstsAndLight : Prop :=
  ∀ (s : State) (t : Fin 64) (b : Burst) (x : Expect) (u : Nat) (m : List Byte) (level : Bool),
    let keeps (s' : State) := s'.pending = s.pending ∧ s'.cmd = s.cmd ∧ s'.map = s.map ∧ s'.boot = s.boot ∧ s'.clk = s.clk ∧ s'.dp = s.dp
    let calm := s.receives t = true ∧ (s.get F.SER_LANE_STATUS_SIGDET (s.portOf t) = 0 ∨ (s.tr t).strayed = true)
    let waits := calm ∧ (s.tr t).expects = [x] ∧ x.heard = false ∧ x.term = some u ∧ u < 256
    let single := s.get F.PON_BOND_CTRL_EN (s.leaderOf t) = 0
    let plain := single ∧ s.get F.PON_DRIFT_CTRL_EN t = 0 ∧ s.termState t u = tmOPERATING
    let n := sget 0 (s.tr t).missRun u + 1
    let seen (s' : State) := keeps s' ∧ s'.get F.PON_TREE_STATUS_LOS t = 0 ∧ s'.get F.PON_TERM_STATE_LOSI t u = 0
        ∧ sget 0 (s'.tr t).missRun u = 0 ∧ (s'.tr t).expects = [{ x with heard := true }]
    (waits → plain → x.quiet = false → x.finds b.offset = true →
      (b.headerOk = false → ∃ s', exec (.burstReceived t b) s = .next s' ∧ seen s' ∧ (s'.tr t).ploamRx = (s.tr t).ploamRx)
      ∧ (b.headerOk = true → b.onuId.toNat = u → b.reports = [] → b.frames = [] →
          (b.ploams = [] → ∃ s', exec (.burstReceived t b) s = .next s' ∧ seen s' ∧ (s'.tr t).ploamRx = (s.tr t).ploamRx)
          ∧ (b.ploams = [m] → (s.tr t).ploamRx.length < 64 → micOk (s.ploamKey t u) m = true → ∃ s', exec (.burstReceived t b) s = .next s' ∧ seen s'
              ∧ (s'.tr t).ploamRx = (s.tr t).ploamRx ++ [⟨u, BitVec.ofNat 36 (rateCode x.rate * 2 ^ 32 + x.frame % 2 ^ 24), BitVec.ofNat 36 (unsignedOf 26 b.offset), m⟩])))
    ∧ (waits → x.quiet = true → s.rxNow ≤ x.e → x.finds b.offset = true → b.ploams = [] → s.termState t u = tmRANGING → single →
        ∃ s', exec (.burstReceived t b) s = .next s' ∧ keeps s'
          ∧ (s.eqdFits t (-b.offset) = true → s'.get F.PON_TERM_EQD_EQD t u = (-b.offset).toNat ∧ s'.get F.PON_TERM_STATE_RANGED t u = 1)
          ∧ (s.eqdFits t (-b.offset) = false → s'.get F.PON_TERM_EQD_EQD t u = s.get F.PON_TERM_EQD_EQD t u ∧ s'.get F.PON_TERM_STATE_REACH t u = 1)
          ∧ s'.get F.PON_ACT_CNT_DISCCOLL t = (if b.headerOk then s.get F.PON_ACT_CNT_DISCCOLL t else satAdd 511 (s.get F.PON_ACT_CNT_DISCCOLL t) 1))
    ∧ (calm → (s.tr t).expects = [] → s.rogueOn t = true → b.headerOk = true → b.onuId.toNat < 256 → ∃ s', exec (.burstReceived t b) s = .next s' ∧ keeps s'
        ∧ s'.get F.PON_ROGUE_STATUS_SUSPECT t = b.onuId.toNat ∧ s'.get F.PON_ROGUE_STATUS_SUSPV t = 1)
    ∧ (waits → x.quiet = false → s.termState t u = tmOPERATING → ∃ s', exec (.burstMissing t) s = .next s' ∧ keeps s' ∧ s'.get F.PON_TREE_STATUS_MISS t = 1
        ∧ s'.get F.PON_EVT_CNT_MISSING t = satAdd 511 (s.get F.PON_EVT_CNT_MISSING t) 1 ∧ sget 0 (s'.tr t).missRun u = n
        ∧ s'.get F.PON_TERM_STATE_LOSI t u = (if s.get F.PON_RNG_CTRL_LOSIN t ≤ n then 1 else s.get F.PON_TERM_STATE_LOSI t u)
        ∧ (s'.tr t).expects = [{ x with heard := true }])
    ∧ (calm → (s.tr t).expects = [x] → x.quiet = true → x.term = none → s.rxNow ≤ x.e → ∃ s', exec (.burstMissing t) s = .next s' ∧ keeps s'
        ∧ (s'.tr t).expects = [] ∧ s'.regs = s.regs)
    ∧ ((s.tr t).expects = [] → (level = false ∨ s.receives t = false) → ∃ s', exec (.sdChange t level) s = .next s' ∧ keeps s'
        ∧ s'.get F.SER_LANE_STATUS_SIGDET (s.portOf t) = b2n level ∧ (s'.tr t).strayed = false)
    ∧ ((s.tr t).expects = [] → s.receives t = true → s.rogueOn t = false → ∃ s', exec (.sdChange t true) s = .next s' ∧ keeps s'
        ∧ s'.get F.SER_LANE_STATUS_SIGDET (s.portOf t) = 1 ∧ (s'.tr t).strayed = true ∧ s'.get F.PON_TREE_STATUS_STRAY t = 1
        ∧ s'.get F.PON_EVT_CNT_STRAYS t = satAdd 511 (s.get F.PON_EVT_CNT_STRAYS t) 1)
    ∧ (s.receives t = true → s.rogueOn t = true → s.get F.SER_LANE_STATUS_SIGDET (s.portOf t) = 1 → ∃ s', exec (.cont t) s = .next s' ∧ keeps s'
        ∧ s'.get F.PON_ROGUE_STATUS_CONT t = 1
        ∧ (s.get F.PON_ROGUE_STATUS_ROGUE t = 0 → s.get F.PON_ROGUE_STATUS_CONT t = 0 → s'.get F.PON_ROGUE_STATUS_ONSET t = s.clk.frame % 2 ^ 24))
    ∧ (calm → single → s.get F.PON_PROT_CTRL_EN t = 0 → s.get F.PON_TREE_STATUS_LOS t = 0 → ∃ s', exec (.los t) s = .next s' ∧ keeps s'
        ∧ s'.get F.PON_TREE_STATUS_LOS t = 1 ∧ (sget {} (s'.tr t).pm pmTREE).los = true)
    ∧ (s.receives t = false → exec (.burstReceived t b) s = .next s ∧ exec (.burstMissing t) s = .next s ∧ exec (.cont t) s = .next s ∧ exec (.los t) s = .next s)

/-- R256, R258, R261, R284: the optics pulses go out at their places, cut or skipped by the hold and the least width; averaging
of drift resumes; the alignment machine hunts for the pattern, confirms it twice, and after four misses in a row declares LOF
and hunts again. -/
def Obligations.PulsesAndAlignment : Prop :=
  ∀ (s : State) (t : Fin 64) (u : Fin 256) (x : Expect) (xs : List Expect) (pos errs count : Nat),
    let o := (s.tr t).opt
    let start := max (x.s - fv o F.PON_OPT_CTRL_LEAD) (x.prevE + fv o F.PON_OPT_CTRL_HOLD)
    let stop := x.s - fv o F.PON_OPT_CTRL_LEAD + fv o F.PON_OPT_CTRL_WIDTH
    let y := s.tr t
    let at_ := pos = y.cand + s.frameBits t
    let ok := errs ≤ s.get F.PON_ALIGN_CTRL_TOL t ∧ count = y.count + 1
    let machine (s' : State) (n : Nat) := s'.get F.PON_ALIGN_STATUS_STATE t = n ∧ s'.pending = s.pending ∧ s'.cmd = s.cmd ∧ s'.map = s.map ∧ s'.dp = s.dp
        ∧ (∀ k : Fin 64, k ≠ t → s'.tr k = s.tr k)
    let check := exec (.alignCheck t pos errs count) s
    (s.receives t = true → y.expects = x :: xs → x.pulsed = false →
      (start + fv o F.PON_OPT_CTRL_MINW ≤ stop → ∃ s', exec (.burstRst t) s = .next s' ∧ s'.outs = s.outs ++ [.burstRst (s.portOf t) start stop]
        ∧ (s'.tr t).expects = { x with pulsed := true } :: xs ∧ s' = { s with tree := s'.tree, outs := s'.outs })
      ∧ (stop < start + fv o F.PON_OPT_CTRL_MINW → ∃ s', exec (.burstRst t) s = .next s' ∧ s'.outs = s.outs ∧ s'.get F.PON_TREE_STATUS_SKIP t = 1
        ∧ s'.get F.PON_EVT_CNT_SKIPPED t = satAdd 511 (s.get F.PON_EVT_CNT_SKIPPED t) 1
        ∧ (s'.tr t).expects = { x with pulsed := true } :: xs ∧ s' = { s with regs := s'.regs, tree := s'.tree, tel := s'.tel }))
    ∧ (∀ c, s.receives t = true → y.expects = x :: xs → x.rssi = some c → ∃ s', exec (.rssiTrig t) s = .next s'
        ∧ s'.outs = s.outs ++ [.rssiTrig (s.portOf t) c (s.get F.PON_RSSI_CTRL_WIDTH t)]
        ∧ (s'.tr t).expects = { x with rssi := none } :: xs ∧ s' = { s with tree := s'.tree, outs := s'.outs })
    ∧ (s.receives t = false ∨ y.expects = [] → exec (.burstRst t) s = .next s ∧ exec (.rssiTrig t) s = .next s)
    ∧ (∃ s', exec (.driftHoldoffEnd t u) s = .next s' ∧ u.val ∉ (s'.tr t).holdoff ∧ (∀ v, v ≠ u.val → (v ∈ (s'.tr t).holdoff ↔ v ∈ y.holdoff))
        ∧ s' = { s with tree := s'.tree } ∧ (∀ k : Fin 64, k ≠ t → s'.tr k = s.tr k))
    ∧ (s.get F.PON_ALIGN_STATUS_STATE t = 0 → check = .next s)
    ∧ (s.get F.PON_ALIGN_STATUS_STATE t = 1 → (errs ≠ 0 → check = .next s)
        ∧ (errs = 0 → ∃ s', check = .next s' ∧ machine s' 2 ∧ (s'.tr t).cand = pos ∧ (s'.tr t).conf = 0 ∧ (s'.tr t).count = count))
    ∧ (s.get F.PON_ALIGN_STATUS_STATE t ≠ 1 → ¬ at_ → check = .next s)
    ∧ (s.get F.PON_ALIGN_STATUS_STATE t = 2 → at_ →
        (¬ ok → ∃ s', check = .next s' ∧ machine s' 1 ∧ s'.get F.PON_ALIGN_STATUS_REJECT t = satAdd 65535 (s.get F.PON_ALIGN_STATUS_REJECT t) 1)
        ∧ (ok → y.conf = 0 → ∃ s', check = .next s' ∧ machine s' 2 ∧ (s'.tr t).conf = 1 ∧ (s'.tr t).cand = pos ∧ (s'.tr t).count = count)
        ∧ (ok → y.conf = 1 → ∃ s', check = .next s' ∧ machine s' 3 ∧ s'.get F.PON_ALIGN_STATUS_MISSES t = 0))
    ∧ (s.get F.PON_ALIGN_STATUS_STATE t = 3 → at_ →
        (ok → ∃ s', check = .next s' ∧ machine s' 3 ∧ s'.get F.PON_ALIGN_STATUS_MISSES t = 0 ∧ (s'.tr t).cand = pos ∧ (s'.tr t).count = y.count + 1)
        ∧ (¬ ok → s.get F.PON_ALIGN_STATUS_MISSES t < 3 → ∃ s', check = .next s' ∧ machine s' 3
            ∧ s'.get F.PON_ALIGN_STATUS_MISSES t = s.get F.PON_ALIGN_STATUS_MISSES t + 1 ∧ s'.get F.PON_TREE_STATUS_LOF t = s.get F.PON_TREE_STATUS_LOF t)
        ∧ (¬ ok → s.get F.PON_ALIGN_STATUS_MISSES t = 3 → ∃ s', check = .next s' ∧ machine s' 1 ∧ s'.get F.PON_TREE_STATUS_LOF t = 1
            ∧ s'.get F.PON_ALIGN_STATUS_LOFCNT t = satAdd 4095 (s.get F.PON_ALIGN_STATUS_LOFCNT t) 1))

/-- R239, R260, R263, R267, R269, R270, R292, R294 to R297: writes of a tree's mode, group, performance and protection registers
are stored where they are legal and rejected with their status else; a second is judged by what was granted, errored and dark; a
switchover starts, exchanges the ports, restores or frees the line contexts, fails for want of a lane, and ends. That a
terminal which is FREE keeps no bins is the model's reading. -/
def Obligations.TreeRegistersAndProtection : Prop :=
  ∀ (s : State) (t : Fin 64) (u : Fin 256) (v : Word),
    let keeps (s' : State) := s'.pending = s.pending ∧ s'.cmd = s.cmd ∧ s'.map = s.map ∧ s'.dp = s.dp ∧ s'.clk = s.clk ∧ s'.boot = s.boot
    let err (i : Instr) (st : Status) := ∃ s', exec i s = .next s' ∧ Rejected s s' F.PON_TREE_STATUS_ERR t st
    let same (f : Fld) := fv v f = s.get f t
    let offset := fv v F.PON_PM_CTRL_OFFSET
    let bin (on : Nat) (day : Bool) : List PmBin := if on = 1 then [{ index := pmIndex offset day s.seconds, suspect := true }] else []
    let mask := fv v F.PON_BOND_CTRL_MASK
    let members := (List.range' (t.val / 8 * 8) 8).filter (fun k => mask.testBit (k % 8))
    let scope := sget {} (s.tr t).pm
    let bins := if fv v F.PON_PM_SEL_KIND = 1 then (scope (fv v F.PON_PM_SEL_TERM)).bins24 else (scope (fv v F.PON_PM_SEL_TERM)).bins15
    let length := if fv v F.PON_PM_SEL_KIND = 1 then 86400 else 900
    let peer := fv v F.PON_PROT_CTRL_PEER
    let slot := fv v F.PON_PROT_CTRL_SLOT
    let was := s.get F.PON_PROT_STATUS_PORT t
    let mate := s.get F.PON_PROT_CTRL_PEER t
    let next := s.get F.PON_PROT_STATUS_PORT mate
    let delta := signed 26 (s.get F.PON_PROT_DELTA_DELTA t)
    let alone := s.get F.PON_BOND_CTRL_EN t = 0 ∧ s.bondMember t = none ∧ s.inProtPair t none = false
    let noneRestored (k : Option (Fin 256)) := ∀ w : Fin 256, some w ≠ k → s.termState t w ≠ tmRESTORED
    let held := s.get F.PON_PROT_CTRL_EN t = 1 ∧ same F.PON_PROT_CTRL_PEER ∧ same F.PON_PROT_CTRL_SLOT ∧ slot ≤ 4
    (WriteReaches s ⟨.PON_DS_CTRL, t, 0, 0⟩ v →
      let mode := fv v F.PON_DS_CTRL_MODE
      let lb := fv v F.PON_DS_CTRL_LBMODE
      let on := s.get F.PON_TREE_STATUS_ENABLED t = 1
      (mode = 1 → s.chip.pon50 = false → err (.ponDsCtrl t v) .eabsent)
      ∧ ((mode = 0 ∨ s.chip.pon50 = true) → (lb = 3 → err (.ponDsCtrl t v) .erange)
          ∧ (lb ≠ 3 → (mode ≠ s.get F.PON_DS_CTRL_MODE t ∧ (on ∨ s.get F.PON_BOND_CTRL_EN t = 1 ∨ s.bondMember t ≠ none))
              ∨ (lb ≠ 0 ∧ on ∧ s.get F.MAP_ENG_STATUS_STATE t = engSTARTED) → err (.ponDsCtrl t v) .estate)
          ∧ (lb ≠ 3 → (mode = s.get F.PON_DS_CTRL_MODE t ∨ (¬ on ∧ alone)) → (lb = 0 ∨ ¬ on ∨ s.get F.MAP_ENG_STATUS_STATE t ≠ engSTARTED) →
              ∃ s', exec (.ponDsCtrl t v) s = .next s' ∧ s'.get F.PON_DS_CTRL_MODE t = mode ∧ s'.get F.PON_DS_CTRL_LBMODE t = lb
                ∧ (lb ≠ 0 → s.get F.PON_DS_CTRL_LBMODE t = 0 → s'.get F.PON_ALIGN_STATUS_STATE t = 1 ∧ (s'.tr t).expects = [])
                ∧ (lb = 0 → s'.get F.PON_ALIGN_STATUS_STATE t = 0 ∧ s'.get F.PON_ALIGN_STATUS_MISSES t = 0)
                ∧ (mode ≠ s.get F.PON_DS_CTRL_MODE t → ∀ p : Fin 4, entValid (s'.tabGet 0x41 (t * 4 + p)) = false)
                ∧ s'.pending = s.pending ∧ s'.cmd = s.cmd ∧ s'.map = s.map ∧ (∀ w, w ≠ t → s'.tr w = s.tr w))))
    ∧ (WriteReaches s ⟨.PON_BOND_CTRL, t, 0, 0⟩ v →
      let en := fv v F.PON_BOND_CTRL_EN = 1
      let off := s.get F.PON_BOND_CTRL_EN t = 0
      let legal := 2 ≤ members.length ∧ members.length ≤ 4 ∧ mask.testBit (t % 8) = true ∧ (∀ k, k < t.val % 8 → mask.testBit k = false)
      (en → off → (∃ k ∈ members, s.chip.trees ≤ k) → err (.ponBondCtrl t v) .eabsent)
      ∧ (en → (∀ k ∈ members, k < s.chip.trees) → (¬ legal ∨ ∃ k ∈ members, s.get F.PON_DS_CTRL_MODE k ≠ s.get F.PON_DS_CTRL_MODE t) → err (.ponBondCtrl t v) .erange)
      ∧ (en → off → (∀ k ∈ members, k < s.chip.trees ∧ s.get F.PON_DS_CTRL_MODE k = s.get F.PON_DS_CTRL_MODE t ∧ s.bondMember k = none
            ∧ (k ≠ t → s.get F.PON_BOND_CTRL_EN k = 0)) → legal →
          ((∃ k ∈ members, s.get F.PON_TREE_STATUS_ENABLED k = 1) → err (.ponBondCtrl t v) .estate)
          ∧ ((∀ k ∈ members, s.get F.PON_TREE_STATUS_ENABLED k = 0) → ∃ s', exec (.ponBondCtrl t v) s = .next s' ∧ keeps s'
              ∧ s'.get F.PON_BOND_CTRL_EN t = 1 ∧ s'.get F.PON_BOND_CTRL_MASK t = mask ∧ (∀ w : Fin 64, w.val ∈ members → (s'.tr w).offsets = [])))
      ∧ (¬ en → (s.bondMember t ≠ none → err (.ponBondCtrl t v) .estate)
          ∧ (s.bondMember t = none → off → ∃ s', exec (.ponBondCtrl t v) s = .next s' ∧ keeps s' ∧ s'.get F.PON_BOND_CTRL_EN t = 0
              ∧ s'.get F.PON_BOND_CTRL_MASK t = mask)))
    ∧ (WriteReaches s ⟨.PON_PM_CTRL, t, 0, 0⟩ v → (86399 < offset → err (.ponPmCtrl t v) .erange)
      ∧ (offset ≤ 86399 → ∃ s', exec (.ponPmCtrl t v) s = .next s' ∧ keeps s' ∧ s'.get F.PON_PM_CTRL_OFFSET t = offset
          ∧ s'.get F.PON_PM_CTRL_EN15 t = fv v F.PON_PM_CTRL_EN15 ∧ s'.get F.PON_PM_CTRL_EN24 t = fv v F.PON_PM_CTRL_EN24
          ∧ (same F.PON_PM_CTRL_OFFSET → same F.PON_PM_CTRL_EN15 → same F.PON_PM_CTRL_EN24 → s'.tree = s.tree)
          ∧ (¬ (same F.PON_PM_CTRL_OFFSET ∧ same F.PON_PM_CTRL_EN15 ∧ same F.PON_PM_CTRL_EN24) →
              let p := sget {} (s'.tr t).pm pmTREE
              p.hist = [] ∧ p.bins15 = bin (fv v F.PON_PM_CTRL_EN15) false ∧ p.bins24 = bin (fv v F.PON_PM_CTRL_EN24) true)))
    ∧ (WriteReaches s ⟨.PON_PM_SEL, t, 0, 0⟩ v →
      let wrong := 256 < fv v F.PON_PM_SEL_TERM ∨ (if fv v F.PON_PM_SEL_KIND = 1 then 7 else 96) < fv v F.PON_PM_SEL_AGE
      (wrong → err (.ponPmSel t v) .erange)
      ∧ (¬ wrong → bins[fv v F.PON_PM_SEL_AGE]? = none → ∃ s', exec (.ponPmSel t v) s = .next s' ∧ s' = { s with regs := s'.regs }
          ∧ s'.rd .PON_PM_DATA0 t = 0 ∧ s'.rd .PON_PM_DATA1 t = 0)
      ∧ (∀ b : PmBin, ¬ wrong → bins[fv v F.PON_PM_SEL_AGE]? = some b → b.es < 2 ^ 17 → b.ses < 2 ^ 17 → b.uas < 2 ^ 17 →
          ∃ s', exec (.ponPmSel t v) s = .next s' ∧ s' = { s with regs := s'.regs } ∧ s'.get F.PON_PM_DATA0_VALID t = 1
          ∧ s'.get F.PON_PM_DATA0_SUSPECT t = b2n b.suspect ∧ s'.get F.PON_PM_DATA0_SES t = b.ses ∧ s'.get F.PON_PM_DATA0_ES t = b.es
          ∧ s'.get F.PON_PM_DATA1_UAS t = b.uas
          ∧ s'.get F.PON_PM_DATA1_COMPLETE t = b2n (decide ((b.index + 1) * length + s.get F.PON_PM_CTRL_OFFSET t + 10 ≤ s.seconds + 86400))))
    ∧ (∃ s', exec .pmSecond s = .next s' ∧ s' = { s with tree := s'.tree }
        ∧ (∀ k, k = pmTREE ∨ (k = u.val ∧ s.termState t u ≠ tmFREE) → t.val < s.chip.trees → (scope k).hist.length < 9 →
            let p := scope k
            let q := sget {} (s'.tr t).pm k
            q.granted = 0 ∧ q.errored = 0 ∧ q.los = decide (k = pmTREE ∧ s.get F.PON_TREE_STATUS_LOS t = 1) ∧ q.unavail = p.unavail
            ∧ q.hist = p.hist ++ [(s.seconds - 1, decide (0 < p.errored ∨ p.los = true), decide ((0 < p.granted ∧ 15 * p.granted ≤ 100 * p.errored) ∨ p.los = true))])
        ∧ (s.termState t u = tmFREE → sget {} (s'.tr t).pm u = scope u) ∧ (s.chip.trees ≤ t.val → s'.tr t = s.tr t))
    ∧ (WriteReaches s ⟨.PON_PROT_CTRL, t, 0, 0⟩ v →
      let en := fv v F.PON_PROT_CTRL_EN = 1
      let off := s.get F.PON_PROT_CTRL_EN t = 0
      let cmds := fv v F.PON_PROT_CTRL_SWITCH = 0 ∧ fv v F.PON_PROT_CTRL_DONE = 0
      (en → off → s.chip.trees ≤ peer → err (.protEn t v) .eabsent)
      ∧ (en → off → peer < s.chip.trees → 4 < slot ∨ peer = t ∨ peer / 8 ≠ t / 8 ∨ s.get F.PON_DS_CTRL_MODE peer ≠ s.get F.PON_DS_CTRL_MODE t
          ∨ s.inGroup t = true ∨ s.inGroup peer = true ∨ s.inProtPair t none = true ∨ s.inProtPair peer none = true → err (.protEn t v) .erange)
      ∧ (en → off → peer < s.chip.trees → slot ≤ 4 → peer ≠ t → peer / 8 = t / 8 → s.get F.PON_DS_CTRL_MODE peer = s.get F.PON_DS_CTRL_MODE t →
          s.inGroup t = false → s.inGroup peer = false → s.inProtPair t none = false → s.inProtPair peer none = false →
          (∀ w : Fin 64, w ≠ t → slot < 4 → s.get F.PON_PROT_CTRL_EN w = 1 → s.get F.PON_PROT_CTRL_SLOT w ≠ slot) →
          (s.get F.PON_TREE_STATUS_ENABLED peer = 1 → err (.protEn t v) .estate)
          ∧ (s.get F.PON_TREE_STATUS_ENABLED peer = 0 → s.switching t = false → cmds → ∃ s', exec (.protEn t v) s = .next s' ∧ keeps s'
              ∧ s'.get F.PON_PROT_CTRL_EN t = 1 ∧ s'.get F.PON_PROT_CTRL_PEER t = peer ∧ s'.get F.PON_PROT_CTRL_SLOT t = slot
              ∧ s'.get F.PON_PROT_CTRL_RWAIT t = max 1 (fv v F.PON_PROT_CTRL_RWAIT) ∧ s'.get F.PON_PROT_STATUS_STATE t = ppARMED ∧ s'.tree = s.tree))
      ∧ (¬ en → held → s.switching t = false → cmds → ∃ s', exec (.protEn t v) s = .next s' ∧ keeps s' ∧ s'.get F.PON_PROT_CTRL_EN t = 0
          ∧ s'.get F.PON_PROT_STATUS_STATE t = ppOFF ∧ s'.tree = s.tree)
      ∧ (fv v F.PON_PROT_CTRL_SWITCH = 1 → slot ≤ 4 → ¬ en ∨ (¬ off ∧ s.switching t = true) → err (.switch t v) .estate)
      ∧ (fv v F.PON_PROT_CTRL_SWITCH = 1 → fv v F.PON_PROT_CTRL_DONE = 0 → en → held → s.switching t = false → ∃ s', exec (.switch t v) s = .next s' ∧ keeps s'
          ∧ s'.get F.PON_PROT_STATUS_STATE t = ppSWITCHING ∧ s'.get F.PON_PROT_CTRL_AUTO t = 0 ∧ s'.get F.PON_PROT_STATUS_NOK t = 0
          ∧ s'.get F.PON_PROT_STATUS_PORT t = was ∧ (s'.tr t).swFrame = s.clk.frame ∧ (s'.tr t).swMoved = false ∧ (s'.tr t).swDone = false)
      ∧ (fv v F.PON_PROT_CTRL_DONE = 1 → fv v F.PON_PROT_CTRL_SWITCH = 0 → en → held → slot = 4 → s.switching t = true →
          ∃ s', exec (.done t v) s = .next s' ∧ keeps s' ∧ (s'.tr t).swDone = true
          ∧ ((s.tr t).swMoved = false → s'.get F.PON_PROT_STATUS_STATE t = ppSWITCHING)
          ∧ ((s.tr t).swMoved = true → (∀ w : Fin 256, s.termState t w ≠ tmRESTORED) → s'.get F.PON_PROT_STATUS_STATE t = ppARMED
              ∧ s'.get F.PON_PROT_STATUS_TIME t = min 511 (s.clk.frame - (s.tr t).swFrame)
              ∧ s'.get F.PON_PROT_MEAS_MEAN t = unsignedOf 26 (meanOffset (s.tr t).swOffsets))))
    ∧ (s.switching t = true → (s.tr t).swMoved = false → mate ≠ t →
      (s.laneState next ≠ lnACTIVE → exec (.portExchange t) s = .next s
        ∧ (∃ s', exec (.protLaneTimeout t) s = .next s' ∧ s'.get F.PON_PROT_STATUS_STATE t = ppFAILED ∧ s'.get F.PON_PROT_STATUS_STATUS t = Status.ewake.code
          ∧ s'.get F.PON_PROT_STATUS_PORT t = was ∧ s' = { s with regs := s'.regs }))
      ∧ (s.laneState next = lnACTIVE → exec (.protLaneTimeout t) s = .next s
        ∧ (s.slotsBad = [] → ∃ s', exec (.portExchange t) s = .next s' ∧ s'.pending = s.pending ∧ s'.cmd = s.cmd ∧ s'.map = s.map ∧ s'.dp = s.dp
          ∧ s'.get F.PON_PROT_STATUS_PORT t = next ∧ s'.get F.PON_PROT_STATUS_PORT mate = was ∧ s'.get F.PON_PROT_STATUS_STATUS t = Status.ok.code
          ∧ (s'.tr t).swMoved = true ∧ s'.termState mate u = s.termState t u ∧ s'.get F.PON_TERM_EQD_EQD mate u = s.get F.PON_TERM_EQD_EQD t u
          ∧ (4 ≤ s.get F.PON_PROT_CTRL_SLOT t → s'.termState t u = tmFREE ∧ s'.get F.PON_TERM_EQD_EQD t u = 0)
          ∧ (s.get F.PON_PROT_CTRL_SLOT t < 4 → s.get F.PON_PROT_CTRL_EN t = 1 →
              (s.termState t u = tmFREE → s'.termState t u = tmFREE)
              ∧ (s.termState t u = tmRANGING → s'.termState t u = tmRANGING ∧ s'.get F.PON_TERM_EQD_EQD t u = 0)
              ∧ (s.termState t u = tmOPERATING → (s.eqdFits t (s.get F.PON_TERM_EQD_EQD t u - delta) = true →
                    s'.termState t u = tmRESTORED ∧ (s'.get F.PON_TERM_EQD_EQD t u : Int) = s.get F.PON_TERM_EQD_EQD t u - delta)
                  ∧ (s.eqdFits t (s.get F.PON_TERM_EQD_EQD t u - delta) = false → s'.termState t u = tmRANGING ∧ s'.get F.PON_TERM_EQD_EQD t u = 0)))
          ∧ (∀ w : Fin 64, w ≠ t → w.val ≠ mate → s'.termState w u = s.termState w u ∧ s'.tr w = s.tr w))))
    ∧ (s.switching t = true → s.termState t u = tmRESTORED → ∃ s', exec (.rwaitExpiry t u) s = .next s' ∧ s' = { s with regs := s'.regs }
        ∧ s'.termState t u = tmRANGING ∧ s'.get F.PON_TERM_EQD_EQD t u = 0 ∧ s'.get F.PON_PROT_STATUS_NOK t = min 256 (s.get F.PON_PROT_STATUS_NOK t + 1)
        ∧ ((s.tr t).swMoved = true → s.get F.PON_PROT_CTRL_SLOT t < 4 ∨ (s.tr t).swDone = true → noneRestored (some u) → s'.get F.PON_PROT_STATUS_STATE t = ppARMED)
        ∧ ((s.tr t).swMoved = false → s'.get F.PON_PROT_STATUS_STATE t = ppSWITCHING))
    ∧ (s.switching t = false → exec (.portExchange t) s = .next s ∧ exec (.protLaneTimeout t) s = .next s ∧ exec (.rwaitExpiry t u) s = .next s)

/-- R211 to R215, R221, R515, R546 to R548, R557, R558: a frame boundary begins the next frame and every started map engine at its
entry word; a program still running at the deadline is stopped and its map discarded; a tick writes the service save area; the
freeze is armed, comes into force and ends; the stream starts and stops and its reader moves on; a counter wraps. While the device
is in reset or its clock stands, a boundary has no effect; in Deep the time of the always-on domain runs on. -/
def Obligations.FramesAndTelemetry : Prop :=
  ∀ (s : State) (t : Fin 64) (c : Fin 2) (i : Fin 256) (v : Word),
    let st := s.get F.MAP_ENG_STATUS_STATE t
    let p := sget {} s.tel.perf i
    let err (k : Instr) (n : Status) := ∃ s', exec k s = .next s' ∧ Rejected s s' F.TEL_STATUS_ERR 0 n
    (s.engRuns (.map t) = true → ∃ s', exec (.deadline t) s = .next s' ∧ s'.get F.MAP_ENG_STATUS_OVR t = 1 ∧ s'.get F.MAP_ENG_STATUS_LASTVEC t = 4
        ∧ s'.get F.MAP_EVT_CNT_OVERRUN t = satAdd 4095 (s.get F.MAP_EVT_CNT_OVERRUN t) 1 ∧ (s'.map.get t).run = false
        ∧ (s'.map.get t).mem = (s.map.get t).mem ∧ (s'.tr t).committed = none ∧ (s'.tr t).build = []
        ∧ (∀ k, k ≠ t → s'.map.get k = s.map.get k ∧ s'.tr k = s.tr k) ∧ s'.cmd = s.cmd ∧ s'.dp = s.dp ∧ s'.pending = s.pending)
    ∧ (s.engRuns (.map t) = false → exec (.deadline t) s = .next s)
    ∧ (s.get F.CMD_ENG_STATUS_STATE c = 2 → ∃ s', exec (.tick c) s = .next s' ∧ s' = { s with regs := s'.regs, free := s'.free }
        ∧ (s'.rd .MCODE_SAVE (64 + c) 0 0).toNat / 2 ^ 35 = 1 ∧ (s'.rd .MCODE_SAVE (64 + c) 0 0).toNat / 2 ^ 24 % 256 = 9
        ∧ (s'.rd .MCODE_SAVE (64 + c) 0 14).toNat % 2 ^ 16 = (s.cmd.get c).pc % 2 ^ 16)
    ∧ (s.get F.CMD_ENG_STATUS_STATE c ≠ 2 → exec (.tick c) s = .next s)
    ∧ (s.boot.inReset = true ∨ (s.pwr.deep ≠ 2 ∧ s.clk.running = false) → exec .frameBoundary s = .next s)
    ∧ (s.boot.inReset = false → s.pwr.deep = 2 → ∃ s', exec .frameBoundary s = .next s' ∧ s' = { s with pwr := s'.pwr, tim := s'.tim }
        ∧ s'.tim = { s.tim with aonTb := s.tim.aonTb + 125000 * tbPerNs })
    ∧ (s.boot.inReset = false → s.pwr.deep = 0 → s.clk.running = true → ∃ s', exec .frameBoundary s = .next s'
        ∧ s'.clk.frame = s.clk.frame + 1 ∧ s'.clk.cycle = 0 ∧ s'.clk.total = s.clk.total + (155520 - s.clk.cycle) ∧ s'.pending = s.pending ∧ s'.cmd = s.cmd
        ∧ (t.val < s.chip.trees → (s'.map.get t).cyc = 0 ∧ (s'.map.get t).stall = .none ∧ (s'.map.get t).mem = (s.map.get t).mem
            ∧ (s'.tr t).build = [] ∧ (s'.tr t).committed = none ∧ (s'.tr t).reports = (s.tr t).nextReports
            ∧ (s'.tr t).missed = (s.engRuns (.map t) || (s.tr t).committed.isNone)
            ∧ (s.engRuns (.map t) = true → s'.get F.MAP_ENG_STATUS_OVR t = 1 ∧ s'.get F.MAP_ENG_STATUS_LASTVEC t = 4)
            ∧ ((st = engSTARTING ∨ st = engSTARTED) → s.get F.PON_TREE_STATUS_ENABLED t = 1 → s.haltPending t = false → s.safe = false →
                s'.get F.MAP_ENG_STATUS_STATE t = engSTARTED ∧ (s'.map.get t).run = true ∧ (s'.map.get t).pc = s.get F.MAP_ENG_STATUS_ENTRY t
                ∧ (s'.map.get t).w = Vector.replicate 32 0 ∧ (s'.map.get t).flags = (false, false, false, false))
            ∧ (s.get F.PON_TREE_STATUS_ENABLED t = 0 → (s'.map.get t).run = false)))
    ∧ (WriteReaches s ⟨.PC_FRZ_CTRL, 0, 0, 0⟩ v →
      let arm := fv v F.PC_FRZ_CTRL_ARM = 1
      let resume := fv v F.PC_FRZ_CTRL_RESUME = 1
      let idle := s.get F.PC_FRZ_CTRL_ARMED = 0 ∧ s.get F.PC_FRZ_CTRL_FROZEN = 0
      let soon := timeBefore (s.rd .PC_FRZ_AT) (s.now + 1000) = true
      (arm → soon → err (.pcFrzArm v) .erange) ∧ (arm → ¬ soon → ¬ idle → err (.pcFrzArm v) .estate)
      ∧ (arm → ¬ resume → ¬ soon → idle → ∃ s', exec (.pcFrzArm v) s = .next s' ∧ s' = { s with regs := s'.regs } ∧ s'.get F.PC_FRZ_CTRL_ARMED = 1
          ∧ s'.get F.PC_FRZ_CTRL_FROZEN = 0)
      ∧ (¬ arm → resume → idle → err (.resume v) .estate)
      ∧ (¬ arm → resume → ¬ idle → ∃ s', exec (.resume v) s = .next s' ∧ s' = { s with regs := s'.regs } ∧ s'.get F.PC_FRZ_CTRL_ARMED = 0
          ∧ s'.get F.PC_FRZ_CTRL_FROZEN = 0))
    ∧ (s.get F.PC_FRZ_CTRL_ARMED = 1 → ∃ s', exec .pcFreeze s = .next s' ∧ s' = { s with regs := s'.regs } ∧ s'.get F.PC_FRZ_CTRL_ARMED = 0
        ∧ s'.get F.PC_FRZ_CTRL_FROZEN = 1)
    ∧ (s.get F.PC_FRZ_CTRL_ARMED = 0 → exec .pcFreeze s = .next s)
    ∧ (WriteReaches s ⟨.TEL_CTRL, 0, 0, 0⟩ v →
      let size := fv v F.TEL_CTRL_RSIZE
      let len := fv v F.TEL_CTRL_FRMLEN
      let legal := size ≤ 4 ∧ 256 ≤ len ∧ len ≤ 9728 ∧ (size = 0 ∨ s.chip.stackmem = true)
      let same := fv v F.TEL_CTRL_DEST = s.get F.TEL_CTRL_DEST ∧ size = s.get F.TEL_CTRL_RSIZE ∧ len = s.get F.TEL_CTRL_FRMLEN
      let on := s.get F.TEL_CTRL_EN = 1
      let stored (s' : State) := s'.get F.TEL_CTRL_EN = fv v F.TEL_CTRL_EN ∧ s'.get F.TEL_CTRL_DEST = fv v F.TEL_CTRL_DEST
          ∧ s'.get F.TEL_CTRL_RSIZE = size ∧ s'.get F.TEL_CTRL_FRMLEN = len ∧ s' = { s with regs := s'.regs, tel := s'.tel }
      (0 < size → s.chip.stackmem = false → err (.telEn v) .eabsent)
      ∧ ((size = 0 ∨ s.chip.stackmem = true) → 4 < size ∨ len < 256 ∨ 9728 < len → err (.telEn v) .erange)
      ∧ (legal → on → ¬ same → err (.telEn v) .estate)
      ∧ (legal → ¬ on → fv v F.TEL_CTRL_EN = 1 → fv v F.TEL_CTRL_DEST = 1 → s.telUnrooted = true → err (.telEn v) .estate)
      ∧ (legal → ¬ on → fv v F.TEL_CTRL_EN = 1 → (fv v F.TEL_CTRL_DEST = 0 ∨ s.telUnrooted = false) → ∃ s', exec (.telEn v) s = .next s' ∧ stored s'
          ∧ s'.get F.TEL_STATUS_ENABLED = 1 ∧ s'.get F.TEL_STATUS_COAL = 0 ∧ s'.get F.TEL_WR_WR = 0 ∧ s'.get F.TEL_RD_RD = 0 ∧ s'.tel.frameSeq = 0
          ∧ s'.tel.staged = [] ∧ s'.tel.events = [] ∧ s'.tel.stats = s.tel.stats ∧ s'.tel.perf = s.tel.perf)
      ∧ (legal → on → same → fv v F.TEL_CTRL_EN = 0 → ∃ s', exec (.telEn v) s = .next s' ∧ stored s' ∧ s'.tel = { s.tel with stopping := true })
      ∧ (legal → ¬ on → fv v F.TEL_CTRL_EN = 0 → ∃ s', exec (.telEn v) s = .next s' ∧ stored s' ∧ s'.tel = s.tel))
    ∧ (WriteReaches s ⟨.TEL_RD, 0, 0, 0⟩ v →
      let rd := fv v F.TEL_RD_RD
      let bad := s.ringBytes < (s.get F.TEL_WR_WR + 2 ^ 29 - rd) % 2 ^ 29 ∨ rd % 8 ≠ 0
      (bad → err (.telRd v) .erange)
      ∧ (¬ bad → ∃ s', exec (.telRd v) s = .next s' ∧ s' = { s with regs := s'.regs } ∧ s'.get F.TEL_RD_RD = rd ∧ s'.get F.TEL_WR_WR = s.get F.TEL_WR_WR))
    ∧ (p.value < 2 ^ 35 → s.perfCycles 1 p ≠ 0 → p.frz = false ∨ s.get F.PC_FRZ_CTRL_FROZEN = 0 → ∃ s', exec (.perfCounterWrap i) s = .next s'
        ∧ sget {} s'.tel.perf i = { p with value := 0, sticky := true } ∧ (s'.get F.PC_WRAP_WRAP (i / 32)).testBit (i % 32) = true
        ∧ (∀ k : Fin 256, k ≠ i → sget {} s'.tel.perf k = sget {} s.tel.perf k) ∧ s'.cmd = s.cmd ∧ s'.map = s.map ∧ s'.dp = s.dp ∧ s'.pending = s.pending)
    ∧ (s.perfCycles 1 p = 0 ∨ (p.frz = true ∧ s.get F.PC_FRZ_CTRL_FROZEN = 1) → exec (.perfCounterWrap i) s = .next s)

/-- R379, R381, R388 to R394, R409, R527, R552: a packet enters a parser lane or waits at its port's bound; a resequencer releases it
to its queue; a selection takes the head of the queue picked; the last word's leaving returns the handle; thresholds follow the
count; a flush empties a port's queues; the auditor finds leaked and lost buffers on their second pass; a queue is sampled.
Packets for a port that is down, or in the safe state, do not go on. -/
def Obligations.PacketsAndBuffers : Prop :=
  ∀ (s : State) (p : Packet) (out : Fin 14) (port g h : Nat) (x : Hdl) (b : Fin 4) (k : Fin 4) (i : Nat) (q : Fin 262144) (v : Word) (po : Fin 5),
    let keeps (t : State) := t.pending = s.pending ∧ t.tree = s.tree ∧ t.map = s.map ∧ t.clk = s.clk ∧ t.boot = s.boot
    let stat (t : State) (f n e : Nat) := sget 0 t.tel.stats (statKey f n e)
    let err (c : Instr) (n : Status) := ∃ t, exec c s = .next t ∧ Rejected s t F.BUF_STATUS_ERR 0 n
    let arrives := s.safe = false ∧ s.linkUp p.port = true ∧ s.domainState 0 = domREADY
    let onTree := 40 ≤ p.port ∧ p.port < 128
    let y := s.que x.queue
    let fits := y.en = true ∧ s.depthBytes x.queue + x.pkt.bytes.length ≤ y.limit x.pkt.colour ∧ y.items.length < y.plim
    let y0 := s.buf b i
    let owned := s.live.any (fun e => e.2.pool = b.val && e.2.index = i) = true
    let visits := s.get F.BUF_AUDIT_STATUS_BUSY = 1 ∧ i < s.chip.poolCount b
    let leaked := y0.used = true ∧ ¬ owned
    let lost := y0.used = false ∧ y0.free = false
    let acc := sget {} s.tel.queues q
    let sampled := s.get F.TEL_STATUS_ENABLED = 1 ∧ ((s.que q).en = true ∨ s.depthPkts q ≠ 0)
    let busy := s.depthPkts q ≠ 0 ∨ acc.enq = true ∨ acc.dqPkt ≠ 0 ∨ acc.dropG ≠ 0 ∨ acc.dropY ≠ 0 ∨ acc.dropR ≠ 0
    (¬ arrives → exec (.packetArrival p) s = .next s)
    ∧ (arrives → onTree → s.inFlight p.port < 4096 → s.waitingBytes p.port = 0 → ∃ t, exec (.packetArrival p) s = .next t ∧ keeps t
        ∧ sget 0 t.dp.seqs p.port = (sget 0 s.dp.seqs p.port + 1) % 65536 ∧ stat t 1 p.port 0 = stat s 1 p.port 0 + 1
        ∧ stat t 1 p.port 1 = stat s 1 p.port 1 + BitVec.ofNat 72 p.bytes.length)
    ∧ (arrives → onTree → 4096 ≤ s.inFlight p.port → ∃ t, exec (.packetArrival p) s = .next t ∧ t = { s with dp := t.dp }
        ∧ t.dp = { s.dp with ingress := s.dp.ingress ++ [{ s.pktOf p.port p.term p.gem.toNat p.bytes p.truncated with cls := 0 }] })
    ∧ (s.nextAt out port = none → exec (.reseqRelease out port) s = .next s)
    ∧ (s.nextAt out port = some (h, x) → s.safe = false → x.exq = none → x.pkt.bad = false → (∀ w ∈ s.dp.ingress, w.port ≠ port) → s.hdl h = some x →
        s.egressOf x.queue = some g →
        (s.admits g = true → fits → ∃ t, exec (.reseqRelease out port) s = .next t ∧ keeps t ∧ t.dp.swc = s.dp.swc.erase h
          ∧ (t.que x.queue).items = y.items ++ [h] ∧ (t.hdl h).map (fun z => z.place) = some (.queued x.queue))
        ∧ (s.admits g = false → ∃ t, exec (.reseqRelease out port) s = .next t ∧ keeps t ∧ t.hdl h = none ∧ stat t 2 g 3 = stat s 2 g 3 + 1))
    ∧ (s.rootAt g = none ∨ s.canTake g = false → exec (.selection g) s = .next s)
    ∧ (∀ (root j : Nat) (hs : List Nat), s.rootAt g = some root → s.canTake g = true → (∀ c n, s.oversize g c n = false ∧ s.guarded g c n = false) →
        ((s.crs root).node.fill (ent (s.crs root).cfg 1) (ent (s.crs root).cfg 2) s.clk.total).peakOk (ent (s.crs root).cfg 2) = true →
        (s.pick g ((s.crs root).capped && s.capReached) 9 root).queue = some j → (s.que j).items = h :: hs → s.hdl h = some x →
        ∃ t, exec (.selection g) s = .next t ∧ keeps t ∧ (t.que j).items = hs
          ∧ t.hdl h = some { x with place := .leaving g (s.que j).enc (s.que j).term (s.que j).gem, queue := j }
          ∧ stat t 5 j 0 = stat s 5 j 0 + 1 ∧ stat t 5 j 1 = stat s 5 j 1 + BitVec.ofNat 72 x.pkt.bytes.length)
    ∧ (s.hdl h = none → exec (.handleRelease h) s = .next s)
    ∧ (∀ (enc : Bool) (u gem : Nat), s.hdl h = some x → x.place = .leaving g enc u gem →
        (s.linkUp g = false ∨ s.safe = true → ∃ t, exec (.handleRelease h) s = .next t ∧ keeps t ∧ t.hdl h = none ∧ stat t 2 g 3 = stat s 2 g 3 + 1)
        ∧ (s.linkUp g = true → s.safe = false → g < 64 → x.stomp = false → ∃ t more, exec (.handleRelease h) s = .next t ∧ keeps t ∧ t.hdl h = none
            ∧ t.outs = s.outs ++ .packet g 0 0 0 (s.wireBytes g x) false :: more ∧ stat t 2 g 0 = stat s 2 g 0 + 1))
    ∧ (WriteReaches s ⟨.BUF_THR, po, k, 0⟩ v →
        let level (n : Nat) := if n = k.val ∧ k ≠ 3 then fv v F.BUF_THR_LEVEL else s.get F.BUF_THR_LEVEL po n
        let hyst (n : Nat) := if n = k.val then fv v F.BUF_THR_HYST else s.get F.BUF_THR_HYST po n
        let bad := level k = 0 ∨ level 1 ≤ level 0 ∨ level 2 ≤ level 1 ∨ level 3 ≤ level 2 ∨ level k < 16 * hyst k
        (bad → err (.bufThr po k v) .erange)
        ∧ (¬ bad → ∃ t, exec (.bufThr po k v) s = .next t ∧ keeps t ∧ t.get F.BUF_THR_LEVEL po k = level k ∧ t.get F.BUF_THR_HYST po k = hyst k
            ∧ ∀ n : Fin 4, (t.get F.BUF_POOL_STATUS_STATE po).testBit n = (if level n ≤ s.inuse po then true
                else if s.inuse po < level n - 16 * hyst n then false else (s.get F.BUF_POOL_STATUS_STATE po).testBit n)))
    ∧ (WriteReaches s ⟨.BUF_FLUSH, 0, 0, 0⟩ v →
        let f := fv v F.BUF_FLUSH_PORT
        let go := fv v F.BUF_FLUSH_GO = 1
        (s.chip.portAbsent f = true → err (.bufFlush v) .eabsent)
        ∧ (portListed f = false → err (.bufFlush v) .erange)
        ∧ (s.chip.portAbsent f = false → portListed f = true → (go → s.flushing ≠ none ∨ s.dp.flushQ ≠ [] → err (.bufFlush v) .estate)
            ∧ (go → s.flushing = none → s.dp.flushQ = [] → ∃ t, exec (.bufFlush v) s = .next t ∧ keeps t ∧ t.get F.BUF_PORT_STATE_FLUSHING f = 1
                ∧ t.get F.BUF_FLUSH_BUSY = 1 ∧ t.get F.BUF_FLUSH_PORT = f)
            ∧ (¬ go → ∃ t, exec (.bufFlush v) s = .next t ∧ t = { s with regs := t.regs } ∧ t.get F.BUF_FLUSH_PORT = f)))
    ∧ (s.flushing = none → exec .portFlushDone s = .next s)
    ∧ (∀ f : Nat, s.flushing = some f → ∃ t, exec .portFlushDone s = .next t ∧ keeps t ∧ (∀ j, s.egressOf j = some f → (t.que j).items = [])
        ∧ t.dp.flushQ = s.dp.flushQ.tail ∧ (s.dp.flushQ = [] → t.get F.BUF_PORT_STATE_FLUSHING f = 0 ∧ t.get F.BUF_FLUSH_BUSY = 0)
        ∧ (∀ n ns, s.dp.flushQ = n :: ns → n < 132 → t.get F.BUF_PORT_STATE_FLUSHING n = 1 ∧ t.get F.BUF_PORT_STATE_PEND n = 0))
    ∧ (WriteReaches s ⟨.BUF_AUDIT_CTRL, 0, 0, 0⟩ v → ∃ t, exec (.auditGo v) s = .next t ∧ t = { s with regs := t.regs }
        ∧ t.get F.BUF_AUDIT_CTRL_PERIOD = fv v F.BUF_AUDIT_CTRL_PERIOD ∧ t.get F.BUF_AUDIT_CTRL_RECLAIM = fv v F.BUF_AUDIT_CTRL_RECLAIM
        ∧ t.get F.BUF_AUDIT_STATUS_BUSY = (if fv v F.BUF_AUDIT_CTRL_GO = 1 then 1 else s.get F.BUF_AUDIT_STATUS_BUSY)
        ∧ t.get F.BUF_AUDIT_STATUS_POOL = (if fv v F.BUF_AUDIT_CTRL_GO = 1 ∧ s.get F.BUF_AUDIT_STATUS_BUSY = 0 then 0 else s.get F.BUF_AUDIT_STATUS_POOL))
    ∧ (s.get F.BUF_AUDIT_CTRL_PERIOD ≠ 0 → s.get F.BUF_AUDIT_STATUS_BUSY = 0 → ∃ t, exec .auditPeriod s = .next t ∧ t = { s with regs := t.regs }
        ∧ t.get F.BUF_AUDIT_STATUS_BUSY = 1 ∧ t.get F.BUF_AUDIT_STATUS_POOL = 0)
    ∧ (s.get F.BUF_AUDIT_CTRL_PERIOD = 0 ∨ s.get F.BUF_AUDIT_STATUS_BUSY = 1 → exec .auditPeriod s = .next s)
    ∧ (¬ visits → exec (.auditVisit b i) s = .next s)
    ∧ (visits → ∃ t, exec (.auditVisit b i) s = .next t ∧ keeps t
        ∧ (¬ leaked → ¬ lost → t.buf b i = { y0 with suspect := none })
        ∧ (leaked → y0.suspect ≠ some (true, y0.epoch) → t.buf b i = { y0 with suspect := some (true, y0.epoch) })
        ∧ (lost → y0.suspect ≠ some (false, y0.epoch) → t.buf b i = { y0 with suspect := some (false, y0.epoch) })
        ∧ (leaked → y0.suspect = some (true, y0.epoch) → t.get F.BUF_EVT_CNT_LEAKED = satAdd 511 (s.get F.BUF_EVT_CNT_LEAKED) 1
            ∧ Recorded s t 0x21 0x13 i .device 7 0 b ∧ (s.get F.BUF_AUDIT_CTRL_RECLAIM = 1 → (t.buf b i).used = false ∧ (t.buf b i).free = true ∧ (t.buf b i).refs = 0)
            ∧ (s.get F.BUF_AUDIT_CTRL_RECLAIM = 0 → t.buf b i = y0))
        ∧ (lost → y0.suspect = some (false, y0.epoch) → t.get F.BUF_EVT_CNT_LOST = satAdd 511 (s.get F.BUF_EVT_CNT_LOST) 1
            ∧ Recorded s t 0x21 0x14 i .device 7 0 b ∧ (s.get F.BUF_AUDIT_CTRL_RECLAIM = 1 → (t.buf b i).free = true) ∧ (s.get F.BUF_AUDIT_CTRL_RECLAIM = 0 → t.buf b i = y0))
        ∧ (b.val = s.chip.lastPool → i + 1 = s.chip.poolCount b → t.get F.BUF_AUDIT_STATUS_BUSY = 0
            ∧ t.get F.BUF_AUDIT_STATUS_PASSES = (s.get F.BUF_AUDIT_STATUS_PASSES + 1) % 65536)
        ∧ (b.val ≠ s.chip.lastPool ∨ i + 1 ≠ s.chip.poolCount b → t.get F.BUF_AUDIT_STATUS_BUSY = 1 ∧ t.get F.BUF_AUDIT_STATUS_POOL = b))
    ∧ (¬ sampled → exec (.queueSample q) s = .next s)
    ∧ (sampled → ¬ busy → ∃ t, exec (.queueSample q) s = .next t ∧ t = { s with tel := t.tel }
        ∧ sget {} t.tel.queues q = { maxDepth := s.depthBytes q })
    ∧ (sampled → busy → s.get F.TEL_STATUS_COAL = 1 → ∃ t, exec (.queueSample q) s = .next t ∧ t = { s with tel := t.tel }
        ∧ sget {} t.tel.queues q = { acc with merged := acc.merged + 1 })
    ∧ (sampled → busy → s.get F.TEL_STATUS_COAL = 0 → s.get F.TEL_CTRL_DEST = 0 → 72 ≤ s.ringLeft → 72 ≤ s.telFree →
        ∃ t, exec (.queueSample q) s = .next t ∧ keeps t ∧ t.dp = s.dp ∧ t.get F.TEL_WR_WR = (s.get F.TEL_WR_WR + 72) % 2 ^ 29
          ∧ sget {} t.tel.queues q = { maxDepth := s.depthBytes q })

/-- R344, R345, R367 to R371, R418, R420 to R422, R427: the oldest learning request is judged against the entry as it stands; a
freeze ends; the coarse time advances and with ageing on what has expired goes; a flush starts and ends; an exception queue starts,
stops and is read on; a gate list is committed, cancelled, disabled, starts at its instant and moves through its entries. Which
entries a flush takes first is open, and free in the model (log 40). -/
def Obligations.LearningQueuesAndGates : Prop :=
  ∀ (s : State) (key : BitVec 64) (q : Fin 8) (g : Fin 128) (v : Word) (x : Learn) (xs : List Learn) (tid i : Nat) (l : GList),
    let keeps (t : State) := t.pending = s.pending ∧ t.cmd = s.cmd ∧ t.map = s.map ∧ t.tree = s.tree ∧ t.clk = s.clk
    let stat (t : State) (n e : Nat) := sget 0 t.tel.stats (statKey 1 n e)
    let next := (s.get F.FWD_AGE_STATUS_NOW + 1) % 65536
    let noStash := s.tabAll 0x11 = []
    let errQ (c : Instr) (n : Status) := ∃ t, exec c s = .next t ∧ Rejected s t F.CLS_EXQ_STATUS_ERR q n
    let errF (n : Status) := ∃ t, exec (.fwdFlush v) s = .next t ∧ Rejected s t F.FWD_STATUS_ERR 0 n
    let errG (c : Instr) (n : Status) := ∃ t, exec c s = .next t ∧ Rejected s t F.SCH_STATUS_ERR 0 n
    (s.dp.learns = [] → exec .learnRequest s = .next s)
    ∧ (s.dp.learns = x :: xs → let sees := s.sight x.key x.port x.term
        (sees = .none → ∃ t, exec .learnRequest s = .next t ∧ t = { s with dp := { s.dp with learns := xs } })
        ∧ (sees = .refresh tid i → entValid (s.tabGet tid i) = true → ∃ t, exec .learnRequest s = .next t ∧ keeps t ∧ t.regs = s.regs ∧ t.dp.learns = xs
            ∧ ef (t.tabGet tid i) 0 15 0 = s.get F.FWD_AGE_STATUS_NOW ∧ entValid (t.tabGet tid i) = true)
        ∧ (sees = .sconf → ∃ t, exec .learnRequest s = .next t ∧ keeps t ∧ t.dp = { s.dp with learns := xs }
            ∧ t.get F.FWD_EVT_CNT2_SCONF = satAdd 511 (s.get F.FWD_EVT_CNT2_SCONF) 1 ∧ stat t x.port 0x0D = stat s x.port 0x0D + 1)
        ∧ (sees = .pconf → ∃ t, exec .learnRequest s = .next t ∧ keeps t ∧ t.dp = { s.dp with learns := xs }
            ∧ t.get F.FWD_EVT_CNT2_PCONF = satAdd 511 (s.get F.FWD_EVT_CNT2_PCONF) 1 ∧ stat t x.port 0x0E = stat s x.port 0x0E + 1)
        ∧ (sees = .move tid i → ∃ t, exec .learnRequest s = .next t ∧ keeps t ∧ t.dp.learns = xs ∧ t.get F.FWD_STATUS_MOVE = 1
            ∧ t.get F.FWD_EVT_CNT0_MOVES = satAdd 262143 (s.get F.FWD_EVT_CNT0_MOVES) 1 ∧ stat t x.port 0x0C = stat s x.port 0x0C + 1
            ∧ t.get F.FWD_MOVE_LAST_VALID = 1)
        ∧ (∀ u a b n r, sees = .learn →
            { s with dp := { s.dp with learns := xs } }.htInsert 0x10 (s.learnedWords x.key x.port x.term) (fun old => old) .device .ok = .at_ u a b n r →
            ∃ t, exec .learnRequest s = .next t ∧ t.dp = u.dp ∧ t.get F.FWD_EVT_CNT0_LEARNS = satAdd 262143 (u.get F.FWD_EVT_CNT0_LEARNS) 1
              ∧ stat t x.port 0x0B = stat u x.port 0x0B + 1))
    ∧ ((∀ e ∈ s.dp.tracks, e.1 = key.toNat → e.2.hold = false) → exec (.freezeHoldEnd key) s = .next s)
    ∧ ((∃ e ∈ s.dp.tracks, e.1 = key.toNat ∧ e.2.hold = true) → ∃ t, exec (.freezeHoldEnd key) s = .next t ∧ t = { s with dp := t.dp }
        ∧ t.dp.tracks = s.dp.tracks.filter (fun e => e.1 ≠ key.toNat)
        ∧ (s.htFind 0x10 (beBytes 8 key.toNat) = none → t.dp.tab = s.dp.tab)
        ∧ (s.htFind 0x10 (beBytes 8 key.toNat) = some (tid, i) → entValid (s.tabGet tid i) = true → ef (t.tabGet tid i) 0 33 33 = 0
            ∧ entValid (t.tabGet tid i) = true ∧ ∀ n, n ≠ 0 → ent (t.tabGet tid i) n = ent (s.tabGet tid i) n))
    ∧ (s.get F.FWD_AGE_CTRL_EN = 0 → ∃ t, exec .ageTick s = .next t ∧ t = { s with regs := t.regs } ∧ t.get F.FWD_AGE_STATUS_NOW = next
        ∧ t.get F.FWD_AGE_STATUS_SWEEPS = s.get F.FWD_AGE_STATUS_SWEEPS)
    ∧ (s.get F.FWD_AGE_CTRL_EN = 1 → ∃ t, exec .ageTick s = .next t ∧ keeps t ∧ t.get F.FWD_AGE_STATUS_NOW = next
        ∧ t.get F.FWD_AGE_STATUS_SWEEPS = (s.get F.FWD_AGE_STATUS_SWEEPS + 1) % 65536 ∧ (noStash → ∀ e ∈ t.emAll, t.expired e.2.2 = false))
    ∧ (WriteReaches s ⟨.FWD_FLUSH, 0, 0, 0⟩ v →
        let listed := portListed (fv v F.FWD_FLUSH_PORT) = true
        (¬ listed → errF .erange) ∧ (listed → s.get F.FWD_FLUSH_BUSY = 1 → errF .estate)
        ∧ (listed → s.get F.FWD_FLUSH_BUSY = 0 → ∃ t, exec (.fwdFlush v) s = .next t ∧ keeps t ∧ t.get F.FWD_FLUSH_BUSY = fv v F.FWD_FLUSH_GO
            ∧ t.get F.FWD_FLUSH_PORT = fv v F.FWD_FLUSH_PORT ∧ t.get F.FWD_FLUSH_GEN = fv v F.FWD_FLUSH_GEN
            ∧ t.get F.FWD_FLUSH_BYPORT = fv v F.FWD_FLUSH_BYPORT ∧ t.get F.FWD_FLUSH_BYGEN = fv v F.FWD_FLUSH_BYGEN
            ∧ t.get F.FWD_FLUSH_INCLSTATIC = fv v F.FWD_FLUSH_INCLSTATIC ∧ (fv v F.FWD_FLUSH_GO = 0 → t.dp = s.dp)))
    ∧ (s.get F.FWD_FLUSH_BUSY = 0 → exec .fwdFlushDone s = .next s)
    ∧ (s.get F.FWD_FLUSH_BUSY = 1 → ∃ t, exec .fwdFlushDone s = .next t ∧ keeps t ∧ t.get F.FWD_FLUSH_BUSY = 0
        ∧ (noStash → ∀ e ∈ t.emAll, t.flushMatch e.2.2 = true → t.flushEarly e = true))
    ∧ (WriteReaches s ⟨.CLS_EXQ_CTRL, q, 0, 0⟩ v →
        let z := fv v F.CLS_EXQ_CTRL_SLOTSZ
        let n := fv v F.CLS_EXQ_CTRL_SIZE
        let on := s.get F.CLS_EXQ_STATUS_ENABLED q = 1
        let legal := z ≠ 3 ∧ 6 ≤ n ∧ n ≤ 14
        let same := z = s.get F.CLS_EXQ_CTRL_SLOTSZ q ∧ n = s.get F.CLS_EXQ_CTRL_SIZE q
        (¬ legal → errQ (.clsExqCtrl q v) .erange) ∧ (legal → on → ¬ same → errQ (.clsExqCtrl q v) .estate)
        ∧ (legal → (on → same) → ∃ t, exec (.clsExqCtrl q v) s = .next t ∧ keeps t ∧ t.get F.CLS_EXQ_CTRL_EN q = fv v F.CLS_EXQ_CTRL_EN
            ∧ t.get F.CLS_EXQ_CTRL_SLOTSZ q = z ∧ t.get F.CLS_EXQ_CTRL_SIZE q = n ∧ t.get F.CLS_EXQ_STATUS_ENABLED q = fv v F.CLS_EXQ_CTRL_EN
            ∧ (fv v F.CLS_EXQ_CTRL_EN = 1 → ¬ on → t.get F.CLS_EXQ_TAIL_TAIL q = 0 ∧ t.get F.CLS_EXQ_HEAD_HEAD q = 0)
            ∧ (on ∨ fv v F.CLS_EXQ_CTRL_EN = 0 → t.get F.CLS_EXQ_TAIL_TAIL q = s.get F.CLS_EXQ_TAIL_TAIL q)))
    ∧ (WriteReaches s ⟨.CLS_EXQ_HEAD, q, 0, 0⟩ v →
        let far := 2 ^ s.get F.CLS_EXQ_CTRL_SIZE q < (s.get F.CLS_EXQ_TAIL_TAIL q + 65536 - fv v F.CLS_EXQ_HEAD_HEAD) % 65536
        (far → errQ (.clsExqHead q v) .erange)
        ∧ (¬ far → ∃ t, exec (.clsExqHead q v) s = .next t ∧ t = { s with regs := t.regs } ∧ t.get F.CLS_EXQ_HEAD_HEAD q = fv v F.CLS_EXQ_HEAD_HEAD))
    ∧ (WriteReaches s ⟨.GATE_CTRL, g, 0, 0⟩ v →
        let len := fv v F.GATE_CTRL_LEN
        let alist := fv v F.GATE_CTRL_ALIST
        let commit := fv v F.GATE_CTRL_COMMIT = 1
        let on := fv v F.GATE_CTRL_EN = 1
        let y := s.gate g
        let cycle := s.get F.GATE_CYCLE_CYCLE g
        let ns := s.get F.GATE_BASE_NS_NS g
        let base := s.get F.GATE_BASE_SEC_SEC g * 1000000000 + ns
        let zero := ∃ k, k < len ∧ ef (s.tabGet 0x30 ((2 * g + alist) * 256 + k)) 1 29 0 = 0
        let busy := ¬ on ∨ y.pend ≠ none ∨ (∃ o, y.oper = some o ∧ o.s = alist)
        let bad := cycle < 1000 ∨ 1000000000 < cycle ∨ 1000000000 ≤ ns ∨ zero
        let sized := 1 ≤ len ∧ len ≤ 256
        (s.gated g = false → exec (.commit g v) s = .next s ∧ exec (.cancel g v) s = .next s ∧ exec (.gateDisable g v) s = .next s)
        ∧ (s.gated g = true →
          (¬ sized → errG (.commit g v) .erange ∧ errG (.cancel g v) .erange ∧ errG (.gateDisable g v) .erange)
          ∧ (sized → commit → busy → errG (.commit g v) .estate) ∧ (sized → commit → ¬ busy → bad → errG (.commit g v) .erange)
          ∧ (sized → commit → ¬ busy → ¬ bad → ∃ t o, exec (.commit g v) s = .next t ∧ keeps t ∧ (t.gate g).pend = some o ∧ (t.gate g).oper = y.oper
              ∧ o.s = alist ∧ o.len = len ∧ o.cycle = cycle ∧ base ≤ o.start ∧ (o.start - base) % cycle = 0
              ∧ s.clk.tb + 2000 * tbPerNs ≤ o.start * tbPerNs ∧ (o.start = base ∨ (o.start - cycle) * tbPerNs < s.clk.tb + 2000 * tbPerNs)
              ∧ t.get F.GATE_STATUS_STATE g = (if y.oper = none then 1 else 3) ∧ t.get F.GATE_CTRL_EN g = 1 ∧ (o.start ≠ base → t.get F.GATE_STATUS_ADV g = 1))
          ∧ (sized → ¬ commit → on → fv v F.GATE_CTRL_CANCEL = 1 → ∃ t, exec (.cancel g v) s = .next t ∧ keeps t ∧ (t.gate g).pend = none
              ∧ (t.gate g).oper = y.oper ∧ t.get F.GATE_STATUS_STATE g = (if y.oper = none then 0 else 2) ∧ t.get F.GATE_CTRL_EN g = 1)
          ∧ (sized → ¬ commit → ¬ on → s.get F.GATE_CTRL_EN g = 1 → ∃ t, exec (.gateDisable g v) s = .next t ∧ keeps t ∧ t.gate g = {}
              ∧ t.get F.GATE_STATUS_STATE g = 0 ∧ t.get F.GATE_STATUS_GATES g = 0xFF ∧ t.get F.GATE_CTRL_EN g = 0)))
    ∧ ((s.gate g).pend = none → exec (.gateListStart g) s = .next s)
    ∧ ((s.gate g).pend = some l → l.s < 2 → ∃ t, exec (.gateListStart g) s = .next t ∧ t = { s with regs := t.regs, dp := t.dp } ∧ (t.gate g).oper = some l
        ∧ (t.gate g).pend = none ∧ (t.gate g).cycleAt = l.start ∧ t.get F.GATE_STATUS_STATE g = 2 ∧ t.get F.GATE_STATUS_OLIST g = l.s
        ∧ t.get F.GATE_STATUS_ENTRY g = 0 ∧ t.get F.GATE_STATUS_GATES g = (s.gateEntry g l 0).1)
    ∧ ((s.gate g).oper = none → exec (.gateEntry g) s = .next s)
    ∧ ((s.gate g).oper = some l → l.s < 2 → s.get F.GATE_STATUS_ENTRY g < 256 → ∃ t, exec (.gateEntry g) s = .next t ∧ t = { s with regs := t.regs, dp := t.dp }
        ∧ (t.gate g).oper = some l ∧ (t.gate g).pend = (s.gate g).pend
        ∧ ((s.gate g).entryEnd < (s.gate g).cycleAt + l.cycle → t.get F.GATE_STATUS_ENTRY g = s.get F.GATE_STATUS_ENTRY g + 1
            ∧ (t.gate g).cycleAt = (s.gate g).cycleAt ∧ t.get F.GATE_STATUS_GATES g = (s.gateEntry g l (s.get F.GATE_STATUS_ENTRY g + 1)).1)
        ∧ ((s.gate g).cycleAt + l.cycle ≤ (s.gate g).entryEnd → t.get F.GATE_STATUS_ENTRY g = 0 ∧ (t.gate g).cycleAt = (s.gate g).cycleAt + l.cycle
            ∧ t.get F.GATE_STATUS_GATES g = (s.gateEntry g l 0).1))

/-- R448, R451, R452, R455 to R458, R463 to R468: a measurement is taken or rejected and moves its domain between its states; a
domain enters holdover; the time base steps to the followed domain and follows the other; snapshots, the frequency loop, pulses,
time-of-day characters, triggers and captures. What the servo makes of a measurement is free in the model (log 21). -/
def Obligations.TimeCommands : Prop :=
  ∀ (s : State) (d : Fin 2) (i : Fin 4) (c : Fin 6) (v : Word) (byte : Byte) (rising : Bool),
    let keeps (t : State) := t.pending = s.pending ∧ t.cmd = s.cmd ∧ t.map = s.map ∧ t.boot = s.boot
    let err (k : Instr) (n : Status) := ∃ t, exec k s = .next t ∧ Rejected s t F.TIME_STATUS_ERR 0 n
    let st := s.domState d
    let mt := s.rd .TIME_DOM_MTIME d
    let age := (s.now - mt).toNat
    let ofs : Int := signed 36 (s.rd .TIME_DOM_OFS d).toNat * (tbPerNs : Nat) + (fv v F.TIME_DOM_GO_FRAC * tbPerNs / 65536 : Nat)
    let r := (s.residual d ofs age).natAbs
    let thr := s.get F.TIME_DOM_CTRL_LOCKTHR d * tbPerNs
    let wrong := timeBefore s.now mt = true ∨ 2000000000 < age
    let soon := ∃ n, (s.dom d).last = some n ∧ s.clk.total < n + 9720000
    let want : Fin 2 := if fv v F.TIME_CTRL_SEL = 1 then 1 else 0
    let src := fv v F.TIME_SNAP_SRC
    let tree := fv v F.TIME_SNAP_TREE
    let ahead := (s.rd .TIME_SNAP_SF - BitVec.ofNat 36 s.clk.frame).toNat
    let latched (t : State) (n : Nat) (ok : Bool) := t.rd .TIME_SNAP_W0 = nth 0 (clockWords n ok) 0 ∧ t.rd .TIME_SNAP_W1 = nth 0 (clockWords n ok) 1
        ∧ t.rd .TIME_SNAP_W2 = nth 0 (clockWords n ok) 2 ∧ t.rd .TIME_SNAP_W3 = nth 0 (clockWords n ok) 3
    let tx := s.tim.todTx.get d
    let rx := s.tim.todRx.get d
    let edge := s.get F.TIME_CAP_CTRL_EDGE c
    let taken := s.clk.running = true ∧ s.get F.TIME_CAP_CTRL_EN c = 1 ∧ (if rising then edge % 2 = 1 else 2 ≤ edge)
    let pulses := s.clk.running = true ∧ s.get F.TIME_PPS_CTRL_EN d = 1 ∧ s.safe = false
    (WriteReaches s ⟨.TIME_DOM_GO, d, 0, 0⟩ v → fv v F.TIME_DOM_GO_GO = 1 →
      (s.get F.TIME_DOM_CTRL_EN d = 0 → err (.measurement d v) .estate)
      ∧ (s.get F.TIME_DOM_CTRL_EN d = 1 → (wrong → err (.measurement d v) .erange) ∧ (¬ wrong → soon → err (.measurement d v) .ebusy)
          ∧ (¬ wrong → ¬ soon → ∃ t, exec (.measurement d v) s = .next t ∧ keeps t ∧ (t.dom d).last = some s.clk.total
              ∧ t.get F.TIME_DOM_GO_FRAC d = fv v F.TIME_DOM_GO_FRAC
              ∧ (st = domFREE → t.domState d = domACQ ∧ t.get F.TIME_DOM_FREQ_FREQ d = 0 ∧ (t.dom d).good = 0
                  ∧ (t.dom d).gap = ofs - signed 36 (s.get F.TIME_RATE_A) * age * 3888)
              ∧ (st = domACQ → thr < r → t.domState d = domACQ ∧ (t.dom d).good = 0)
              ∧ (st = domACQ → r ≤ thr → (s.dom d).good < 7 → t.domState d = domACQ ∧ (t.dom d).good = (s.dom d).good + 1)
              ∧ (st = domACQ → r ≤ thr → 7 ≤ (s.dom d).good → t.domState d = domLOCKED)
              ∧ (st = domLOCKED → 16 * thr < r → t.domState d = domACQ ∧ (t.dom d).good = 0)
              ∧ (st = domLOCKED → r ≤ 16 * thr → t.domState d = domLOCKED)
              ∧ (st = domHOLD → t.domState d = domACQ ∧ (t.dom d).good = (if r ≤ thr then 1 else 0)))))
    ∧ (st = domLOCKED → ∃ t, exec (.dhold d) s = .next t ∧ keeps t ∧ t.domState d = domHOLD ∧ (t.dom d).good = 0 ∧ t.get F.TIME_EVT_CAUSE_DHOLD = 1)
    ∧ (st ≠ domLOCKED → exec (.dhold d) s = .next s)
    ∧ (let back := s.get F.TIME_CTRL_AUTO = 1 ∧ s.get F.TIME_CTRL_REVERT = 1 ∧ s.get F.TIME_CTRL_SEL = 1 ∧ s.domState 0 = domLOCKED
      (back → ∃ t, exec .wtrExpiry s = .next t ∧ keeps t ∧ t.get F.TIME_CTRL_SEL = 0 ∧ t.get F.TIME_EVT_CAUSE_SWITCH = 1)
      ∧ (¬ back → exec .wtrExpiry s = .next s))
    ∧ (WriteReaches s ⟨.TIME_DOM_CTRL, d, 0, 0⟩ v →
      let bad := 7 < fv v F.TIME_DOM_CTRL_BW ∨ fv v F.TIME_DOM_CTRL_HOLD = 0 ∨ fv v F.TIME_DOM_CTRL_LOCKTHR = 0
      let tracked := st = domLOCKED ∨ st = domHOLD
      (bad → err (.requal d v) .erange)
      ∧ (¬ bad → ∃ t, exec (.requal d v) s = .next t ∧ keeps t ∧ t.get F.TIME_DOM_CTRL_EN d = fv v F.TIME_DOM_CTRL_EN
          ∧ t.get F.TIME_DOM_CTRL_LOCKTHR d = fv v F.TIME_DOM_CTRL_LOCKTHR ∧ t.get F.TIME_DOM_CTRL_HOLD d = fv v F.TIME_DOM_CTRL_HOLD
          ∧ t.domState d = (if fv v F.TIME_DOM_CTRL_EN = 0 then domFREE else if fv v F.TIME_DOM_CTRL_REQUAL = 1 ∧ tracked then domACQ else st)))
    ∧ (WriteReaches s ⟨.TIME_CTRL, 0, 0, 0⟩ v →
      let bad := fv v F.TIME_CTRL_WTR = 0 ∨ fv v F.TIME_CTRL_SLEWMAX = 0 ∨ fv v F.TIME_CTRL_SLEWRATE = 0 ∨ 10 < fv v F.TIME_CTRL_TAU
      let unheard := want ≠ s.sel ∧ (s.get F.TIME_DOM_CTRL_EN want = 0 ∨ s.domState want = domFREE)
      let loose := fv v F.TIME_CTRL_STEP = 1 ∧ s.domState want ≠ domLOCKED ∧ s.domState want ≠ domHOLD
      (bad → err (.step v) .erange) ∧ (¬ bad → unheard ∨ loose → err (.step v) .estate)
      ∧ (¬ bad → ¬ unheard → ¬ loose → fv v F.TIME_CTRL_STEP = 1 → ∃ t, exec (.step v) s = .next t ∧ keeps t
          ∧ t.clk = { s.clk with tb := ((s.clk.tb : Int) + (s.dom want).gap).toNat } ∧ t.get F.TIME_STATUS_LOCKEDONCE = 1 ∧ t.get F.TIME_EVT_CAUSE_STEP = 1
          ∧ (∀ k : Fin 2, (t.dom k).gap = (s.dom k).gap - (s.dom want).gap ∧ t.domState k = s.domState k)
          ∧ (fv v F.TIME_CTRL_AUTO = 0 → t.sel = want))
      ∧ (¬ bad → ¬ unheard → fv v F.TIME_CTRL_STEP = 0 → fv v F.TIME_CTRL_ISTEP = 0 → ∃ t, exec (.step v) s = .next t ∧ keeps t ∧ t.clk = s.clk
          ∧ t.get F.TIME_CTRL_TAU = fv v F.TIME_CTRL_TAU ∧ (fv v F.TIME_CTRL_AUTO = 0 → t.sel = want)
          ∧ (want ≠ s.sel → t.get F.TIME_EVT_CAUSE_SWITCH = 1)))
    ∧ (WriteReaches s ⟨.TIME_SNAP, 0, 0, 0⟩ v →
      let go := fv v F.TIME_SNAP_GO = 1
      let at_ := fv v F.TIME_SNAP_AT = 1
      let missing := go ∧ at_ ∧ s.chip.trees ≤ tree
      let bad := src = 3 ∨ (go ∧ at_ ∧ (ahead < 1 ∨ 8000 < ahead))
      let held := go ∧ (s.get F.TIME_SNAP_BUSY = 1 ∨ (at_ ∧ s.get F.PON_TREE_STATUS_ENABLED tree = 0))
      (missing → err (.timeSnap v) .eabsent) ∧ (¬ missing → bad → err (.timeSnap v) .erange) ∧ (¬ missing → ¬ bad → held → err (.timeSnap v) .estate)
      ∧ (¬ missing → ¬ bad → ¬ held → ∃ t, exec (.timeSnap v) s = .next t ∧ t = { s with regs := t.regs } ∧ t.get F.TIME_SNAP_SRC = src ∧ t.get F.TIME_SNAP_TREE = tree
          ∧ (go → at_ → t.get F.TIME_SNAP_BUSY = 1)
          ∧ (go → ¬ at_ → t.get F.TIME_SNAP_BUSY = 0 ∧ latched t (s.domClock src s.clk.cycle) (s.domValid src))))
    ∧ (s.get F.TIME_SNAP_BUSY = 1 → ∃ t, exec .sfdone s = .next t ∧ keeps t ∧ t.get F.TIME_SNAP_BUSY = 0 ∧ t.get F.TIME_EVT_CAUSE_SFDONE = 1
        ∧ latched t (s.domClock (s.get F.TIME_SNAP_SRC) s.clk.cycle + s.get F.TIME_PORT_TXDLY_TXDLY (64 + s.get F.TIME_SNAP_TREE) * tbPerNs / 256)
            (s.domValid (s.get F.TIME_SNAP_SRC)))
    ∧ (s.get F.TIME_SNAP_BUSY = 0 → exec .sfdone s = .next s)
    ∧ (s.get F.TIME_FREQ_CTRL_FSRC ≠ 0 →
      (s.get F.TIME_FREQ_STATUS_STATE ≠ 3 → ∃ t, exec .freqSourceLoss s = .next t ∧ keeps t ∧ t.get F.TIME_FREQ_STATUS_STATE = 3
          ∧ t.get F.TIME_STATUS_FHOLD = 1 ∧ t.get F.TIME_EVT_CAUSE_FHOLD = 1)
      ∧ (s.get F.TIME_FREQ_STATUS_STATE = 3 → exec .freqSourceLoss s = .next s ∧ ∃ t, exec .freqSourceReturn s = .next t ∧ t = { s with regs := t.regs }
          ∧ t.get F.TIME_FREQ_STATUS_STATE = 1 ∧ t.get F.TIME_STATUS_FHOLD = 0)
      ∧ (s.get F.TIME_FREQ_STATUS_STATE = 1 → ∃ t, exec .frequencyLoopLock s = .next t ∧ t = { s with regs := t.regs, free := t.free }
          ∧ t.get F.TIME_FREQ_STATUS_STATE = 2)
      ∧ (s.get F.TIME_FREQ_STATUS_STATE ≠ 1 → exec .frequencyLoopLock s = .next s))
    ∧ (s.get F.TIME_FREQ_CTRL_FSRC = 0 → exec .freqSourceLoss s = .next s ∧ exec .freqSourceReturn s = .next s ∧ exec .frequencyLoopLock s = .next s)
    ∧ (∃ t, exec .rclkOutResume s = .next t ∧ t = { s with tim := t.tim } ∧ t.tim = { s.tim with rclkDown := false })
    ∧ (pulses → (s.get F.TIME_TOD_CTRL_EN d = 0 ∨ s.get F.TIME_TOD_CTRL_TXPPS d = 0 → ∃ t, exec (.ppsOut d) s = .next t ∧ t = { s with outs := s.outs ++ [.pps d] })
        ∧ (s.get F.TIME_TOD_CTRL_EN d = 1 → s.get F.TIME_TOD_CTRL_TXPPS d = 1 → ∃ t, exec (.ppsOut d) s = .next t ∧ t = { s with outs := t.outs, tim := t.tim }
            ∧ t.outs = s.outs ++ .pps d :: tx.map (Out.todByte d) ∧ t.tim.todTx.get d = [] ∧ t.tim.todRx = s.tim.todRx))
    ∧ (¬ pulses → exec (.ppsOut d) s = .next s)
    ∧ (WriteReaches s ⟨.TIME_TOD_TX, d, 0, 0⟩ v →
      (tx.length < 64 → ∃ t, exec (.todTx d v) s = .next t ∧ t = { s with tim := t.tim } ∧ t.tim.todTx.get d = tx ++ [BitVec.ofNat 8 v.toNat] ∧ t.tim.todRx = s.tim.todRx)
      ∧ (64 ≤ tx.length → ∃ t, exec (.todTx d v) s = .next t ∧ t = { s with regs := t.regs } ∧ t.get F.TIME_TOD_STAT_OVR d = 1))
    ∧ (s.get F.TIME_TOD_CTRL_EN d = 0 → exec (.todRx d byte rising) s = .next s)
    ∧ (s.get F.TIME_TOD_CTRL_EN d = 1 →
      (∃ t, exec (.todRx d byte false) s = .next t ∧ t = { s with regs := t.regs } ∧ t.get F.TIME_TOD_STAT_FERR d = 1)
      ∧ (rx.length < 64 → ∃ t, exec (.todRx d byte true) s = .next t ∧ t = { s with tim := t.tim } ∧ t.tim.todRx.get d = rx ++ [byte] ∧ t.tim.todTx = s.tim.todTx)
      ∧ (64 ≤ rx.length → ∃ t, exec (.todRx d byte true) s = .next t ∧ t = { s with regs := t.regs } ∧ t.get F.TIME_TOD_STAT_OVR d = 1))
    ∧ (s.get F.TIME_TRIG_CTRL_PEND i = 1 → ∃ t more, exec (.triggerFire i) s = .next t ∧ keeps t ∧ t.get F.TIME_TRIG_CTRL_PEND i = 0 ∧ t.rd .TIME_TRIG_TIME i = 0
        ∧ (t.get F.TIME_EVT_CAUSE_TRIG).testBit i = true ∧ t.outs = s.outs ++ more ++ (if s.safe then [] else [.trig i]))
    ∧ (s.get F.TIME_TRIG_CTRL_PEND i = 0 → exec (.triggerFire i) s = .next s)
    ∧ (taken → ∃ t, exec (.capture c rising) s = .next t ∧ keeps t ∧ t.rd .TIME_CAP_DATA c = s.now ∧ t.get F.TIME_CAP_STAT_NEW c = 1
        ∧ t.get F.TIME_CAP_STAT_OVR c = (if s.get F.TIME_CAP_STAT_NEW c = 1 then 1 else s.get F.TIME_CAP_STAT_OVR c) ∧ (t.get F.TIME_EVT_CAUSE_CAP).testBit c = true)
    ∧ (¬ taken → exec (.capture c rising) s = .next s)

/-- R471, R472, R474, R475, R478 to R480, R482, R484, R485, R487: a lane's generator and checker, its lock, the end of its exit; a port's
lanes and limits; a link comes up, goes down, or stays down after failed training; pauses are sent again, received and run out; a
replication pair is formed and a recovery function times out. -/
def Obligations.SerialAndUplinks : Prop :=
  ∀ (s : State) (k : Fin 148) (l : Fin 40) (j c : Fin 8) (v : Word) (b : Bool) (q : BitVec 16) (classes : BitVec 8) (qs : List (BitVec 16)),
    let keeps (t : State) := t.pending = s.pending ∧ t.map = s.map ∧ t.tree = s.tree ∧ t.boot = s.boot ∧ t.clk = s.clk
    let err (i : Instr) (n : Status) := ∃ t, exec i s = .next t ∧ Rejected s t F.SER_STATUS_ERR 0 n
    let stored (t : State) (f : Fld) (i : Nat) := t.get f i = fv v f
    let same (f : Fld) (i : Nat) := fv v f = s.get f i
    let lane := s.laneState k
    let up := s.get F.UPL_PORT_STATUS_UP l = 1
    let mode := s.get F.UPL_FC_CTRL_MODE l
    let rx := s.get F.UPL_FC_STATUS_RXPAUSED l
    let tx := s.get F.UPL_FC_STATUS_TXPAUSED l
    let stat (t : State) := sget 0 t.tel.stats (statKey 2 l 8)
    let dropped (t : State) := t.get F.UPL_RX_CNT_CTLDROP l = satAdd (2 ^ (F.UPL_RX_CNT_CTLDROP.hi + 1 - F.UPL_RX_CNT_CTLDROP.lo) - 1) (s.get F.UPL_RX_CNT_CTLDROP l) 1
    (WriteReaches s ⟨.SER_PRBS_CTRL, k, 0, 0⟩ v → ∀ i ∈ [Instr.inj1 k v, .clr k v, .serPrbsCtrl k v],
      let gen := fv v F.SER_PRBS_CTRL_GEN = 1
      let chk := fv v F.SER_PRBS_CTRL_CHK = 1
      let inj := fv v F.SER_PRBS_CTRL_INJ1 = 1
      let laser := fv v F.SER_PRBS_CTRL_LASER = 1
      let rate := fv v F.SER_PRBS_CTRL_IRATE
      let bad := 5 < fv v F.SER_PRBS_CTRL_PAT ∨ (rate ≠ 0 ∧ (rate < 10 ∨ 40 < rate)) ∨ (144 ≤ k.val ∧ (gen ∨ chk ∨ inj ∨ rate ≠ 0)) ∨ (laser ∧ 64 ≤ k.val)
      let held := ((gen ∨ chk) ∧ s.laneUnitOn k = true) ∨ (laser ∧ s.isPeer (s.portTree k) = true)
          ∨ ((s.get F.SER_PRBS_CTRL_GEN k = 1 ∨ s.get F.SER_PRBS_CTRL_CHK k = 1) ∧ ¬ (same F.SER_PRBS_CTRL_PAT k ∧ same F.SER_PRBS_CTRL_INV k))
      (bad → err i .erange) ∧ (¬ bad → held → err i .estate)
      ∧ (¬ bad → ¬ held → ∃ t, exec i s = .next t ∧ keeps t ∧ t.dp = s.dp ∧ stored t F.SER_PRBS_CTRL_GEN k ∧ stored t F.SER_PRBS_CTRL_CHK k
          ∧ stored t F.SER_PRBS_CTRL_PAT k ∧ stored t F.SER_PRBS_CTRL_IRATE k ∧ stored t F.SER_PRBS_CTRL_LASER k
          ∧ (¬ chk → t.get F.SER_PRBS_CTRL_LOCK k = 0) ∧ (inj → gen → lane = lnACTIVE → t.outs = s.outs ++ [.prbsInject k]) ∧ (¬ (inj ∧ gen) → t.outs = s.outs)
          ∧ (fv v F.SER_PRBS_CTRL_CLR = 1 → t.rd .SER_PRBS_ERR k = 0 ∧ t.rd .SER_PRBS_BITS k = 0 ∧ t.get F.SER_PRBS_CTRL_LOCKLOSS k = 0)))
    ∧ (let checks := s.get F.SER_PRBS_CTRL_CHK k = 1 ∧ lane = lnACTIVE
      (checks → ∃ t, exec (.prbsLock k) s = .next t ∧ t = { s with regs := t.regs } ∧ t.get F.SER_PRBS_CTRL_LOCK k = 1) ∧ (¬ checks → exec (.prbsLock k) s = .next s))
    ∧ (s.get F.SER_PRBS_CTRL_LOCK k = 1 → ∃ t, exec (.prbsLockLoss k) s = .next t ∧ t = { s with regs := t.regs, free := t.free }
        ∧ t.get F.SER_PRBS_CTRL_LOCK k = 0 ∧ t.get F.SER_PRBS_CTRL_LOCKLOSS k = satAdd 4095 (s.get F.SER_PRBS_CTRL_LOCKLOSS k) 1)
    ∧ (s.get F.SER_PRBS_CTRL_LOCK k = 0 → exec (.prbsLockLoss k) s = .next s)
    ∧ (lane = lnEXITING → ∃ t, exec (.laneExitDone k) s = .next t ∧ t = { s with regs := t.regs } ∧ t.laneState k = lnACTIVE)
    ∧ (lane ≠ lnEXITING → exec (.laneExitDone k) s = .next s)
    ∧ (lane = lnACTIVE ∨ lane = lnEXITING → ∃ t, exec (.receiverAdapted k) s = .next t ∧ t = { s with regs := t.regs } ∧ t.get F.SER_LANE_STATUS_RXREADY k = 1
        ∧ t.get F.SER_LANE_STATUS_SIGDET k = (if k.val < 64 then s.get F.SER_LANE_STATUS_SIGDET k else 1))
    ∧ (lane ≠ lnACTIVE → lane ≠ lnEXITING → exec (.receiverAdapted k) s = .next s)
    ∧ (WriteReaches s ⟨.UPL_PORT_CTRL, l, 0, 0⟩ v →
      let conf := fv v F.UPL_PORT_CTRL_CONF = 1
      let n := 2 ^ fv v F.UPL_PORT_CTRL_WIDTH
      let frm := fv v F.UPL_PORT_CTRL_MAXFRM
      let old := if s.get F.UPL_PORT_CTRL_CONF l = 1 then 2 ^ s.get F.UPL_PORT_CTRL_WIDTH l else 1
      let bad := frm < 64 ∨ 9728 < frm ∨ fv v F.UPL_PORT_CTRL_UPHOLD = 0 ∨ (conf ∧ (l.val % 10 % n ≠ 0 ∨ 10 < l.val % 10 + n ∨ s.inWider l = true))
      let change := ¬ (same F.UPL_PORT_CTRL_CONF l ∧ same F.UPL_PORT_CTRL_WIDTH l ∧ same F.UPL_PORT_CTRL_ANEN l ∧ same F.UPL_PORT_CTRL_LTEN l)
      let held := change ∧ ∃ x, l.val ≤ x ∧ x < l.val + max old (if conf then n else 1) ∧ (s.dp.lanesOn.getLsbD x = true ∨ s.inPair x = true)
      (conf → s.chip.uplanes < l + n → err (.uplPortCtrl l v) .eabsent)
      ∧ ((conf → l + n ≤ s.chip.uplanes) → (bad → err (.uplPortCtrl l v) .erange) ∧ (¬ bad → held → err (.uplPortCtrl l v) .estate)
          ∧ (¬ bad → ¬ held → ∃ t, exec (.uplPortCtrl l v) s = .next t ∧ t = { s with regs := t.regs } ∧ stored t F.UPL_PORT_CTRL_CONF l
              ∧ stored t F.UPL_PORT_CTRL_WIDTH l ∧ stored t F.UPL_PORT_CTRL_MAXFRM l ∧ stored t F.UPL_PORT_CTRL_UPHOLD l
              ∧ stored t F.UPL_PORT_CTRL_ANEN l ∧ stored t F.UPL_PORT_CTRL_LTEN l
              ∧ (∀ x, conf → l.val < x → x < l.val + n → t.get F.UPL_PORT_CTRL_CONF x = 0))))
    ∧ (let rises := s.portOn l = true ∧ ¬ up ∧ s.domainState (macQuoin l) = domREADY
      (rises → ∃ t, exec (.linkUp l) s = .next t ∧ keeps t ∧ t.dp = s.dp ∧ t.get F.UPL_PORT_STATUS_UP l = 1 ∧ t.get F.UPL_PORT_STATUS_UPEV l = 1
          ∧ t.get F.UPL_PORT_STATUS_RFAULT l = 0) ∧ (¬ rises → exec (.linkUp l) s = .next s))
    ∧ (s.portOn l = true → up → ∃ t, exec (.linkDown l b) s = .next t ∧ keeps t ∧ t.get F.UPL_PORT_STATUS_UP l = 0 ∧ t.get F.UPL_PORT_STATUS_DOWNEV l = 1
        ∧ t.get F.UPL_PORT_STATUS_FLAPS l = satAdd 4095 (s.get F.UPL_PORT_STATUS_FLAPS l) 1 ∧ t.get F.UPL_PORT_STATUS_RFAULT l = b2n b
        ∧ t.get F.UPL_FC_STATUS_RXPAUSED l = 0 ∧ (t.get F.BUF_PORT_STATE_FLUSHING l = 1 ∨ t.get F.BUF_PORT_STATE_PEND l = 1))
    ∧ (s.portOn l = true → ¬ up → ∃ t, exec (.linkDown l b) s = .next t ∧ t = { s with regs := t.regs } ∧ t.get F.UPL_PORT_STATUS_RFAULT l = b2n b
        ∧ t.get F.UPL_PORT_STATUS_UP l = 0)
    ∧ (s.portOn l = false → exec (.linkDown l b) s = .next s) ∧ exec (.trainingRestart l) s = .next s
    ∧ (s.portOn l = true → ¬ up →
        (s.get F.UPL_PORT_CTRL_ANEN l = 1 → ∃ t, exec (.linkTrainingFailed l true) s = .next t ∧ t = { s with regs := t.regs } ∧ t.get F.UPL_PORT_STATUS_ANFAIL l = 1)
        ∧ (s.get F.UPL_PORT_CTRL_LTEN l = 1 → ∃ t, exec (.linkTrainingFailed l false) s = .next t ∧ t = { s with regs := t.regs } ∧ t.get F.UPL_PORT_STATUS_LTFAIL l = 1))
    ∧ (s.portOn l = false ∨ up → exec (.linkTrainingFailed l b) s = .next s)
    ∧ (WriteReaches s ⟨.UPL_FC_CTRL, l, 0, 0⟩ v →
      let n := fv v F.UPL_FC_CTRL_QUANTA
      let r := fv v F.UPL_FC_CTRL_REFRESH
      let bad := fv v F.UPL_FC_CTRL_MODE = 3 ∨ n = 0 ∨ r = 0 ∨ n * 512 ≤ r * 1000 * s.macRate l
      (bad → err (.uplFcCtrl l v) .erange)
      ∧ (¬ bad → ∃ t, exec (.uplFcCtrl l v) s = .next t ∧ keeps t ∧ t.dp = s.dp ∧ stored t F.UPL_FC_CTRL_MODE l ∧ stored t F.UPL_FC_CTRL_QUANTA l
          ∧ stored t F.UPL_FC_CTRL_REFRESH l ∧ stored t F.UPL_FC_CTRL_RXMASK l ∧ t.get F.UPL_FC_STATUS_RXPAUSED l = (if fv v F.UPL_FC_CTRL_MODE = mode then rx else 0)))
    ∧ (s.linkUp l = true → s.safe = false → tx ≠ 0 → ∃ t, exec (.pauseRefresh l) s = .next t ∧ t = { s with outs := t.outs, tel := t.tel }
        ∧ t.outs = s.outs ++ [.pause l (decide (mode = 2)) tx (s.get F.UPL_FC_CTRL_QUANTA l)])
    ∧ (s.linkUp l = false ∨ tx = 0 → exec (.pauseRefresh l) s = .next s)
    ∧ (s.linkUp l = true → ∃ t u, exec (.pause l q) s = .next t ∧ exec (.pfc l classes qs) s = .next u ∧ stat t = stat s + 1 ∧ stat u = stat s + 1
        ∧ t = { s with regs := t.regs, tel := t.tel } ∧ u = { s with regs := u.regs, tel := u.tel }
        ∧ (mode = 1 → t.get F.UPL_FC_STATUS_RXPAUSED l = (if q = 0 then 0 else 1)) ∧ (mode ≠ 1 → t.get F.UPL_FC_STATUS_RXPAUSED l = rx ∧ dropped t)
        ∧ (mode = 2 → ∀ i : Fin 8, (u.get F.UPL_FC_STATUS_RXPAUSED l).testBit i
            = if classes.getLsbD i && (s.get F.UPL_FC_CTRL_RXMASK l).testBit i then decide (nth 0 qs i ≠ 0) else rx.testBit i)
        ∧ (mode ≠ 2 → u.get F.UPL_FC_STATUS_RXPAUSED l = rx ∧ dropped u))
    ∧ (s.linkUp l = false → exec (.pause l q) s = .next s ∧ exec (.pfc l classes qs) s = .next s)
    ∧ (∃ t, exec (.pauseExpiry l c) s = .next t ∧ t = { s with regs := t.regs }
        ∧ ∀ i : Fin 8, (t.get F.UPL_FC_STATUS_RXPAUSED l).testBit i = if i = c then false else rx.testBit i)
    ∧ (WriteReaches s ⟨.UPL_FRER_CTRL, j, 0, 0⟩ v →
      let x := fv v F.UPL_FRER_CTRL_PORTA
      let y := fv v F.UPL_FRER_CTRL_PORTB
      let en := fv v F.UPL_FRER_CTRL_EN = 1
      let other (p : Nat) := ∃ m, s.pairOf p = some m ∧ m ≠ j.val
      let missing := en ∧ ((x < 40 ∧ s.chip.uplanes ≤ x) ∨ (y < 40 ∧ s.chip.uplanes ≤ y))
      let bad := 40 ≤ x ∨ 40 ≤ y ∨ (en ∧ (s.get F.UPL_PORT_CTRL_CONF x = 0 ∨ s.get F.UPL_PORT_CTRL_CONF y = 0 ∨ x = y
          ∨ s.get F.UPL_PORT_CTRL_WIDTH x ≠ s.get F.UPL_PORT_CTRL_WIDTH y ∨ other x ∨ other y))
      let held := s.get F.UPL_FRER_CTRL_EN j = 1 ∧ ¬ (same F.UPL_FRER_CTRL_PORTA j ∧ same F.UPL_FRER_CTRL_PORTB j ∧ same F.UPL_FRER_CTRL_QOFS j)
      let rises := ∃ f ∈ [F.UPL_FRER_CTRL_EN, F.UPL_FRER_CTRL_TXEN, F.UPL_FRER_CTRL_RXEN], fv v f = 1 ∧ s.get f j = 0
      (missing → err (.uplFrerCtrl j v) .eabsent) ∧ (¬ missing → bad → err (.uplFrerCtrl j v) .erange) ∧ (¬ missing → ¬ bad → held → err (.uplFrerCtrl j v) .estate)
      ∧ (¬ missing → ¬ bad → ¬ held → ∃ t, exec (.uplFrerCtrl j v) s = .next t ∧ t = { s with regs := t.regs, dp := t.dp } ∧ stored t F.UPL_FRER_CTRL_EN j
          ∧ stored t F.UPL_FRER_CTRL_TXEN j ∧ stored t F.UPL_FRER_CTRL_RXEN j ∧ stored t F.UPL_FRER_CTRL_PORTA j ∧ stored t F.UPL_FRER_CTRL_PORTB j
          ∧ stored t F.UPL_FRER_CTRL_QOFS j ∧ (rises → t.frer j = (s.frer j).reset) ∧ (¬ rises → t.dp = s.dp)))
    ∧ (let runs := s.get F.UPL_FRER_CTRL_EN j = 1 ∧ s.get F.UPL_FRER_CTRL_RXEN j = 1 ∧ ((s.frer j).rcv.get c).takeany = false
      (runs → ∃ t, exec (.frerReset j c) s = .next t ∧ t = { s with regs := t.regs, dp := t.dp } ∧ ((t.frer j).rcv.get c).takeany = true
          ∧ t.get F.UPL_FRER_CNT1_RESETS j = satAdd 511 (s.get F.UPL_FRER_CNT1_RESETS j) 1 ∧ (∀ i, i ≠ c → (t.frer j).rcv.get i = (s.frer j).rcv.get i))
      ∧ (¬ runs → exec (.frerReset j c) s = .next s))

/-- R489, R491, R493 to R496, R498, R500: a bundle trains, negotiates, comes up, replays, loses a lane or goes down; credit and withdrawn
classes; the exchange of times; remote accesses asked for, passed on, refused, answered and timed out; the device's identity.
Where the bundle is not in the state that a message is for, the message has no effect. -/
def Obligations.BondsAndSystem : Prop :=
  ∀ (s : State) (b lane : Fin 4) (m : CapsMsg) (cr : CreditMsg) (tm : TimeMsg) (seq : BitVec 10) (classes : BitVec 8) (v : Word),
    let keeps (t : State) := t.pending = s.pending ∧ t.map = s.map ∧ t.tree = s.tree ∧ t.boot = s.boot ∧ t.clk = s.clk
    let err (i : Instr) (n : Status) := ∃ t, exec i s = .next t ∧ Rejected s t F.SYS_STATUS_ERR 0 n
    let st := s.bondState b
    let on := s.dp.bondOn.getLsbD b = true
    let x := s.bnd b
    let own := s.get F.SYS_ID_DEVID
    let common := s.get F.BND_CTRL_OFFER b &&& m.offer.toNat
    let foreign := m.sysid.toNat ≠ s.get F.SYS_ID_SYSID
    let double := m.devid.toNat = own
    let refused := common = 0 ∨ foreign ∨ double
    let ver := if 2 ≤ common then 2 else 1
    let n := popcount 4 m.lanes.toNat
    let few := n < 3 ∨ (ver = 1 ∧ n < 4)
    let again := if x.replaySeq = seq.toNat ∧ 0 < x.replays then x.replays + 1 else 1
    let lanes := s.get F.BND_STATUS_LANES b
    let port := 128 + b.val
    let fell (t : State) := keeps t ∧ t.bondState b = bnDOWN ∧ t.get F.BND_STATUS_VER b = 0 ∧ t.get F.BND_STATUS_LANES b = 0 ∧ t.get F.BND_STATUS_DOWNEV b = 1
        ∧ t.get F.BND_CNT_FLAPS b = satAdd 4095 (s.get F.BND_CNT_FLAPS b) 1 ∧ (t.get F.BUF_PORT_STATE_FLUSHING port = 1 ∨ t.get F.BUF_PORT_STATE_PEND port = 1)
    let two := s.get F.BND_STATUS_VER b = 2
    let mask := if two then classes else 0xFF
    (on → st = bnDOWN → ∃ t, exec (.bondRetrain b) s = .next t ∧ t = { s with regs := t.regs } ∧ t.bondState b = bnTRAIN)
    ∧ (¬ (on ∧ st = bnDOWN) → exec (.bondRetrain b) s = .next s)
    ∧ (on → st = bnDOWN ∨ st = bnTRAIN → ∃ t, exec (.bondTrainDone b) s = .next t ∧ t = { s with regs := t.regs, outs := t.outs } ∧ t.bondState b = bnNEGOTIATE
        ∧ t.get F.BND_STATUS_LANES b = 0xF ∧ t.outs = s.outs ++ [.bondMsg b 5 [s.get F.BND_CTRL_OFFER b, s.get F.SYS_ID_SYSID, own, b]])
    ∧ (¬ (on ∧ (st = bnDOWN ∨ st = bnTRAIN)) → exec (.bondTrainDone b) s = .next s)
    ∧ (st ≠ bnNEGOTIATE → exec (.caps b m) s = .next s)
    ∧ (st = bnNEGOTIATE → ∃ t, exec (.caps b m) s = .next t ∧ keeps t
        ∧ (refused → t.bondState b = bnDOWN ∧ (common = 0 → t.get F.BND_STATUS_NOVER b = 1) ∧ (foreign → t.get F.BND_STATUS_MISMATCH b = 1)
            ∧ (double → t.get F.BND_STATUS_DUPID b = 1))
        ∧ (¬ refused → few → t.bondState b = bnDOWN)
        ∧ (¬ refused → ¬ few → t.bondState b = bnUP ∧ t.get F.BND_STATUS_VER b = ver ∧ t.get F.BND_STATUS_LANES b = m.lanes.toNat
            ∧ t.get F.BND_STATUS_DEGR b = (if n = 3 then 1 else 0) ∧ t.get F.BND_STATUS_PEERDEV b = m.devid.toNat ∧ t.get F.BND_STATUS_PEERBND b = m.bundle.val))
    ∧ (st = bnUP →
        (∃ t, exec (.flitError b) s = .next t ∧ t = { s with regs := t.regs, outs := t.outs } ∧ t.get F.BND_CNT_CRCERR b = satAdd 4095 (s.get F.BND_CNT_CRCERR b) 1
            ∧ t.outs = s.outs ++ [.bondMsg b 1 [s.flitsReceived b % 1024]])
        ∧ (again < 16 → ∃ t, exec (.nak b seq) s = .next t ∧ keeps t ∧ t.bondState b = bnUP ∧ t.outs = s.outs ++ [.bondReplay b seq.toNat]
            ∧ t.get F.BND_CNT_REPLAY b = satAdd 4095 (s.get F.BND_CNT_REPLAY b) 1 ∧ t.bnd b = { x with replays := again, replaySeq := seq.toNat })
        ∧ (16 ≤ again → ∃ t, exec (.nak b seq) s = .next t ∧ fell t ∧ t.get F.BND_CNT_REPLAY b = satAdd 4095 (s.get F.BND_CNT_REPLAY b) 1)
        ∧ (∃ t, exec (.credit b cr) s = .next t ∧ t = { s with dp := t.dp }
            ∧ ∀ p : Fin 8, sget 0 (t.bnd b).returned p = if two ∨ p = 0 then max (sget 0 x.returned p) (nth 0 cr.counts p) else sget 0 x.returned p)
        ∧ (∃ t, exec (.stop b classes) s = .next t ∧ t = { s with dp := t.dp } ∧ t.bnd b = { x with stopped := x.stopped ||| mask })
        ∧ (∃ t, exec (.go b classes) s = .next t ∧ t = { s with dp := t.dp } ∧ t.bnd b = { x with stopped := x.stopped &&& ~~~mask })
        ∧ (∃ t, exec (.down b) s = .next t ∧ fell t) ∧ (∃ t, exec (.forwardedClockLoss b) s = .next t ∧ fell t)
        ∧ (lanes.testBit lane = false → exec (.flitAlignmentLoss b lane) s = .next s)
        ∧ (two → lanes = 15 → ∃ t, exec (.flitAlignmentLoss b lane) s = .next t ∧ t = { s with regs := t.regs } ∧ t.bondState b = bnUP
            ∧ t.get F.BND_STATUS_LANES b = 15 - 2 ^ lane.val ∧ t.get F.BND_STATUS_DEGR b = 1)
        ∧ (lanes.testBit lane = true → ¬ two ∨ lanes ≠ 15 → ∃ t, exec (.flitAlignmentLoss b lane) s = .next t ∧ fell t)
        ∧ (∃ t, exec (.timeExchange b) s = .next t ∧ t = { s with dp := t.dp, outs := t.outs } ∧ t.bnd b = { x with timeSent := some (s.egressStamp port) }
            ∧ t.outs = s.outs ++ [.bondMsg b 6 (msgInt (s.egressStamp port) :: (match x.timeRecv with | some r => [msgInt r] | none => []))])
        ∧ (x.timeSent = none → ∃ t, exec (.time b tm) s = .next t ∧ t = { s with dp := t.dp } ∧ t.bnd b = { x with timeRecv := some tm.received })
        ∧ (∀ t1, x.timeSent = some t1 → s.get F.BND_CTRL_TFOLLOW b = 0 → ∃ t, exec (.time b tm) s = .next t ∧ t = { s with dp := t.dp, regs := t.regs }
            ∧ t.bnd b = { x with timeRecv := some tm.received }
            ∧ t.rd .BND_TIME b = BitVec.ofInt 36 ((((tm.lastReceived - t1) - (tm.received - tm.sent)) / 2) / 4096)))
    ∧ (st ≠ bnUP → ∀ i ∈ [Instr.flitError b, .nak b seq, .credit b cr, .stop b classes, .go b classes, .flitAlignmentLoss b lane, .timeExchange b, .time b tm],
        exec i s = .next s)
    ∧ (st = bnTRAIN ∨ st = bnNEGOTIATE → ∀ i ∈ [Instr.down b, .forwardedClockLoss b], ∃ t, exec i s = .next t ∧ t = { s with regs := t.regs, dp := t.dp }
        ∧ t.bondState b = bnDOWN ∧ t.get F.BND_STATUS_DOWNEV b = s.get F.BND_STATUS_DOWNEV b)
    ∧ (st = bnDOWN → ∀ i ∈ [Instr.down b, .forwardedClockLoss b], exec i s = .next s)
    ∧ (∀ (src dst : BitVec 10) (hops : Nat) (wr : Bool) (off : BitVec 24) (w : Word) (code : BitVec 8) (k : Nat),
        let ask := Instr.rmt b (.request src dst hops wr off w)
        let reply := Instr.rmt b (.reply dst hops code w)
        (st ≠ bnUP → exec ask s = .next s ∧ exec reply s = .next s)
        ∧ (st = bnUP → dst.toNat ≠ own →
            (hops < 16 → s.routeTo dst.toNat = some k →
              exec ask s = .next { s with outs := s.outs ++ [.bondMsg k 7 (rmtRequest src.toNat dst.toNat (hops + 1) wr off.toNat w)] }
              ∧ exec reply s = .next { s with outs := s.outs ++ [.bondMsg k 7 (rmtReply dst.toNat (hops + 1) code.toNat w)] })
            ∧ (16 ≤ hops ∨ s.routeTo dst.toNat = none → exec ask s = .next s ∧ exec reply s = .next s))
        ∧ (st = bnUP → dst.toNat = own →
            (off.toNat % 8 ≠ 0 ∨ off.toNat / 0x100000 = 1 → s.routeTo src.toNat = some k →
              exec ask s = .next { s with outs := s.outs ++ [.bondMsg k 7 (rmtReply src.toNat 1 Status.erange.code 0)] })
            ∧ (s.get F.SYS_RMT_CTRL_BUSY = 0 → exec reply s = .next s)
            ∧ (s.get F.SYS_RMT_CTRL_BUSY = 1 → ∃ t, exec reply s = .next t ∧ t = { s with regs := t.regs } ∧ t.get F.SYS_RMT_CTRL_BUSY = 0
                ∧ t.get F.SYS_RMT_CTRL_STATUS = code.toNat
                ∧ t.rd .SYS_RMT_DATA = (if code = 0 ∧ s.get F.SYS_RMT_CTRL_WRITE = 0 then w else s.rd .SYS_RMT_DATA))))
    ∧ (WriteReaches s ⟨.SYS_RMT_CTRL, 0, 0, 0⟩ v →
      let go := fv v F.SYS_RMT_CTRL_GO = 1
      let dev := fv v F.SYS_RMT_CTRL_DEVID
      let busy := s.get F.SYS_RMT_CTRL_BUSY = 1
      let stored (t : State) := t.get F.SYS_RMT_CTRL_DEVID = dev ∧ t.get F.SYS_RMT_CTRL_WRITE = fv v F.SYS_RMT_CTRL_WRITE ∧ t = { s with regs := t.regs, outs := t.outs }
      (go → busy → err (.sysRmtGo v) .estate)
      ∧ (¬ go → ∃ t, exec (.sysRmtGo v) s = .next t ∧ stored t ∧ t.outs = s.outs ∧ t.get F.SYS_RMT_CTRL_BUSY = s.get F.SYS_RMT_CTRL_BUSY)
      ∧ (go → ¬ busy → dev = own → ∃ t, exec (.sysRmtGo v) s = .next t ∧ stored t ∧ t.outs = s.outs ∧ t.get F.SYS_RMT_CTRL_BUSY = 0
          ∧ t.get F.SYS_RMT_CTRL_STATUS = Status.erange.code)
      ∧ (go → ¬ busy → dev ≠ own → ∃ t, exec (.sysRmtGo v) s = .next t ∧ stored t ∧ t.get F.SYS_RMT_CTRL_BUSY = 1
          ∧ t.outs = s.outs ++ (match s.routeTo dev with
              | some k => [.bondMsg k 7 (rmtRequest own dev 1 (decide (fv v F.SYS_RMT_CTRL_WRITE = 1)) (s.get F.SYS_RMT_ADDR_OFFSET) (s.rd .SYS_RMT_DATA))]
              | none => [])))
    ∧ (s.get F.SYS_RMT_CTRL_BUSY = 1 → ∃ t, exec .remoteTimeout s = .next t ∧ t = { s with regs := t.regs } ∧ t.get F.SYS_RMT_CTRL_BUSY = 0
        ∧ t.get F.SYS_RMT_CTRL_STATUS = Status.etimeout.code)
    ∧ (s.get F.SYS_RMT_CTRL_BUSY = 0 → exec .remoteTimeout s = .next s)
    ∧ (WriteReaches s ⟨.SYS_ID, 0, 0, 0⟩ v → (s.dp.bondOn ≠ 0 → err (.sysId v) .estate)
        ∧ (s.dp.bondOn = 0 → ∃ t, exec (.sysId v) s = .next t ∧ t = { s with regs := t.regs } ∧ t.get F.SYS_ID_SET = 1
            ∧ t.get F.SYS_ID_SYSID = fv v F.SYS_ID_SYSID ∧ t.get F.SYS_ID_DEVID = fv v F.SYS_ID_DEVID))

/-- R64, R105, R106: at reset nothing waits in the queue, every register reads its reset value, no engine but the plinth's runs,
no ring holds a descriptor, and POR_DONE, ALIVE and FAULT_N are as a full reset leaves them. The values the spec does not give
are the model's (log 5). -/
def Obligations.ResetState : Prop :=
  State.reset.pending = [] ∧ (∀ id i j k, State.reset.rd id i j k = BitVec.ofNat 36 (Reg.reset State.reset.chip ⟨id, i, j, k⟩))
    ∧ (∀ m, (State.reset.map.get m).run = false) ∧ (∀ c, (State.reset.cmd.get c).frag = none)
    ∧ State.reset.boot.porDone = false ∧ State.reset.boot.alive = false ∧ State.reset.boot.faultLow = false
    ∧ State.reset.flt.ring = [] ∧ State.reset.outs = []

/-- R162: the block carries out the command at the front of its queue with the rest of the queue waiting; with no command waiting
one cycle of quoin 24 passes, the model's choice for an empty queue (log 2). -/
def Obligations.StepRunsFrontCommand : Prop :=
  ∀ (s : State) (c : Instr) (cs : List Instr),
    (s.pending = c :: cs → step s = exec c { s with pending := cs }) ∧ (s.pending = [] → step s = .next (s.advance 1))

/-- R8, R537, R564: every step completes, takes exactly the command at the front of the queue, and leaves the part what it is: its
variant, stepping, serial number and programmed keys never change, and a revoked key never returns. -/
def Obligations.EveryStepKeepsThePart : Prop :=
  ∀ s : State, ∃ t, step s = .next t ∧ t.pending = s.pending.tail ∧ { t.chip with keysRevoked := s.chip.keysRevoked } = s.chip
    ∧ s.chip.keysRevoked &&& t.chip.keysRevoked = s.chip.keysRevoked

/-- R162, R163: a legal word stands for one instruction, whose encoding is that word again, with its follower for format X: no bit
of it is dropped, and no other legal word means the same. -/
def Obligations.LegalWordsEncodeBack : Prop :=
  ∀ (e : Eng) (w0 w1 : Word) (i : Instr), decodeAshlar e w0 w1 = some i →
    encode i = some (w0, if isX w0 then some w1 else none)

/-- R162, R180 to R206: the words of an instruction whose reserved fields are zero decode to that instruction, with every operand at
every value, in every format. -/
def Obligations.EncodedInstructionsDecode : Prop :=
  ∀ (e : Eng) (d a b : RegNo) (imm : BitVec 20) (imm25 : BitVec 25) (fn : BitVec 15) (f : FmtX) (w : Word),
    let word (i : Instr) := (encode i).map (fun p => (p.1, p.2.getD w))
    let decodes (i : Instr) := (word i).bind (fun p => decodeAshlar e p.1 p.2) = some i
    decodes (.add e d a b) ∧ decodes (.adc e d a b) ∧ decodes (.sub e d a b) ∧ decodes (.sbc e d a b) ∧ decodes (.and_ e d a b)
    ∧ decodes (.or_ e d a b) ∧ decodes (.xor e d a b) ∧ decodes (.andn e d a b) ∧ decodes (.shl e d a b) ∧ decodes (.shr e d a b)
    ∧ decodes (.sar e d a b) ∧ decodes (.ror e d a b) ∧ decodes (.mul e d a b) ∧ decodes (.mulhu e d a b) ∧ decodes (.minu e d a b)
    ∧ decodes (.maxu e d a b) ∧ decodes (.cmp e 0 a b) ∧ decodes (.tst e 0 a b) ∧ decodes (.clz e d a 0) ∧ decodes (.popc e d a 0)
    ∧ decodes (.divu e d a b) ∧ decodes (.remu e d a b) ∧ decodes (.addi e d a imm) ∧ decodes (.cmpi e 0 a imm) ∧ decodes (.andi e d a imm)
    ∧ decodes (.ori e d a imm) ∧ decodes (.xori e d a imm) ∧ (imm.toNat < 256 → decodes (.shi e d a imm)) ∧ decodes (.lil e d imm25)
    ∧ (imm25.toNat < 2048 → decodes (.lih e d imm25)) ∧ (imm.toNat < 4096 → decodes (.bfx e d a imm) ∧ decodes (.bfi e d a imm))
    ∧ decodes (.ld e d a imm) ∧ decodes (.st e d a imm) ∧ decodes (.rst e d a imm) ∧ (imm.toNat ≤ 0x12 → decodes (.mfsr e d 0 imm))
    ∧ decodes (.mtsr e 0 a 0) ∧ (d.toNat < 15 → decodes (.br e d imm25)) ∧ decodes (.jal e d imm25) ∧ decodes (.jalr e d a imm)
    ∧ decodes (.wait e 0 a 0) ∧ decodes (.dbnz e d 0 imm) ∧ (fn.toNat < 15 → decodes (.sel e ⟨d, a, b, fn⟩)) ∧ decodes (.end_ e ⟨0, 0, 0, 0⟩)
    ∧ (∀ st : Status, st ≠ .ok → decodes (.trap e 0 0 (BitVec.ofNat 20 st.code)))
    ∧ decodes (.twrite e { f with d := 0, c := 0, fn := 0, imm := 0 }) ∧ decodes (.tread e { f with d := 0, c := 0, fn := 0, imm := 0 })
    ∧ decodes (.tinsert e { f with b := 0, c := 0, fn := 0, imm := 0 }) ∧ decodes (.tdelete e { f with b := 0, c := 0, fn := 0, imm := 0 })
    ∧ decodes (.tlookup e { f with b := 0, c := 0, fn := 0, imm := 0 }) ∧ decodes (.tgen e { f with d := 0, b := 0, c := 0, fn := 0, n := 0, imm := 0 })
    ∧ decodes (.trd e { f with b := 0, tid := 0, fn := 0, c := 0, n := 0, imm := 0 })
    ∧ decodes (.grant e { f with d := 0, tid := 0, fn := 0, n := 0, imm := 0 }) ∧ decodes (.quiet e { f with d := 0, tid := 0, fn := 1, n := 0, imm := 0 })
    ∧ decodes (.qset e ⟨0, a, b, 0⟩) ∧ decodes (.cset e ⟨0, a, b, 0⟩) ∧ decodes (.clink e ⟨0, a, b, 0⟩) ∧ decodes (.cdel e ⟨0, a, 0, 0⟩)
    ∧ decodes (.mset e ⟨0, a, b, 0⟩) ∧ decodes (.mread e ⟨0, a, b, 0⟩) ∧ decodes (.tcmp e ⟨d, a, b, 0⟩) ∧ decodes (.ttrig e ⟨0, a, b, 0⟩)
    ∧ decodes (.ttrigCancel e ⟨0, a, 0, 1⟩) ∧ decodes (.tcap e ⟨d, a, 0, 0⟩) ∧ (fn.toNat < 3 → decodes (.qread e ⟨d, a, 0, fn⟩) ∧ decodes (.tget e ⟨0, a, 0, fn⟩))
    ∧ (fn.toNat < 2 → 1 ≤ d.toNat → d.toNat ≤ 30 → decodes (.cntrd e ⟨d, a, 0, fn⟩))
    ∧ decodes (.rdreg e d a 0) ∧ decodes (.wrreg e 0 a b) ∧ decodes (.patch e 0 a 0 .absent) ∧ decodes (.gpload e 0 a 0 .absent)
    ∧ decodes (.fbmap e 0 a 0 .absent) ∧ decodes (.engctlHalt e 0 a b) ∧ decodes (.unitDisable e 0 a b) ∧ decodes (.pcsel e 0 a b) ∧ decodes (.pcrd e d a 0)
    ∧ decodes (.tmact e 0 a b) ∧ decodes (.tmdeact e 0 a 0) ∧ decodes (.tmeqd e 0 a b) ∧ decodes (.plsend e 0 a b) ∧ decodes (.plrecv e d a b)
    ∧ decodes (.kload e 0 a b) ∧ decodes (.kclr e 0 a 0) ∧ decodes (.cval e d a 0) ∧ decodes (.sense e d a 0) ∧ decodes (.logw e 0 a 0)
    ∧ decodes (.flash e 0 a 0 false) ∧ decodes (.updateCheck e 0 a 0)
end

