-- ==== Sys2Proof/Laws/Bits.lean ====
section
/-! SUPPORT. Fields of words: what a field reads after a field is written. -/
namespace Sys2Proof.Machine

theorem putBits_eq (w hi lo v : Nat) :
    putBits w hi lo v = 2 ^ lo * (2 ^ (hi + 1 - lo) * (w / 2 ^ lo / 2 ^ (hi + 1 - lo)) + v % 2 ^ (hi + 1 - lo)) + w % 2 ^ lo := by
  unfold putBits bits
  rw [Nat.shiftRight_eq_div_pow]
  have h1 := Nat.div_add_mod w (2 ^ lo)
  have h2 := Nat.div_add_mod (w / 2 ^ lo) (2 ^ (hi + 1 - lo))
  generalize hA : w / 2 ^ lo / 2 ^ (hi + 1 - lo) = A at *
  generalize hM : w / 2 ^ lo % 2 ^ (hi + 1 - lo) = M at *
  generalize hV : v % 2 ^ (hi + 1 - lo) = V at *
  generalize hL : w % 2 ^ lo = L at *
  rw [← h2] at h1
  generalize 2 ^ (hi + 1 - lo) = N at *
  generalize 2 ^ lo = P at *
  have h3 : w = P * (N * A) + P * M + L := by rw [← h1]; ring
  rw [h3]
  have h4 : P * (N * A) + P * M + L - M * P = P * (N * A) + L := by
    rw [Nat.mul_comm M P]; omega
  rw [h4]; ring

theorem testBit_putBits (w hi lo v i : Nat) (h : lo ≤ hi) :
    (putBits w hi lo v).testBit i = if lo ≤ i ∧ i ≤ hi then v.testBit (i - lo) else w.testBit i := by
  rw [putBits_eq, Nat.testBit_two_pow_mul_add _ (Nat.mod_lt _ (by positivity))]
  by_cases h1 : i < lo
  · rw [if_pos h1, if_neg (by omega), Nat.testBit_mod_two_pow]; simp [h1]
  · rw [if_neg h1, Nat.testBit_two_pow_mul_add _ (Nat.mod_lt _ (by positivity))]
    by_cases h2 : i ≤ hi
    · rw [if_pos (by omega), if_pos (by omega), Nat.testBit_mod_two_pow]
      have : i - lo < hi + 1 - lo := by omega
      simp [this]
    · rw [if_neg (by omega), if_neg (by omega), Nat.testBit_div_two_pow, Nat.testBit_div_two_pow]
      congr 1; omega

theorem testBit_bits (w hi lo i : Nat) : (bits w hi lo).testBit i = (decide (i < hi + 1 - lo) && w.testBit (lo + i)) := by
  unfold bits
  rw [Nat.testBit_mod_two_pow, Nat.testBit_shiftRight]

theorem wput_testBit (w : Word) (hi lo v i : Nat) (h : lo ≤ hi) (h36 : hi < 36) :
    (wput w hi lo v).toNat.testBit i = if lo ≤ i ∧ i ≤ hi then v.testBit (i - lo) else w.toNat.testBit i := by
  unfold wput
  rw [BitVec.toNat_ofNat, Nat.testBit_mod_two_pow, testBit_putBits _ _ _ _ _ h]
  by_cases hi' : i < 36
  · simp [hi']
  · have : w.toNat.testBit i = false := Nat.testBit_lt_two_pow (Nat.lt_of_lt_of_le w.isLt (Nat.pow_le_pow_right (by omega) (by omega)))
    rw [if_neg (by omega), this]; simp

/-- A field reads the value written to it, cut to its width. -/
theorem wbits_wput_same (w : Word) (hi lo v : Nat) (h : lo ≤ hi) (h36 : hi < 36) :
    wbits (wput w hi lo v) hi lo = v % 2 ^ (hi + 1 - lo) := by
  apply Nat.eq_of_testBit_eq
  intro i
  unfold wbits
  rw [testBit_bits, wput_testBit _ _ _ _ _ h h36, Nat.testBit_mod_two_pow]
  by_cases h1 : i < hi + 1 - lo
  · rw [if_pos (by omega)]; simp [h1]
  · simp [h1]

/-- A field keeps its value when a disjoint field is written. -/
theorem wbits_wput_ne (w : Word) (hi lo hi' lo' v : Nat) (h : lo ≤ hi) (h36 : hi < 36) (hd : hi' < lo ∨ hi < lo') :
    wbits (wput w hi lo v) hi' lo' = wbits w hi' lo' := by
  apply Nat.eq_of_testBit_eq
  intro i
  unfold wbits
  rw [testBit_bits, testBit_bits, wput_testBit _ _ _ _ _ h h36]
  by_cases h1 : i < hi' + 1 - lo'
  · rw [if_neg (by omega)]
  · simp [h1]

end Sys2Proof.Machine
end

