-- ==== Sys2Proof/Laws/SMap.lean ====
section
/-! SUPPORT. What reading after writing finds in sparse data, and that writing keeps the canonical form. -/
namespace Sys2Proof.Machine

variable {α : Type}

theorem sget_sinsert_same (d : α) (m : SMap α) (k : Nat) (v : α) : sget d (sinsert m k v) k = v := by
  induction m with
  | nil => simp [sinsert, sget]
  | cons p m ih => obtain ⟨k', v'⟩ := p; simp only [sinsert]; split_ifs with h1 h2 <;> simp_all [sget]

theorem sget_sinsert_ne (d : α) (m : SMap α) {k j : Nat} (v : α) (h : j ≠ k) :
    sget d (sinsert m k v) j = sget d m j := by
  induction m with
  | nil => simp [sinsert, sget, h]
  | cons p m ih =>
    obtain ⟨k', v'⟩ := p
    simp only [sinsert]
    split_ifs with h1 h2
    · subst h1; simp [sget, h]
    · simp [sget, h]
    · simp only [sget]; split_ifs <;> simp_all

theorem sget_serase_same (d : α) (m : SMap α) (k : Nat) : sget d (serase m k) k = d := by
  induction m with
  | nil => rfl
  | cons p m ih => obtain ⟨k', v'⟩ := p; simp only [serase]; split_ifs with h1 <;> simp_all [sget]

theorem sget_serase_ne (d : α) (m : SMap α) {k j : Nat} (h : j ≠ k) : sget d (serase m k) j = sget d m j := by
  induction m with
  | nil => rfl
  | cons p m ih =>
    obtain ⟨k', v'⟩ := p
    simp only [serase, sget]
    by_cases h1 : k = k'
    · subst h1; simp [h, ih]
    · simp only [h1, if_false, sget, ih]

section
variable [DecidableEq α]

/-- A read finds what was written. -/
@[simp] theorem sget_sput_same (d : α) (m : SMap α) (k : Nat) (v : α) : sget d (sput d m k v) k = v := by
  unfold sput
  split_ifs with h
  · rw [sget_serase_same, h]
  · exact sget_sinsert_same d m k v

/-- A write leaves every other key. -/
theorem sget_sput_ne (d d' : α) (m : SMap α) {k j : Nat} (v : α) (h : j ≠ k) : sget d (sput d' m k v) j = sget d m j := by
  unfold sput
  split_ifs
  · exact sget_serase_ne d m h
  · exact sget_sinsert_ne d m v h

theorem sget_smod_same (d : α) (m : SMap α) (k : Nat) (f : α → α) : sget d (smod d m k f) k = f (sget d m k) := by
  simp [smod]

theorem sget_smod_ne (d : α) (m : SMap α) {k j : Nat} (f : α → α) (h : j ≠ k) : sget d (smod d m k f) j = sget d m j :=
  sget_sput_ne d d m _ h

end

/-! The canonical form. -/

theorem srising_serase {lo : Nat} {m : SMap α} (k : Nat) (h : srising lo m) : srising lo (serase m k) := by
  induction m generalizing lo with
  | nil => rfl
  | cons p m ih =>
    obtain ⟨k', v'⟩ := p
    simp only [srising, Bool.and_eq_true, decide_eq_true_eq] at h
    simp only [serase]
    split_ifs with h1
    · have h2 := ih h.2
      clear ih
      revert h2
      generalize serase m k = m'
      intro h2
      cases m' with
      | nil => rfl
      | cons q m'' =>
        simp only [srising, Bool.and_eq_true, decide_eq_true_eq] at h2 ⊢
        exact ⟨by omega, h2.2⟩
    · simp only [srising, Bool.and_eq_true, decide_eq_true_eq]
      exact ⟨h.1, ih h.2⟩

theorem srising_sinsert {lo : Nat} {m : SMap α} (k : Nat) (v : α) (hk : lo ≤ k) (h : srising lo m) :
    srising lo (sinsert m k v) := by
  induction m generalizing lo with
  | nil => simp [sinsert, srising, hk]
  | cons p m ih =>
    obtain ⟨k', v'⟩ := p
    simp only [srising, Bool.and_eq_true, decide_eq_true_eq] at h
    simp only [sinsert]
    split_ifs with h1 h2
    · subst h1; simp [srising, hk, h.2]
    · simp only [srising, Bool.and_eq_true, decide_eq_true_eq]; exact ⟨hk, by omega, h.2⟩
    · simp only [srising, Bool.and_eq_true, decide_eq_true_eq]; exact ⟨h.1, ih (by omega) h.2⟩

theorem mem_serase {m : SMap α} {k : Nat} {e : Nat × α} (h : e ∈ serase m k) : e ∈ m := by
  induction m with
  | nil => simp [serase] at h
  | cons p m ih =>
    obtain ⟨k', v'⟩ := p
    simp only [serase] at h
    split_ifs at h with h1
    · exact List.mem_cons_of_mem _ (ih h)
    · rcases List.mem_cons.1 h with h2 | h2
      · rw [h2]; exact List.mem_cons_self
      · exact List.mem_cons_of_mem _ (ih h2)

theorem mem_sinsert {m : SMap α} {k : Nat} {v : α} {e : Nat × α} (h : e ∈ sinsert m k v) : e = (k, v) ∨ e ∈ m := by
  induction m with
  | nil => simpa [sinsert] using h
  | cons p m ih =>
    obtain ⟨k', v'⟩ := p
    simp only [sinsert] at h
    split_ifs at h with h1 h2
    · rcases List.mem_cons.1 h with h3 | h3
      · exact Or.inl h3
      · exact Or.inr (List.mem_cons_of_mem _ h3)
    · rcases List.mem_cons.1 h with h3 | h3
      · exact Or.inl h3
      · exact Or.inr h3
    · rcases List.mem_cons.1 h with h3 | h3
      · exact Or.inr (by rw [h3]; exact List.mem_cons_self)
      · rcases ih h3 with h4 | h4
        · exact Or.inl h4
        · exact Or.inr (List.mem_cons_of_mem _ h4)

/-- A write keeps the canonical form. -/
theorem swf_sput [DecidableEq α] {d : Nat → α} {m : SMap α} (k : Nat) (v : α) (h : swf d m) : swf d (sput (d k) m k v) := by
  simp only [swf, Bool.and_eq_true, List.all_eq_true, decide_eq_true_eq] at h ⊢
  unfold sput
  split_ifs with hv
  · exact ⟨srising_serase k h.1, fun e he => h.2 e (mem_serase he)⟩
  · refine ⟨srising_sinsert k v (Nat.zero_le k) h.1, fun e he => ?_⟩
    rcases mem_sinsert he with h1 | h1
    · rw [h1]; exact hv
    · exact h.2 e h1

theorem swf_nil [DecidableEq α] (d : Nat → α) : swf d ([] : SMap α) := rfl

end Sys2Proof.Machine
end

