-- ==== Sys2Proof/Laws/Registers.lean ====
section
/-! SUPPORT. Registers and their fields: what a read finds after a write. -/
namespace Sys2Proof.Machine

/-- A field lies within a register. -/
def Fld.ok (f : Fld) : Bool := f.lo ≤ f.hi && f.hi < 36

@[simp] theorem State.rd_wr_same (s : State) (id : RegId) (v : Word) (i j k : Nat) :
    (s.wr id v i j k).rd id i j k = v := by
  simp [State.rd, State.wr]

theorem State.rd_wr_ne (s : State) (id id' : RegId) (v : Word) (i j k i' j' k' : Nat)
    (h : Reg.offset ⟨id', i', j', k'⟩ ≠ Reg.offset ⟨id, i, j, k⟩) :
    (s.wr id v i j k).rd id' i' j' k' = s.rd id' i' j' k' := by
  simp only [State.rd, State.wr]
  exact sget_sput_ne _ _ _ _ h

theorem State.get_set_same (s : State) (f : Fld) (v i j k : Nat) (h : f.ok = true) :
    (s.set f v i j k).get f i j k = v % 2 ^ (f.hi + 1 - f.lo) := by
  simp only [Fld.ok, Bool.and_eq_true, decide_eq_true_eq] at h
  simp only [State.get, State.set, State.rd_wr_same]
  exact wbits_wput_same _ _ _ _ h.1 h.2

/-- Another field of the same register. -/
theorem State.get_set_field (s : State) (f g : Fld) (v i j k : Nat) (h : f.ok = true) (hr : g.id = f.id)
    (hd : g.hi < f.lo ∨ f.hi < g.lo) : (s.set f v i j k).get g i j k = s.get g i j k := by
  simp only [Fld.ok, Bool.and_eq_true, decide_eq_true_eq] at h
  simp only [State.get, State.set, hr, State.rd_wr_same]
  exact wbits_wput_ne _ _ _ _ _ _ h.1 h.2 hd

/-- A field of another register. -/
theorem State.get_set_reg (s : State) (f g : Fld) (v i j k i' j' k' : Nat)
    (h : Reg.offset ⟨g.id, i', j', k'⟩ ≠ Reg.offset ⟨f.id, i, j, k⟩) :
    (s.set f v i j k).get g i' j' k' = s.get g i' j' k' := by
  simp only [State.get, State.set]
  rw [State.rd_wr_ne _ _ _ _ _ _ _ _ _ _ h]

theorem State.get_wr_same (s : State) (id : RegId) (v : Word) (i j k hi lo : Nat) :
    (s.wr id v i j k).get ⟨id, hi, lo⟩ i j k = wbits v hi lo := by
  simp [State.get]

theorem State.get_wr_ne (s : State) (id : RegId) (f : Fld) (v : Word) (i j k i' j' k' : Nat)
    (h : Reg.offset ⟨f.id, i', j', k'⟩ ≠ Reg.offset ⟨id, i, j, k⟩) :
    (s.wr id v i j k).get f i' j' k' = s.get f i' j' k' := by
  simp only [State.get]
  rw [State.rd_wr_ne _ _ _ _ _ _ _ _ _ _ h]

theorem State.get_orBits_same (s : State) (f : Fld) (m i j k : Nat) (h : f.ok = true) :
    (s.orBits f m i j k).get f i j k = (s.get f i j k ||| m) % 2 ^ (f.hi + 1 - f.lo) := State.get_set_same _ _ _ _ _ _ h

theorem State.get_orBits_reg (s : State) (f g : Fld) (m i j k i' j' k' : Nat)
    (h : Reg.offset ⟨g.id, i', j', k'⟩ ≠ Reg.offset ⟨f.id, i, j, k⟩) :
    (s.orBits f m i j k).get g i' j' k' = s.get g i' j' k' := State.get_set_reg _ _ _ _ _ _ _ _ _ _ h

theorem State.get_inc_same (s : State) (f : Fld) (n i j k : Nat) (h : f.ok = true) :
    (s.inc f n i j k).get f i j k = min (2 ^ (f.hi + 1 - f.lo) - 1) (s.get f i j k + n) := by
  rw [State.inc, State.get_set_same _ _ _ _ _ _ h, Nat.mod_eq_of_lt]
  · rfl
  · have := Nat.two_pow_pos (f.hi + 1 - f.lo)
    exact Nat.lt_of_le_of_lt (Nat.min_le_left _ _) (by omega)

theorem State.get_inc_reg (s : State) (f g : Fld) (n i j k i' j' k' : Nat)
    (h : Reg.offset ⟨g.id, i', j', k'⟩ ≠ Reg.offset ⟨f.id, i, j, k⟩) :
    (s.inc f n i j k).get g i' j' k' = s.get g i' j' k' := State.get_set_reg _ _ _ _ _ _ _ _ _ _ h

end Sys2Proof.Machine
end

