-- ==== Sys2Proof/Laws/State.lean ====
section
/-! SUPPORT. What each named update of the state leaves as it is, field by field. -/
namespace Sys2Proof.Machine

@[simp] theorem State.wr_pending (s : State) (id : RegId) (v : Word) (i j k : Nat) : (s.wr id v i j k).pending = s.pending := (rfl)
@[simp] theorem State.wr_chip (s : State) (id : RegId) (v : Word) (i j k : Nat) : (s.wr id v i j k).chip = s.chip := (rfl)
@[simp] theorem State.wr_clk (s : State) (id : RegId) (v : Word) (i j k : Nat) : (s.wr id v i j k).clk = s.clk := (rfl)
@[simp] theorem State.wr_boot (s : State) (id : RegId) (v : Word) (i j k : Nat) : (s.wr id v i j k).boot = s.boot := (rfl)
@[simp] theorem State.wr_host (s : State) (id : RegId) (v : Word) (i j k : Nat) : (s.wr id v i j k).host = s.host := (rfl)
@[simp] theorem State.wr_pwr (s : State) (id : RegId) (v : Word) (i j k : Nat) : (s.wr id v i j k).pwr = s.pwr := (rfl)
@[simp] theorem State.wr_flt (s : State) (id : RegId) (v : Word) (i j k : Nat) : (s.wr id v i j k).flt = s.flt := (rfl)
@[simp] theorem State.wr_pln (s : State) (id : RegId) (v : Word) (i j k : Nat) : (s.wr id v i j k).pln = s.pln := (rfl)
@[simp] theorem State.wr_tel (s : State) (id : RegId) (v : Word) (i j k : Nat) : (s.wr id v i j k).tel = s.tel := (rfl)
@[simp] theorem State.wr_cmd (s : State) (id : RegId) (v : Word) (i j k : Nat) : (s.wr id v i j k).cmd = s.cmd := (rfl)
@[simp] theorem State.wr_map (s : State) (id : RegId) (v : Word) (i j k : Nat) : (s.wr id v i j k).map = s.map := (rfl)
@[simp] theorem State.wr_plinth (s : State) (id : RegId) (v : Word) (i j k : Nat) : (s.wr id v i j k).plinth = s.plinth := (rfl)
@[simp] theorem State.wr_tree (s : State) (id : RegId) (v : Word) (i j k : Nat) : (s.wr id v i j k).tree = s.tree := (rfl)
@[simp] theorem State.wr_slots (s : State) (id : RegId) (v : Word) (i j k : Nat) : (s.wr id v i j k).slots = s.slots := (rfl)
@[simp] theorem State.wr_slotsBad (s : State) (id : RegId) (v : Word) (i j k : Nat) : (s.wr id v i j k).slotsBad = s.slotsBad := (rfl)
@[simp] theorem State.wr_tim (s : State) (id : RegId) (v : Word) (i j k : Nat) : (s.wr id v i j k).tim = s.tim := (rfl)
@[simp] theorem State.wr_dp (s : State) (id : RegId) (v : Word) (i j k : Nat) : (s.wr id v i j k).dp = s.dp := (rfl)
@[simp] theorem State.wr_outs (s : State) (id : RegId) (v : Word) (i j k : Nat) : (s.wr id v i j k).outs = s.outs := (rfl)
@[simp] theorem State.wr_free (s : State) (id : RegId) (v : Word) (i j k : Nat) : (s.wr id v i j k).free = s.free := (rfl)

@[simp] theorem State.set_pending (s : State) (f : Fld) (v : Nat) (i j k : Nat) : (s.set f v i j k).pending = s.pending := (rfl)
@[simp] theorem State.set_chip (s : State) (f : Fld) (v : Nat) (i j k : Nat) : (s.set f v i j k).chip = s.chip := (rfl)
@[simp] theorem State.set_clk (s : State) (f : Fld) (v : Nat) (i j k : Nat) : (s.set f v i j k).clk = s.clk := (rfl)
@[simp] theorem State.set_boot (s : State) (f : Fld) (v : Nat) (i j k : Nat) : (s.set f v i j k).boot = s.boot := (rfl)
@[simp] theorem State.set_host (s : State) (f : Fld) (v : Nat) (i j k : Nat) : (s.set f v i j k).host = s.host := (rfl)
@[simp] theorem State.set_pwr (s : State) (f : Fld) (v : Nat) (i j k : Nat) : (s.set f v i j k).pwr = s.pwr := (rfl)
@[simp] theorem State.set_flt (s : State) (f : Fld) (v : Nat) (i j k : Nat) : (s.set f v i j k).flt = s.flt := (rfl)
@[simp] theorem State.set_pln (s : State) (f : Fld) (v : Nat) (i j k : Nat) : (s.set f v i j k).pln = s.pln := (rfl)
@[simp] theorem State.set_tel (s : State) (f : Fld) (v : Nat) (i j k : Nat) : (s.set f v i j k).tel = s.tel := (rfl)
@[simp] theorem State.set_cmd (s : State) (f : Fld) (v : Nat) (i j k : Nat) : (s.set f v i j k).cmd = s.cmd := (rfl)
@[simp] theorem State.set_map (s : State) (f : Fld) (v : Nat) (i j k : Nat) : (s.set f v i j k).map = s.map := (rfl)
@[simp] theorem State.set_plinth (s : State) (f : Fld) (v : Nat) (i j k : Nat) : (s.set f v i j k).plinth = s.plinth := (rfl)
@[simp] theorem State.set_tree (s : State) (f : Fld) (v : Nat) (i j k : Nat) : (s.set f v i j k).tree = s.tree := (rfl)
@[simp] theorem State.set_slots (s : State) (f : Fld) (v : Nat) (i j k : Nat) : (s.set f v i j k).slots = s.slots := (rfl)
@[simp] theorem State.set_slotsBad (s : State) (f : Fld) (v : Nat) (i j k : Nat) : (s.set f v i j k).slotsBad = s.slotsBad := (rfl)
@[simp] theorem State.set_tim (s : State) (f : Fld) (v : Nat) (i j k : Nat) : (s.set f v i j k).tim = s.tim := (rfl)
@[simp] theorem State.set_dp (s : State) (f : Fld) (v : Nat) (i j k : Nat) : (s.set f v i j k).dp = s.dp := (rfl)
@[simp] theorem State.set_outs (s : State) (f : Fld) (v : Nat) (i j k : Nat) : (s.set f v i j k).outs = s.outs := (rfl)
@[simp] theorem State.set_free (s : State) (f : Fld) (v : Nat) (i j k : Nat) : (s.set f v i j k).free = s.free := (rfl)

@[simp] theorem State.inc_pending (s : State) (f : Fld) (n : Nat) (i j k : Nat) : (s.inc f n i j k).pending = s.pending := (rfl)
@[simp] theorem State.inc_chip (s : State) (f : Fld) (n : Nat) (i j k : Nat) : (s.inc f n i j k).chip = s.chip := (rfl)
@[simp] theorem State.inc_clk (s : State) (f : Fld) (n : Nat) (i j k : Nat) : (s.inc f n i j k).clk = s.clk := (rfl)
@[simp] theorem State.inc_boot (s : State) (f : Fld) (n : Nat) (i j k : Nat) : (s.inc f n i j k).boot = s.boot := (rfl)
@[simp] theorem State.inc_host (s : State) (f : Fld) (n : Nat) (i j k : Nat) : (s.inc f n i j k).host = s.host := (rfl)
@[simp] theorem State.inc_pwr (s : State) (f : Fld) (n : Nat) (i j k : Nat) : (s.inc f n i j k).pwr = s.pwr := (rfl)
@[simp] theorem State.inc_flt (s : State) (f : Fld) (n : Nat) (i j k : Nat) : (s.inc f n i j k).flt = s.flt := (rfl)
@[simp] theorem State.inc_pln (s : State) (f : Fld) (n : Nat) (i j k : Nat) : (s.inc f n i j k).pln = s.pln := (rfl)
@[simp] theorem State.inc_tel (s : State) (f : Fld) (n : Nat) (i j k : Nat) : (s.inc f n i j k).tel = s.tel := (rfl)
@[simp] theorem State.inc_cmd (s : State) (f : Fld) (n : Nat) (i j k : Nat) : (s.inc f n i j k).cmd = s.cmd := (rfl)
@[simp] theorem State.inc_map (s : State) (f : Fld) (n : Nat) (i j k : Nat) : (s.inc f n i j k).map = s.map := (rfl)
@[simp] theorem State.inc_plinth (s : State) (f : Fld) (n : Nat) (i j k : Nat) : (s.inc f n i j k).plinth = s.plinth := (rfl)
@[simp] theorem State.inc_tree (s : State) (f : Fld) (n : Nat) (i j k : Nat) : (s.inc f n i j k).tree = s.tree := (rfl)
@[simp] theorem State.inc_slots (s : State) (f : Fld) (n : Nat) (i j k : Nat) : (s.inc f n i j k).slots = s.slots := (rfl)
@[simp] theorem State.inc_slotsBad (s : State) (f : Fld) (n : Nat) (i j k : Nat) : (s.inc f n i j k).slotsBad = s.slotsBad := (rfl)
@[simp] theorem State.inc_tim (s : State) (f : Fld) (n : Nat) (i j k : Nat) : (s.inc f n i j k).tim = s.tim := (rfl)
@[simp] theorem State.inc_dp (s : State) (f : Fld) (n : Nat) (i j k : Nat) : (s.inc f n i j k).dp = s.dp := (rfl)
@[simp] theorem State.inc_outs (s : State) (f : Fld) (n : Nat) (i j k : Nat) : (s.inc f n i j k).outs = s.outs := (rfl)
@[simp] theorem State.inc_free (s : State) (f : Fld) (n : Nat) (i j k : Nat) : (s.inc f n i j k).free = s.free := (rfl)

@[simp] theorem State.orBits_pending (s : State) (f : Fld) (m : Nat) (i j k : Nat) : (s.orBits f m i j k).pending = s.pending := (rfl)
@[simp] theorem State.orBits_chip (s : State) (f : Fld) (m : Nat) (i j k : Nat) : (s.orBits f m i j k).chip = s.chip := (rfl)
@[simp] theorem State.orBits_clk (s : State) (f : Fld) (m : Nat) (i j k : Nat) : (s.orBits f m i j k).clk = s.clk := (rfl)
@[simp] theorem State.orBits_boot (s : State) (f : Fld) (m : Nat) (i j k : Nat) : (s.orBits f m i j k).boot = s.boot := (rfl)
@[simp] theorem State.orBits_host (s : State) (f : Fld) (m : Nat) (i j k : Nat) : (s.orBits f m i j k).host = s.host := (rfl)
@[simp] theorem State.orBits_pwr (s : State) (f : Fld) (m : Nat) (i j k : Nat) : (s.orBits f m i j k).pwr = s.pwr := (rfl)
@[simp] theorem State.orBits_flt (s : State) (f : Fld) (m : Nat) (i j k : Nat) : (s.orBits f m i j k).flt = s.flt := (rfl)
@[simp] theorem State.orBits_pln (s : State) (f : Fld) (m : Nat) (i j k : Nat) : (s.orBits f m i j k).pln = s.pln := (rfl)
@[simp] theorem State.orBits_tel (s : State) (f : Fld) (m : Nat) (i j k : Nat) : (s.orBits f m i j k).tel = s.tel := (rfl)
@[simp] theorem State.orBits_cmd (s : State) (f : Fld) (m : Nat) (i j k : Nat) : (s.orBits f m i j k).cmd = s.cmd := (rfl)
@[simp] theorem State.orBits_map (s : State) (f : Fld) (m : Nat) (i j k : Nat) : (s.orBits f m i j k).map = s.map := (rfl)
@[simp] theorem State.orBits_plinth (s : State) (f : Fld) (m : Nat) (i j k : Nat) : (s.orBits f m i j k).plinth = s.plinth := (rfl)
@[simp] theorem State.orBits_tree (s : State) (f : Fld) (m : Nat) (i j k : Nat) : (s.orBits f m i j k).tree = s.tree := (rfl)
@[simp] theorem State.orBits_slots (s : State) (f : Fld) (m : Nat) (i j k : Nat) : (s.orBits f m i j k).slots = s.slots := (rfl)
@[simp] theorem State.orBits_slotsBad (s : State) (f : Fld) (m : Nat) (i j k : Nat) : (s.orBits f m i j k).slotsBad = s.slotsBad := (rfl)
@[simp] theorem State.orBits_tim (s : State) (f : Fld) (m : Nat) (i j k : Nat) : (s.orBits f m i j k).tim = s.tim := (rfl)
@[simp] theorem State.orBits_dp (s : State) (f : Fld) (m : Nat) (i j k : Nat) : (s.orBits f m i j k).dp = s.dp := (rfl)
@[simp] theorem State.orBits_outs (s : State) (f : Fld) (m : Nat) (i j k : Nat) : (s.orBits f m i j k).outs = s.outs := (rfl)
@[simp] theorem State.orBits_free (s : State) (f : Fld) (m : Nat) (i j k : Nat) : (s.orBits f m i j k).free = s.free := (rfl)

@[simp] theorem State.emit_pending (s : State) (o : Out) : (s.emit o).pending = s.pending := (rfl)
@[simp] theorem State.emit_chip (s : State) (o : Out) : (s.emit o).chip = s.chip := (rfl)
@[simp] theorem State.emit_regs (s : State) (o : Out) : (s.emit o).regs = s.regs := (rfl)
@[simp] theorem State.emit_clk (s : State) (o : Out) : (s.emit o).clk = s.clk := (rfl)
@[simp] theorem State.emit_boot (s : State) (o : Out) : (s.emit o).boot = s.boot := (rfl)
@[simp] theorem State.emit_host (s : State) (o : Out) : (s.emit o).host = s.host := (rfl)
@[simp] theorem State.emit_pwr (s : State) (o : Out) : (s.emit o).pwr = s.pwr := (rfl)
@[simp] theorem State.emit_flt (s : State) (o : Out) : (s.emit o).flt = s.flt := (rfl)
@[simp] theorem State.emit_pln (s : State) (o : Out) : (s.emit o).pln = s.pln := (rfl)
@[simp] theorem State.emit_tel (s : State) (o : Out) : (s.emit o).tel = s.tel := (rfl)
@[simp] theorem State.emit_cmd (s : State) (o : Out) : (s.emit o).cmd = s.cmd := (rfl)
@[simp] theorem State.emit_map (s : State) (o : Out) : (s.emit o).map = s.map := (rfl)
@[simp] theorem State.emit_plinth (s : State) (o : Out) : (s.emit o).plinth = s.plinth := (rfl)
@[simp] theorem State.emit_tree (s : State) (o : Out) : (s.emit o).tree = s.tree := (rfl)
@[simp] theorem State.emit_slots (s : State) (o : Out) : (s.emit o).slots = s.slots := (rfl)
@[simp] theorem State.emit_slotsBad (s : State) (o : Out) : (s.emit o).slotsBad = s.slotsBad := (rfl)
@[simp] theorem State.emit_tim (s : State) (o : Out) : (s.emit o).tim = s.tim := (rfl)
@[simp] theorem State.emit_dp (s : State) (o : Out) : (s.emit o).dp = s.dp := (rfl)
@[simp] theorem State.emit_free (s : State) (o : Out) : (s.emit o).free = s.free := (rfl)

@[simp] theorem State.modTree_pending (s : State) (t : Fin 64) (f : Tree → Tree) : (s.modTree t f).pending = s.pending := (rfl)
@[simp] theorem State.modTree_chip (s : State) (t : Fin 64) (f : Tree → Tree) : (s.modTree t f).chip = s.chip := (rfl)
@[simp] theorem State.modTree_regs (s : State) (t : Fin 64) (f : Tree → Tree) : (s.modTree t f).regs = s.regs := (rfl)
@[simp] theorem State.modTree_clk (s : State) (t : Fin 64) (f : Tree → Tree) : (s.modTree t f).clk = s.clk := (rfl)
@[simp] theorem State.modTree_boot (s : State) (t : Fin 64) (f : Tree → Tree) : (s.modTree t f).boot = s.boot := (rfl)
@[simp] theorem State.modTree_host (s : State) (t : Fin 64) (f : Tree → Tree) : (s.modTree t f).host = s.host := (rfl)
@[simp] theorem State.modTree_pwr (s : State) (t : Fin 64) (f : Tree → Tree) : (s.modTree t f).pwr = s.pwr := (rfl)
@[simp] theorem State.modTree_flt (s : State) (t : Fin 64) (f : Tree → Tree) : (s.modTree t f).flt = s.flt := (rfl)
@[simp] theorem State.modTree_pln (s : State) (t : Fin 64) (f : Tree → Tree) : (s.modTree t f).pln = s.pln := (rfl)
@[simp] theorem State.modTree_tel (s : State) (t : Fin 64) (f : Tree → Tree) : (s.modTree t f).tel = s.tel := (rfl)
@[simp] theorem State.modTree_cmd (s : State) (t : Fin 64) (f : Tree → Tree) : (s.modTree t f).cmd = s.cmd := (rfl)
@[simp] theorem State.modTree_map (s : State) (t : Fin 64) (f : Tree → Tree) : (s.modTree t f).map = s.map := (rfl)
@[simp] theorem State.modTree_plinth (s : State) (t : Fin 64) (f : Tree → Tree) : (s.modTree t f).plinth = s.plinth := (rfl)
@[simp] theorem State.modTree_slots (s : State) (t : Fin 64) (f : Tree → Tree) : (s.modTree t f).slots = s.slots := (rfl)
@[simp] theorem State.modTree_slotsBad (s : State) (t : Fin 64) (f : Tree → Tree) : (s.modTree t f).slotsBad = s.slotsBad := (rfl)
@[simp] theorem State.modTree_tim (s : State) (t : Fin 64) (f : Tree → Tree) : (s.modTree t f).tim = s.tim := (rfl)
@[simp] theorem State.modTree_dp (s : State) (t : Fin 64) (f : Tree → Tree) : (s.modTree t f).dp = s.dp := (rfl)
@[simp] theorem State.modTree_outs (s : State) (t : Fin 64) (f : Tree → Tree) : (s.modTree t f).outs = s.outs := (rfl)
@[simp] theorem State.modTree_free (s : State) (t : Fin 64) (f : Tree → Tree) : (s.modTree t f).free = s.free := (rfl)

@[simp] theorem State.setEng_pending (s : State) (e : Eng) (en : Engine) : (s.setEng e en).pending = s.pending := by cases e <;> exact (rfl)
@[simp] theorem State.setEng_chip (s : State) (e : Eng) (en : Engine) : (s.setEng e en).chip = s.chip := by cases e <;> exact (rfl)
@[simp] theorem State.setEng_regs (s : State) (e : Eng) (en : Engine) : (s.setEng e en).regs = s.regs := by cases e <;> exact (rfl)
@[simp] theorem State.setEng_clk (s : State) (e : Eng) (en : Engine) : (s.setEng e en).clk = s.clk := by cases e <;> exact (rfl)
@[simp] theorem State.setEng_boot (s : State) (e : Eng) (en : Engine) : (s.setEng e en).boot = s.boot := by cases e <;> exact (rfl)
@[simp] theorem State.setEng_host (s : State) (e : Eng) (en : Engine) : (s.setEng e en).host = s.host := by cases e <;> exact (rfl)
@[simp] theorem State.setEng_pwr (s : State) (e : Eng) (en : Engine) : (s.setEng e en).pwr = s.pwr := by cases e <;> exact (rfl)
@[simp] theorem State.setEng_flt (s : State) (e : Eng) (en : Engine) : (s.setEng e en).flt = s.flt := by cases e <;> exact (rfl)
@[simp] theorem State.setEng_pln (s : State) (e : Eng) (en : Engine) : (s.setEng e en).pln = s.pln := by cases e <;> exact (rfl)
@[simp] theorem State.setEng_tel (s : State) (e : Eng) (en : Engine) : (s.setEng e en).tel = s.tel := by cases e <;> exact (rfl)
@[simp] theorem State.setEng_tree (s : State) (e : Eng) (en : Engine) : (s.setEng e en).tree = s.tree := by cases e <;> exact (rfl)
@[simp] theorem State.setEng_slots (s : State) (e : Eng) (en : Engine) : (s.setEng e en).slots = s.slots := by cases e <;> exact (rfl)
@[simp] theorem State.setEng_slotsBad (s : State) (e : Eng) (en : Engine) : (s.setEng e en).slotsBad = s.slotsBad := by cases e <;> exact (rfl)
@[simp] theorem State.setEng_tim (s : State) (e : Eng) (en : Engine) : (s.setEng e en).tim = s.tim := by cases e <;> exact (rfl)
@[simp] theorem State.setEng_dp (s : State) (e : Eng) (en : Engine) : (s.setEng e en).dp = s.dp := by cases e <;> exact (rfl)
@[simp] theorem State.setEng_outs (s : State) (e : Eng) (en : Engine) : (s.setEng e en).outs = s.outs := by cases e <;> exact (rfl)
@[simp] theorem State.setEng_free (s : State) (e : Eng) (en : Engine) : (s.setEng e en).free = s.free := by cases e <;> exact (rfl)

@[simp] theorem State.fresh_fst (s : State) : s.fresh.1 = s.free := rfl
@[simp] theorem State.fresh_snd_regs (s : State) : s.fresh.2.regs = s.regs := rfl

end Sys2Proof.Machine
end

