-- ==== Sys2Proof/Laws/Engine.lean ====
section
/-! SUPPORT. Engines: registers and flags after a write, what the end of an instruction leaves, and that an engine which takes
an instruction does the instruction's own work. -/
namespace Sys2Proof.Machine

theorem vget_set_same {α : Type} {n : Nat} (v : Vector α n) (i : Fin n) (x : α) : (v.set i x).get i = x := by
  show (v.set i x)[i.val] = x; simp

theorem vget_set_ne {α : Type} {n : Nat} (v : Vector α n) (i j : Fin n) (x : α) (h : j ≠ i) :
    (v.set i x).get j = v.get j := by
  show (v.set i x)[j.val] = v[j.val]
  rw [Vector.getElem_set_ne]
  intro hh; exact h (Fin.ext hh.symm)

@[simp] theorem State.setEng_cmd_map (s : State) (c : Fin 2) (en : Engine) : (s.setEng (.cmd c) en).map = s.map := (rfl)
@[simp] theorem State.setEng_cmd_plinth (s : State) (c : Fin 2) (en : Engine) : (s.setEng (.cmd c) en).plinth = s.plinth := (rfl)
@[simp] theorem State.setEng_map_cmd (s : State) (m : Fin 64) (en : Engine) : (s.setEng (.map m) en).cmd = s.cmd := (rfl)
@[simp] theorem State.setEng_map_plinth (s : State) (m : Fin 64) (en : Engine) : (s.setEng (.map m) en).plinth = s.plinth := (rfl)
@[simp] theorem State.setEng_plinth_cmd (s : State) (en : Engine) : (s.setEng .plinth en).cmd = s.cmd := (rfl)
@[simp] theorem State.setEng_plinth_map (s : State) (en : Engine) : (s.setEng .plinth en).map = s.map := (rfl)
theorem State.eng_cmd (s : State) (c : Fin 2) : s.eng (.cmd c) = s.cmd.get c := (rfl)
theorem State.eng_map (s : State) (m : Fin 64) : s.eng (.map m) = s.map.get m := (rfl)
theorem State.eng_plinth (s : State) : s.eng .plinth = s.plinth := (rfl)
theorem State.reg_eq (s : State) (e : Eng) (r : RegNo) : s.reg e r = (s.eng e).reg r := (rfl)
theorem State.tr_eq (s : State) (t : Fin 64) : s.tr t = s.tree.get t := (rfl)

@[simp] theorem State.eng_setEng (s : State) (e : Eng) (en : Engine) : (s.setEng e en).eng e = en := by
  cases e <;> simp [State.eng, State.setEng, vget_set_same]

theorem State.eng_setEng_ne (s : State) (e e' : Eng) (en : Engine) (h : e' ≠ e) : (s.setEng e en).eng e' = s.eng e' := by
  cases e <;> cases e' <;> simp_all [State.eng, State.setEng] <;> exact vget_set_ne _ _ _ _ h

@[simp] theorem State.setEng_setEng (s : State) (e : Eng) (a b : Engine) : (s.setEng e a).setEng e b = s.setEng e b := by
  cases e <;> simp [State.setEng]

theorem Engine.reg_setReg_same (en : Engine) (r : RegNo) (v : Word) (h : r ≠ 0) : (en.setReg r v).reg r = v := by
  unfold Engine.reg Engine.setReg
  rw [if_neg h, if_neg h]
  exact vget_set_same _ _ _

theorem Engine.reg_zero (en : Engine) : en.reg 0 = 0 := rfl

theorem State.reg_zero (s : State) (e : Eng) : s.reg e 0 = 0 := (rfl)

/-- An engine whose registers but w0 are as before has all its registers as before. -/
theorem Engine.OnlyReg.all {a b : Engine} (h : a.OnlyReg b 0) (r : RegNo) : b.reg r = a.reg r := by
  by_cases h0 : r = 0
  · subst h0; rw [Engine.reg_zero, Engine.reg_zero]
  · exact h.reg r h0

theorem Engine.reg_setReg (en : Engine) (r : RegNo) (v : Word) : (en.setReg r v).reg r = if r = 0 then 0 else v := by
  split
  · next h => subst h; rfl
  · next h => exact Engine.reg_setReg_same en r v h

theorem Engine.reg_setReg_ne (en : Engine) (r r' : RegNo) (v : Word) (h : r' ≠ r) : (en.setReg r v).reg r' = en.reg r' := by
  unfold Engine.reg Engine.setReg
  by_cases h0 : r = 0
  · simp [h0]
  · simp only [h0, if_false]
    split
    · rfl
    · exact vget_set_ne _ _ _ _ (fun hh => h (by
        have := congrArg Fin.val hh
        exact BitVec.eq_of_toNat_eq (by simpa using this)))

@[simp] theorem Engine.setReg_flags (en : Engine) (r : RegNo) (v : Word) : (en.setReg r v).flags = en.flags := by
  unfold Engine.setReg Engine.flags; split <;> rfl

/-- All that writing a register leaves. -/
theorem Engine.setReg_only (en : Engine) (r : RegNo) (v : Word) : en.OnlyReg (en.setReg r v) r where
  reg r' h := Engine.reg_setReg_ne en r r' v h
  mem := by unfold Engine.setReg; split <;> rfl
  bad := by unfold Engine.setReg; split <;> rfl
  fault := by unfold Engine.setReg; split <;> rfl
  run := by unfold Engine.setReg; split <;> rfl
  ops := by unfold Engine.setReg; split <;> rfl
  tags := by unfold Engine.setReg; split <;> rfl
  patch := by unfold Engine.setReg; split <;> rfl
  staged := by unfold Engine.setReg; split <;> rfl
  frag f h := ⟨f.last, by
    have : (en.setReg r v).frag = en.frag := by unfold Engine.setReg; split <;> rfl
    rw [← this, h]⟩
  trapCause := by unfold Engine.setReg; split <;> rfl
  trapPc := by unfold Engine.setReg; split <;> rfl
  tvec := by unfold Engine.setReg; split <;> rfl

theorem Engine.setFlags_only (en : Engine) (r : Alu) (d : RegNo) : en.OnlyReg (en.setFlags r) d where
  reg _ _ := rfl
  mem := rfl
  bad := rfl
  fault := rfl
  run := rfl
  ops := rfl
  tags := rfl
  patch := rfl
  staged := rfl
  frag f h := ⟨f.last, by simpa [Engine.setFlags] using h⟩
  trapCause := rfl
  trapPc := rfl
  tvec := rfl

theorem Engine.OnlyReg.trans {a b c : Engine} {d : RegNo} (h : a.OnlyReg b d) (k : b.OnlyReg c d) : a.OnlyReg c d where
  reg r hr := (k.reg r hr).trans (h.reg r hr)
  mem := k.mem.trans h.mem
  bad := k.bad.trans h.bad
  fault := k.fault.trans h.fault
  run := k.run.trans h.run
  ops := k.ops.trans h.ops
  tags := k.tags.trans h.tags
  patch := k.patch.trans h.patch
  staged := k.staged.trans h.staged
  frag f hf := by
    obtain ⟨l, hl⟩ := k.frag f hf
    obtain ⟨l', hl'⟩ := h.frag _ hl
    exact ⟨l', by simpa using hl'⟩
  trapCause := k.trapCause.trans h.trapCause
  trapPc := k.trapPc.trans h.trapPc
  tvec := k.tvec.trans h.tvec

/-! What the end of an instruction leaves. -/

theorem OnlyEngine.rfl {s : State} {e : Eng} : OnlyEngine s s e := by
  constructor <;> simp

theorem OnlyEngine.trans {s t u : State} {e : Eng} (h : OnlyEngine s t e) (k : OnlyEngine t u e) : OnlyEngine s u e where
  pending := k.pending.trans h.pending
  chip := k.chip.trans h.chip
  regs d off ho := (k.regs d off ho).trans (h.regs d off ho)
  clk := k.clk.trans h.clk
  boot := k.boot.trans h.boot
  host := by
    have h1 := h.host; have k1 := k.host
    rw [← h1, ← k1]
  pwr := k.pwr.trans h.pwr
  flt := k.flt.trans h.flt
  pln := by
    have h1 := h.pln; have k1 := k.pln
    rw [← h1, ← k1]
  tel := by
    have h1 := h.tel; have k1 := k.tel
    rw [← h1, ← k1]
  eng e' he := (k.eng e' he).trans (h.eng e' he)
  tree := k.tree.trans h.tree
  slots := k.slots.trans h.slots
  slotsBad := k.slotsBad.trans h.slotsBad
  tim := k.tim.trans h.tim
  dp := k.dp.trans h.dp
  quiet hm := by
    obtain ⟨a, b, c, d, f⟩ := h.quiet hm
    obtain ⟨a', b', c', d', f'⟩ := k.quiet hm
    exact ⟨a'.trans a, b'.trans b, c'.trans c, d'.trans d, f'.trans f⟩
  events he := (k.events he).trans (h.events he)

/-- Replacing an engine. -/
theorem OnlyEngine.setEng (s : State) (e : Eng) (en : Engine) : OnlyEngine s (s.setEng e en) e := by
  constructor <;> simp
  exact fun e' he => State.eng_setEng_ne s e e' en he

/-- The memory of another engine. -/
theorem OnlyEngine.mem {s t : State} {e e' : Eng} (h : OnlyEngine s t e) (he : e' ≠ e) (x : Nat) : t.mem e' x = s.mem e' x := by
  have := h.eng e' he
  cases e' with
  | cmd c => simp only [State.mem, this]
  | map m => simp only [State.mem, this]
  | plinth =>
    have h' : t.plinth = s.plinth := this
    simp only [State.mem, h']

/-- What signalling an interrupt and counting events may change. -/
structure PerfOnly (s t : State) : Prop where
  pending : t.pending = s.pending
  chip : t.chip = s.chip
  regs : ∀ d off, (∀ i, off ≠ Reg.offset ⟨.PC_WRAP, i, 0, 0⟩) → sget d t.regs off = sget d s.regs off
  clk : t.clk = s.clk
  boot : t.boot = s.boot
  host : { t.host with pba := s.host.pba, held := s.host.held } = s.host
  pwr : t.pwr = s.pwr
  flt : t.flt = s.flt
  pln : t.pln = s.pln
  tel : { t.tel with perf := s.tel.perf } = s.tel
  cmd : t.cmd = s.cmd
  map : t.map = s.map
  plinth : t.plinth = s.plinth
  tree : t.tree = s.tree
  slots : t.slots = s.slots
  slotsBad : t.slotsBad = s.slotsBad
  tim : t.tim = s.tim
  dp : t.dp = s.dp

theorem PerfOnly.rfl {s : State} : PerfOnly s s := by constructor <;> simp

theorem PerfOnly.trans {s t u : State} (h : PerfOnly s t) (k : PerfOnly t u) : PerfOnly s u where
  pending := k.pending.trans h.pending
  chip := k.chip.trans h.chip
  regs d off ho := (k.regs d off ho).trans (h.regs d off ho)
  clk := k.clk.trans h.clk
  boot := k.boot.trans h.boot
  host := by
    have h1 := h.host; have k1 := k.host
    rw [← h1, ← k1]
  pwr := k.pwr.trans h.pwr
  flt := k.flt.trans h.flt
  pln := k.pln.trans h.pln
  tel := by
    have h1 := h.tel; have k1 := k.tel
    rw [← h1, ← k1]
  cmd := k.cmd.trans h.cmd
  map := k.map.trans h.map
  plinth := k.plinth.trans h.plinth
  tree := k.tree.trans h.tree
  slots := k.slots.trans h.slots
  slotsBad := k.slotsBad.trans h.slotsBad
  tim := k.tim.trans h.tim
  dp := k.dp.trans h.dp

theorem PerfOnly.post (s : State) (o : Out) : PerfOnly s (s.post o) := by
  unfold State.post
  split <;> constructor <;> simp

theorem PerfOnly.signal (s : State) (src : Nat) : PerfOnly s (s.signal src) := by
  unfold State.signal State.signalVector
  split
  · split
    · constructor <;> simp
    · exact PerfOnly.post _ _
  · exact PerfOnly.rfl

theorem PerfOnly.wrap (s : State) (i : Nat) : PerfOnly s (s.perfWrapped i) := by
  have h1 : ∀ m j, PerfOnly s (s.orBits F.PC_WRAP_WRAP m j) := by
    intro m j
    constructor <;> simp
    intro d off ho
    simp only [State.orBits, State.set, State.wr]
    exact sget_sput_ne _ _ _ _ (ho j)
  unfold State.perfWrapped State.raise
  dsimp only
  split
  · exact h1 _ _
  · exact (h1 _ _).trans (PerfOnly.signal _ _)

theorem PerfOnly.fold (f : Perf → Nat) (ps : SMap Perf) (s : State) : PerfOnly s (State.perfFold f s ps) := by
  induction ps generalizing s with
  | nil => exact PerfOnly.rfl
  | cons p ps ih =>
    obtain ⟨i, p⟩ := p
    simp only [State.perfFold]
    refine PerfOnly.trans ?_ (ih _)
    have h1 : ∀ q, PerfOnly s { s with tel := { s.tel with perf := sput {} s.tel.perf i q } } := by
      intro q; constructor <;> simp
    generalize (if p.frz = true ∧ s.flag F.PC_FRZ_CTRL_FROZEN = true then 0 else f p) = n
    split
    · exact PerfOnly.rfl
    · generalize p.add n = pw
      obtain ⟨p', w⟩ := pw
      dsimp only
      split
      · exact (h1 _).trans (PerfOnly.wrap _ _)
      · exact h1 _

/-- All that counting an event can change. -/
theorem PerfOnly.event (s : State) (src inst n : Nat) : PerfOnly s (s.perfEvent src inst n) := PerfOnly.fold _ _ _

theorem PerfOnly.eng {s t : State} (h : PerfOnly s t) (e : Eng) : t.eng e = s.eng e := by
  cases e <;> simp [State.eng, h.cmd, h.map, h.plinth]

theorem OnlyEngine.ofPerf {s t : State} (h : PerfOnly s t) (m : Fin 64) : OnlyEngine s t (.map m) where
  pending := h.pending
  chip := h.chip
  regs := h.regs
  clk := h.clk
  boot := h.boot
  host := h.host
  pwr := h.pwr
  flt := h.flt
  pln := by rw [h.pln]
  tel := h.tel
  eng e' _ := h.eng e'
  tree := h.tree
  slots := h.slots
  slotsBad := h.slotsBad
  tim := h.tim
  dp := h.dp
  quiet hm := absurd (Eq.refl _) (hm m)
  events _ := h.pln

/-- An engine's cyc counts on. -/
def Engine.spent (en : Engine) (e : Eng) (n : Nat) : Engine :=
  match e with
  | .map _ => { en with cyc := en.cyc + n }
  | _ => en

theorem State.spend_frame (s : State) (e : Eng) (n : Nat) : OnlyEngine s (s.spend e n) e := by
  cases e with
  | map m => exact (OnlyEngine.setEng _ _ _).trans (OnlyEngine.ofPerf (PerfOnly.event _ _ _ _) m)
  | cmd c => exact OnlyEngine.rfl
  | plinth => exact OnlyEngine.rfl

theorem State.spend_eng (s : State) (e : Eng) (n : Nat) : (s.spend e n).eng e = (s.eng e).spent e n := by
  cases e with
  | map m =>
    simp only [State.spend]
    rw [(PerfOnly.event _ _ _ _).eng]
    exact State.eng_setEng _ _ _
  | cmd c => rfl
  | plinth => rfl

theorem State.plinthTake_frame (n : Nat) (s : State) : OnlyEngine s (State.plinthTake n s) .plinth := by
  induction n generalizing s with
  | zero => exact OnlyEngine.rfl
  | succ n ih =>
    have h1 : ∀ ev, OnlyEngine s { s with pln := { s.pln with events := ev } } .plinth := by
      intro ev
      constructor <;> simp
      intro e' he; cases e' <;> simp_all [State.eng]
    simp only [State.plinthTake]
    split
    · exact ih s
    · split
      · exact (h1 _).trans (ih _)
      · constructor <;> simp
        intro e' he; cases e' <;> simp_all [State.eng]

theorem State.plinthTake_engine (n : Nat) (s : State) (d : RegNo) :
    s.plinth.OnlyReg (State.plinthTake n s).plinth d ∧ (State.plinthTake n s).plinth.reg d = s.plinth.reg d
      ∧ (State.plinthTake n s).plinth.flags = s.plinth.flags ∧ (State.plinthTake n s).plinth.stall = s.plinth.stall := by
  induction n generalizing s with
  | zero => exact ⟨⟨fun _ _ => rfl, rfl, rfl, rfl, rfl, rfl, rfl, rfl, rfl, fun f h => ⟨f.last, h⟩, rfl, rfl, rfl⟩, rfl, rfl, rfl⟩
  | succ n ih =>
    simp only [State.plinthTake]
    split
    · exact ih s
    · split
      · exact ih { s with pln := { s.pln with events := s.pln.events &&& ~~~BitVec.ofNat 7 (2 ^ (6 - n)) } }
      · exact ⟨⟨fun _ _ => rfl, rfl, rfl, rfl, rfl, rfl, rfl, rfl, rfl, fun f h => ⟨f.last, h⟩, rfl, rfl, rfl⟩, rfl, rfl, rfl⟩

theorem State.retire_frame (s : State) (e : Eng) (idx target : Nat) : OnlyEngine s (s.retire e idx target) e := by
  cases e with
  | plinth => exact (OnlyEngine.setEng _ _ _).trans (State.plinthTake_frame _ _)
  | cmd c => simp only [State.retire]; exact OnlyEngine.setEng _ _ _
  | map m => simp only [State.retire]; exact OnlyEngine.setEng _ _ _

/-- What the engine is after an instruction has retired. -/
theorem State.retire_engine (s : State) (e : Eng) (idx target : Nat) (d : RegNo) :
    (s.eng e).OnlyReg ((s.retire e idx target).eng e) d ∧ ((s.retire e idx target).eng e).reg d = (s.eng e).reg d
      ∧ ((s.retire e idx target).eng e).flags = (s.eng e).flags ∧ ((s.retire e idx target).eng e).stall = .none
      ∧ (s.retire e idx target).standsAt e target := by
  have hb : ∀ en : Engine, en.OnlyReg { en with pc := target, stall := .none, frag := en.frag.map (fun f => { f with last := some idx }) } d := by
    intro en
    refine ⟨fun _ _ => rfl, rfl, rfl, rfl, rfl, rfl, rfl, rfl, rfl, ?_, rfl, rfl, rfl⟩
    intro f h
    simp only [Option.map_eq_some_iff] at h
    obtain ⟨a, ha, rfl⟩ := h
    exact ⟨a.last, by simp [ha]⟩
  cases e with
  | cmd c =>
    simp only [State.retire, State.eng_setEng]
    exact ⟨hb _, rfl, rfl, trivial, fun _ => by simp [State.eng_setEng]⟩
  | map m =>
    simp only [State.retire, State.eng_setEng]
    exact ⟨hb _, rfl, rfl, trivial, fun _ => by simp [State.eng_setEng]⟩
  | plinth =>
    simp only [State.retire]
    obtain ⟨h1, h2, h3, h4⟩ := State.plinthTake_engine 7 (s.setEng .plinth { s.eng .plinth with pc := target, stall := .none, frag := (s.eng .plinth).frag.map (fun f => { f with last := some idx }) }) d
    exact ⟨(hb _).trans h1, h2, h3, h4, fun h => absurd rfl h⟩

/-- An engine that takes an instruction does the instruction's own work. -/
theorem instr_takes {s : State} {e : Eng} {i : Instr} {regs : List RegNo} {cost : Nat} (body : State → Res)
    (h : s.takes e i regs cost = true) :
    instr e i regs cost body s
      = .next (s.finishInstr e (s.eng e).pc (s.lenAt e) (wordOp (s.mem e (s.eng e).pc)) cost (body s)) := by
  simp only [State.takes, Bool.and_eq_true, decide_eq_true_eq, Bool.not_eq_true', Option.isNone_iff_eq_none] at h
  obtain ⟨⟨⟨⟨⟨⟨⟨⟨⟨⟨⟨h1, h2⟩, h3⟩, h4⟩, h5⟩, h6⟩, h7⟩, h8⟩, h9⟩, h10⟩, h11⟩, _⟩ := h
  unfold instr State.runInstr
  simp only [h1, h2, h3, h5, h6, h7, h8, h9, h10, h11, Nat.not_le.2 h4, State.lenAt]
  simp

theorem takes_budget {s : State} {e : Eng} {i : Instr} {regs : List RegNo} {cost : Nat}
    (h : s.takes e i regs cost = true) : s.overBudget e cost = false := by
  simp only [State.takes, Bool.and_eq_true, Bool.not_eq_true'] at h
  exact h.2

/-- An instruction that ends with OK. -/
theorem instr_ok {s s' : State} {e : Eng} {i : Instr} {regs : List RegNo} {cost : Nat} {body : State → Res}
    (h : s.takes e i regs cost = true) (hb : body s = .ok s') :
    instr e i regs cost body s = .next ((s'.spend e cost).retire e (s.eng e).pc ((s.eng e).pc + s.lenAt e)) := by
  rw [instr_takes body h, hb]
  simp only [State.finishInstr, takes_budget h]
  simp

/-- What the end of an instruction that took effect in s' leaves: the frame and the engine. -/
theorem ended {s' : State} {e : Eng} {cost idx target : Nat} (d : RegNo) :
    OnlyEngine s' ((s'.spend e cost).retire e idx target) e
      ∧ (s'.eng e).OnlyReg (((s'.spend e cost).retire e idx target).eng e) d
      ∧ (((s'.spend e cost).retire e idx target).eng e).reg d = (s'.eng e).reg d
      ∧ (((s'.spend e cost).retire e idx target).eng e).flags = (s'.eng e).flags
      ∧ (((s'.spend e cost).retire e idx target).eng e).stall = .none
      ∧ ((s'.spend e cost).retire e idx target).standsAt e target
      ∧ (∀ m, e = .map m → (((s'.spend e cost).retire e idx target).eng e).cyc = (s'.eng e).cyc + cost) := by
  obtain ⟨h1, h2, h3, h4, h5⟩ := State.retire_engine (s'.spend e cost) e idx target d
  have hs := State.spend_eng s' e cost
  have ho : (s'.eng e).OnlyReg ((s'.spend e cost).eng e) d := by
    rw [hs]; unfold Engine.spent
    split <;> exact ⟨fun _ _ => rfl, rfl, rfl, rfl, rfl, rfl, rfl, rfl, rfl, fun f h => ⟨f.last, h⟩, rfl, rfl, rfl⟩
  have hr : ((s'.spend e cost).eng e).reg d = (s'.eng e).reg d := by rw [hs]; unfold Engine.spent; split <;> rfl
  have hf : ((s'.spend e cost).eng e).flags = (s'.eng e).flags := by rw [hs]; unfold Engine.spent; split <;> rfl
  refine ⟨(State.spend_frame _ _ _).trans (State.retire_frame _ _ _ _), ho.trans h1, h2.trans hr, h3.trans hf, h4, h5, ?_⟩
  rintro m rfl
  simp only [State.retire, State.eng_setEng, hs, Engine.spent]

/-- The flags an operation leaves. -/
def Alu.flags (r : Alu) (en : Engine) : Bool × Bool × Bool × Bool :=
  (r.z.getD en.fz, r.n.getD en.fn, r.c.getD en.fc, r.o.getD en.fv)

/-- An instruction whose work turns the state into u and writes a result and flags. -/
theorem instr_putAlu_of {s u : State} {e : Eng} {i : Instr} {regs : List RegNo} {cost : Nat} {body : State → Res} {d : RegNo}
    {r : Alu} (h : s.takes e i regs cost = true) (hb : body s = .ok (u.putAlu e d r)) :
    ∃ t, instr e i regs cost body s = .next t ∧ RegInstr u t e d ∧ t.reg e d = (if d = 0 then 0 else r.v)
      ∧ (t.eng e).flags = r.flags (u.eng e) ∧ t.standsAt e ((s.eng e).pc + s.lenAt e)
      ∧ (∀ m, e = .map m → (t.eng e).cyc = (u.eng e).cyc + cost) := by
  refine ⟨_, instr_ok h hb, ?_⟩
  obtain ⟨h1, h2, h3, h4, h5, h6, h7⟩ := ended (s' := u.putAlu e d r) (e := e) (cost := cost) (idx := (s.eng e).pc)
    (target := (s.eng e).pc + s.lenAt e) d
  have hc : ((u.putAlu e d r).eng e).cyc = (u.eng e).cyc := by
    simp only [State.putAlu, State.eng_setEng, Engine.setReg, Engine.setFlags]; split <;> rfl
  refine ⟨⟨(OnlyEngine.setEng _ _ _).trans h1, ?_, h5⟩, ?_, ?_, h6, fun m hm => by rw [h7 m hm, hc]⟩
  · refine Engine.OnlyReg.trans ?_ h2
    simp only [State.putAlu, State.eng_setEng]
    exact (Engine.setFlags_only _ _ _).trans (Engine.setReg_only _ _ _)
  · rw [State.reg, h3]
    simp only [State.putAlu, State.eng_setEng, Engine.reg_setReg]
  · rw [h4]
    simp only [State.putAlu, State.eng_setEng, Engine.setReg_flags]
    rfl

/-- An instruction whose work is to write a result and flags. -/
theorem instr_putAlu {s : State} {e : Eng} {i : Instr} {regs : List RegNo} {cost : Nat} {body : State → Res} {d : RegNo}
    {r : Alu} (h : s.takes e i regs cost = true) (hb : body s = .ok (s.putAlu e d r)) :
    ∃ t, instr e i regs cost body s = .next t ∧ RegInstr s t e d ∧ t.reg e d = (if d = 0 then 0 else r.v)
      ∧ (t.eng e).flags = r.flags (s.eng e) ∧ t.standsAt e ((s.eng e).pc + s.lenAt e)
      ∧ (∀ m, e = .map m → (t.eng e).cyc = (s.eng e).cyc + cost) := instr_putAlu_of h hb

/-- An instruction whose work is to write a register. -/
theorem instr_setReg {s : State} {e : Eng} {i : Instr} {regs : List RegNo} {cost : Nat} {body : State → Res} {d : RegNo}
    {v : Word} (h : s.takes e i regs cost = true) (hb : body s = .ok (s.setReg e d v)) :
    ∃ t, instr e i regs cost body s = .next t ∧ RegInstr s t e d ∧ t.reg e d = (if d = 0 then 0 else v)
      ∧ (t.eng e).flags = (s.eng e).flags ∧ t.standsAt e ((s.eng e).pc + s.lenAt e)
      ∧ (∀ m, e = .map m → (t.eng e).cyc = (s.eng e).cyc + cost) := by
  have : s.setReg e d v = s.putAlu e d { v } := by simp [State.setReg, State.putAlu, Engine.setFlags]
  rw [this] at hb
  obtain ⟨t, h1, h2, h3, h4, h5⟩ := instr_putAlu h hb
  exact ⟨t, h1, h2, h3, by rw [h4]; rfl, h5⟩

/-- An instruction whose work writes a result and flags computes them. -/
theorem computes_putAlu {e : Eng} {i : Instr} {regs : List RegNo} {cost : Nat} {body : State → Res} {d : RegNo}
    {r : State → Alu} {v : State → Word} {fl : State → Bool × Bool × Bool × Bool}
    (he : ∀ s, exec i s = instr e i regs cost body s) (hb : ∀ s, body s = .ok (s.putAlu e d (r s)))
    (hv : ∀ s, (r s).v = v s) (hf : ∀ s, (r s).flags (s.eng e) = fl s) : Computes e i regs cost d v fl := by
  intro s h
  obtain ⟨t, h1, h2, h3, h4, h5, h6⟩ := instr_putAlu h (hb s)
  exact ⟨t, by rw [he, h1], h2, by rw [h3, hv], by rw [h4, hf], h5, h6⟩

/-- An instruction whose work writes a register computes it. -/
theorem computes_setReg {e : Eng} {i : Instr} {regs : List RegNo} {cost : Nat} {body : State → Res} {d : RegNo}
    {v : State → Word} (he : ∀ s, exec i s = instr e i regs cost body s) (hb : ∀ s, body s = .ok (s.setReg e d (v s))) :
    Computes e i regs cost d v (fun s => (s.eng e).flags) := by
  intro s h
  obtain ⟨t, h1, h2⟩ := instr_setReg h (hb s)
  exact ⟨t, by rw [he, h1], h2⟩

end Sys2Proof.Machine
end

