-- ==== Sys2Proof/Laws/Ops.lean ====
section
/-! SUPPORT. What each shared operation leaves as it is: fields of the state, and registers. -/
set_option linter.unusedSimpArgs false

namespace Sys2Proof.Machine

/-- Two states that agree in every field are equal. -/
theorem State.ext' {s t : State} (h_pending : t.pending = s.pending) (h_chip : t.chip = s.chip) (h_regs : t.regs = s.regs) (h_clk : t.clk = s.clk) (h_boot : t.boot = s.boot) (h_host : t.host = s.host) (h_pwr : t.pwr = s.pwr) (h_flt : t.flt = s.flt) (h_pln : t.pln = s.pln) (h_tel : t.tel = s.tel) (h_cmd : t.cmd = s.cmd) (h_map : t.map = s.map) (h_plinth : t.plinth = s.plinth) (h_tree : t.tree = s.tree) (h_slots : t.slots = s.slots) (h_slotsBad : t.slotsBad = s.slotsBad) (h_tim : t.tim = s.tim) (h_dp : t.dp = s.dp) (h_outs : t.outs = s.outs) (h_free : t.free = s.free) : t = s := by
  cases s; cases t; cases h_pending; cases h_chip; cases h_regs; cases h_clk; cases h_boot; cases h_host; cases h_pwr; cases h_flt; cases h_pln; cases h_tel; cases h_cmd; cases h_map; cases h_plinth; cases h_tree; cases h_slots; cases h_slotsBad; cases h_tim; cases h_dp; cases h_outs; cases h_free; rfl

@[simp] theorem State.post_pending (s : State) (o : Out) : (s.post o).pending = s.pending := by
  simp [State.post, apply_ite State.pending]
@[simp] theorem State.post_chip (s : State) (o : Out) : (s.post o).chip = s.chip := by
  simp [State.post, apply_ite State.chip]
@[simp] theorem State.post_regs (s : State) (o : Out) : (s.post o).regs = s.regs := by
  simp [State.post, apply_ite State.regs]
@[simp] theorem State.post_clk (s : State) (o : Out) : (s.post o).clk = s.clk := by
  simp [State.post, apply_ite State.clk]
@[simp] theorem State.post_boot (s : State) (o : Out) : (s.post o).boot = s.boot := by
  simp [State.post, apply_ite State.boot]
@[simp] theorem State.post_pwr (s : State) (o : Out) : (s.post o).pwr = s.pwr := by
  simp [State.post, apply_ite State.pwr]
@[simp] theorem State.post_flt (s : State) (o : Out) : (s.post o).flt = s.flt := by
  simp [State.post, apply_ite State.flt]
@[simp] theorem State.post_pln (s : State) (o : Out) : (s.post o).pln = s.pln := by
  simp [State.post, apply_ite State.pln]
@[simp] theorem State.post_tel (s : State) (o : Out) : (s.post o).tel = s.tel := by
  simp [State.post, apply_ite State.tel]
@[simp] theorem State.post_cmd (s : State) (o : Out) : (s.post o).cmd = s.cmd := by
  simp [State.post, apply_ite State.cmd]
@[simp] theorem State.post_map (s : State) (o : Out) : (s.post o).map = s.map := by
  simp [State.post, apply_ite State.map]
@[simp] theorem State.post_plinth (s : State) (o : Out) : (s.post o).plinth = s.plinth := by
  simp [State.post, apply_ite State.plinth]
@[simp] theorem State.post_tree (s : State) (o : Out) : (s.post o).tree = s.tree := by
  simp [State.post, apply_ite State.tree]
@[simp] theorem State.post_slots (s : State) (o : Out) : (s.post o).slots = s.slots := by
  simp [State.post, apply_ite State.slots]
@[simp] theorem State.post_slotsBad (s : State) (o : Out) : (s.post o).slotsBad = s.slotsBad := by
  simp [State.post, apply_ite State.slotsBad]
@[simp] theorem State.post_tim (s : State) (o : Out) : (s.post o).tim = s.tim := by
  simp [State.post, apply_ite State.tim]
@[simp] theorem State.post_dp (s : State) (o : Out) : (s.post o).dp = s.dp := by
  simp [State.post, apply_ite State.dp]
@[simp] theorem State.post_free (s : State) (o : Out) : (s.post o).free = s.free := by
  simp [State.post, apply_ite State.free]

@[simp] theorem State.signalVector_pending (s : State) (v : Nat) : (s.signalVector v).pending = s.pending := by
  simp [State.signalVector, apply_ite State.pending]
@[simp] theorem State.signalVector_chip (s : State) (v : Nat) : (s.signalVector v).chip = s.chip := by
  simp [State.signalVector, apply_ite State.chip]
@[simp] theorem State.signalVector_regs (s : State) (v : Nat) : (s.signalVector v).regs = s.regs := by
  simp [State.signalVector, apply_ite State.regs]
@[simp] theorem State.signalVector_clk (s : State) (v : Nat) : (s.signalVector v).clk = s.clk := by
  simp [State.signalVector, apply_ite State.clk]
@[simp] theorem State.signalVector_boot (s : State) (v : Nat) : (s.signalVector v).boot = s.boot := by
  simp [State.signalVector, apply_ite State.boot]
@[simp] theorem State.signalVector_pwr (s : State) (v : Nat) : (s.signalVector v).pwr = s.pwr := by
  simp [State.signalVector, apply_ite State.pwr]
@[simp] theorem State.signalVector_flt (s : State) (v : Nat) : (s.signalVector v).flt = s.flt := by
  simp [State.signalVector, apply_ite State.flt]
@[simp] theorem State.signalVector_pln (s : State) (v : Nat) : (s.signalVector v).pln = s.pln := by
  simp [State.signalVector, apply_ite State.pln]
@[simp] theorem State.signalVector_tel (s : State) (v : Nat) : (s.signalVector v).tel = s.tel := by
  simp [State.signalVector, apply_ite State.tel]
@[simp] theorem State.signalVector_cmd (s : State) (v : Nat) : (s.signalVector v).cmd = s.cmd := by
  simp [State.signalVector, apply_ite State.cmd]
@[simp] theorem State.signalVector_map (s : State) (v : Nat) : (s.signalVector v).map = s.map := by
  simp [State.signalVector, apply_ite State.map]
@[simp] theorem State.signalVector_plinth (s : State) (v : Nat) : (s.signalVector v).plinth = s.plinth := by
  simp [State.signalVector, apply_ite State.plinth]
@[simp] theorem State.signalVector_tree (s : State) (v : Nat) : (s.signalVector v).tree = s.tree := by
  simp [State.signalVector, apply_ite State.tree]
@[simp] theorem State.signalVector_slots (s : State) (v : Nat) : (s.signalVector v).slots = s.slots := by
  simp [State.signalVector, apply_ite State.slots]
@[simp] theorem State.signalVector_slotsBad (s : State) (v : Nat) : (s.signalVector v).slotsBad = s.slotsBad := by
  simp [State.signalVector, apply_ite State.slotsBad]
@[simp] theorem State.signalVector_tim (s : State) (v : Nat) : (s.signalVector v).tim = s.tim := by
  simp [State.signalVector, apply_ite State.tim]
@[simp] theorem State.signalVector_dp (s : State) (v : Nat) : (s.signalVector v).dp = s.dp := by
  simp [State.signalVector, apply_ite State.dp]
@[simp] theorem State.signalVector_free (s : State) (v : Nat) : (s.signalVector v).free = s.free := by
  simp [State.signalVector, apply_ite State.free]

@[simp] theorem State.signal_pending (s : State) (n : Nat) : (s.signal n).pending = s.pending := by
  simp [State.signal, apply_ite State.pending]
@[simp] theorem State.signal_chip (s : State) (n : Nat) : (s.signal n).chip = s.chip := by
  simp [State.signal, apply_ite State.chip]
@[simp] theorem State.signal_regs (s : State) (n : Nat) : (s.signal n).regs = s.regs := by
  simp [State.signal, apply_ite State.regs]
@[simp] theorem State.signal_clk (s : State) (n : Nat) : (s.signal n).clk = s.clk := by
  simp [State.signal, apply_ite State.clk]
@[simp] theorem State.signal_boot (s : State) (n : Nat) : (s.signal n).boot = s.boot := by
  simp [State.signal, apply_ite State.boot]
@[simp] theorem State.signal_pwr (s : State) (n : Nat) : (s.signal n).pwr = s.pwr := by
  simp [State.signal, apply_ite State.pwr]
@[simp] theorem State.signal_flt (s : State) (n : Nat) : (s.signal n).flt = s.flt := by
  simp [State.signal, apply_ite State.flt]
@[simp] theorem State.signal_pln (s : State) (n : Nat) : (s.signal n).pln = s.pln := by
  simp [State.signal, apply_ite State.pln]
@[simp] theorem State.signal_tel (s : State) (n : Nat) : (s.signal n).tel = s.tel := by
  simp [State.signal, apply_ite State.tel]
@[simp] theorem State.signal_cmd (s : State) (n : Nat) : (s.signal n).cmd = s.cmd := by
  simp [State.signal, apply_ite State.cmd]
@[simp] theorem State.signal_map (s : State) (n : Nat) : (s.signal n).map = s.map := by
  simp [State.signal, apply_ite State.map]
@[simp] theorem State.signal_plinth (s : State) (n : Nat) : (s.signal n).plinth = s.plinth := by
  simp [State.signal, apply_ite State.plinth]
@[simp] theorem State.signal_tree (s : State) (n : Nat) : (s.signal n).tree = s.tree := by
  simp [State.signal, apply_ite State.tree]
@[simp] theorem State.signal_slots (s : State) (n : Nat) : (s.signal n).slots = s.slots := by
  simp [State.signal, apply_ite State.slots]
@[simp] theorem State.signal_slotsBad (s : State) (n : Nat) : (s.signal n).slotsBad = s.slotsBad := by
  simp [State.signal, apply_ite State.slotsBad]
@[simp] theorem State.signal_tim (s : State) (n : Nat) : (s.signal n).tim = s.tim := by
  simp [State.signal, apply_ite State.tim]
@[simp] theorem State.signal_dp (s : State) (n : Nat) : (s.signal n).dp = s.dp := by
  simp [State.signal, apply_ite State.dp]
@[simp] theorem State.signal_free (s : State) (n : Nat) : (s.signal n).free = s.free := by
  simp [State.signal, apply_ite State.free]

@[simp] theorem State.raise_pending (s : State) (c en : Fld) (m src i : Nat) : (s.raise c en m src i).pending = s.pending := by
  simp [State.raise, apply_ite State.pending]
@[simp] theorem State.raise_chip (s : State) (c en : Fld) (m src i : Nat) : (s.raise c en m src i).chip = s.chip := by
  simp [State.raise, apply_ite State.chip]
@[simp] theorem State.raise_clk (s : State) (c en : Fld) (m src i : Nat) : (s.raise c en m src i).clk = s.clk := by
  simp [State.raise, apply_ite State.clk]
@[simp] theorem State.raise_boot (s : State) (c en : Fld) (m src i : Nat) : (s.raise c en m src i).boot = s.boot := by
  simp [State.raise, apply_ite State.boot]
@[simp] theorem State.raise_pwr (s : State) (c en : Fld) (m src i : Nat) : (s.raise c en m src i).pwr = s.pwr := by
  simp [State.raise, apply_ite State.pwr]
@[simp] theorem State.raise_flt (s : State) (c en : Fld) (m src i : Nat) : (s.raise c en m src i).flt = s.flt := by
  simp [State.raise, apply_ite State.flt]
@[simp] theorem State.raise_pln (s : State) (c en : Fld) (m src i : Nat) : (s.raise c en m src i).pln = s.pln := by
  simp [State.raise, apply_ite State.pln]
@[simp] theorem State.raise_tel (s : State) (c en : Fld) (m src i : Nat) : (s.raise c en m src i).tel = s.tel := by
  simp [State.raise, apply_ite State.tel]
@[simp] theorem State.raise_cmd (s : State) (c en : Fld) (m src i : Nat) : (s.raise c en m src i).cmd = s.cmd := by
  simp [State.raise, apply_ite State.cmd]
@[simp] theorem State.raise_map (s : State) (c en : Fld) (m src i : Nat) : (s.raise c en m src i).map = s.map := by
  simp [State.raise, apply_ite State.map]
@[simp] theorem State.raise_plinth (s : State) (c en : Fld) (m src i : Nat) : (s.raise c en m src i).plinth = s.plinth := by
  simp [State.raise, apply_ite State.plinth]
@[simp] theorem State.raise_tree (s : State) (c en : Fld) (m src i : Nat) : (s.raise c en m src i).tree = s.tree := by
  simp [State.raise, apply_ite State.tree]
@[simp] theorem State.raise_slots (s : State) (c en : Fld) (m src i : Nat) : (s.raise c en m src i).slots = s.slots := by
  simp [State.raise, apply_ite State.slots]
@[simp] theorem State.raise_slotsBad (s : State) (c en : Fld) (m src i : Nat) : (s.raise c en m src i).slotsBad = s.slotsBad := by
  simp [State.raise, apply_ite State.slotsBad]
@[simp] theorem State.raise_tim (s : State) (c en : Fld) (m src i : Nat) : (s.raise c en m src i).tim = s.tim := by
  simp [State.raise, apply_ite State.tim]
@[simp] theorem State.raise_dp (s : State) (c en : Fld) (m src i : Nat) : (s.raise c en m src i).dp = s.dp := by
  simp [State.raise, apply_ite State.dp]
@[simp] theorem State.raise_free (s : State) (c en : Fld) (m src i : Nat) : (s.raise c en m src i).free = s.free := by
  simp [State.raise, apply_ite State.free]

@[simp] theorem State.plinthEvent_pending (s : State) (e : Nat) : (s.plinthEvent e).pending = s.pending := by
  simp [State.plinthEvent, apply_ite State.pending]
@[simp] theorem State.plinthEvent_chip (s : State) (e : Nat) : (s.plinthEvent e).chip = s.chip := by
  simp [State.plinthEvent, apply_ite State.chip]
@[simp] theorem State.plinthEvent_regs (s : State) (e : Nat) : (s.plinthEvent e).regs = s.regs := by
  simp [State.plinthEvent, apply_ite State.regs]
@[simp] theorem State.plinthEvent_clk (s : State) (e : Nat) : (s.plinthEvent e).clk = s.clk := by
  simp [State.plinthEvent, apply_ite State.clk]
@[simp] theorem State.plinthEvent_boot (s : State) (e : Nat) : (s.plinthEvent e).boot = s.boot := by
  simp [State.plinthEvent, apply_ite State.boot]
@[simp] theorem State.plinthEvent_host (s : State) (e : Nat) : (s.plinthEvent e).host = s.host := by
  simp [State.plinthEvent, apply_ite State.host]
@[simp] theorem State.plinthEvent_pwr (s : State) (e : Nat) : (s.plinthEvent e).pwr = s.pwr := by
  simp [State.plinthEvent, apply_ite State.pwr]
@[simp] theorem State.plinthEvent_flt (s : State) (e : Nat) : (s.plinthEvent e).flt = s.flt := by
  simp [State.plinthEvent, apply_ite State.flt]
@[simp] theorem State.plinthEvent_tel (s : State) (e : Nat) : (s.plinthEvent e).tel = s.tel := by
  simp [State.plinthEvent, apply_ite State.tel]
@[simp] theorem State.plinthEvent_cmd (s : State) (e : Nat) : (s.plinthEvent e).cmd = s.cmd := by
  simp [State.plinthEvent, apply_ite State.cmd]
@[simp] theorem State.plinthEvent_map (s : State) (e : Nat) : (s.plinthEvent e).map = s.map := by
  simp [State.plinthEvent, apply_ite State.map]
@[simp] theorem State.plinthEvent_plinth (s : State) (e : Nat) : (s.plinthEvent e).plinth = s.plinth := by
  simp [State.plinthEvent, apply_ite State.plinth]
@[simp] theorem State.plinthEvent_tree (s : State) (e : Nat) : (s.plinthEvent e).tree = s.tree := by
  simp [State.plinthEvent, apply_ite State.tree]
@[simp] theorem State.plinthEvent_slots (s : State) (e : Nat) : (s.plinthEvent e).slots = s.slots := by
  simp [State.plinthEvent, apply_ite State.slots]
@[simp] theorem State.plinthEvent_slotsBad (s : State) (e : Nat) : (s.plinthEvent e).slotsBad = s.slotsBad := by
  simp [State.plinthEvent, apply_ite State.slotsBad]
@[simp] theorem State.plinthEvent_tim (s : State) (e : Nat) : (s.plinthEvent e).tim = s.tim := by
  simp [State.plinthEvent, apply_ite State.tim]
@[simp] theorem State.plinthEvent_dp (s : State) (e : Nat) : (s.plinthEvent e).dp = s.dp := by
  simp [State.plinthEvent, apply_ite State.dp]
@[simp] theorem State.plinthEvent_outs (s : State) (e : Nat) : (s.plinthEvent e).outs = s.outs := by
  simp [State.plinthEvent, apply_ite State.outs]
@[simp] theorem State.plinthEvent_free (s : State) (e : Nat) : (s.plinthEvent e).free = s.free := by
  simp [State.plinthEvent, apply_ite State.free]

@[simp] theorem State.logRec_pending (s : State) (a b : Nat) (p q : Word) : (s.logRec a b p q).pending = s.pending := by
  simp [State.logRec, apply_ite State.pending]
@[simp] theorem State.logRec_chip (s : State) (a b : Nat) (p q : Word) : (s.logRec a b p q).chip = s.chip := by
  simp [State.logRec, apply_ite State.chip]
@[simp] theorem State.logRec_regs (s : State) (a b : Nat) (p q : Word) : (s.logRec a b p q).regs = s.regs := by
  simp [State.logRec, apply_ite State.regs]
@[simp] theorem State.logRec_clk (s : State) (a b : Nat) (p q : Word) : (s.logRec a b p q).clk = s.clk := by
  simp [State.logRec, apply_ite State.clk]
@[simp] theorem State.logRec_boot (s : State) (a b : Nat) (p q : Word) : (s.logRec a b p q).boot = s.boot := by
  simp [State.logRec, apply_ite State.boot]
@[simp] theorem State.logRec_host (s : State) (a b : Nat) (p q : Word) : (s.logRec a b p q).host = s.host := by
  simp [State.logRec, apply_ite State.host]
@[simp] theorem State.logRec_pwr (s : State) (a b : Nat) (p q : Word) : (s.logRec a b p q).pwr = s.pwr := by
  simp [State.logRec, apply_ite State.pwr]
@[simp] theorem State.logRec_flt (s : State) (a b : Nat) (p q : Word) : (s.logRec a b p q).flt = s.flt := by
  simp [State.logRec, apply_ite State.flt]
@[simp] theorem State.logRec_tel (s : State) (a b : Nat) (p q : Word) : (s.logRec a b p q).tel = s.tel := by
  simp [State.logRec, apply_ite State.tel]
@[simp] theorem State.logRec_cmd (s : State) (a b : Nat) (p q : Word) : (s.logRec a b p q).cmd = s.cmd := by
  simp [State.logRec, apply_ite State.cmd]
@[simp] theorem State.logRec_map (s : State) (a b : Nat) (p q : Word) : (s.logRec a b p q).map = s.map := by
  simp [State.logRec, apply_ite State.map]
@[simp] theorem State.logRec_plinth (s : State) (a b : Nat) (p q : Word) : (s.logRec a b p q).plinth = s.plinth := by
  simp [State.logRec, apply_ite State.plinth]
@[simp] theorem State.logRec_tree (s : State) (a b : Nat) (p q : Word) : (s.logRec a b p q).tree = s.tree := by
  simp [State.logRec, apply_ite State.tree]
@[simp] theorem State.logRec_slots (s : State) (a b : Nat) (p q : Word) : (s.logRec a b p q).slots = s.slots := by
  simp [State.logRec, apply_ite State.slots]
@[simp] theorem State.logRec_slotsBad (s : State) (a b : Nat) (p q : Word) : (s.logRec a b p q).slotsBad = s.slotsBad := by
  simp [State.logRec, apply_ite State.slotsBad]
@[simp] theorem State.logRec_tim (s : State) (a b : Nat) (p q : Word) : (s.logRec a b p q).tim = s.tim := by
  simp [State.logRec, apply_ite State.tim]
@[simp] theorem State.logRec_dp (s : State) (a b : Nat) (p q : Word) : (s.logRec a b p q).dp = s.dp := by
  simp [State.logRec, apply_ite State.dp]
@[simp] theorem State.logRec_outs (s : State) (a b : Nat) (p q : Word) : (s.logRec a b p q).outs = s.outs := by
  simp [State.logRec, apply_ite State.outs]
@[simp] theorem State.logRec_free (s : State) (a b : Nat) (p q : Word) : (s.logRec a b p q).free = s.free := by
  simp [State.logRec, apply_ite State.free]

@[simp] theorem State.logTick_pending (s : State) (a : Nat) : (s.logTick a).pending = s.pending := by
  simp [State.logTick]
@[simp] theorem State.logTick_chip (s : State) (a : Nat) : (s.logTick a).chip = s.chip := by
  simp [State.logTick]
@[simp] theorem State.logTick_regs (s : State) (a : Nat) : (s.logTick a).regs = s.regs := by
  simp [State.logTick]
@[simp] theorem State.logTick_clk (s : State) (a : Nat) : (s.logTick a).clk = s.clk := by
  simp [State.logTick]
@[simp] theorem State.logTick_boot (s : State) (a : Nat) : (s.logTick a).boot = s.boot := by
  simp [State.logTick]
@[simp] theorem State.logTick_host (s : State) (a : Nat) : (s.logTick a).host = s.host := by
  simp [State.logTick]
@[simp] theorem State.logTick_pwr (s : State) (a : Nat) : (s.logTick a).pwr = s.pwr := by
  simp [State.logTick]
@[simp] theorem State.logTick_flt (s : State) (a : Nat) : (s.logTick a).flt = s.flt := by
  simp [State.logTick]
@[simp] theorem State.logTick_tel (s : State) (a : Nat) : (s.logTick a).tel = s.tel := by
  simp [State.logTick]
@[simp] theorem State.logTick_cmd (s : State) (a : Nat) : (s.logTick a).cmd = s.cmd := by
  simp [State.logTick]
@[simp] theorem State.logTick_map (s : State) (a : Nat) : (s.logTick a).map = s.map := by
  simp [State.logTick]
@[simp] theorem State.logTick_plinth (s : State) (a : Nat) : (s.logTick a).plinth = s.plinth := by
  simp [State.logTick]
@[simp] theorem State.logTick_tree (s : State) (a : Nat) : (s.logTick a).tree = s.tree := by
  simp [State.logTick]
@[simp] theorem State.logTick_slots (s : State) (a : Nat) : (s.logTick a).slots = s.slots := by
  simp [State.logTick]
@[simp] theorem State.logTick_slotsBad (s : State) (a : Nat) : (s.logTick a).slotsBad = s.slotsBad := by
  simp [State.logTick]
@[simp] theorem State.logTick_tim (s : State) (a : Nat) : (s.logTick a).tim = s.tim := by
  simp [State.logTick]
@[simp] theorem State.logTick_dp (s : State) (a : Nat) : (s.logTick a).dp = s.dp := by
  simp [State.logTick]
@[simp] theorem State.logTick_outs (s : State) (a : Nat) : (s.logTick a).outs = s.outs := by
  simp [State.logTick]
@[simp] theorem State.logTick_free (s : State) (a : Nat) : (s.logTick a).free = s.free := by
  simp [State.logTick]

@[simp] theorem State.logLimited_pending (s : State) (a : Nat) (p q : Word) : (s.logLimited a p q).pending = s.pending := by
  simp [State.logLimited, apply_ite State.pending]
@[simp] theorem State.logLimited_chip (s : State) (a : Nat) (p q : Word) : (s.logLimited a p q).chip = s.chip := by
  simp [State.logLimited, apply_ite State.chip]
@[simp] theorem State.logLimited_clk (s : State) (a : Nat) (p q : Word) : (s.logLimited a p q).clk = s.clk := by
  simp [State.logLimited, apply_ite State.clk]
@[simp] theorem State.logLimited_boot (s : State) (a : Nat) (p q : Word) : (s.logLimited a p q).boot = s.boot := by
  simp [State.logLimited, apply_ite State.boot]
@[simp] theorem State.logLimited_host (s : State) (a : Nat) (p q : Word) : (s.logLimited a p q).host = s.host := by
  simp [State.logLimited, apply_ite State.host]
@[simp] theorem State.logLimited_pwr (s : State) (a : Nat) (p q : Word) : (s.logLimited a p q).pwr = s.pwr := by
  simp [State.logLimited, apply_ite State.pwr]
@[simp] theorem State.logLimited_flt (s : State) (a : Nat) (p q : Word) : (s.logLimited a p q).flt = s.flt := by
  simp [State.logLimited, apply_ite State.flt]
@[simp] theorem State.logLimited_tel (s : State) (a : Nat) (p q : Word) : (s.logLimited a p q).tel = s.tel := by
  simp [State.logLimited, apply_ite State.tel]
@[simp] theorem State.logLimited_cmd (s : State) (a : Nat) (p q : Word) : (s.logLimited a p q).cmd = s.cmd := by
  simp [State.logLimited, apply_ite State.cmd]
@[simp] theorem State.logLimited_map (s : State) (a : Nat) (p q : Word) : (s.logLimited a p q).map = s.map := by
  simp [State.logLimited, apply_ite State.map]
@[simp] theorem State.logLimited_plinth (s : State) (a : Nat) (p q : Word) : (s.logLimited a p q).plinth = s.plinth := by
  simp [State.logLimited, apply_ite State.plinth]
@[simp] theorem State.logLimited_tree (s : State) (a : Nat) (p q : Word) : (s.logLimited a p q).tree = s.tree := by
  simp [State.logLimited, apply_ite State.tree]
@[simp] theorem State.logLimited_slots (s : State) (a : Nat) (p q : Word) : (s.logLimited a p q).slots = s.slots := by
  simp [State.logLimited, apply_ite State.slots]
@[simp] theorem State.logLimited_slotsBad (s : State) (a : Nat) (p q : Word) : (s.logLimited a p q).slotsBad = s.slotsBad := by
  simp [State.logLimited, apply_ite State.slotsBad]
@[simp] theorem State.logLimited_tim (s : State) (a : Nat) (p q : Word) : (s.logLimited a p q).tim = s.tim := by
  simp [State.logLimited, apply_ite State.tim]
@[simp] theorem State.logLimited_dp (s : State) (a : Nat) (p q : Word) : (s.logLimited a p q).dp = s.dp := by
  simp [State.logLimited, apply_ite State.dp]
@[simp] theorem State.logLimited_outs (s : State) (a : Nat) (p q : Word) : (s.logLimited a p q).outs = s.outs := by
  simp [State.logLimited, apply_ite State.outs]
@[simp] theorem State.logLimited_free (s : State) (a : Nat) (p q : Word) : (s.logLimited a p q).free = s.free := by
  simp [State.logLimited, apply_ite State.free]

@[simp] theorem State.reject_pending (s : State) (r : Rejection) : (s.reject r).pending = s.pending := by
  simp [State.reject, apply_ite State.pending]
@[simp] theorem State.reject_chip (s : State) (r : Rejection) : (s.reject r).chip = s.chip := by
  simp [State.reject, apply_ite State.chip]
@[simp] theorem State.reject_clk (s : State) (r : Rejection) : (s.reject r).clk = s.clk := by
  simp [State.reject, apply_ite State.clk]
@[simp] theorem State.reject_boot (s : State) (r : Rejection) : (s.reject r).boot = s.boot := by
  simp [State.reject, apply_ite State.boot]
@[simp] theorem State.reject_host (s : State) (r : Rejection) : (s.reject r).host = s.host := by
  simp [State.reject, apply_ite State.host]
@[simp] theorem State.reject_pwr (s : State) (r : Rejection) : (s.reject r).pwr = s.pwr := by
  simp [State.reject, apply_ite State.pwr]
@[simp] theorem State.reject_flt (s : State) (r : Rejection) : (s.reject r).flt = s.flt := by
  simp [State.reject, apply_ite State.flt]
@[simp] theorem State.reject_tel (s : State) (r : Rejection) : (s.reject r).tel = s.tel := by
  simp [State.reject, apply_ite State.tel]
@[simp] theorem State.reject_cmd (s : State) (r : Rejection) : (s.reject r).cmd = s.cmd := by
  simp [State.reject, apply_ite State.cmd]
@[simp] theorem State.reject_map (s : State) (r : Rejection) : (s.reject r).map = s.map := by
  simp [State.reject, apply_ite State.map]
@[simp] theorem State.reject_plinth (s : State) (r : Rejection) : (s.reject r).plinth = s.plinth := by
  simp [State.reject, apply_ite State.plinth]
@[simp] theorem State.reject_tree (s : State) (r : Rejection) : (s.reject r).tree = s.tree := by
  simp [State.reject, apply_ite State.tree]
@[simp] theorem State.reject_slots (s : State) (r : Rejection) : (s.reject r).slots = s.slots := by
  simp [State.reject, apply_ite State.slots]
@[simp] theorem State.reject_slotsBad (s : State) (r : Rejection) : (s.reject r).slotsBad = s.slotsBad := by
  simp [State.reject, apply_ite State.slotsBad]
@[simp] theorem State.reject_tim (s : State) (r : Rejection) : (s.reject r).tim = s.tim := by
  simp [State.reject, apply_ite State.tim]
@[simp] theorem State.reject_dp (s : State) (r : Rejection) : (s.reject r).dp = s.dp := by
  simp [State.reject, apply_ite State.dp]
@[simp] theorem State.reject_outs (s : State) (r : Rejection) : (s.reject r).outs = s.outs := by
  simp [State.reject, apply_ite State.outs]
@[simp] theorem State.reject_free (s : State) (r : Rejection) : (s.reject r).free = s.free := by
  simp [State.reject, apply_ite State.free]

@[simp] theorem State.rejectReg_pending (s : State) (e : Fld) (st : Status) (i : Nat) : (s.rejectReg e st i).pending = s.pending := by
  simp [State.rejectReg, apply_ite State.pending]
@[simp] theorem State.rejectReg_chip (s : State) (e : Fld) (st : Status) (i : Nat) : (s.rejectReg e st i).chip = s.chip := by
  simp [State.rejectReg, apply_ite State.chip]
@[simp] theorem State.rejectReg_clk (s : State) (e : Fld) (st : Status) (i : Nat) : (s.rejectReg e st i).clk = s.clk := by
  simp [State.rejectReg, apply_ite State.clk]
@[simp] theorem State.rejectReg_boot (s : State) (e : Fld) (st : Status) (i : Nat) : (s.rejectReg e st i).boot = s.boot := by
  simp [State.rejectReg, apply_ite State.boot]
@[simp] theorem State.rejectReg_host (s : State) (e : Fld) (st : Status) (i : Nat) : (s.rejectReg e st i).host = s.host := by
  simp [State.rejectReg, apply_ite State.host]
@[simp] theorem State.rejectReg_pwr (s : State) (e : Fld) (st : Status) (i : Nat) : (s.rejectReg e st i).pwr = s.pwr := by
  simp [State.rejectReg, apply_ite State.pwr]
@[simp] theorem State.rejectReg_flt (s : State) (e : Fld) (st : Status) (i : Nat) : (s.rejectReg e st i).flt = s.flt := by
  simp [State.rejectReg, apply_ite State.flt]
@[simp] theorem State.rejectReg_tel (s : State) (e : Fld) (st : Status) (i : Nat) : (s.rejectReg e st i).tel = s.tel := by
  simp [State.rejectReg, apply_ite State.tel]
@[simp] theorem State.rejectReg_cmd (s : State) (e : Fld) (st : Status) (i : Nat) : (s.rejectReg e st i).cmd = s.cmd := by
  simp [State.rejectReg, apply_ite State.cmd]
@[simp] theorem State.rejectReg_map (s : State) (e : Fld) (st : Status) (i : Nat) : (s.rejectReg e st i).map = s.map := by
  simp [State.rejectReg, apply_ite State.map]
@[simp] theorem State.rejectReg_plinth (s : State) (e : Fld) (st : Status) (i : Nat) : (s.rejectReg e st i).plinth = s.plinth := by
  simp [State.rejectReg, apply_ite State.plinth]
@[simp] theorem State.rejectReg_tree (s : State) (e : Fld) (st : Status) (i : Nat) : (s.rejectReg e st i).tree = s.tree := by
  simp [State.rejectReg, apply_ite State.tree]
@[simp] theorem State.rejectReg_slots (s : State) (e : Fld) (st : Status) (i : Nat) : (s.rejectReg e st i).slots = s.slots := by
  simp [State.rejectReg, apply_ite State.slots]
@[simp] theorem State.rejectReg_slotsBad (s : State) (e : Fld) (st : Status) (i : Nat) : (s.rejectReg e st i).slotsBad = s.slotsBad := by
  simp [State.rejectReg, apply_ite State.slotsBad]
@[simp] theorem State.rejectReg_tim (s : State) (e : Fld) (st : Status) (i : Nat) : (s.rejectReg e st i).tim = s.tim := by
  simp [State.rejectReg, apply_ite State.tim]
@[simp] theorem State.rejectReg_dp (s : State) (e : Fld) (st : Status) (i : Nat) : (s.rejectReg e st i).dp = s.dp := by
  simp [State.rejectReg, apply_ite State.dp]
@[simp] theorem State.rejectReg_outs (s : State) (e : Fld) (st : Status) (i : Nat) : (s.rejectReg e st i).outs = s.outs := by
  simp [State.rejectReg, apply_ite State.outs]
@[simp] theorem State.rejectReg_free (s : State) (e : Fld) (st : Status) (i : Nat) : (s.rejectReg e st i).free = s.free := by
  simp [State.rejectReg, apply_ite State.free]

@[simp] theorem State.faultPush_pending (s : State) (r : FaultRec) : (s.faultPush r).pending = s.pending := by
  simp [State.faultPush, apply_ite State.pending]
@[simp] theorem State.faultPush_chip (s : State) (r : FaultRec) : (s.faultPush r).chip = s.chip := by
  simp [State.faultPush, apply_ite State.chip]
@[simp] theorem State.faultPush_clk (s : State) (r : FaultRec) : (s.faultPush r).clk = s.clk := by
  simp [State.faultPush, apply_ite State.clk]
@[simp] theorem State.faultPush_boot (s : State) (r : FaultRec) : (s.faultPush r).boot = s.boot := by
  simp [State.faultPush, apply_ite State.boot]
@[simp] theorem State.faultPush_host (s : State) (r : FaultRec) : (s.faultPush r).host = s.host := by
  simp [State.faultPush, apply_ite State.host]
@[simp] theorem State.faultPush_pwr (s : State) (r : FaultRec) : (s.faultPush r).pwr = s.pwr := by
  simp [State.faultPush, apply_ite State.pwr]
@[simp] theorem State.faultPush_pln (s : State) (r : FaultRec) : (s.faultPush r).pln = s.pln := by
  simp [State.faultPush, apply_ite State.pln]
@[simp] theorem State.faultPush_tel (s : State) (r : FaultRec) : (s.faultPush r).tel = s.tel := by
  simp [State.faultPush, apply_ite State.tel]
@[simp] theorem State.faultPush_cmd (s : State) (r : FaultRec) : (s.faultPush r).cmd = s.cmd := by
  simp [State.faultPush, apply_ite State.cmd]
@[simp] theorem State.faultPush_map (s : State) (r : FaultRec) : (s.faultPush r).map = s.map := by
  simp [State.faultPush, apply_ite State.map]
@[simp] theorem State.faultPush_plinth (s : State) (r : FaultRec) : (s.faultPush r).plinth = s.plinth := by
  simp [State.faultPush, apply_ite State.plinth]
@[simp] theorem State.faultPush_tree (s : State) (r : FaultRec) : (s.faultPush r).tree = s.tree := by
  simp [State.faultPush, apply_ite State.tree]
@[simp] theorem State.faultPush_slots (s : State) (r : FaultRec) : (s.faultPush r).slots = s.slots := by
  simp [State.faultPush, apply_ite State.slots]
@[simp] theorem State.faultPush_slotsBad (s : State) (r : FaultRec) : (s.faultPush r).slotsBad = s.slotsBad := by
  simp [State.faultPush, apply_ite State.slotsBad]
@[simp] theorem State.faultPush_tim (s : State) (r : FaultRec) : (s.faultPush r).tim = s.tim := by
  simp [State.faultPush, apply_ite State.tim]
@[simp] theorem State.faultPush_dp (s : State) (r : FaultRec) : (s.faultPush r).dp = s.dp := by
  simp [State.faultPush, apply_ite State.dp]
@[simp] theorem State.faultPush_outs (s : State) (r : FaultRec) : (s.faultPush r).outs = s.outs := by
  simp [State.faultPush, apply_ite State.outs]
@[simp] theorem State.faultPush_free (s : State) (r : FaultRec) : (s.faultPush r).free = s.free := by
  simp [State.faultPush, apply_ite State.free]

@[simp] theorem State.faultTally_pending (s : State) (c : Nat) : (s.faultTally c).pending = s.pending := by
  simp [State.faultTally, apply_ite State.pending]
@[simp] theorem State.faultTally_chip (s : State) (c : Nat) : (s.faultTally c).chip = s.chip := by
  simp [State.faultTally, apply_ite State.chip]
@[simp] theorem State.faultTally_clk (s : State) (c : Nat) : (s.faultTally c).clk = s.clk := by
  simp [State.faultTally, apply_ite State.clk]
@[simp] theorem State.faultTally_boot (s : State) (c : Nat) : (s.faultTally c).boot = s.boot := by
  simp [State.faultTally, apply_ite State.boot]
@[simp] theorem State.faultTally_host (s : State) (c : Nat) : (s.faultTally c).host = s.host := by
  simp [State.faultTally, apply_ite State.host]
@[simp] theorem State.faultTally_pwr (s : State) (c : Nat) : (s.faultTally c).pwr = s.pwr := by
  simp [State.faultTally, apply_ite State.pwr]
@[simp] theorem State.faultTally_flt (s : State) (c : Nat) : (s.faultTally c).flt = s.flt := by
  simp [State.faultTally, apply_ite State.flt]
@[simp] theorem State.faultTally_pln (s : State) (c : Nat) : (s.faultTally c).pln = s.pln := by
  simp [State.faultTally, apply_ite State.pln]
@[simp] theorem State.faultTally_tel (s : State) (c : Nat) : (s.faultTally c).tel = s.tel := by
  simp [State.faultTally, apply_ite State.tel]
@[simp] theorem State.faultTally_cmd (s : State) (c : Nat) : (s.faultTally c).cmd = s.cmd := by
  simp [State.faultTally, apply_ite State.cmd]
@[simp] theorem State.faultTally_map (s : State) (c : Nat) : (s.faultTally c).map = s.map := by
  simp [State.faultTally, apply_ite State.map]
@[simp] theorem State.faultTally_plinth (s : State) (c : Nat) : (s.faultTally c).plinth = s.plinth := by
  simp [State.faultTally, apply_ite State.plinth]
@[simp] theorem State.faultTally_tree (s : State) (c : Nat) : (s.faultTally c).tree = s.tree := by
  simp [State.faultTally, apply_ite State.tree]
@[simp] theorem State.faultTally_slots (s : State) (c : Nat) : (s.faultTally c).slots = s.slots := by
  simp [State.faultTally, apply_ite State.slots]
@[simp] theorem State.faultTally_slotsBad (s : State) (c : Nat) : (s.faultTally c).slotsBad = s.slotsBad := by
  simp [State.faultTally, apply_ite State.slotsBad]
@[simp] theorem State.faultTally_tim (s : State) (c : Nat) : (s.faultTally c).tim = s.tim := by
  simp [State.faultTally, apply_ite State.tim]
@[simp] theorem State.faultTally_dp (s : State) (c : Nat) : (s.faultTally c).dp = s.dp := by
  simp [State.faultTally, apply_ite State.dp]
@[simp] theorem State.faultTally_outs (s : State) (c : Nat) : (s.faultTally c).outs = s.outs := by
  simp [State.faultTally, apply_ite State.outs]
@[simp] theorem State.faultTally_free (s : State) (c : Nat) : (s.faultTally c).free = s.free := by
  simp [State.faultTally, apply_ite State.free]

@[simp] theorem State.faultFirst_pending (s : State) (c : Nat) (r : FaultRec) : (s.faultFirst c r).pending = s.pending := by
  simp [State.faultFirst, apply_ite State.pending]
@[simp] theorem State.faultFirst_chip (s : State) (c : Nat) (r : FaultRec) : (s.faultFirst c r).chip = s.chip := by
  simp [State.faultFirst, apply_ite State.chip]
@[simp] theorem State.faultFirst_clk (s : State) (c : Nat) (r : FaultRec) : (s.faultFirst c r).clk = s.clk := by
  simp [State.faultFirst, apply_ite State.clk]
@[simp] theorem State.faultFirst_boot (s : State) (c : Nat) (r : FaultRec) : (s.faultFirst c r).boot = s.boot := by
  simp [State.faultFirst, apply_ite State.boot]
@[simp] theorem State.faultFirst_host (s : State) (c : Nat) (r : FaultRec) : (s.faultFirst c r).host = s.host := by
  simp [State.faultFirst, apply_ite State.host]
@[simp] theorem State.faultFirst_pwr (s : State) (c : Nat) (r : FaultRec) : (s.faultFirst c r).pwr = s.pwr := by
  simp [State.faultFirst, apply_ite State.pwr]
@[simp] theorem State.faultFirst_flt (s : State) (c : Nat) (r : FaultRec) : (s.faultFirst c r).flt = s.flt := by
  simp [State.faultFirst, apply_ite State.flt]
@[simp] theorem State.faultFirst_pln (s : State) (c : Nat) (r : FaultRec) : (s.faultFirst c r).pln = s.pln := by
  simp [State.faultFirst, apply_ite State.pln]
@[simp] theorem State.faultFirst_tel (s : State) (c : Nat) (r : FaultRec) : (s.faultFirst c r).tel = s.tel := by
  simp [State.faultFirst, apply_ite State.tel]
@[simp] theorem State.faultFirst_cmd (s : State) (c : Nat) (r : FaultRec) : (s.faultFirst c r).cmd = s.cmd := by
  simp [State.faultFirst, apply_ite State.cmd]
@[simp] theorem State.faultFirst_map (s : State) (c : Nat) (r : FaultRec) : (s.faultFirst c r).map = s.map := by
  simp [State.faultFirst, apply_ite State.map]
@[simp] theorem State.faultFirst_plinth (s : State) (c : Nat) (r : FaultRec) : (s.faultFirst c r).plinth = s.plinth := by
  simp [State.faultFirst, apply_ite State.plinth]
@[simp] theorem State.faultFirst_tree (s : State) (c : Nat) (r : FaultRec) : (s.faultFirst c r).tree = s.tree := by
  simp [State.faultFirst, apply_ite State.tree]
@[simp] theorem State.faultFirst_slots (s : State) (c : Nat) (r : FaultRec) : (s.faultFirst c r).slots = s.slots := by
  simp [State.faultFirst, apply_ite State.slots]
@[simp] theorem State.faultFirst_slotsBad (s : State) (c : Nat) (r : FaultRec) : (s.faultFirst c r).slotsBad = s.slotsBad := by
  simp [State.faultFirst, apply_ite State.slotsBad]
@[simp] theorem State.faultFirst_tim (s : State) (c : Nat) (r : FaultRec) : (s.faultFirst c r).tim = s.tim := by
  simp [State.faultFirst, apply_ite State.tim]
@[simp] theorem State.faultFirst_dp (s : State) (c : Nat) (r : FaultRec) : (s.faultFirst c r).dp = s.dp := by
  simp [State.faultFirst, apply_ite State.dp]
@[simp] theorem State.faultFirst_outs (s : State) (c : Nat) (r : FaultRec) : (s.faultFirst c r).outs = s.outs := by
  simp [State.faultFirst, apply_ite State.outs]
@[simp] theorem State.faultFirst_free (s : State) (c : Nat) (r : FaultRec) : (s.faultFirst c r).free = s.free := by
  simp [State.faultFirst, apply_ite State.free]

@[simp] theorem State.faultOverflow_pending (s : State) (l : Bool) : (s.faultOverflow l).pending = s.pending := by
  simp [State.faultOverflow, apply_ite State.pending]
@[simp] theorem State.faultOverflow_chip (s : State) (l : Bool) : (s.faultOverflow l).chip = s.chip := by
  simp [State.faultOverflow, apply_ite State.chip]
@[simp] theorem State.faultOverflow_clk (s : State) (l : Bool) : (s.faultOverflow l).clk = s.clk := by
  simp [State.faultOverflow, apply_ite State.clk]
@[simp] theorem State.faultOverflow_boot (s : State) (l : Bool) : (s.faultOverflow l).boot = s.boot := by
  simp [State.faultOverflow, apply_ite State.boot]
@[simp] theorem State.faultOverflow_host (s : State) (l : Bool) : (s.faultOverflow l).host = s.host := by
  simp [State.faultOverflow, apply_ite State.host]
@[simp] theorem State.faultOverflow_pwr (s : State) (l : Bool) : (s.faultOverflow l).pwr = s.pwr := by
  simp [State.faultOverflow, apply_ite State.pwr]
@[simp] theorem State.faultOverflow_flt (s : State) (l : Bool) : (s.faultOverflow l).flt = s.flt := by
  simp [State.faultOverflow, apply_ite State.flt]
@[simp] theorem State.faultOverflow_pln (s : State) (l : Bool) : (s.faultOverflow l).pln = s.pln := by
  simp [State.faultOverflow, apply_ite State.pln]
@[simp] theorem State.faultOverflow_tel (s : State) (l : Bool) : (s.faultOverflow l).tel = s.tel := by
  simp [State.faultOverflow, apply_ite State.tel]
@[simp] theorem State.faultOverflow_cmd (s : State) (l : Bool) : (s.faultOverflow l).cmd = s.cmd := by
  simp [State.faultOverflow, apply_ite State.cmd]
@[simp] theorem State.faultOverflow_map (s : State) (l : Bool) : (s.faultOverflow l).map = s.map := by
  simp [State.faultOverflow, apply_ite State.map]
@[simp] theorem State.faultOverflow_plinth (s : State) (l : Bool) : (s.faultOverflow l).plinth = s.plinth := by
  simp [State.faultOverflow, apply_ite State.plinth]
@[simp] theorem State.faultOverflow_tree (s : State) (l : Bool) : (s.faultOverflow l).tree = s.tree := by
  simp [State.faultOverflow, apply_ite State.tree]
@[simp] theorem State.faultOverflow_slots (s : State) (l : Bool) : (s.faultOverflow l).slots = s.slots := by
  simp [State.faultOverflow, apply_ite State.slots]
@[simp] theorem State.faultOverflow_slotsBad (s : State) (l : Bool) : (s.faultOverflow l).slotsBad = s.slotsBad := by
  simp [State.faultOverflow, apply_ite State.slotsBad]
@[simp] theorem State.faultOverflow_tim (s : State) (l : Bool) : (s.faultOverflow l).tim = s.tim := by
  simp [State.faultOverflow, apply_ite State.tim]
@[simp] theorem State.faultOverflow_dp (s : State) (l : Bool) : (s.faultOverflow l).dp = s.dp := by
  simp [State.faultOverflow, apply_ite State.dp]
@[simp] theorem State.faultOverflow_outs (s : State) (l : Bool) : (s.faultOverflow l).outs = s.outs := by
  simp [State.faultOverflow, apply_ite State.outs]
@[simp] theorem State.faultOverflow_free (s : State) (l : Bool) : (s.faultOverflow l).free = s.free := by
  simp [State.faultOverflow, apply_ite State.free]

@[simp] theorem State.faultWrite_pending (s : State) (a b c : Nat) (w : Who) (x y z : Nat) : (s.faultWrite a b c w x y z).pending = s.pending := by
  simp [State.faultWrite, apply_ite State.pending]
@[simp] theorem State.faultWrite_chip (s : State) (a b c : Nat) (w : Who) (x y z : Nat) : (s.faultWrite a b c w x y z).chip = s.chip := by
  simp [State.faultWrite, apply_ite State.chip]
@[simp] theorem State.faultWrite_clk (s : State) (a b c : Nat) (w : Who) (x y z : Nat) : (s.faultWrite a b c w x y z).clk = s.clk := by
  simp [State.faultWrite, apply_ite State.clk]
@[simp] theorem State.faultWrite_boot (s : State) (a b c : Nat) (w : Who) (x y z : Nat) : (s.faultWrite a b c w x y z).boot = s.boot := by
  simp [State.faultWrite, apply_ite State.boot]
@[simp] theorem State.faultWrite_pwr (s : State) (a b c : Nat) (w : Who) (x y z : Nat) : (s.faultWrite a b c w x y z).pwr = s.pwr := by
  simp [State.faultWrite, apply_ite State.pwr]
@[simp] theorem State.faultWrite_tel (s : State) (a b c : Nat) (w : Who) (x y z : Nat) : (s.faultWrite a b c w x y z).tel = s.tel := by
  simp [State.faultWrite, apply_ite State.tel]
@[simp] theorem State.faultWrite_cmd (s : State) (a b c : Nat) (w : Who) (x y z : Nat) : (s.faultWrite a b c w x y z).cmd = s.cmd := by
  simp [State.faultWrite, apply_ite State.cmd]
@[simp] theorem State.faultWrite_map (s : State) (a b c : Nat) (w : Who) (x y z : Nat) : (s.faultWrite a b c w x y z).map = s.map := by
  simp [State.faultWrite, apply_ite State.map]
@[simp] theorem State.faultWrite_plinth (s : State) (a b c : Nat) (w : Who) (x y z : Nat) : (s.faultWrite a b c w x y z).plinth = s.plinth := by
  simp [State.faultWrite, apply_ite State.plinth]
@[simp] theorem State.faultWrite_tree (s : State) (a b c : Nat) (w : Who) (x y z : Nat) : (s.faultWrite a b c w x y z).tree = s.tree := by
  simp [State.faultWrite, apply_ite State.tree]
@[simp] theorem State.faultWrite_slots (s : State) (a b c : Nat) (w : Who) (x y z : Nat) : (s.faultWrite a b c w x y z).slots = s.slots := by
  simp [State.faultWrite, apply_ite State.slots]
@[simp] theorem State.faultWrite_slotsBad (s : State) (a b c : Nat) (w : Who) (x y z : Nat) : (s.faultWrite a b c w x y z).slotsBad = s.slotsBad := by
  simp [State.faultWrite, apply_ite State.slotsBad]
@[simp] theorem State.faultWrite_tim (s : State) (a b c : Nat) (w : Who) (x y z : Nat) : (s.faultWrite a b c w x y z).tim = s.tim := by
  simp [State.faultWrite, apply_ite State.tim]
@[simp] theorem State.faultWrite_dp (s : State) (a b c : Nat) (w : Who) (x y z : Nat) : (s.faultWrite a b c w x y z).dp = s.dp := by
  simp [State.faultWrite, apply_ite State.dp]
@[simp] theorem State.faultWrite_free (s : State) (a b c : Nat) (w : Who) (x y z : Nat) : (s.faultWrite a b c w x y z).free = s.free := by
  simp [State.faultWrite, apply_ite State.free]

@[simp] theorem State.count_pending (s : State) (a b c n : Nat) : (s.count a b c n).pending = s.pending := by
  simp [State.count]
@[simp] theorem State.count_chip (s : State) (a b c n : Nat) : (s.count a b c n).chip = s.chip := by
  simp [State.count]
@[simp] theorem State.count_regs (s : State) (a b c n : Nat) : (s.count a b c n).regs = s.regs := by
  simp [State.count]
@[simp] theorem State.count_clk (s : State) (a b c n : Nat) : (s.count a b c n).clk = s.clk := by
  simp [State.count]
@[simp] theorem State.count_boot (s : State) (a b c n : Nat) : (s.count a b c n).boot = s.boot := by
  simp [State.count]
@[simp] theorem State.count_host (s : State) (a b c n : Nat) : (s.count a b c n).host = s.host := by
  simp [State.count]
@[simp] theorem State.count_pwr (s : State) (a b c n : Nat) : (s.count a b c n).pwr = s.pwr := by
  simp [State.count]
@[simp] theorem State.count_flt (s : State) (a b c n : Nat) : (s.count a b c n).flt = s.flt := by
  simp [State.count]
@[simp] theorem State.count_pln (s : State) (a b c n : Nat) : (s.count a b c n).pln = s.pln := by
  simp [State.count]
@[simp] theorem State.count_cmd (s : State) (a b c n : Nat) : (s.count a b c n).cmd = s.cmd := by
  simp [State.count]
@[simp] theorem State.count_map (s : State) (a b c n : Nat) : (s.count a b c n).map = s.map := by
  simp [State.count]
@[simp] theorem State.count_plinth (s : State) (a b c n : Nat) : (s.count a b c n).plinth = s.plinth := by
  simp [State.count]
@[simp] theorem State.count_tree (s : State) (a b c n : Nat) : (s.count a b c n).tree = s.tree := by
  simp [State.count]
@[simp] theorem State.count_slots (s : State) (a b c n : Nat) : (s.count a b c n).slots = s.slots := by
  simp [State.count]
@[simp] theorem State.count_slotsBad (s : State) (a b c n : Nat) : (s.count a b c n).slotsBad = s.slotsBad := by
  simp [State.count]
@[simp] theorem State.count_tim (s : State) (a b c n : Nat) : (s.count a b c n).tim = s.tim := by
  simp [State.count]
@[simp] theorem State.count_dp (s : State) (a b c n : Nat) : (s.count a b c n).dp = s.dp := by
  simp [State.count]
@[simp] theorem State.count_outs (s : State) (a b c n : Nat) : (s.count a b c n).outs = s.outs := by
  simp [State.count]
@[simp] theorem State.count_free (s : State) (a b c n : Nat) : (s.count a b c n).free = s.free := by
  simp [State.count]

@[simp] theorem State.perfWrapped_pending (s : State) (i : Nat) : (s.perfWrapped i).pending = s.pending := by
  simp [State.perfWrapped, apply_ite State.pending]
@[simp] theorem State.perfWrapped_chip (s : State) (i : Nat) : (s.perfWrapped i).chip = s.chip := by
  simp [State.perfWrapped, apply_ite State.chip]
@[simp] theorem State.perfWrapped_clk (s : State) (i : Nat) : (s.perfWrapped i).clk = s.clk := by
  simp [State.perfWrapped, apply_ite State.clk]
@[simp] theorem State.perfWrapped_boot (s : State) (i : Nat) : (s.perfWrapped i).boot = s.boot := by
  simp [State.perfWrapped, apply_ite State.boot]
@[simp] theorem State.perfWrapped_pwr (s : State) (i : Nat) : (s.perfWrapped i).pwr = s.pwr := by
  simp [State.perfWrapped, apply_ite State.pwr]
@[simp] theorem State.perfWrapped_flt (s : State) (i : Nat) : (s.perfWrapped i).flt = s.flt := by
  simp [State.perfWrapped, apply_ite State.flt]
@[simp] theorem State.perfWrapped_pln (s : State) (i : Nat) : (s.perfWrapped i).pln = s.pln := by
  simp [State.perfWrapped, apply_ite State.pln]
@[simp] theorem State.perfWrapped_tel (s : State) (i : Nat) : (s.perfWrapped i).tel = s.tel := by
  simp [State.perfWrapped, apply_ite State.tel]
@[simp] theorem State.perfWrapped_cmd (s : State) (i : Nat) : (s.perfWrapped i).cmd = s.cmd := by
  simp [State.perfWrapped, apply_ite State.cmd]
@[simp] theorem State.perfWrapped_map (s : State) (i : Nat) : (s.perfWrapped i).map = s.map := by
  simp [State.perfWrapped, apply_ite State.map]
@[simp] theorem State.perfWrapped_plinth (s : State) (i : Nat) : (s.perfWrapped i).plinth = s.plinth := by
  simp [State.perfWrapped, apply_ite State.plinth]
@[simp] theorem State.perfWrapped_tree (s : State) (i : Nat) : (s.perfWrapped i).tree = s.tree := by
  simp [State.perfWrapped, apply_ite State.tree]
@[simp] theorem State.perfWrapped_slots (s : State) (i : Nat) : (s.perfWrapped i).slots = s.slots := by
  simp [State.perfWrapped, apply_ite State.slots]
@[simp] theorem State.perfWrapped_slotsBad (s : State) (i : Nat) : (s.perfWrapped i).slotsBad = s.slotsBad := by
  simp [State.perfWrapped, apply_ite State.slotsBad]
@[simp] theorem State.perfWrapped_tim (s : State) (i : Nat) : (s.perfWrapped i).tim = s.tim := by
  simp [State.perfWrapped, apply_ite State.tim]
@[simp] theorem State.perfWrapped_dp (s : State) (i : Nat) : (s.perfWrapped i).dp = s.dp := by
  simp [State.perfWrapped, apply_ite State.dp]
@[simp] theorem State.perfWrapped_free (s : State) (i : Nat) : (s.perfWrapped i).free = s.free := by
  simp [State.perfWrapped, apply_ite State.free]

@[simp] theorem State.setReg_pending (s : State) (e : Eng) (r : RegNo) (v : Word) : (s.setReg e r v).pending = s.pending := by
  simp [State.setReg]
@[simp] theorem State.setReg_chip (s : State) (e : Eng) (r : RegNo) (v : Word) : (s.setReg e r v).chip = s.chip := by
  simp [State.setReg]
@[simp] theorem State.setReg_regs (s : State) (e : Eng) (r : RegNo) (v : Word) : (s.setReg e r v).regs = s.regs := by
  simp [State.setReg]
@[simp] theorem State.setReg_clk (s : State) (e : Eng) (r : RegNo) (v : Word) : (s.setReg e r v).clk = s.clk := by
  simp [State.setReg]
@[simp] theorem State.setReg_boot (s : State) (e : Eng) (r : RegNo) (v : Word) : (s.setReg e r v).boot = s.boot := by
  simp [State.setReg]
@[simp] theorem State.setReg_host (s : State) (e : Eng) (r : RegNo) (v : Word) : (s.setReg e r v).host = s.host := by
  simp [State.setReg]
@[simp] theorem State.setReg_pwr (s : State) (e : Eng) (r : RegNo) (v : Word) : (s.setReg e r v).pwr = s.pwr := by
  simp [State.setReg]
@[simp] theorem State.setReg_flt (s : State) (e : Eng) (r : RegNo) (v : Word) : (s.setReg e r v).flt = s.flt := by
  simp [State.setReg]
@[simp] theorem State.setReg_pln (s : State) (e : Eng) (r : RegNo) (v : Word) : (s.setReg e r v).pln = s.pln := by
  simp [State.setReg]
@[simp] theorem State.setReg_tel (s : State) (e : Eng) (r : RegNo) (v : Word) : (s.setReg e r v).tel = s.tel := by
  simp [State.setReg]
@[simp] theorem State.setReg_tree (s : State) (e : Eng) (r : RegNo) (v : Word) : (s.setReg e r v).tree = s.tree := by
  simp [State.setReg]
@[simp] theorem State.setReg_slots (s : State) (e : Eng) (r : RegNo) (v : Word) : (s.setReg e r v).slots = s.slots := by
  simp [State.setReg]
@[simp] theorem State.setReg_slotsBad (s : State) (e : Eng) (r : RegNo) (v : Word) : (s.setReg e r v).slotsBad = s.slotsBad := by
  simp [State.setReg]
@[simp] theorem State.setReg_tim (s : State) (e : Eng) (r : RegNo) (v : Word) : (s.setReg e r v).tim = s.tim := by
  simp [State.setReg]
@[simp] theorem State.setReg_dp (s : State) (e : Eng) (r : RegNo) (v : Word) : (s.setReg e r v).dp = s.dp := by
  simp [State.setReg]
@[simp] theorem State.setReg_outs (s : State) (e : Eng) (r : RegNo) (v : Word) : (s.setReg e r v).outs = s.outs := by
  simp [State.setReg]
@[simp] theorem State.setReg_free (s : State) (e : Eng) (r : RegNo) (v : Word) : (s.setReg e r v).free = s.free := by
  simp [State.setReg]

@[simp] theorem State.setMem_pending (s : State) (e : Eng) (a : Nat) (v : Word) : (s.setMem e a v).pending = s.pending := by
  simp [State.setMem]
@[simp] theorem State.setMem_chip (s : State) (e : Eng) (a : Nat) (v : Word) : (s.setMem e a v).chip = s.chip := by
  simp [State.setMem]
@[simp] theorem State.setMem_regs (s : State) (e : Eng) (a : Nat) (v : Word) : (s.setMem e a v).regs = s.regs := by
  simp [State.setMem]
@[simp] theorem State.setMem_clk (s : State) (e : Eng) (a : Nat) (v : Word) : (s.setMem e a v).clk = s.clk := by
  simp [State.setMem]
@[simp] theorem State.setMem_boot (s : State) (e : Eng) (a : Nat) (v : Word) : (s.setMem e a v).boot = s.boot := by
  simp [State.setMem]
@[simp] theorem State.setMem_host (s : State) (e : Eng) (a : Nat) (v : Word) : (s.setMem e a v).host = s.host := by
  simp [State.setMem]
@[simp] theorem State.setMem_pwr (s : State) (e : Eng) (a : Nat) (v : Word) : (s.setMem e a v).pwr = s.pwr := by
  simp [State.setMem]
@[simp] theorem State.setMem_flt (s : State) (e : Eng) (a : Nat) (v : Word) : (s.setMem e a v).flt = s.flt := by
  simp [State.setMem]
@[simp] theorem State.setMem_pln (s : State) (e : Eng) (a : Nat) (v : Word) : (s.setMem e a v).pln = s.pln := by
  simp [State.setMem]
@[simp] theorem State.setMem_tel (s : State) (e : Eng) (a : Nat) (v : Word) : (s.setMem e a v).tel = s.tel := by
  simp [State.setMem]
@[simp] theorem State.setMem_tree (s : State) (e : Eng) (a : Nat) (v : Word) : (s.setMem e a v).tree = s.tree := by
  simp [State.setMem]
@[simp] theorem State.setMem_slots (s : State) (e : Eng) (a : Nat) (v : Word) : (s.setMem e a v).slots = s.slots := by
  simp [State.setMem]
@[simp] theorem State.setMem_slotsBad (s : State) (e : Eng) (a : Nat) (v : Word) : (s.setMem e a v).slotsBad = s.slotsBad := by
  simp [State.setMem]
@[simp] theorem State.setMem_tim (s : State) (e : Eng) (a : Nat) (v : Word) : (s.setMem e a v).tim = s.tim := by
  simp [State.setMem]
@[simp] theorem State.setMem_dp (s : State) (e : Eng) (a : Nat) (v : Word) : (s.setMem e a v).dp = s.dp := by
  simp [State.setMem]
@[simp] theorem State.setMem_outs (s : State) (e : Eng) (a : Nat) (v : Word) : (s.setMem e a v).outs = s.outs := by
  simp [State.setMem]
@[simp] theorem State.setMem_free (s : State) (e : Eng) (a : Nat) (v : Word) : (s.setMem e a v).free = s.free := by
  simp [State.setMem]

@[simp] theorem State.putAlu_pending (s : State) (e : Eng) (d : RegNo) (r : Alu) : (s.putAlu e d r).pending = s.pending := by
  simp [State.putAlu]
@[simp] theorem State.putAlu_chip (s : State) (e : Eng) (d : RegNo) (r : Alu) : (s.putAlu e d r).chip = s.chip := by
  simp [State.putAlu]
@[simp] theorem State.putAlu_regs (s : State) (e : Eng) (d : RegNo) (r : Alu) : (s.putAlu e d r).regs = s.regs := by
  simp [State.putAlu]
@[simp] theorem State.putAlu_clk (s : State) (e : Eng) (d : RegNo) (r : Alu) : (s.putAlu e d r).clk = s.clk := by
  simp [State.putAlu]
@[simp] theorem State.putAlu_boot (s : State) (e : Eng) (d : RegNo) (r : Alu) : (s.putAlu e d r).boot = s.boot := by
  simp [State.putAlu]
@[simp] theorem State.putAlu_host (s : State) (e : Eng) (d : RegNo) (r : Alu) : (s.putAlu e d r).host = s.host := by
  simp [State.putAlu]
@[simp] theorem State.putAlu_pwr (s : State) (e : Eng) (d : RegNo) (r : Alu) : (s.putAlu e d r).pwr = s.pwr := by
  simp [State.putAlu]
@[simp] theorem State.putAlu_flt (s : State) (e : Eng) (d : RegNo) (r : Alu) : (s.putAlu e d r).flt = s.flt := by
  simp [State.putAlu]
@[simp] theorem State.putAlu_pln (s : State) (e : Eng) (d : RegNo) (r : Alu) : (s.putAlu e d r).pln = s.pln := by
  simp [State.putAlu]
@[simp] theorem State.putAlu_tel (s : State) (e : Eng) (d : RegNo) (r : Alu) : (s.putAlu e d r).tel = s.tel := by
  simp [State.putAlu]
@[simp] theorem State.putAlu_tree (s : State) (e : Eng) (d : RegNo) (r : Alu) : (s.putAlu e d r).tree = s.tree := by
  simp [State.putAlu]
@[simp] theorem State.putAlu_slots (s : State) (e : Eng) (d : RegNo) (r : Alu) : (s.putAlu e d r).slots = s.slots := by
  simp [State.putAlu]
@[simp] theorem State.putAlu_slotsBad (s : State) (e : Eng) (d : RegNo) (r : Alu) : (s.putAlu e d r).slotsBad = s.slotsBad := by
  simp [State.putAlu]
@[simp] theorem State.putAlu_tim (s : State) (e : Eng) (d : RegNo) (r : Alu) : (s.putAlu e d r).tim = s.tim := by
  simp [State.putAlu]
@[simp] theorem State.putAlu_dp (s : State) (e : Eng) (d : RegNo) (r : Alu) : (s.putAlu e d r).dp = s.dp := by
  simp [State.putAlu]
@[simp] theorem State.putAlu_outs (s : State) (e : Eng) (d : RegNo) (r : Alu) : (s.putAlu e d r).outs = s.outs := by
  simp [State.putAlu]
@[simp] theorem State.putAlu_free (s : State) (e : Eng) (d : RegNo) (r : Alu) : (s.putAlu e d r).free = s.free := by
  simp [State.putAlu]

@[simp] theorem State.putSave_pending (s : State) (n l k : Nat) (ws : List Word) : (s.putSave n l k ws).pending = s.pending := by
  induction ws generalizing s k with
  | nil => exact (rfl)
  | cons w ws ih => simp [State.putSave, ih]
@[simp] theorem State.putSave_chip (s : State) (n l k : Nat) (ws : List Word) : (s.putSave n l k ws).chip = s.chip := by
  induction ws generalizing s k with
  | nil => exact (rfl)
  | cons w ws ih => simp [State.putSave, ih]
@[simp] theorem State.putSave_clk (s : State) (n l k : Nat) (ws : List Word) : (s.putSave n l k ws).clk = s.clk := by
  induction ws generalizing s k with
  | nil => exact (rfl)
  | cons w ws ih => simp [State.putSave, ih]
@[simp] theorem State.putSave_boot (s : State) (n l k : Nat) (ws : List Word) : (s.putSave n l k ws).boot = s.boot := by
  induction ws generalizing s k with
  | nil => exact (rfl)
  | cons w ws ih => simp [State.putSave, ih]
@[simp] theorem State.putSave_host (s : State) (n l k : Nat) (ws : List Word) : (s.putSave n l k ws).host = s.host := by
  induction ws generalizing s k with
  | nil => exact (rfl)
  | cons w ws ih => simp [State.putSave, ih]
@[simp] theorem State.putSave_pwr (s : State) (n l k : Nat) (ws : List Word) : (s.putSave n l k ws).pwr = s.pwr := by
  induction ws generalizing s k with
  | nil => exact (rfl)
  | cons w ws ih => simp [State.putSave, ih]
@[simp] theorem State.putSave_flt (s : State) (n l k : Nat) (ws : List Word) : (s.putSave n l k ws).flt = s.flt := by
  induction ws generalizing s k with
  | nil => exact (rfl)
  | cons w ws ih => simp [State.putSave, ih]
@[simp] theorem State.putSave_pln (s : State) (n l k : Nat) (ws : List Word) : (s.putSave n l k ws).pln = s.pln := by
  induction ws generalizing s k with
  | nil => exact (rfl)
  | cons w ws ih => simp [State.putSave, ih]
@[simp] theorem State.putSave_tel (s : State) (n l k : Nat) (ws : List Word) : (s.putSave n l k ws).tel = s.tel := by
  induction ws generalizing s k with
  | nil => exact (rfl)
  | cons w ws ih => simp [State.putSave, ih]
@[simp] theorem State.putSave_cmd (s : State) (n l k : Nat) (ws : List Word) : (s.putSave n l k ws).cmd = s.cmd := by
  induction ws generalizing s k with
  | nil => exact (rfl)
  | cons w ws ih => simp [State.putSave, ih]
@[simp] theorem State.putSave_map (s : State) (n l k : Nat) (ws : List Word) : (s.putSave n l k ws).map = s.map := by
  induction ws generalizing s k with
  | nil => exact (rfl)
  | cons w ws ih => simp [State.putSave, ih]
@[simp] theorem State.putSave_plinth (s : State) (n l k : Nat) (ws : List Word) : (s.putSave n l k ws).plinth = s.plinth := by
  induction ws generalizing s k with
  | nil => exact (rfl)
  | cons w ws ih => simp [State.putSave, ih]
@[simp] theorem State.putSave_tree (s : State) (n l k : Nat) (ws : List Word) : (s.putSave n l k ws).tree = s.tree := by
  induction ws generalizing s k with
  | nil => exact (rfl)
  | cons w ws ih => simp [State.putSave, ih]
@[simp] theorem State.putSave_slots (s : State) (n l k : Nat) (ws : List Word) : (s.putSave n l k ws).slots = s.slots := by
  induction ws generalizing s k with
  | nil => exact (rfl)
  | cons w ws ih => simp [State.putSave, ih]
@[simp] theorem State.putSave_slotsBad (s : State) (n l k : Nat) (ws : List Word) : (s.putSave n l k ws).slotsBad = s.slotsBad := by
  induction ws generalizing s k with
  | nil => exact (rfl)
  | cons w ws ih => simp [State.putSave, ih]
@[simp] theorem State.putSave_tim (s : State) (n l k : Nat) (ws : List Word) : (s.putSave n l k ws).tim = s.tim := by
  induction ws generalizing s k with
  | nil => exact (rfl)
  | cons w ws ih => simp [State.putSave, ih]
@[simp] theorem State.putSave_dp (s : State) (n l k : Nat) (ws : List Word) : (s.putSave n l k ws).dp = s.dp := by
  induction ws generalizing s k with
  | nil => exact (rfl)
  | cons w ws ih => simp [State.putSave, ih]
@[simp] theorem State.putSave_outs (s : State) (n l k : Nat) (ws : List Word) : (s.putSave n l k ws).outs = s.outs := by
  induction ws generalizing s k with
  | nil => exact (rfl)
  | cons w ws ih => simp [State.putSave, ih]
@[simp] theorem State.putSave_free (s : State) (n l k : Nat) (ws : List Word) : (s.putSave n l k ws).free = s.free := by
  induction ws generalizing s k with
  | nil => exact (rfl)
  | cons w ws ih => simp [State.putSave, ih]

@[simp] theorem State.writeSave_pending (s : State) (n l : Nat) (e : Eng) (a b c : Nat) : (s.writeSave n l e a b c).pending = s.pending := by
  simp [State.writeSave]
@[simp] theorem State.writeSave_chip (s : State) (n l : Nat) (e : Eng) (a b c : Nat) : (s.writeSave n l e a b c).chip = s.chip := by
  simp [State.writeSave]
@[simp] theorem State.writeSave_clk (s : State) (n l : Nat) (e : Eng) (a b c : Nat) : (s.writeSave n l e a b c).clk = s.clk := by
  simp [State.writeSave]
@[simp] theorem State.writeSave_boot (s : State) (n l : Nat) (e : Eng) (a b c : Nat) : (s.writeSave n l e a b c).boot = s.boot := by
  simp [State.writeSave]
@[simp] theorem State.writeSave_host (s : State) (n l : Nat) (e : Eng) (a b c : Nat) : (s.writeSave n l e a b c).host = s.host := by
  simp [State.writeSave]
@[simp] theorem State.writeSave_pwr (s : State) (n l : Nat) (e : Eng) (a b c : Nat) : (s.writeSave n l e a b c).pwr = s.pwr := by
  simp [State.writeSave]
@[simp] theorem State.writeSave_flt (s : State) (n l : Nat) (e : Eng) (a b c : Nat) : (s.writeSave n l e a b c).flt = s.flt := by
  simp [State.writeSave]
@[simp] theorem State.writeSave_pln (s : State) (n l : Nat) (e : Eng) (a b c : Nat) : (s.writeSave n l e a b c).pln = s.pln := by
  simp [State.writeSave]
@[simp] theorem State.writeSave_tel (s : State) (n l : Nat) (e : Eng) (a b c : Nat) : (s.writeSave n l e a b c).tel = s.tel := by
  simp [State.writeSave]
@[simp] theorem State.writeSave_cmd (s : State) (n l : Nat) (e : Eng) (a b c : Nat) : (s.writeSave n l e a b c).cmd = s.cmd := by
  simp [State.writeSave]
@[simp] theorem State.writeSave_map (s : State) (n l : Nat) (e : Eng) (a b c : Nat) : (s.writeSave n l e a b c).map = s.map := by
  simp [State.writeSave]
@[simp] theorem State.writeSave_plinth (s : State) (n l : Nat) (e : Eng) (a b c : Nat) : (s.writeSave n l e a b c).plinth = s.plinth := by
  simp [State.writeSave]
@[simp] theorem State.writeSave_tree (s : State) (n l : Nat) (e : Eng) (a b c : Nat) : (s.writeSave n l e a b c).tree = s.tree := by
  simp [State.writeSave]
@[simp] theorem State.writeSave_slots (s : State) (n l : Nat) (e : Eng) (a b c : Nat) : (s.writeSave n l e a b c).slots = s.slots := by
  simp [State.writeSave]
@[simp] theorem State.writeSave_slotsBad (s : State) (n l : Nat) (e : Eng) (a b c : Nat) : (s.writeSave n l e a b c).slotsBad = s.slotsBad := by
  simp [State.writeSave]
@[simp] theorem State.writeSave_tim (s : State) (n l : Nat) (e : Eng) (a b c : Nat) : (s.writeSave n l e a b c).tim = s.tim := by
  simp [State.writeSave]
@[simp] theorem State.writeSave_dp (s : State) (n l : Nat) (e : Eng) (a b c : Nat) : (s.writeSave n l e a b c).dp = s.dp := by
  simp [State.writeSave]
@[simp] theorem State.writeSave_outs (s : State) (n l : Nat) (e : Eng) (a b c : Nat) : (s.writeSave n l e a b c).outs = s.outs := by
  simp [State.writeSave]

@[simp] theorem State.saveTrap_pending (s : State) (e : Eng) (a b c : Nat) : (s.saveTrap e a b c).pending = s.pending := by
  cases e <;> simp [State.saveTrap, apply_ite State.pending]
@[simp] theorem State.saveTrap_chip (s : State) (e : Eng) (a b c : Nat) : (s.saveTrap e a b c).chip = s.chip := by
  cases e <;> simp [State.saveTrap, apply_ite State.chip]
@[simp] theorem State.saveTrap_clk (s : State) (e : Eng) (a b c : Nat) : (s.saveTrap e a b c).clk = s.clk := by
  cases e <;> simp [State.saveTrap, apply_ite State.clk]
@[simp] theorem State.saveTrap_boot (s : State) (e : Eng) (a b c : Nat) : (s.saveTrap e a b c).boot = s.boot := by
  cases e <;> simp [State.saveTrap, apply_ite State.boot]
@[simp] theorem State.saveTrap_host (s : State) (e : Eng) (a b c : Nat) : (s.saveTrap e a b c).host = s.host := by
  cases e <;> simp [State.saveTrap, apply_ite State.host]
@[simp] theorem State.saveTrap_pwr (s : State) (e : Eng) (a b c : Nat) : (s.saveTrap e a b c).pwr = s.pwr := by
  cases e <;> simp [State.saveTrap, apply_ite State.pwr]
@[simp] theorem State.saveTrap_flt (s : State) (e : Eng) (a b c : Nat) : (s.saveTrap e a b c).flt = s.flt := by
  cases e <;> simp [State.saveTrap, apply_ite State.flt]
@[simp] theorem State.saveTrap_pln (s : State) (e : Eng) (a b c : Nat) : (s.saveTrap e a b c).pln = s.pln := by
  cases e <;> simp [State.saveTrap, apply_ite State.pln]
@[simp] theorem State.saveTrap_tel (s : State) (e : Eng) (a b c : Nat) : (s.saveTrap e a b c).tel = s.tel := by
  cases e <;> simp [State.saveTrap, apply_ite State.tel]
@[simp] theorem State.saveTrap_cmd (s : State) (e : Eng) (a b c : Nat) : (s.saveTrap e a b c).cmd = s.cmd := by
  cases e <;> simp [State.saveTrap, apply_ite State.cmd]
@[simp] theorem State.saveTrap_map (s : State) (e : Eng) (a b c : Nat) : (s.saveTrap e a b c).map = s.map := by
  cases e <;> simp [State.saveTrap, apply_ite State.map]
@[simp] theorem State.saveTrap_plinth (s : State) (e : Eng) (a b c : Nat) : (s.saveTrap e a b c).plinth = s.plinth := by
  cases e <;> simp [State.saveTrap, apply_ite State.plinth]
@[simp] theorem State.saveTrap_tree (s : State) (e : Eng) (a b c : Nat) : (s.saveTrap e a b c).tree = s.tree := by
  cases e <;> simp [State.saveTrap, apply_ite State.tree]
@[simp] theorem State.saveTrap_slots (s : State) (e : Eng) (a b c : Nat) : (s.saveTrap e a b c).slots = s.slots := by
  cases e <;> simp [State.saveTrap, apply_ite State.slots]
@[simp] theorem State.saveTrap_slotsBad (s : State) (e : Eng) (a b c : Nat) : (s.saveTrap e a b c).slotsBad = s.slotsBad := by
  cases e <;> simp [State.saveTrap, apply_ite State.slotsBad]
@[simp] theorem State.saveTrap_tim (s : State) (e : Eng) (a b c : Nat) : (s.saveTrap e a b c).tim = s.tim := by
  cases e <;> simp [State.saveTrap, apply_ite State.tim]
@[simp] theorem State.saveTrap_dp (s : State) (e : Eng) (a b c : Nat) : (s.saveTrap e a b c).dp = s.dp := by
  cases e <;> simp [State.saveTrap, apply_ite State.dp]
@[simp] theorem State.saveTrap_outs (s : State) (e : Eng) (a b c : Nat) : (s.saveTrap e a b c).outs = s.outs := by
  cases e <;> simp [State.saveTrap, apply_ite State.outs]

@[simp] theorem State.dropMap_pending (s : State) (t : Fin 64) : (s.dropMap t).pending = s.pending := by
  simp [State.dropMap, apply_ite State.pending]
@[simp] theorem State.dropMap_chip (s : State) (t : Fin 64) : (s.dropMap t).chip = s.chip := by
  simp [State.dropMap, apply_ite State.chip]
@[simp] theorem State.dropMap_regs (s : State) (t : Fin 64) : (s.dropMap t).regs = s.regs := by
  simp [State.dropMap, apply_ite State.regs]
@[simp] theorem State.dropMap_clk (s : State) (t : Fin 64) : (s.dropMap t).clk = s.clk := by
  simp [State.dropMap, apply_ite State.clk]
@[simp] theorem State.dropMap_boot (s : State) (t : Fin 64) : (s.dropMap t).boot = s.boot := by
  simp [State.dropMap, apply_ite State.boot]
@[simp] theorem State.dropMap_host (s : State) (t : Fin 64) : (s.dropMap t).host = s.host := by
  simp [State.dropMap, apply_ite State.host]
@[simp] theorem State.dropMap_pwr (s : State) (t : Fin 64) : (s.dropMap t).pwr = s.pwr := by
  simp [State.dropMap, apply_ite State.pwr]
@[simp] theorem State.dropMap_flt (s : State) (t : Fin 64) : (s.dropMap t).flt = s.flt := by
  simp [State.dropMap, apply_ite State.flt]
@[simp] theorem State.dropMap_pln (s : State) (t : Fin 64) : (s.dropMap t).pln = s.pln := by
  simp [State.dropMap, apply_ite State.pln]
@[simp] theorem State.dropMap_tel (s : State) (t : Fin 64) : (s.dropMap t).tel = s.tel := by
  simp [State.dropMap, apply_ite State.tel]
@[simp] theorem State.dropMap_cmd (s : State) (t : Fin 64) : (s.dropMap t).cmd = s.cmd := (rfl)
@[simp] theorem State.dropMap_plinth (s : State) (t : Fin 64) : (s.dropMap t).plinth = s.plinth := (rfl)
@[simp] theorem State.dropMap_slots (s : State) (t : Fin 64) : (s.dropMap t).slots = s.slots := by
  simp [State.dropMap, apply_ite State.slots]
@[simp] theorem State.dropMap_slotsBad (s : State) (t : Fin 64) : (s.dropMap t).slotsBad = s.slotsBad := by
  simp [State.dropMap, apply_ite State.slotsBad]
@[simp] theorem State.dropMap_tim (s : State) (t : Fin 64) : (s.dropMap t).tim = s.tim := by
  simp [State.dropMap, apply_ite State.tim]
@[simp] theorem State.dropMap_dp (s : State) (t : Fin 64) : (s.dropMap t).dp = s.dp := by
  simp [State.dropMap, apply_ite State.dp]
@[simp] theorem State.dropMap_outs (s : State) (t : Fin 64) : (s.dropMap t).outs = s.outs := by
  simp [State.dropMap, apply_ite State.outs]
@[simp] theorem State.dropMap_free (s : State) (t : Fin 64) : (s.dropMap t).free = s.free := by
  simp [State.dropMap, apply_ite State.free]

@[simp] theorem State.mapTrap_pending (s : State) (t : Fin 64) (a b : Nat) : (s.mapTrap t a b).pending = s.pending := by
  simp [State.mapTrap, apply_ite State.pending]
@[simp] theorem State.mapTrap_chip (s : State) (t : Fin 64) (a b : Nat) : (s.mapTrap t a b).chip = s.chip := by
  simp [State.mapTrap, apply_ite State.chip]
@[simp] theorem State.mapTrap_clk (s : State) (t : Fin 64) (a b : Nat) : (s.mapTrap t a b).clk = s.clk := by
  simp [State.mapTrap, apply_ite State.clk]
@[simp] theorem State.mapTrap_boot (s : State) (t : Fin 64) (a b : Nat) : (s.mapTrap t a b).boot = s.boot := by
  simp [State.mapTrap, apply_ite State.boot]
@[simp] theorem State.mapTrap_pwr (s : State) (t : Fin 64) (a b : Nat) : (s.mapTrap t a b).pwr = s.pwr := by
  simp [State.mapTrap, apply_ite State.pwr]
@[simp] theorem State.mapTrap_flt (s : State) (t : Fin 64) (a b : Nat) : (s.mapTrap t a b).flt = s.flt := by
  simp [State.mapTrap, apply_ite State.flt]
@[simp] theorem State.mapTrap_pln (s : State) (t : Fin 64) (a b : Nat) : (s.mapTrap t a b).pln = s.pln := by
  simp [State.mapTrap, apply_ite State.pln]
@[simp] theorem State.mapTrap_tel (s : State) (t : Fin 64) (a b : Nat) : (s.mapTrap t a b).tel = s.tel := by
  simp [State.mapTrap, apply_ite State.tel]
@[simp] theorem State.mapTrap_cmd (s : State) (t : Fin 64) (a b : Nat) : (s.mapTrap t a b).cmd = s.cmd := by
  simp [State.mapTrap, apply_ite State.cmd]
@[simp] theorem State.mapTrap_map (s : State) (t : Fin 64) (a b : Nat) : (s.mapTrap t a b).map = s.map := by
  simp [State.mapTrap, apply_ite State.map]
@[simp] theorem State.mapTrap_plinth (s : State) (t : Fin 64) (a b : Nat) : (s.mapTrap t a b).plinth = s.plinth := by
  simp [State.mapTrap, apply_ite State.plinth]
@[simp] theorem State.mapTrap_tree (s : State) (t : Fin 64) (a b : Nat) : (s.mapTrap t a b).tree = s.tree := by
  simp [State.mapTrap, apply_ite State.tree]
@[simp] theorem State.mapTrap_slots (s : State) (t : Fin 64) (a b : Nat) : (s.mapTrap t a b).slots = s.slots := by
  simp [State.mapTrap, apply_ite State.slots]
@[simp] theorem State.mapTrap_slotsBad (s : State) (t : Fin 64) (a b : Nat) : (s.mapTrap t a b).slotsBad = s.slotsBad := by
  simp [State.mapTrap, apply_ite State.slotsBad]
@[simp] theorem State.mapTrap_tim (s : State) (t : Fin 64) (a b : Nat) : (s.mapTrap t a b).tim = s.tim := by
  simp [State.mapTrap, apply_ite State.tim]
@[simp] theorem State.mapTrap_dp (s : State) (t : Fin 64) (a b : Nat) : (s.mapTrap t a b).dp = s.dp := by
  simp [State.mapTrap, apply_ite State.dp]
@[simp] theorem State.mapTrap_free (s : State) (t : Fin 64) (a b : Nat) : (s.mapTrap t a b).free = s.free := by
  simp [State.mapTrap, apply_ite State.free]

/-! Signalling touches only what is held, pending and sent. -/

theorem State.post_hostframe (s : State) (o : Out) : { (s.post o).host with held := s.host.held } = s.host := by
  unfold State.post; split <;> simp

theorem State.signal_hostframe (s : State) (n : Nat) :
    { (s.signal n).host with held := s.host.held, pba := s.host.pba } = s.host := by
  unfold State.signal State.signalVector State.post
  repeat' split
  all_goals simp

/-! Registers. -/

theorem RegsBut.rfl {s : State} {P : Nat → Prop} : RegsBut s s P := fun _ _ _ => (Eq.refl _)

theorem RegsBut.trans {s t u : State} {P : Nat → Prop} (h : RegsBut s t P) (k : RegsBut t u P) : RegsBut s u P :=
  fun d off ho => (k d off ho).trans (h d off ho)

theorem RegsBut.mono {s t : State} {P Q : Nat → Prop} (h : RegsBut s t P) (hq : ∀ o, P o → Q o) : RegsBut s t Q :=
  fun d off ho => h d off (fun hp => ho (hq _ hp))

theorem RegsBut.of_regs {s t : State} {P : Nat → Prop} (h : t.regs = s.regs) : RegsBut s t P := fun _ _ _ => by rw [h]

theorem RegsBut.ite {s t u : State} {P : Nat → Prop} {c : Prop} [Decidable c] (h : RegsBut s t P) (k : RegsBut s u P) :
    RegsBut s (if c then t else u) P := by split <;> assumption

theorem RegsBut.rd {s t : State} {P : Nat → Prop} (h : RegsBut s t P) (hc : t.chip = s.chip) (id : RegId) (i j k : Nat)
    (ho : ¬ P (Reg.offset ⟨id, i, j, k⟩)) : t.rd id i j k = s.rd id i j k := by
  simp only [State.rd, hc]
  exact h _ _ ho

theorem RegsBut.get {s t : State} {P : Nat → Prop} (h : RegsBut s t P) (hc : t.chip = s.chip) (f : Fld) (i j k : Nat)
    (ho : ¬ P (Reg.offset ⟨f.id, i, j, k⟩)) : t.get f i j k = s.get f i j k := by
  simp only [State.get, h.rd hc f.id i j k ho]

theorem RegsBut.wr {s : State} {P : Nat → Prop} (id : RegId) (v : Word) (i j k : Nat) (hp : P (Reg.offset ⟨id, i, j, k⟩)) :
    RegsBut s (s.wr id v i j k) P := by
  intro d off ho
  exact sget_sput_ne _ _ _ _ (fun h => ho (h ▸ hp))

theorem RegsBut.set {s : State} {P : Nat → Prop} (f : Fld) (v i j k : Nat) (hp : P (Reg.offset ⟨f.id, i, j, k⟩)) :
    RegsBut s (s.set f v i j k) P := RegsBut.wr _ _ _ _ _ hp

theorem RegsBut.inc {s : State} {P : Nat → Prop} (f : Fld) (n i j k : Nat) (hp : P (Reg.offset ⟨f.id, i, j, k⟩)) :
    RegsBut s (s.inc f n i j k) P := RegsBut.wr _ _ _ _ _ hp

theorem RegsBut.orBits {s : State} {P : Nat → Prop} (f : Fld) (m i j k : Nat) (hp : P (Reg.offset ⟨f.id, i, j, k⟩)) :
    RegsBut s (s.orBits f m i j k) P := RegsBut.wr _ _ _ _ _ hp

@[simp] theorem State.signal_rd (s : State) (n : Nat) (id : RegId) (i j k : Nat) : (s.signal n).rd id i j k = s.rd id i j k := by
  simp [State.rd]

@[simp] theorem State.signal_get (s : State) (n : Nat) (f : Fld) (i j k : Nat) : (s.signal n).get f i j k = s.get f i j k := by
  simp [State.get]

@[simp] theorem State.signal_flag (s : State) (n : Nat) (f : Fld) (i j k : Nat) : (s.signal n).flag f i j k = s.flag f i j k := by
  simp [State.flag]

@[simp] theorem State.emit_rd (s : State) (o : Out) (id : RegId) (i j k : Nat) : (s.emit o).rd id i j k = s.rd id i j k := (rfl)
@[simp] theorem State.emit_get (s : State) (o : Out) (f : Fld) (i j k : Nat) : (s.emit o).get f i j k = s.get f i j k := (rfl)
@[simp] theorem State.post_rd (s : State) (o : Out) (id : RegId) (i j k : Nat) : (s.post o).rd id i j k = s.rd id i j k := by
  simp [State.rd]
@[simp] theorem State.post_get (s : State) (o : Out) (f : Fld) (i j k : Nat) : (s.post o).get f i j k = s.get f i j k := by
  simp [State.get]
@[simp] theorem State.setEng_rd (s : State) (e : Eng) (en : Engine) (id : RegId) (i j k : Nat) :
    (s.setEng e en).rd id i j k = s.rd id i j k := by simp [State.rd]
@[simp] theorem State.setEng_get (s : State) (e : Eng) (en : Engine) (f : Fld) (i j k : Nat) :
    (s.setEng e en).get f i j k = s.get f i j k := by simp [State.get]
@[simp] theorem State.modTree_rd (s : State) (t : Fin 64) (g : Tree → Tree) (id : RegId) (i j k : Nat) :
    (s.modTree t g).rd id i j k = s.rd id i j k := (rfl)
@[simp] theorem State.modTree_get (s : State) (t : Fin 64) (g : Tree → Tree) (f : Fld) (i j k : Nat) :
    (s.modTree t g).get f i j k = s.get f i j k := (rfl)
@[simp] theorem State.logRec_rd (s : State) (a b : Nat) (p q : Word) (id : RegId) (i j k : Nat) :
    (s.logRec a b p q).rd id i j k = s.rd id i j k := by simp [State.rd]
@[simp] theorem State.plinthEvent_rd (s : State) (e : Nat) (id : RegId) (i j k : Nat) :
    (s.plinthEvent e).rd id i j k = s.rd id i j k := by simp [State.rd]
@[simp] theorem State.logRec_get (s : State) (a b : Nat) (p q : Word) (f : Fld) (i j k : Nat) :
    (s.logRec a b p q).get f i j k = s.get f i j k := by simp [State.get]
@[simp] theorem State.plinthEvent_get (s : State) (e : Nat) (f : Fld) (i j k : Nat) :
    (s.plinthEvent e).get f i j k = s.get f i j k := by simp [State.get]
@[simp] theorem State.count_rd (s : State) (a b c n : Nat) (id : RegId) (i j k : Nat) :
    (s.count a b c n).rd id i j k = s.rd id i j k := by simp [State.rd]
@[simp] theorem State.count_get (s : State) (a b c n : Nat) (f : Fld) (i j k : Nat) :
    (s.count a b c n).get f i j k = s.get f i j k := by simp [State.get]

/-- Setting cause bits: the cause register takes them, whether or not the source signals. -/
@[simp] theorem State.raise_rd (s : State) (c en : Fld) (m src i i' j k : Nat) (id : RegId) :
    (s.raise c en m src i).rd id i' j k = (s.orBits c m i).rd id i' j k := by
  unfold State.raise; dsimp only; split <;> simp

@[simp] theorem State.raise_get (s : State) (c en f : Fld) (m src i i' j k : Nat) :
    (s.raise c en m src i).get f i' j k = (s.orBits c m i).get f i' j k := by simp [State.get]

theorem State.raise_regs (s : State) (c en : Fld) (m src i : Nat) : (s.raise c en m src i).regs = (s.orBits c m i).regs := by
  unfold State.raise; dsimp only; split <;> simp

theorem State.raise_hostframe (s : State) (c en : Fld) (m src i : Nat) :
    { (s.raise c en m src i).host with held := s.host.held, pba := s.host.pba } = s.host := by
  unfold State.raise; dsimp only; split
  · simp
  · exact State.signal_hostframe (s.orBits c m i) src

theorem RegsBut.raise {s : State} {P : Nat → Prop} (c en : Fld) (m src i : Nat) (hp : P (Reg.offset ⟨c.id, i, 0, 0⟩)) :
    RegsBut s (s.raise c en m src i) P := by
  intro d off ho
  rw [State.raise_regs]
  exact RegsBut.orBits c m i 0 0 hp d off ho

theorem bits_lt (w hi lo : Nat) : bits w hi lo < 2 ^ (hi + 1 - lo) := Nat.mod_lt _ (Nat.two_pow_pos _)

theorem State.get_lt (s : State) (f : Fld) (i j k : Nat) : s.get f i j k < 2 ^ (f.hi + 1 - f.lo) := bits_lt _ _ _

/-- Registers of one block of BAR0 (R566). -/
def InBlock (b off : Nat) : Prop := off / 2 ^ 20 = b

theorem RegsBut.logLimited {s : State} (a : Nat) (p q : Word) :
    RegsBut s (s.logLimited a p q) (fun o => o = Reg.offset ⟨.PLN_LOG_CTRL, 0, 0, 0⟩) := by
  unfold State.logLimited
  split
  · exact RegsBut.rfl
  · split
    · exact RegsBut.of_regs (by simp)
    · exact RegsBut.inc _ _ _ _ _ (Eq.refl _)


theorem RegsBut.reject {s : State} (r : Rejection) : RegsBut s (s.reject r) rejectRegs := by
  unfold State.reject
  split
  · dsimp only
    refine RegsBut.trans ?_ ((RegsBut.logLimited _ _ _).mono (fun o h => Or.inr (Or.inr h)))
    have hn : rejectRegs (Reg.offset ⟨.HCI_REJECT, s.get F.HCI_REJECT_COUNT_NEXT, 0, 0⟩) :=
      Or.inl ⟨_, State.get_lt s F.HCI_REJECT_COUNT_NEXT 0 0 0, (Eq.refl _)⟩
    refine (RegsBut.wr .HCI_REJECT r.entry _ 0 0 hn).trans ?_
    exact (RegsBut.set _ _ _ _ _ (Or.inr (Or.inl (Eq.refl _)))).trans (RegsBut.inc _ _ _ _ _ (Or.inr (Or.inl (Eq.refl _))))
  · exact RegsBut.rfl

theorem faultClass_lt (c : Nat) : faultClass c < 3 := by
  unfold faultClass
  split
  · omega
  · split <;> omega

theorem RegsBut.faultPush {s : State} (r : FaultRec) : RegsBut s (s.faultPush r) faultRegs := by
  refine RegsBut.trans (t := { s with flt := { s.flt with ring := (r :: s.flt.ring).take 256 } }) (RegsBut.of_regs (Eq.refl _)) ?_
  exact (RegsBut.set _ _ _ _ _ (Or.inl (Eq.refl _))).trans (RegsBut.set _ _ _ _ _ (Or.inl (Eq.refl _)))

theorem RegsBut.faultTally {s : State} (c : Nat) : RegsBut s (s.faultTally c) faultRegs := by
  unfold State.faultTally
  have hst : ∀ (u : State) (f : Fld) (n : Nat), f.id = .FLT_STATUS → RegsBut u (u.set f n) faultRegs := by
    intro u f n hf; exact RegsBut.set _ _ _ _ _ (Or.inr (Or.inl (by rw [hf])))
  have hcn : ∀ (u : State) (f : Fld) (n : Nat), f.id = .FLT_CNT → RegsBut u (u.inc f n) faultRegs := by
    intro u f n hf; exact RegsBut.inc _ _ _ _ _ (Or.inr (Or.inr (Or.inl (by rw [hf]))))
  split
  · exact (hst _ _ _ (Eq.refl _)).trans (hcn _ _ _ (Eq.refl _))
  · split
    · exact (hst _ _ _ (Eq.refl _)).trans (hcn _ _ _ (Eq.refl _))
    · exact (hst _ _ _ (Eq.refl _)).trans (hcn _ _ _ (Eq.refl _))

theorem RegsBut.faultFirst {s : State} (c : Nat) (r : FaultRec) (hc : c < 3) : RegsBut s (s.faultFirst c r) faultRegs := by
  unfold State.faultFirst
  have hw : ∀ (u : State) (v : Word) (i : Nat), i < 6 → RegsBut u (u.wr .FLT_FIRST v c i) faultRegs := by
    intro u v i hi; exact RegsBut.wr _ _ _ _ _ (Or.inr (Or.inr (Or.inr (Or.inr ⟨_, i, hc, hi, (Eq.refl _)⟩))))
  split
  · exact RegsBut.inc _ _ _ _ _ (Or.inr (Or.inr (Or.inr (Or.inr ⟨_, 5, hc, by omega, (Eq.refl _)⟩))))
  · exact ((((hw _ _ 0 (by omega)).trans (hw _ _ 1 (by omega))).trans (hw _ _ 2 (by omega))).trans (hw _ _ 3 (by omega))).trans (hw _ _ 4 (by omega))

theorem RegsBut.faultWrite {s : State} (a b c : Nat) (w : Who) (x y z : Nat) :
    RegsBut s (s.faultWrite a b c w x y z) faultRegs := by
  have h : (s.faultWrite a b c w x y z).regs = (((((s.faultPush (s.faultRec a b c w x y z)).faultTally (faultClass b)).faultOverflow
      s.faultLost).faultFirst (faultClass b) (s.faultRec a b c w x y z)).raise F.FLT_INT_CAUSE_CAUSE F.FLT_INT_EN_EN
      (2 ^ faultClass b + b2n s.faultLost * 8) 17).regs := by
    simp [State.faultWrite]
  have k := (((RegsBut.faultPush (s := s) (s.faultRec a b c w x y z)).trans (RegsBut.faultTally (faultClass b))).trans
    (RegsBut.ite (c := s.faultLost = true) (RegsBut.set F.FLT_STATUS_OVF 1 0 0 0 (Or.inr (Or.inl (Eq.refl _)))) RegsBut.rfl)).trans
    ((RegsBut.faultFirst _ (s.faultRec a b c w x y z) (faultClass_lt b)).trans
      (RegsBut.raise F.FLT_INT_CAUSE_CAUSE F.FLT_INT_EN_EN (2 ^ faultClass b + b2n s.faultLost * 8) 17 0
        (Or.inr (Or.inr (Or.inr (Or.inl (Eq.refl _)))))))
  intro d off ho
  rw [h]
  exact k d off ho

end Sys2Proof.Machine
end

