-- ==== Sys2Proof/Laws/Bar.lean ====
section
/-! SUPPORT. Accesses of the host: a write that reaches its block is that block's write. -/
namespace Sys2Proof.Machine

theorem foldl_id {α : Type} {f : State → α → State} {s : State} {l : List α} (h : ∀ a, a ∈ l → f s a = s) : l.foldl f s = s := by
  induction l with
  | nil => rfl
  | cons a l ih =>
    rw [List.foldl_cons, h a (List.mem_cons_self ..)]
    exact ih (fun b hb => h b (List.mem_cons_of_mem _ hb))

/-- An access that finds every domain ready or absent goes on at once. -/
theorem State.reach_ready {s : State} {qs : List Nat} {who : Who}
    (h : ∀ q, q ∈ qs → s.domainState q = domREADY ∨ s.domainState q = domABSENT) : s.reach qs who = .go s := by
  have hno : ∀ d, d ≠ domREADY → d ≠ domABSENT → ∀ q, q ∈ qs → ¬ s.domainState q = d := by
    intro d h1 h2 q hq hd
    rcases h q hq with h' | h' <;> rw [h'] at hd
    · exact h1 hd.symm
    · exact h2 hd.symm
  have hany : ∀ d, d ≠ domREADY → d ≠ domABSENT → (qs.any (fun q => s.domainState q = d)) = false := by
    intro d h1 h2
    rw [List.any_eq_false]
    intro q hq
    simpa using hno d h1 h2 q hq
  unfold State.reach
  rw [if_neg (by rw [hany _ (by decide) (by decide)]; decide)]
  have hf : qs.foldl (fun s q => if s.domainState q = domOFF ∨ s.domainState q = domDOZE then s.startWake q who else s) s = s := by
    apply foldl_id
    intro q hq
    rw [if_neg]
    rintro (h' | h')
    · exact hno _ (by decide) (by decide) q hq h'
    · exact hno _ (by decide) (by decide) q hq h'
  dsimp only
  rw [hf, if_neg (by rw [hany _ (by decide) (by decide)]; decide)]
  congr 1
  apply foldl_id
  intro q hq
  rw [if_neg (hno _ (by decide) (by decide) q hq)]

theorem State.domains_ready {s : State} {off : Nat} {who : Who}
    (h : ∀ q, q ∈ servedBy off → s.domainState q = domREADY ∨ s.domainState q = domABSENT) : s.domains off who = .go s := by
  unfold State.domains
  split
  · rfl
  · rw [if_neg, State.reach_ready h]
    simp only [Bool.and_eq_true, List.any_eq_true, decide_eq_true_eq, not_and, not_exists]
    intro _ q hq h1
    rcases h q hq with h' | h'
    · exact fun h2 => absurd h' h1
    · exact fun h2 => h2 h'

/-- A host write that reaches its block. -/
theorem State.barWrite_reaches {s : State} {r : Reg} {v : Word} (h : WriteReaches s r v) (hr : Reg.ofOffset r.offset = some r)
    (h1 : r.offset < 0x1000000) (h2 : inMsix r.offset = false) (h3 : r.offset % 8 = 0) :
    s.barWrite r.offset 8 (v.zeroExtend 64) = s.regWrite .host r v := by
  have hv : (v.zeroExtend 64).truncate 36 = v := by
    apply BitVec.eq_of_toNat_eq
    simp only [BitVec.truncate_eq_setWidth, BitVec.toNat_setWidth]
    have := v.isLt
    omega
  unfold State.barWrite
  dsimp only
  rw [hv, h3, Nat.sub_zero, if_neg (by rw [h.up]; simp; omega), if_neg (by rw [h.safe, h.deep]; decide), if_neg (by rw [h2]; decide),
    if_neg (by simp), if_neg (by rw [h.order]; decide)]
  unfold State.slotWrite
  rw [if_neg (by rw [h.present]; decide), if_neg (by rw [h.safe, h.deep]; decide), if_neg (by rw [h.ready]; decide),
    State.domains_ready h.domains]
  dsimp only
  rw [hr]

/-- What a register's place is: its offset names it, and it lies in BAR0 on a slot outside the MSI-X structures. -/
def Reg.plain (r : Reg) : Bool :=
  decide (Reg.ofOffset r.offset = some r) && decide (r.offset < 0x1000000) && !inMsix r.offset && decide (r.offset % 8 = 0)

theorem State.writeOf_reaches {s : State} {id : RegId} {i j : Nat} {v : Word} (h : WriteReaches s ⟨id, i, j, 0⟩ v)
    (hp : Reg.plain ⟨id, i, j, 0⟩ = true) : s.writeOf id i j v = .next (s.regWrite .host ⟨id, i, j, 0⟩ v) := by
  simp only [Reg.plain, Bool.and_eq_true, decide_eq_true_eq, Bool.not_eq_true'] at hp
  unfold State.writeOf
  rw [State.barWrite_reaches h hp.1.1.1 hp.1.1.2 hp.1.2 hp.2]

theorem State.regWrite_done {s t : State} {who : Who} {r : Reg} {v : Word} (h : s.blockWrite who r v = .done t) :
    s.regWrite who r v = t := by
  unfold State.regWrite; rw [h]

theorem State.regWrite_reject {s : State} {who : Who} {r : Reg} {v : Word} {st : Status} (h : s.blockWrite who r v = .reject st) :
    s.regWrite who r v = s.rejectReg r.errField.1 st r.errField.2 := by
  unfold State.regWrite; rw [h]

/-! The block of a register's number. -/

section
variable (s : State) (who : Who) (r : Reg) (v : Word)
theorem State.blockWrite_1 (h : r.block = 1) : s.blockWrite who r v = .done (s.hciWrite r v) := by unfold State.blockWrite; rw [h]; rfl
theorem State.blockWrite_2 (h : r.block = 2) : s.blockWrite who r v = .done (s.engWrite r v) := by unfold State.blockWrite; rw [h]; rfl
theorem State.blockWrite_4 (h : r.block = 4) : s.blockWrite who r v = s.ponWrite r v := by unfold State.blockWrite; rw [h]; rfl
theorem State.blockWrite_5 (h : r.block = 5) : s.blockWrite who r v = (if r.id.isExq then s.exqWrite r v else s.clsWrite r v) := by
  unfold State.blockWrite; rw [h]; rfl
theorem State.blockWrite_6 (h : r.block = 6) : s.blockWrite who r v = s.fwdWrite r v := by unfold State.blockWrite; rw [h]; rfl
theorem State.blockWrite_7 (h : r.block = 7) : s.blockWrite who r v = s.bufWrite r v := by unfold State.blockWrite; rw [h]; rfl
theorem State.blockWrite_8 (h : r.block = 8) : s.blockWrite who r v = (if r.id.isGate then s.gateWrite r v else s.schWrite r v) := by
  unfold State.blockWrite; rw [h]; rfl
theorem State.blockWrite_9 (h : r.block = 9) : s.blockWrite who r v = s.cipWrite r v := by unfold State.blockWrite; rw [h]; rfl
theorem State.blockWrite_10 (h : r.block = 10) : s.blockWrite who r v = s.timeWrite r v := by unfold State.blockWrite; rw [h]; rfl
theorem State.blockWrite_11 (h : r.block = 11) : s.blockWrite who r v = s.serWrite r v := by unfold State.blockWrite; rw [h]; rfl
theorem State.blockWrite_12 (h : r.block = 12) : s.blockWrite who r v = s.sysWrite r v := by unfold State.blockWrite; rw [h]; rfl
theorem State.blockWrite_13 (h : r.block = 13) :
    s.blockWrite who r v = (if r.id = .RST_CTRL then .done (s.rstWrite who v) else s.pwrWrite r v) := by
  unfold State.blockWrite; rw [h]; rfl
theorem State.blockWrite_14 (h : r.block = 14) :
    s.blockWrite who r v = (if r.id.isPln then s.plnWrite r who v else s.fltWrite r who v) := by
  unfold State.blockWrite; rw [h]; rfl
theorem State.blockWrite_15 (h : r.block = 15) : s.blockWrite who r v = s.telWrite r v := by unfold State.blockWrite; rw [h]; rfl
end

end Sys2Proof.Machine
end

