-- ==== Sys2Proof/Laws/Encode.lean ====
section
/-! SUPPORT. The fields of an encoded word are the fields it was made of (R162). -/
namespace Sys2Proof.Machine

theorem encA_fields (op : Nat) (d a b : RegNo) (fn : Nat) (ho : op < 64) (hf : fn < 2 ^ 15) :
    wordOp (encA op d a b fn) = op ∧ wordD (encA op d a b fn) = d ∧ wordA (encA op d a b fn) = a
      ∧ wordB (encA op d a b fn) = b ∧ wordFn (encA op d a b fn) = fn := by
  have hd := d.isLt; have ha := a.isLt; have hb := b.isLt
  simp only [wordOp, wordD, wordA, wordB, wordFn, wbits, bits, encA, BitVec.toNat_ofNat, Nat.shiftRight_eq_div_pow]
  refine ⟨by omega, ?_, ?_, ?_, by omega⟩
  all_goals
    apply BitVec.eq_of_toNat_eq
    rw [BitVec.toNat_ofNat]
    omega

theorem encI_fields (op : Nat) (d a : RegNo) (imm : BitVec 20) (ho : op < 64) :
    wordOp (encI op d a imm) = op ∧ wordD (encI op d a imm) = d ∧ wordA (encI op d a imm) = a
      ∧ wordImm20 (encI op d a imm) = imm := by
  have hd := d.isLt; have ha := a.isLt; have hb := imm.isLt
  simp only [wordOp, wordD, wordA, wordImm20, wbits, bits, encI, BitVec.toNat_ofNat, Nat.shiftRight_eq_div_pow]
  refine ⟨by omega, ?_, ?_, ?_⟩
  all_goals
    apply BitVec.eq_of_toNat_eq
    rw [BitVec.toNat_ofNat]
    omega

theorem encL_fields (op : Nat) (d : RegNo) (imm : BitVec 25) (ho : op < 64) :
    wordOp (encL op d imm) = op ∧ wordD (encL op d imm) = d ∧ wordImm25 (encL op d imm) = imm := by
  have hd := d.isLt; have hb := imm.isLt
  simp only [wordOp, wordD, wordImm25, wbits, bits, encL, BitVec.toNat_ofNat, Nat.shiftRight_eq_div_pow]
  refine ⟨by omega, ?_, ?_⟩
  all_goals
    apply BitVec.eq_of_toNat_eq
    rw [BitVec.toNat_ofNat]
    omega

theorem encX_fields (op : Nat) (f : FmtX) (ho : op < 64) :
    wordOp (encX0 op f) = op ∧ wordFmtX (encX0 op f) (encX1 f) = f := by
  obtain ⟨d, a, b, tid, fn, c, n, imm⟩ := f
  have h1 := d.isLt; have h2 := a.isLt; have h3 := b.isLt; have h4 := tid.isLt; have h5 := fn.isLt
  have h6 := c.isLt; have h7 := n.isLt; have h8 := imm.isLt
  simp only [wordOp, wordFmtX, wordD, wordA, wordB, wbits, bits, encX0, encX1, BitVec.toNat_ofNat, Nat.shiftRight_eq_div_pow]
  refine ⟨by omega, ?_⟩
  congr 1
  all_goals
    apply BitVec.eq_of_toNat_eq
    rw [BitVec.toNat_ofNat]
    omega

theorem isX_op (w : Word) : isX w = (0x20 ≤ wordOp w && wordOp w ≤ 0x2F) := rfl

theorem instrLen_one {w : Word} {op : Nat} (h : wordOp w = op) (ho : op < 0x20 ∨ 0x2F < op) : instrLen w = 1 := by
  unfold instrLen isX
  rw [h, if_neg]
  simp only [Bool.and_eq_true, decide_eq_true_eq]
  omega

theorem instrLen_two {w : Word} {op : Nat} (h : wordOp w = op) (ho : 0x20 ≤ op ∧ op ≤ 0x2F) : instrLen w = 2 := by
  unfold instrLen isX
  rw [h, if_pos]
  simp only [Bool.and_eq_true, decide_eq_true_eq]
  omega

end Sys2Proof.Machine
end

