-- ==== Sys2Proof/Laws/Fail.lean ====
section
/-! SUPPORT. How an instruction that completes with another status than OK ends. -/
namespace Sys2Proof.Machine

theorem RegsBut.putSave {s : State} (n l k : Nat) (ws : List Word) (hn : n < 66) (hl : l < 2) (hk : k + ws.length ≤ 16) :
    RegsBut s (s.putSave n l k ws) (fun o => 0x0208000 ≤ o ∧ o < 0x020C200) := by
  induction ws generalizing s k with
  | nil => exact RegsBut.rfl
  | cons w ws ih =>
    simp only [List.length_cons] at hk
    simp only [State.putSave]
    refine RegsBut.trans (RegsBut.wr _ _ _ _ _ ?_) (ih (k + 1) (by omega))
    simp only [Reg.offset, RegId.desc]
    omega

theorem engNum_lt (e : Eng) (h : e ≠ .plinth) : engNum e < 66 := by
  cases e with
  | cmd c => have := c.isLt; simp [engNum]; omega
  | map t => have := t.isLt; simp [engNum]; omega
  | plinth => exact absurd rfl h

/-- A trap's save area lies at 0x020_8000 (R224). -/
theorem RegsBut.saveTrap {s : State} (e : Eng) (a b c : Nat) :
    RegsBut s (s.saveTrap e a b c) (fun o => 0x0208000 ≤ o ∧ o < 0x020C200) := by
  have h : ∀ n, n < 66 → RegsBut s (s.writeSave n 1 e a b c) (fun o => 0x0208000 ≤ o ∧ o < 0x020C200) := by
    intro n hn
    have k := RegsBut.putSave (s := s) n 1 0 (s.saveImage e a b c) hn (by omega) (by simp [State.saveImage])
    have hw : (s.writeSave n 1 e a b c).regs = (s.putSave n 1 0 (s.saveImage e a b c)).regs := by
      unfold State.writeSave
      generalize s.putSave n 1 0 (s.saveImage e a b c) = u
      rfl
    intro d off ho
    rw [hw]
    exact k d off ho
  cases e with
  | plinth => exact RegsBut.rfl
  | cmd x => exact RegsBut.ite RegsBut.rfl (h _ (engNum_lt _ (by simp)))
  | map x => exact RegsBut.ite RegsBut.rfl (h _ (engNum_lt _ (by simp)))

theorem State.saveTrap_eng (s : State) (e e' : Eng) (a b c : Nat) : (s.saveTrap e a b c).eng e' = s.eng e' := by
  cases e' <;> simp [State.eng]

theorem State.reject_lastvec (u : State) (c : Fin 2) (r : Rejection) (v : Nat) :
    ((u.set F.CMD_ENG_STATUS_LASTVEC v c).reject r).get F.CMD_ENG_STATUS_LASTVEC c = v % 16 := by
  rw [(RegsBut.reject _).get (by simp) _ _ _ _ ?_]
  · exact State.get_set_same _ _ _ _ _ _ rfl
  · have := c.isLt
    simp only [rejectRegs, Reg.offset, RegId.desc, F.CMD_ENG_STATUS_LASTVEC]
    omega

theorem Engine.reg_congr {a b : Engine} (h : b.w = a.w) (r : RegNo) : b.reg r = a.reg r := by simp [Engine.reg, h]

theorem failed_cmd {s : State} {c : Fin 2} {op : Nat} {st : Status} {f : Frag} (hf : (s.cmd.get c).frag = some f)
    (hn : f.ended = none) : Failed s (s.failInstr (.cmd c) (s.eng (.cmd c)).pc op st) (.cmd c) st := by
  have h : (s.failInstr (.cmd c) (s.eng (.cmd c)).pc op st) = (((s.saveTrap (.cmd c) 5 st.code (s.eng (.cmd c)).pc).setEng (.cmd c)
      { s.cmd.get c with frag := some { f with ended := some ((s.cmd.get c).pc, st) }, stall := .none }).set
        F.CMD_ENG_STATUS_LASTVEC 5 c).reject { reg := false, ring := some f.ring, status := st, opcode := op, index := (s.eng (.cmd c)).pc } := by
    simp only [State.failInstr, State.saveTrap_cmd, hf, hn]
    rfl
  rw [h]
  generalize hu : s.saveTrap (.cmd c) 5 st.code (s.eng (.cmd c)).pc = u
  have e1 : u.cmd = s.cmd := by rw [← hu]; simp
  have e2 : u.map = s.map := by rw [← hu]; simp
  have e3 : u.plinth = s.plinth := by rw [← hu]; simp
  constructor
  · intro r; simp only [State.reg, State.eng, State.setEng, State.reject_cmd, State.set_cmd, vget_set_same]; exact Engine.reg_congr rfl r
  · simp [State.eng, State.setEng, vget_set_same, Engine.flags]
  · simp [State.eng, State.setEng, vget_set_same]
  · simp [State.eng, State.setEng, vget_set_same]
  · intro e' he
    cases e' <;> simp_all [State.eng, State.setEng]
    exact vget_set_ne _ _ _ _ he
  · simp [← hu]
  · intro c' hc
    cases hc
    refine ⟨?_, State.reject_lastvec _ _ _ 5, by simp [← hu]⟩
    simp [State.eng, State.setEng, vget_set_same, hf]
  · intro m hm; cases hm
  · intro h; cases h

theorem State.mapTrap_get (u : State) (m : Fin 64) (v st : Nat) (hv : v ≠ 4) (g : Fld) (hg : g.id = .MAP_ENG_STATUS) :
    ((u.mapTrap m v st).dropMap m).get g m
      = (((u.set F.MAP_ENG_STATUS_LASTSTAT st m).set F.MAP_ENG_STATUS_LASTVEC v m).set F.MAP_ENG_STATUS_FLT 1 m).get g m := by
  have hlt := m.isLt
  rw [State.dropMap, State.modTree_get, State.setEng_get, State.mapTrap, if_neg hv, State.raise_get,
    State.get_orBits_reg _ _ _ _ _ _ _ _ _ _ ?_, State.get_inc_reg _ _ _ _ _ _ _ _ _ _ ?_]
  · simp only [hg, Reg.offset, RegId.desc, F.MAP_EVT_CNT_FAULTS]; omega
  · simp only [hg, Reg.offset, RegId.desc]; omega

theorem State.dropMap_map (u : State) (m : Fin 64) : (u.dropMap m).map.get m = { u.map.get m with run := false, stall := .none } := by
  simp [State.dropMap, State.modTree, State.setEng, vget_set_same]

theorem State.dropMap_map_ne (u : State) (m m' : Fin 64) (h : m' ≠ m) : (u.dropMap m).map.get m' = u.map.get m' := by
  simp only [State.dropMap, State.modTree, State.setEng]
  exact vget_set_ne _ _ _ _ h

theorem State.dropMap_tr (u : State) (m m' : Fin 64) : (u.dropMap m).tr m' = if m' = m then (u.tr m).drop else u.tr m' := by
  simp only [State.dropMap, State.modTree, State.setEng, State.tr]
  split
  · next h => subst h; exact vget_set_same _ _ _
  · next h => exact vget_set_ne _ _ _ _ h

theorem failed_map {s : State} {m : Fin 64} {op : Nat} {st : Status} :
    Failed s (s.failInstr (.map m) (s.eng (.map m)).pc op st) (.map m) st := by
  simp only [State.failInstr]
  have hm := State.mapTrap_get (s.saveTrap (.map m) 5 st.code (s.eng (.map m)).pc) m 5 st.code (by decide)
  generalize hu : s.saveTrap (.map m) 5 st.code (s.eng (.map m)).pc = u at hm
  have e1 : u.map = s.map := by rw [← hu]; simp
  have e2 : u.tree = s.tree := by rw [← hu]; simp
  have e3 : u.cmd = s.cmd := by rw [← hu]; simp
  have e4 : u.plinth = s.plinth := by rw [← hu]; simp
  have he : ((u.mapTrap m 5 st.code).dropMap m).eng (.map m) = { s.eng (.map m) with run := false, stall := .none } := by
    rw [State.eng_map, State.dropMap_map, State.mapTrap_map, e1, State.eng_map]
  have ht := fun m' => State.dropMap_tr (u.mapTrap m 5 st.code) m m'
  simp only [State.tr_eq, State.mapTrap_tree, e2] at ht
  constructor
  · intro r; rw [State.reg_eq, State.reg_eq, he]; exact Engine.reg_congr rfl r
  · rw [he]; rfl
  · rw [he]
  · rw [he]
  · intro e' he'
    cases e' with
    | cmd c => rw [State.eng_cmd, State.eng_cmd, State.dropMap_cmd, State.mapTrap_cmd, e3]
    | plinth => rw [State.eng_plinth, State.eng_plinth, State.dropMap_plinth, State.mapTrap_plinth, e4]
    | map m' =>
      have : m' ≠ m := fun h => he' (by rw [h])
      rw [State.eng_map, State.eng_map, State.dropMap_map_ne _ _ _ this, State.mapTrap_map, e1]
  · simp [← hu]
  · intro c hc; cases hc
  · intro m' hm'
    cases hm'
    refine ⟨by rw [he], by rw [State.tr_eq, ht, if_pos rfl]; rfl, by rw [State.tr_eq, ht, if_pos rfl]; rfl, ?_, ?_, ?_, ?_⟩
    · rw [hm _ rfl, State.get_set_same _ _ _ _ _ _ rfl]; rfl
    · rw [hm _ rfl, State.get_set_field _ F.MAP_ENG_STATUS_FLT F.MAP_ENG_STATUS_LASTSTAT _ _ _ _ rfl rfl (by decide),
        State.get_set_field _ F.MAP_ENG_STATUS_LASTVEC F.MAP_ENG_STATUS_LASTSTAT _ _ _ _ rfl rfl (by decide),
        State.get_set_same _ _ _ _ _ _ rfl]
      cases st <;> rfl
    · rw [hm _ rfl, State.get_set_field _ F.MAP_ENG_STATUS_FLT F.MAP_ENG_STATUS_LASTVEC _ _ _ _ rfl rfl (by decide),
        State.get_set_same _ _ _ _ _ _ rfl]; rfl
    · intro m' hm'
      rw [State.tr_eq, ht, if_neg hm', State.tr_eq]
  · intro h; cases h

theorem failed_plinth {s : State} {op : Nat} {st : Status} :
    Failed s (s.failInstr .plinth (s.eng .plinth).pc op st) .plinth st := by
  simp only [State.failInstr, State.saveTrap]
  constructor
  · intro r; simp only [State.reg, State.eng, State.setEng]; exact Engine.reg_congr rfl r
  · simp [State.eng, State.setEng, Engine.flags]
  · simp [State.eng, State.setEng]
  · simp [State.eng, State.setEng]
  · intro e' he
    cases e' <;> simp_all [State.eng, State.setEng]
  · simp [State.setEng]
  · intro c hc; cases hc
  · intro m hm; cases hm
  · intro _; simp [State.eng, State.setEng]

/-- What an instruction that fails in s leaves. -/
theorem failInstr_failed {s : State} {e : Eng} {op : Nat} {st : Status}
    (hr : ∀ c, e = .cmd c → ∃ f, (s.cmd.get c).frag = some f ∧ f.ended = none) :
    Failed s (s.failInstr e (s.eng e).pc op st) e st := by
  cases e with
  | cmd c => obtain ⟨f, h1, h2⟩ := hr c rfl; exact failed_cmd h1 h2
  | map m => exact failed_map
  | plinth => exact failed_plinth

end Sys2Proof.Machine
end

