-- ==== Sys2Proof/Laws/Instr.lean ====
section
/-! SUPPORT. How an engine's instruction ends, by how its own work ends: the lemmas cited of every instruction. -/
namespace Sys2Proof.Machine

theorem takes_frag {s : State} {c : Fin 2} {i : Instr} {regs : List RegNo} {cost : Nat} (h : s.takes (.cmd c) i regs cost = true) :
    ∃ f, (s.cmd.get c).frag = some f ∧ f.ended = none := by
  simp only [State.takes, Bool.and_eq_true, State.engRuns] at h
  obtain ⟨⟨⟨⟨⟨⟨⟨⟨⟨⟨⟨⟨_, h1⟩, _⟩, _⟩, _⟩, _⟩, _⟩, _⟩, _⟩, _⟩, _⟩, _⟩, _⟩ := h
  split at h1
  · next f hf => exact ⟨f, hf, by simpa using h1⟩
  · cases h1

theorem takes_spells {s : State} {e : Eng} {i : Instr} {regs : List RegNo} {cost : Nat} (h : s.takes e i regs cost = true) :
    s.spells e i = true := by
  simp only [State.takes, Bool.and_eq_true] at h
  exact h.1.1.1.1.2

/-- The length of a one-word instruction that is taken. -/
theorem takes_one {s : State} {e : Eng} {i : Instr} {regs : List RegNo} {cost : Nat} {w : Word} {op : Nat}
    (h : s.takes e i regs cost = true) (he : encode i = some (w, none)) (hw : wordOp w = op) (ho : op < 0x20 ∨ 0x2F < op) :
    s.lenAt e = 1 := by
  have hs := takes_spells h
  simp only [State.spells, he, decide_eq_true_eq] at hs
  rw [State.lenAt, hs]
  exact instrLen_one hw ho

/-- The length of a two-word instruction that is taken. -/
theorem takes_two {s : State} {e : Eng} {i : Instr} {regs : List RegNo} {cost : Nat} {w w1 : Word} {op : Nat}
    (h : s.takes e i regs cost = true) (he : encode i = some (w, some w1)) (hw : wordOp w = op) (ho : 0x20 ≤ op ∧ op ≤ 0x2F) :
    s.lenAt e = 2 := by
  have hs := takes_spells h
  simp only [State.spells, he, Bool.and_eq_true, decide_eq_true_eq] at hs
  rw [State.lenAt, hs.1]
  exact instrLen_two hw ho

theorem Failed.of_spend {s t : State} {e : Eng} {n : Nat} {st : Status} (h : Failed (s.spend e n) t e st) : Failed s t e st := by
  have hf := State.spend_frame s e n
  have he := State.spend_eng s e n
  have hreg : ∀ r, (s.spend e n).reg e r = s.reg e r := by
    intro r; rw [State.reg_eq, State.reg_eq, he]; cases e <;> rfl
  constructor
  · intro r; rw [h.regs, hreg]
  · rw [h.flags, he]; cases e <;> rfl
  · rw [h.mem, he]; cases e <;> rfl
  · exact h.stall
  · intro e' h'; rw [h.others e' h', hf.eng e' h']
  · obtain ⟨a, b, c, d, f, g, i, j, k, l⟩ := h.frame
    exact ⟨a.trans hf.pending, b.trans hf.chip, c.trans hf.clk, d.trans hf.boot, f.trans hf.pwr, g.trans hf.flt, i.trans hf.slots,
      j.trans hf.slotsBad, k.trans hf.tim, l.trans hf.dp⟩
  · intro c hc
    subst hc
    obtain ⟨h1, h2, h3⟩ := h.cmd c rfl
    exact ⟨h1, h2, h3⟩
  · intro m hm
    subst hm
    obtain ⟨h1, h2, h3, h4, h5, h6, h7⟩ := h.map m rfl
    exact ⟨h1, h2, h3, h4, h5, h6, fun m' hm' => by rw [h7 m' hm', State.tr_eq, State.tr_eq, hf.tree]⟩
  · intro hp
    subst hp
    exact h.plinth rfl

/-- An instruction that completes with another status and has done nothing. -/
theorem instr_fail {s : State} {e : Eng} {i : Instr} {regs : List RegNo} {cost : Nat} {body : State → Res} {st : Status}
    (h : s.takes e i regs cost = true) (hb : body s = .fail st s) :
    ∃ t, instr e i regs cost body s = .next t ∧ Failed s t e st := by
  refine ⟨(s.spend e cost).failInstr e (s.eng e).pc (wordOp (s.mem e (s.eng e).pc)) st, ?_, ?_⟩
  · rw [instr_takes body h, hb]
    simp only [State.finishInstr, takes_budget h]
    simp
  · apply Failed.of_spend (n := cost)
    have hp : (s.eng e).pc = ((s.spend e cost).eng e).pc := by rw [State.spend_eng]; cases e <;> rfl
    rw [hp]
    apply failInstr_failed
    intro c hc
    subst hc
    exact takes_frag h

theorem failsWith {e : Eng} {i : Instr} {regs : List RegNo} {cost : Nat} {body : State → Res} {st : Status}
    (he : ∀ s, exec i s = instr e i regs cost body s) (hb : ∀ s, body s = .fail st s) : FailsWith e i regs cost st := by
  intro s h
  obtain ⟨t, h1, h2⟩ := instr_fail h (hb s)
  exact ⟨t, by rw [he, h1], h2⟩

/-- An instruction that goes on at a word of its own, at a cost of its own. -/
theorem instr_jump {s s' : State} {e : Eng} {i : Instr} {regs : List RegNo} {cost c target : Nat} {body : State → Res}
    (h : s.takes e i regs cost = true) (hc : s.overBudget e c = false) (hb : body s = .jump s' target c) :
    instr e i regs cost body s = .next ((s'.spend e c).retire e (s.eng e).pc target) := by
  rw [instr_takes body h, hb]
  simp only [State.finishInstr, hc]
  simp

/-- An instruction that writes a register and goes on at a word of its own. -/
theorem instr_setReg_jump {s : State} {e : Eng} {i : Instr} {regs : List RegNo} {cost c target : Nat} {body : State → Res}
    {d : RegNo} {v : Word} (h : s.takes e i regs cost = true) (hc : s.overBudget e c = false)
    (hb : body s = .jump (s.setReg e d v) target c) :
    ∃ t, instr e i regs cost body s = .next t ∧ RegInstr s t e d ∧ t.reg e d = (if d = 0 then 0 else v)
      ∧ (t.eng e).flags = (s.eng e).flags ∧ t.standsAt e target ∧ (∀ m, e = .map m → (t.eng e).cyc = (s.eng e).cyc + c) := by
  refine ⟨_, instr_jump h hc hb, ?_⟩
  obtain ⟨h1, h2, h3, h4, h5, h6, h7⟩ := ended (s' := s.setReg e d v) (e := e) (cost := c) (idx := (s.eng e).pc) (target := target) d
  have hcy : ((s.setReg e d v).eng e).cyc = (s.eng e).cyc := by
    simp only [State.setReg, State.eng_setEng, Engine.setReg]; split <;> rfl
  refine ⟨⟨(OnlyEngine.setEng _ _ _).trans h1, ?_, h5⟩, ?_, ?_, h6, fun m hm => by rw [h7 m hm, hcy]⟩
  · refine Engine.OnlyReg.trans ?_ h2
    simp only [State.setReg, State.eng_setEng]
    exact Engine.setReg_only _ _ _
  · rw [State.reg_eq, h3]
    simp only [State.setReg, State.eng_setEng, Engine.reg_setReg]
  · rw [h4]
    simp only [State.setReg, State.eng_setEng, Engine.setReg_flags]

/-- An instruction whose work leaves the registers and flags of its engine, whatever else it does. -/
theorem instr_plain {s s' : State} {e : Eng} {i : Instr} {regs : List RegNo} {cost : Nat} {body : State → Res}
    (h : s.takes e i regs cost = true) (hb : body s = .ok s') :
    ∃ t, instr e i regs cost body s = .next t ∧ RegInstr s' t e 0 ∧ (t.eng e).flags = (s'.eng e).flags
      ∧ t.standsAt e ((s.eng e).pc + s.lenAt e) ∧ (∀ m, e = .map m → (t.eng e).cyc = (s'.eng e).cyc + cost) := by
  refine ⟨_, instr_ok h hb, ?_⟩
  obtain ⟨h1, h2, h3, h4, h5, h6, h7⟩ := ended (s' := s') (e := e) (cost := cost) (idx := (s.eng e).pc)
    (target := (s.eng e).pc + s.lenAt e) 0
  exact ⟨⟨h1, h2, h5⟩, h4, h6, h7⟩

theorem does_of {e : Eng} {i : Instr} {regs : List RegNo} {cost : Nat} {P : State → Prop} {u : State → State} {body : State → Res}
    (he : ∀ s, exec i s = instr e i regs cost body s) (hb : ∀ s, P s → body s = .ok (u s)) : Does e i regs cost P u := by
  intro s h hp
  obtain ⟨t, h1, h2⟩ := instr_plain h (hb s hp)
  exact ⟨t, by rw [he, h1], h2⟩

theorem failsIf {e : Eng} {i : Instr} {regs : List RegNo} {cost : Nat} {P : State → Prop} {body : State → Res} {st : Status}
    (he : ∀ s, exec i s = instr e i regs cost body s) (hb : ∀ s, P s → body s = .fail st s) : FailsIf e i regs cost P st := by
  intro s h hp
  obtain ⟨t, h1, h2⟩ := instr_fail h (hb s hp)
  exact ⟨t, by rw [he, h1], h2⟩

/-- An instruction that waits keeps the engine where it stands. -/
theorem instr_wait {s s' : State} {e : Eng} {i : Instr} {regs : List RegNo} {cost : Nat} {body : State → Res}
    (h : s.takes e i regs cost = true) (hb : body s = .wait s') : instr e i regs cost body s = .next s' := by
  rw [instr_takes body h, hb]; rfl

/-- An instruction at which the engine does not go on. -/
theorem instr_done {s s' : State} {e : Eng} {i : Instr} {regs : List RegNo} {cost : Nat} {body : State → Res}
    (h : s.takes e i regs cost = true) (hb : body s = .done s') : instr e i regs cost body s = .next (s'.spend e cost) := by
  rw [instr_takes body h, hb]
  simp only [State.finishInstr, takes_budget h]
  simp

end Sys2Proof.Machine
end

