-- ==== Sys2Proof/Laws/Path.lean ====
section
/-! SUPPORT. What the operations of the packet side leave as it is (OnlyData), one lemma per operation. -/
set_option linter.unusedSimpArgs false
set_option linter.unusedVariables false

namespace Sys2Proof.Machine
namespace OnlyData

theorem rfl' (s : State) : OnlyData s s := ⟨rfl, rfl, rfl, rfl, rfl, rfl, rfl, rfl, rfl, rfl⟩

theorem trans {s t u : State} (h : OnlyData s t) (k : OnlyData t u) : OnlyData s u :=
  ⟨k.pending.trans h.pending, k.chip.trans h.chip, k.clk.trans h.clk, k.boot.trans h.boot, k.pwr.trans h.pwr, k.map.trans h.map,
    k.tree.trans h.tree, k.slots.trans h.slots, k.slotsBad.trans h.slotsBad, k.tim.trans h.tim⟩

theorem ite {s t u : State} {c : Prop} [Decidable c] (h : OnlyData s t) (k : OnlyData s u) : OnlyData s (if c then t else u) := by
  split
  · exact h
  · exact k

/-- A fold whose every step changes the packet side only. -/
theorem foldl {α : Type} {f : State → α → State} (hf : ∀ s a, OnlyData s (f s a)) (l : List α) (s : State) :
    OnlyData s (l.foldl f s) := by
  induction l generalizing s with
  | nil => exact rfl' s
  | cons a l ih => exact (hf s a).trans (ih (f s a))

theorem wr (s : State) (id : RegId) (v : Word) (i j k : Nat) : OnlyData s (s.wr id v i j k) := by constructor <;> simp
theorem set (s : State) (f : Fld) (v i j k : Nat) : OnlyData s (s.set f v i j k) := by constructor <;> simp
theorem inc (s : State) (f : Fld) (n i j k : Nat) : OnlyData s (s.inc f n i j k) := by constructor <;> simp
theorem orBits (s : State) (f : Fld) (n i j k : Nat) : OnlyData s (s.orBits f n i j k) := by constructor <;> simp
theorem emit (s : State) (o : Out) : OnlyData s (s.emit o) := by constructor <;> simp
theorem post (s : State) (o : Out) : OnlyData s (s.post o) := by constructor <;> simp
theorem signal (s : State) (n : Nat) : OnlyData s (s.signal n) := by constructor <;> simp
theorem raise (s : State) (c en : Fld) (m src i : Nat) : OnlyData s (s.raise c en m src i) := by constructor <;> simp
theorem count (s : State) (a b c n : Nat) : OnlyData s (s.count a b c n) := by constructor <;> simp
theorem logRec (s : State) (a b : Nat) (p q : Word) : OnlyData s (s.logRec a b p q) := by constructor <;> simp
theorem logLimited (s : State) (a : Nat) (p q : Word) : OnlyData s (s.logLimited a p q) := by constructor <;> simp
theorem reject (s : State) (r : Rejection) : OnlyData s (s.reject r) := by constructor <;> simp
theorem rejectReg (s : State) (f : Fld) (st : Status) (i : Nat) : OnlyData s (s.rejectReg f st i) := by constructor <;> simp
theorem faultWrite (s : State) (a b c : Nat) (w : Who) (x y z : Nat) : OnlyData s (s.faultWrite a b c w x y z) := by
  constructor <;> simp
theorem perfWrapped (s : State) (i : Nat) : OnlyData s (s.perfWrapped i) := by constructor <;> simp

/-! Updates of the parts that belong to the packet side. -/

theorem dp (s : State) (x : Dp) : OnlyData s { s with dp := x } := ⟨(rfl), (rfl), (rfl), (rfl), (rfl), (rfl), (rfl), (rfl), (rfl), (rfl)⟩
theorem tel (s : State) (x : Tel) : OnlyData s { s with tel := x } := ⟨(rfl), (rfl), (rfl), (rfl), (rfl), (rfl), (rfl), (rfl), (rfl), (rfl)⟩
theorem host (s : State) (x : HostIf) : OnlyData s { s with host := x } := ⟨(rfl), (rfl), (rfl), (rfl), (rfl), (rfl), (rfl), (rfl), (rfl), (rfl)⟩
theorem free (s : State) (x : Nat) : OnlyData s { s with free := x } := ⟨(rfl), (rfl), (rfl), (rfl), (rfl), (rfl), (rfl), (rfl), (rfl), (rfl)⟩

theorem setHdl (s : State) (h : Nat) (x : Option Hdl) : OnlyData s (s.setHdl h x) := dp s _
theorem setBuf (s : State) (p i : Nat) (b : Buf) : OnlyData s (s.setBuf p i b) := dp s _
theorem setQue (s : State) (q : Nat) (x : Que) : OnlyData s (s.setQue q x) := dp s _
theorem setCrs (s : State) (q : Nat) (x : Crs) : OnlyData s (s.setCrs q x) := dp s _
theorem setMtr (s : State) (q : Nat) (x : Mtr) : OnlyData s (s.setMtr q x) := dp s _
theorem modPort (s : State) (p : Nat) (f : PAcc → PAcc) : OnlyData s (s.modPort p f) := tel s _
theorem modQAcc (s : State) (p : Nat) (f : QAcc → QAcc) : OnlyData s (s.modQAcc p f) := tel s _

theorem setBnd (s : State) (b : Nat) (x : Bond) : OnlyData s (s.setBnd b x) := by
  unfold State.setBnd
  split
  · exact dp s _
  · exact rfl' s

theorem perfFold (f : Perf → Nat) (s : State) (ps : SMap Perf) : OnlyData s (State.perfFold f s ps) := by
  induction ps generalizing s with
  | nil => exact rfl' s
  | cons e ps ih =>
    unfold State.perfFold
    refine trans ?_ (ih _)
    dsimp only
    apply ite
    · exact rfl' s
    · apply ite
      · exact (tel s _).trans (perfWrapped _ _)
      · exact tel s _

theorem perfEvent (s : State) (a i n : Nat) : OnlyData s (s.perfEvent a i n) := perfFold _ _ _

/-! Buffers, handles and back-pressure (R376 to R392). -/

theorem thresholds (s : State) (p : Nat) : OnlyData s (s.thresholds p) := set _ _ _ _ _ _

theorem sendPause (s : State) (l : Nat) (b : Bool) (c : Nat) : OnlyData s (s.sendPause l b c) := by
  unfold State.sendPause
  exact ite (rfl' s) ((emit _ _).trans (count _ _ _ _ _))

theorem pausePort (s : State) (l : Nat) : OnlyData s (s.pausePort l) := by
  unfold State.pausePort
  dsimp only
  split
  · exact rfl' s
  · exact (set _ _ _ _ _ _).trans ((modPort _ _ _).trans (sendPause _ _ _ _))

theorem stopBond (s : State) (b : Nat) : OnlyData s (s.stopBond b) := by
  unfold State.stopBond
  dsimp only
  split
  · exact rfl' s
  · exact trans (trans (setBnd _ _ _) (ite (rfl' _) (emit _ _))) (ite (rfl' _) (emit _ _))

theorem flow (s : State) : OnlyData s s.flow := (foldl pausePort _ _).trans (foldl stopBond _ _)

theorem setInuse (s : State) (p n : Nat) : OnlyData s (s.setInuse p n) := by
  unfold State.setInuse
  dsimp only
  have h := (set s F.BUF_POOL_STATUS_INUSE n p 0 0).trans (thresholds _ p)
  exact ite (rfl' s) (ite h (h.trans (flow _)))

theorem dfreeCapture (s : State) (k p a i : Nat) : OnlyData s (s.dfreeCapture k p a i) := ite (rfl' s) (wr _ _ _ _ _ _)

theorem doubleAlloc (s : State) (p i : Nat) : OnlyData s (s.doubleAlloc p i) :=
  (setBuf _ _ _ _).trans ((inc _ _ _ _ _ _).trans ((set _ _ _ _ _ _).trans ((faultWrite _ _ _ _ _ _ _ _).trans (dfreeCapture _ _ _ _ _))))

theorem takeFrom (s : State) (p n i : Nat) : OnlyData s (s.takeFrom p n i).1 := by
  induction n generalizing s i with
  | zero => exact rfl' s
  | succ n ih =>
    unfold State.takeFrom
    dsimp only
    split
    · exact ih _ _
    · split
      · exact (doubleAlloc _ _ _).trans (ih _ _)
      · exact setBuf _ _ _ _

theorem takeBuf (s : State) (p : Nat) : OnlyData s (s.takeBuf p).1 := by
  unfold State.takeBuf
  dsimp only
  split
  · exact inc _ _ _ _ _ _
  · have h := (free s (s.free + 1)).trans (takeFrom { s with free := s.free + 1 } p (s.dp.bufs.length + 1) (Config.freeNat s.free % s.chip.poolCount p))
    split
    · exact h.trans (setInuse _ _ _)
    · exact h.trans (inc _ _ _ _ _ _)

theorem takeHdl (s : State) : OnlyData s s.takeHdl.1 := by
  have h := setInuse s 4 (s.inuse 4 + 1)
  unfold State.takeHdl
  split
  · exact inc _ _ _ _ _ _
  · exact h

theorem dropRef (s : State) (p i a : Nat) : OnlyData s (s.dropRef p i a) := by
  unfold State.dropRef
  dsimp only
  split
  · exact (inc _ _ _ _ _ _).trans ((set _ _ _ _ _ _).trans ((faultWrite _ _ _ _ _ _ _ _).trans (dfreeCapture _ _ _ _ _)))
  · exact ite ((setBuf _ _ _ _).trans (setInuse _ _ _)) (setBuf _ _ _ _)

/-- The fences of command engines and the plinth, and what the switch core holds. -/
theorem fences (s : State) (c : Vector Engine 2) (p : Engine) (x : Dp) : OnlyData s { s with cmd := c, plinth := p, dp := x } :=
  ⟨(rfl), (rfl), (rfl), (rfl), (rfl), (rfl), (rfl), (rfl), (rfl), (rfl)⟩

theorem release (s : State) (h a : Nat) : OnlyData s (s.release h a) := by
  unfold State.release
  split
  · exact rfl' s
  · exact ((setHdl _ _ _).trans (setInuse _ _ _)).trans ((fences _ _ _ _).trans (dropRef _ _ _ _))

theorem flushQueue (p : Nat) (s : State) (q : Nat) : OnlyData s (State.flushQueue p s q) :=
  (setQue _ _ _).trans ((foldl (fun s h => release s h 0xE) _ _).trans ((inc _ _ _ _ _ _).trans ((inc _ _ _ _ _ _).trans (count _ _ _ _ _))))

theorem portFlushAt (s : State) (x : Dp) (n : Nat) : OnlyData s { s with dp := x, free := n } :=
  ⟨(rfl), (rfl), (rfl), (rfl), (rfl), (rfl), (rfl), (rfl), (rfl), (rfl)⟩

theorem flushBegin (s : State) (p : Nat) : OnlyData s (s.flushBegin p) :=
  ((portFlushAt _ _ _).trans ((set _ _ _ _ _ _).trans ((set _ _ _ _ _ _).trans (set _ _ _ _ _ _)))).trans (foldl (flushQueue p) _ _)

theorem portFlush (s : State) (p : Nat) : OnlyData s (s.portFlush p) := by
  unfold State.portFlush
  split
  · exact rfl' s
  · split
    · exact (dp _ _).trans (set _ _ _ _ _ _)
    · exact flushBegin _ _

theorem startWake (s : State) (q : Nat) (w : Who) : OnlyData s (s.startWake q w) := by
  have : OnlyData s (s.setDomain q domWAKING) := by
    unfold State.setDomain
    exact ite (set _ _ _ _ _ _) (set _ _ _ _ _ _)
  exact this.trans (host _ _)

theorem wakeStack (s : State) (p port : Nat) : OnlyData s (s.wakeStack p port) := ite (startWake _ _ _) (rfl' s)

theorem auditStart (s : State) : OnlyData s s.auditStart := ite (rfl' s) ((set _ _ _ _ _ _).trans (set _ _ _ _ _ _))

theorem auditFound (s : State) (l : Bool) (p i : Nat) : OnlyData s (s.auditFound l p i) := by
  unfold State.auditFound
  dsimp only
  have h1 : OnlyData s ((if l = true then s.inc F.BUF_EVT_CNT_LEAKED 1 else s.inc F.BUF_EVT_CNT_LOST 1).set F.BUF_STATUS_LEAK 1) :=
    (ite (inc _ _ _ _ _ _) (inc _ _ _ _ _ _)).trans (set _ _ _ _ _ _)
  generalize (if l = true then s.inc F.BUF_EVT_CNT_LEAKED 1 else s.inc F.BUF_EVT_CNT_LOST 1).set F.BUF_STATUS_LEAK 1 = s2 at *
  have h2 : ∀ x, OnlyData s (if s2.flag F.BUF_LEAK_VALID = true then s2 else s2.wr .BUF_LEAK x) :=
    fun x => h1.trans (ite (rfl' _) (wr _ _ _ _ _ _))
  apply ite
  · apply ite
    · exact (((h2 _).trans (faultWrite _ _ _ _ _ _ _ _)).trans (setBuf _ _ _ _)).trans (setInuse _ _ _)
    · exact ((h2 _).trans (faultWrite _ _ _ _ _ _ _ _)).trans (setBuf _ _ _ _)
  · exact (h2 _).trans (faultWrite _ _ _ _ _ _ _ _)

end OnlyData
end Sys2Proof.Machine
end

