-- ==== Sys2Proof/Laws/Common.lean ====
section
/-! SUPPORT. Small lemmas that many statements need: images in engine memory, folds, flags, lanes, waits for a wake. -/
set_option linter.unusedVariables false

namespace Sys2Proof.Machine

theorem range'_eq (a n : Nat) : range' a n = List.range' a n := by
  induction n generalizing a with
  | zero => rfl
  | succ n ih => rw [range', ih]; rfl

theorem image_ok {s : State} {e : Eng} {w : Word} {n : Nat} {k : List Word → Res} (h1 : w.toNat + n ≤ engMemWords e)
    (h2 : (s.eng e).memPending w.toNat n = false) (h3 : (s.eng e).badIn w.toNat n = false) :
    s.image e w n k = k ((List.range' w.toNat n).map (s.mem e)) := by
  simp only [State.image, State.memRange, range'_eq]
  rw [if_neg (by simp [engInMem]; omega), if_neg (by simp [h2]), if_neg (by simp [h3])]

theorem image_out {s : State} {e : Eng} {w : Word} {n : Nat} {k : List Word → Res} (h1 : engMemWords e < w.toNat + n) :
    s.image e w n k = .fail .erange s := by
  simp only [State.image]
  rw [if_pos (by simp [engInMem]; omega)]

theorem dest_ok {s : State} {e : Eng} {w : Word} {n : Nat} {k : Nat → Res} (h1 : engStorable e w.toNat n = true)
    (h2 : (s.eng e).memPending w.toNat n = false) : s.dest e w n k = k w.toNat := by
  simp only [State.dest]
  rw [if_neg (by simp [h1]), if_neg (by simp [h2])]

theorem dest_out {s : State} {e : Eng} {w : Word} {n : Nat} {k : Nat → Res} (h1 : engStorable e w.toNat n = false) :
    s.dest e w n k = .fail .erange s := by
  simp only [State.dest]
  rw [if_pos (by simp [h1])]

theorem Bucket.fill_fill (b : Bucket) (r t now : Nat) : (b.fill r t now).fill r t now = b.fill r t now := by
  simp only [Bucket.fill]
  split
  · split <;> simp
  · simp

theorem Node.fill_fill (n : Node) (c p now : Nat) : (n.fill c p now).fill c p now = n.fill c p now := by
  simp only [Node.fill, Bucket.fill_fill]

theorem putAlu_setReg (u : State) (e : Eng) (d d' : RegNo) (r : Alu) (v : Word) (h : d' ≠ d) :
    (u.putAlu e d r).setReg e d' v = (u.setReg e d' v).putAlu e d r := by
  have key : ∀ en : Engine, ((en.setFlags r).setReg d r.v).setReg d' v = ((en.setReg d' v).setFlags r).setReg d r.v := by
    intro en
    simp only [Engine.setReg, Engine.setFlags]
    by_cases h1 : d = 0 <;> by_cases h2 : d' = 0 <;> simp only [h1, h2, if_true, if_false]
    congr 1
    apply Vector.ext
    intro i hi
    simp only [Vector.getElem_set]
    have : d.toFin.val ≠ d'.toFin.val := fun hh => h (BitVec.eq_of_toNat_eq hh.symm)
    by_cases a1 : d.toFin.val = i
    · rw [if_pos a1, if_pos a1, if_neg (by omega)]
    · rw [if_neg a1, if_neg a1]
  cases e with
  | cmd c => simp only [State.putAlu, State.setReg, State.eng_setEng, State.setEng_setEng, key]
  | map c => simp only [State.putAlu, State.setReg, State.eng_setEng, State.setEng_setEng, key]
  | plinth => simp only [State.putAlu, State.setReg, State.eng_setEng, State.setEng_setEng, key]

theorem putAlu_tel (u : State) (e : Eng) (d : RegNo) (r : Alu) (x : Tel) :
    { u.putAlu e d r with tel := x } = { u with tel := x }.putAlu e d r := by
  cases e <;> rfl

theorem setReg_tel (u : State) (e : Eng) (d : RegNo) (v : Word) (x : Tel) :
    { u.setReg e d v with tel := x } = { u with tel := x }.setReg e d v := by
  cases e <;> rfl

theorem touch_ready {s : State} {e : Eng} {qs : List Nat} {k : State → Res}
    (h : ∀ q, q ∈ qs → s.domainState q = domREADY ∨ s.domainState q = domABSENT) : s.touch e qs k = k s := by
  unfold State.touch
  rw [State.reach_ready h]

/-- A register reads what the registers and the variant give. -/
theorem rd_same {s t : State} (h : t.regs = s.regs) (hc : t.chip = s.chip) (id : RegId) (i j k : Nat) : t.rd id i j k = s.rd id i j k := by
  unfold State.rd; rw [h, hc]

theorem get_same {s t : State} (h : t.regs = s.regs) (hc : t.chip = s.chip) (f : Fld) (i j k : Nat) : t.get f i j k = s.get f i j k := by
  unfold State.get; rw [rd_same h hc]

theorem domainState_same {s t : State} (h : t.regs = s.regs) (hc : t.chip = s.chip) (q : Nat) : t.domainState q = s.domainState q := by
  unfold State.domainState; rw [get_same h hc, get_same h hc]

theorem flag_get (s : State) (f : Fld) (i : Nat) (h : f.hi = f.lo) : s.flag f i = decide (s.get f i = 1) := by
  have : s.get f i < 2 := by
    have := State.get_lt s f i 0 0
    rw [h] at this
    simpa using this
  simp only [State.flag]
  congr 1
  simp only [eq_iff_iff]
  omega

/-- A field of another register, or another field of the same, through one set. -/
theorem get_set_other (s : State) (f g : Fld) (v i j : Nat) (hf : f.ok = true)
    (h : Reg.offset ⟨g.id, j, 0, 0⟩ ≠ Reg.offset ⟨f.id, i, 0, 0⟩ ∨ (g.id = f.id ∧ j = i ∧ (g.hi < f.lo ∨ f.hi < g.lo))) :
    (s.set f v i).get g j = s.get g j := by
  rcases h with h | ⟨h1, h2, h3⟩
  · exact State.get_set_reg _ _ _ _ _ _ _ _ _ _ h
  · subst h2
    exact State.get_set_field _ _ _ _ _ _ _ hf h1 h3

theorem foldl_get {α : Type} (f : State → α → State) (g : Fld) (j : Nat) (hf : ∀ s a, (f s a).get g j = s.get g j) (l : List α) (s : State) :
    (l.foldl f s).get g j = s.get g j := by
  induction l generalizing s with
  | nil => rfl
  | cons a l ih => rw [List.foldl_cons, ih, hf]

theorem foldl_fld {α β : Type} (f : State → α → State) (g : State → β) (hf : ∀ s a, g (f s a) = g s) (l : List α) (s : State) :
    g (l.foldl f s) = g s := by
  induction l generalizing s with
  | nil => rfl
  | cons a l ih => rw [List.foldl_cons, ih, hf]

theorem laneSettle_get (s : State) (k : Nat) (g : Fld) (j : Nat) (h : Reg.offset ⟨g.id, j, 0, 0⟩ / 2 ^ 20 ≠ 11) (hk : k < 148) :
    (s.laneSettle k).get g j = s.get g j := by
  unfold State.laneSettle
  dsimp only
  split
  · rfl
  · have h1 : Reg.offset ⟨g.id, j, 0, 0⟩ ≠ Reg.offset ⟨.SER_LANE_STATUS, k, 0, 0⟩ := by
      intro hh; apply h; rw [hh]; simp only [Reg.offset, RegId.desc]; omega
    have h2 : Reg.offset ⟨g.id, j, 0, 0⟩ ≠ Reg.offset ⟨.SER_PRBS_CTRL, k, 0, 0⟩ := by
      intro hh; apply h; rw [hh]; simp only [Reg.offset, RegId.desc]; omega
    rw [State.get_set_reg _ _ _ _ _ _ _ _ _ _ h2, State.get_set_reg _ _ _ _ _ _ _ _ _ _ h1, State.get_set_reg _ _ _ _ _ _ _ _ _ _ h1]

theorem laneSettle_fr (s : State) (k : Nat) : (s.laneSettle k).map = s.map ∧ (s.laneSettle k).tree = s.tree ∧ (s.laneSettle k).dp = s.dp := by
  unfold State.laneSettle
  dsimp only
  split
  · exact ⟨(rfl), (rfl), (rfl)⟩
  · simp

theorem domainState_quoin (s : State) (q : Nat) (h : 1 ≤ q) : s.domainState q = s.get F.QUOIN_STATUS_STATE (q - 1) := by
  unfold State.domainState; rw [if_neg (by omega)]

theorem startWake_eq (s : State) (q : Nat) (who : Who) (h : 1 ≤ q) : s.startWake q who =
    { s.set F.QUOIN_STATUS_STATE 2 (q - 1) with host := { s.host with waker := sinsert s.host.waker q who } } := by
  unfold State.startWake State.setDomain; rw [if_neg (by omega)]; exact (rfl)

theorem startWake_state (s : State) (q : Nat) (who : Who) (h : 1 ≤ q) : (s.startWake q who).domainState q = 2 := by
  rw [domainState_quoin _ _ h, startWake_eq _ _ _ h]
  have : State.get { s.set F.QUOIN_STATUS_STATE 2 (q - 1) with host := { s.host with waker := sinsert s.host.waker q who } } F.QUOIN_STATUS_STATE (q - 1)
    = (s.set F.QUOIN_STATUS_STATE 2 (q - 1)).get F.QUOIN_STATUS_STATE (q - 1) := (rfl)
  rw [this, State.get_set_same _ _ _ _ _ _ rfl]; rfl

theorem reach_wakes {s : State} {q : Nat} {who : Who} (h1 : 1 ≤ q) (h : s.domainState q = 1 ∨ s.domainState q = 4) :
    s.reach [q] who = .wait (s.startWake q who) := by
  unfold State.reach
  rw [if_neg (by rcases h with h | h <;> simp [h, domFAILED])]
  have hf : [q].foldl (fun s q => if s.domainState q = domOFF ∨ s.domainState q = domDOZE then s.startWake q who else s) s = s.startWake q who :=
    if_pos h
  dsimp only
  rw [hf, if_pos]
  simp [startWake_state _ _ _ h1, domWAKING]

/-- An engine whose access wakes one quoin waits. -/
theorem wake_wait (s : State) (e : Eng) (q : Nat) (h1 : 1 ≤ q) :
    let t := (s.startWake q (engWho e)).setEng e { (s.startWake q (engWho e)).eng e with stall := .wake [q] }
    (t.eng e).stall = .wake [q] ∧ (t.eng e).pc = (s.eng e).pc ∧ t.domainState q = 2 ∧ t.dp = s.dp ∧ t.tree = s.tree
      ∧ RegsBut s t (fun o => o = Reg.offset ⟨.QUOIN_STATUS, q - 1, 0, 0⟩) := by
  intro t
  have he : (s.startWake q (engWho e)).eng e = s.eng e := by
    rw [startWake_eq _ _ _ h1]
    cases e with
    | cmd c => rw [State.eng_cmd, State.eng_cmd]; exact (rfl)
    | map c => rw [State.eng_map, State.eng_map]; exact (rfl)
    | plinth => rw [State.eng_plinth, State.eng_plinth]; exact (rfl)
  have hg : t.get F.QUOIN_STATUS_STATE (q - 1) = (s.startWake q (engWho e)).get F.QUOIN_STATUS_STATE (q - 1) := State.setEng_get ..
  refine ⟨?_, ?_, ?_, ?_, ?_, ?_⟩
  · show (State.eng ((s.startWake q (engWho e)).setEng e _) e).stall = _
    rw [State.eng_setEng]
  · show (State.eng ((s.startWake q (engWho e)).setEng e _) e).pc = _
    rw [State.eng_setEng]
    show ((s.startWake q (engWho e)).eng e).pc = _
    rw [he]
  · rw [domainState_quoin _ _ h1, hg, ← domainState_quoin _ _ h1, startWake_state _ _ _ h1]
  · show (State.setEng _ _ _).dp = _
    rw [State.setEng_dp, startWake_eq _ _ _ h1]
    show (s.set F.QUOIN_STATUS_STATE 2 (q - 1)).dp = _
    rw [State.set_dp]
  · have hk := OnlyData.startWake s q (engWho e)
    show (State.setEng _ _ _).tree = _
    rw [State.setEng_tree, hk.tree]
  · refine RegsBut.trans ?_ (RegsBut.of_regs (State.setEng_regs _ _ _))
    rw [startWake_eq _ _ _ h1]
    exact (RegsBut.set F.QUOIN_STATUS_STATE 2 (q - 1) 0 0 (by simp only [F.QUOIN_STATUS_STATE])).trans (RegsBut.of_regs (rfl))

theorem haltSeen_other (s : State) (t : Nat) (e : Eng) (h : (s.eng e).stall ≠ .halt t) : s.haltSeen t e = s := by
  unfold State.haltSeen
  rw [if_neg h]

theorem haltSeen_cmd (s : State) (t : Nat) (c : Fin 2) (h : (s.cmd.get c).stall = .halt t) :
    s.haltSeen t (.cmd c) = s.retire (.cmd c) (s.cmd.get c).pc ((s.cmd.get c).pc + 1) := by
  unfold State.haltSeen
  rw [if_pos (show (s.eng (.cmd c)).stall = .halt t from h)]
  rfl

theorem transfer_ok (slots : List (BitVec 64)) (n : Nat) (h : ∀ j, j < n → (nth 0 slots j).toNat < 2 ^ 36) :
    transferWords (.slots slots) n = .ok ((List.range' 0 n).map (fun j => BitVec.ofNat 36 (nth 0 slots j).toNat)) := by
  unfold transferWords slotWords
  dsimp only
  rw [if_neg]
  · simp only [range'_eq, List.map_map]; rfl
  · simp only [List.any_map, List.any_eq_true, not_exists, not_and, range'_eq, List.mem_range'_1]
    intro j hj hc
    have := h j (by omega)
    simp only [Function.comp, decide_eq_true_eq] at hc
    omega

end Sys2Proof.Machine
end

