-- ==== Sys2Proof/Laws/Plain.lean ====
section
/-! SUPPORT. A plain register write: the fields a write sets, those it clears and those it leaves. -/
namespace Sys2Proof.Machine

/-- Every bit of a field is set in a mask. -/
def Fld.within (f : Fld) (mask : Nat) : Bool := (List.range (f.hi + 1 - f.lo)).all (fun i => mask.testBit (f.lo + i))

/-- No bit of a field is set in a mask. -/
def Fld.outside (f : Fld) (mask : Nat) : Bool := (List.range (f.hi + 1 - f.lo)).all (fun i => !mask.testBit (f.lo + i))

theorem wbits_ext {x y : Word} {hi lo : Nat} (h : ∀ i, i < hi + 1 - lo → x.getLsbD (lo + i) = y.getLsbD (lo + i)) :
    wbits x hi lo = wbits y hi lo := by
  unfold wbits bits
  apply Nat.eq_of_testBit_eq
  intro i
  rw [Nat.testBit_mod_two_pow, Nat.testBit_mod_two_pow, Nat.testBit_shiftRight, Nat.testBit_shiftRight]
  by_cases hi' : i < hi + 1 - lo
  · have := h i hi'
    simp only [BitVec.getLsbD] at this
    rw [this]
  · simp [hi']

theorem plain_rd (s : State) (r : Reg) (v : Word) : (s.plainWrite r v).rd r.id r.i r.j r.k =
    (s.rd r.id r.i r.j r.k &&& ~~~BitVec.ofNat 36 r.id.desc.rw &&& ~~~(BitVec.ofNat 36 r.id.desc.w1c &&& v)) ||| (v &&& BitVec.ofNat 36 r.id.desc.rw) := by
  unfold State.plainWrite
  exact State.rd_wr_same ..

/-- A field that is read-write takes the written value. -/
theorem get_plain_rw (s : State) (r : Reg) (v : Word) (f : Fld) (hid : f.id = r.id) (hok : f.ok = true) (hm : f.within r.id.desc.rw = true) :
    (s.plainWrite r v).get f r.i r.j r.k = wbits v f.hi f.lo := by
  simp only [Fld.ok, Bool.and_eq_true, decide_eq_true_eq] at hok
  unfold State.get
  rw [hid, plain_rd]
  apply wbits_ext
  intro i hi
  simp only [Fld.within, List.all_eq_true, List.mem_range] at hm
  have := hm i hi
  have h36 : f.lo + i < 36 := by omega
  simp only [BitVec.getLsbD_or, BitVec.getLsbD_and, BitVec.getLsbD_not, BitVec.getLsbD_ofNat, this, h36, decide_true, Bool.true_and,
    Bool.not_true, Bool.and_false, Bool.false_and, Bool.and_true, Bool.false_or]

/-- A field that is read-only keeps its value. -/
theorem get_plain_ro (s : State) (r : Reg) (v : Word) (f : Fld) (hid : f.id = r.id) (hok : f.ok = true) (hm : f.outside r.id.desc.rw = true)
    (hw : f.outside r.id.desc.w1c = true) : (s.plainWrite r v).get f r.i r.j r.k = s.get f r.i r.j r.k := by
  simp only [Fld.ok, Bool.and_eq_true, decide_eq_true_eq] at hok
  unfold State.get
  rw [hid, plain_rd]
  apply wbits_ext
  intro i hi
  simp only [Fld.outside, List.all_eq_true, List.mem_range, Bool.not_eq_true'] at hm hw
  have h1 := hm i hi
  have h2 := hw i hi
  have h36 : f.lo + i < 36 := by omega
  simp only [BitVec.getLsbD_or, BitVec.getLsbD_and, BitVec.getLsbD_not, BitVec.getLsbD_ofNat, h1, h2, h36, decide_true,
    Bool.not_false, Bool.and_false, Bool.false_and, Bool.and_true, Bool.or_false]

/-- A field of another register keeps its value. -/
theorem get_plain_ne (s : State) (r : Reg) (v : Word) (f : Fld) (i j k : Nat) (h : Reg.offset ⟨f.id, i, j, k⟩ ≠ r.offset) :
    (s.plainWrite r v).get f i j k = s.get f i j k := by
  unfold State.plainWrite
  exact State.get_wr_ne _ _ _ _ _ _ _ _ _ _ h

/-! A chain of register writes changes registers only. -/

theorem only_regs_set {s u : State} (h : u = { s with regs := u.regs }) (f : Fld) (v i j k : Nat) :
    u.set f v i j k = { s with regs := (u.set f v i j k).regs } := by
  obtain ⟨rg, h⟩ : ∃ rg, u = { s with regs := rg } := ⟨_, h⟩
  subst h
  rfl

theorem only_regs_wr {s u : State} (h : u = { s with regs := u.regs }) (id : RegId) (v : Word) (i j k : Nat) :
    u.wr id v i j k = { s with regs := (u.wr id v i j k).regs } := by
  obtain ⟨rg, h⟩ : ∃ rg, u = { s with regs := rg } := ⟨_, h⟩
  subst h
  rfl

theorem only_regs_plain (s : State) (r : Reg) (v : Word) : s.plainWrite r v = { s with regs := (s.plainWrite r v).regs } := rfl

theorem OnlyData.plainWrite (s : State) (r : Reg) (v : Word) : OnlyData s (s.plainWrite r v) := OnlyData.wr _ _ _ _ _ _

theorem RegsBut.plainWrite (s : State) (r : Reg) (v : Word) : RegsBut s (s.plainWrite r v) (fun o => o = r.offset) := RegsBut.wr _ _ _ _ _ (Eq.refl _)

@[simp] theorem State.plainWrite_dp (s : State) (r : Reg) (v : Word) : (s.plainWrite r v).dp = s.dp := (rfl)
@[simp] theorem State.plainWrite_cmd (s : State) (r : Reg) (v : Word) : (s.plainWrite r v).cmd = s.cmd := (rfl)
@[simp] theorem State.plainWrite_host (s : State) (r : Reg) (v : Word) : (s.plainWrite r v).host = s.host := (rfl)
@[simp] theorem State.plainWrite_tel (s : State) (r : Reg) (v : Word) : (s.plainWrite r v).tel = s.tel := (rfl)
@[simp] theorem State.plainWrite_outs (s : State) (r : Reg) (v : Word) : (s.plainWrite r v).outs = s.outs := (rfl)
@[simp] theorem State.plainWrite_chip (s : State) (r : Reg) (v : Word) : (s.plainWrite r v).chip = s.chip := (rfl)
@[simp] theorem State.plainWrite_flt (s : State) (r : Reg) (v : Word) : (s.plainWrite r v).flt = s.flt := (rfl)
@[simp] theorem State.plainWrite_pln (s : State) (r : Reg) (v : Word) : (s.plainWrite r v).pln = s.pln := (rfl)
@[simp] theorem State.plainWrite_clk (s : State) (r : Reg) (v : Word) : (s.plainWrite r v).clk = s.clk := (rfl)
@[simp] theorem State.plainWrite_tim (s : State) (r : Reg) (v : Word) : (s.plainWrite r v).tim = s.tim := (rfl)
@[simp] theorem State.plainWrite_pwr (s : State) (r : Reg) (v : Word) : (s.plainWrite r v).pwr = s.pwr := (rfl)

end Sys2Proof.Machine
end

