-- ==== Sys2Proof/Laws/Host.lean ====
section
/-! SUPPORT. Rings: what changing a ring's unregistered part, or rejecting an operation on it, does to registers. -/
set_option linter.unusedVariables false

namespace Sys2Proof.Machine

section
variable (s : State) (r : Nat) (f : RingSt → RingSt)

theorem State.modRing_eq : s.modRing r f = { s with host := { s.host with rings := (s.modRing r f).host.rings } } := by
  unfold State.modRing
  split <;> rfl
theorem State.modRing_regs : (s.modRing r f).regs = s.regs := by rw [State.modRing_eq]
theorem State.modRing_chip : (s.modRing r f).chip = s.chip := by rw [State.modRing_eq]
@[simp] theorem State.modRing_dp : (s.modRing r f).dp = s.dp := by rw [State.modRing_eq]
@[simp] theorem State.modRing_cmd : (s.modRing r f).cmd = s.cmd := by rw [State.modRing_eq]
@[simp] theorem State.modRing_get (g : Fld) (i j k : Nat) : (s.modRing r f).get g i j k = s.get g i j k :=
  get_same (State.modRing_regs ..) (State.modRing_chip ..) ..
@[simp] theorem State.modRing_flag (g : Fld) (i j k : Nat) : (s.modRing r f).flag g i j k = s.flag g i j k := by
  unfold State.flag; rw [State.modRing_get]

theorem State.ring_modRing (h : r < 16) : (s.modRing r f).ring r = f (s.ring r) := by
  unfold State.ring State.modRing
  rw [dif_pos h]
  simp [h]

end

theorem State.modRing_ring (s : State) (r : Nat) (f : RingSt → RingSt) (k : Nat) :
    (s.modRing r f).ring k = if k = r ∧ r < 16 then f (s.ring k) else s.ring k := by
  unfold State.ring State.modRing
  split
  · rename_i h
    by_cases hk : k = r
    · subst hk; simp [h]
    · rw [if_neg (by tauto)]
      simp [Ne.symm hk]
  · rename_i h
    rw [if_neg (by tauto)]

theorem State.set_ring (s : State) (f : Fld) (v i j k r : Nat) : (s.set f v i j k).ring r = s.ring r := by
  unfold State.ring; rw [State.set_host]

/-- A rejection on a ring leaves every register that keeping it does not write. -/
theorem State.rejectRing_get (s : State) (r : Fin 16) (st : Status) (g : Fld) (i : Nat)  (ho : Reg.offset ⟨g.id, i, 0, 0⟩ ≠ Reg.offset ⟨.HCI_RING_STATUS, r, 0, 0⟩) (hr : ¬ rejectRegs (Reg.offset ⟨g.id, i, 0, 0⟩)) :
    (s.rejectRing r st).get g i = s.get g i := by
  unfold State.rejectRing
  rw [(RegsBut.reject _).get (State.reject_chip _ _) _ _ _ _ hr]
  unfold State.ringErr
  rw [State.signal_get, State.get_set_reg _ _ _ _ _ _ _ _ _ _ ho]

theorem ringStatus_not_reject (r : Fin 16) : ¬ rejectRegs (Reg.offset ⟨.HCI_RING_STATUS, r.val, 0, 0⟩) := by
  rintro (⟨n, hn, h⟩ | h | h) <;> simp only [Reg.offset, RegId.desc] at h <;> omega

theorem State.rejectRing_err (s : State) (r : Fin 16) (st : Status) : (s.rejectRing r st).get F.HCI_RING_STATUS_ERR r = st.code := by
  unfold State.rejectRing
  rw [(RegsBut.reject _).get (State.reject_chip _ _) _ _ _ _ (ringStatus_not_reject r)]
  unfold State.ringErr
  rw [State.signal_get, State.get_set_same _ _ _ _ _ _ rfl]
  cases st <;> rfl

theorem State.rejectRing_enabled (s : State) (r : Fin 16) (st : Status) :
    (s.rejectRing r st).get F.HCI_RING_STATUS_ENABLED r = s.get F.HCI_RING_STATUS_ENABLED r := by
  unfold State.rejectRing
  rw [(RegsBut.reject _).get (State.reject_chip _ _) _ _ _ _ (ringStatus_not_reject r)]
  unfold State.ringErr
  rw [State.signal_get]
  exact State.get_set_field _ _ _ _ _ _ _ rfl rfl (by decide)

@[simp] theorem State.rejectRing_dp (s : State) (r : Nat) (st : Status) : (s.rejectRing r st).dp = s.dp := by
  simp [State.rejectRing, State.ringErr]
@[simp] theorem State.rejectRing_cmd (s : State) (r : Nat) (st : Status) : (s.rejectRing r st).cmd = s.cmd := by
  simp [State.rejectRing, State.ringErr]

end Sys2Proof.Machine
end

