-- ==== Sys2Proof/Laws/Record.lean ====
section
/-! SUPPORT. What writing a fault record leaves: the record, the ring's counts, and everything else as it was. -/
namespace Sys2Proof.Machine

theorem wbits_ofNat (hi lo v : Nat) : wbits (BitVec.ofNat 36 v) hi lo = (v % 2 ^ 36) / 2 ^ lo % 2 ^ (hi + 1 - lo) := by
  simp [wbits, bits, Nat.shiftRight_eq_div_pow]

/-- A field that one register write stored. -/
theorem get_wr_word (s : State) (f : Fld) (v i j k : Nat) (id : RegId) (h : f.id = id) :
    (s.wr id (BitVec.ofNat 36 v) i j k).get f i j k = (v % 2 ^ 36) / 2 ^ f.lo % 2 ^ (f.hi + 1 - f.lo) := by
  unfold State.get
  rw [h, State.rd_wr_same, wbits_ofNat]

theorem Who.master_lt (w : Who) : w.master < 256 := by
  cases w <;> simp only [Who.master] <;> omega

theorem faultTally_ring (s : State) (c : Nat) (f : Fld) (hf : f.id = .FLT_RING) : (s.faultTally c).get f = s.get f := by
  have h1 : ∀ (u : State) (g : Fld) (n : Nat), g.id = .FLT_STATUS → (u.set g n).get f = u.get f := by
    intro u g n hg; exact State.get_set_reg _ _ _ _ _ _ _ _ _ _ (by rw [hf, hg]; decide)
  have h2 : ∀ (u : State) (g : Fld) (n : Nat), g.id = .FLT_CNT → (u.inc g n).get f = u.get f := by
    intro u g n hg; exact State.get_set_reg _ _ _ _ _ _ _ _ _ _ (by rw [hf, hg]; decide)
  unfold State.faultTally
  split
  · rw [h2 _ F.FLT_CNT_COR _ rfl, h1 _ F.FLT_STATUS_COR _ rfl]
  · split
    · rw [h2 _ F.FLT_CNT_UNC _ rfl, h1 _ F.FLT_STATUS_UNC _ rfl]
    · rw [h2 _ F.FLT_CNT_FATC _ rfl, h1 _ F.FLT_STATUS_FAT _ rfl]

theorem faultFirst_ring (s : State) (c : Nat) (r : FaultRec) (f : Fld) (hf : f.id = .FLT_RING) : (s.faultFirst c r).get f = s.get f := by
  have ho : ∀ i, Reg.offset ⟨f.id, 0, 0, 0⟩ ≠ Reg.offset ⟨.FLT_FIRST, c, i, 0⟩ := by
    intro i; rw [hf]; simp only [Reg.offset, RegId.desc]; omega
  have h1 : ∀ (u : State) (v : Word) (i : Nat), (u.wr .FLT_FIRST v c i).get f = u.get f := by
    intro u v i; exact State.get_wr_ne _ _ _ _ _ _ _ _ _ _ (ho i)
  unfold State.faultFirst
  split
  · exact State.get_set_reg _ _ _ _ _ _ _ _ _ _ (ho 5)
  · rw [h1, h1, h1, h1, h1]

theorem faultOverflow_ring (s : State) (b : Bool) (f : Fld) (hf : f.id = .FLT_RING) : (s.faultOverflow b).get f = s.get f := by
  unfold State.faultOverflow
  split
  · exact State.get_set_reg _ F.FLT_STATUS_OVF f 1 0 0 0 0 0 0 (by rw [hf]; decide)
  · rfl

/-- The fields of FLT_RING after a record are those the push set. -/
theorem faultWrite_ring (s : State) (a b c : Nat) (w : Who) (x y z : Nat) (f : Fld) (hf : f.id = .FLT_RING) :
    (s.faultWrite a b c w x y z).get f = (s.faultPush (s.faultRec a b c w x y z)).get f := by
  unfold State.faultWrite
  dsimp only
  rw [State.plinthEvent_get, State.logRec_get, State.raise_get,
    State.get_orBits_reg _ F.FLT_INT_CAUSE_CAUSE f _ 0 0 0 0 0 0 (by rw [hf]; decide), faultFirst_ring _ _ _ _ hf, faultOverflow_ring _ _ _ hf, faultTally_ring _ _ _ hf]

theorem faultWrite_flt (s : State) (a b c : Nat) (w : Who) (x y z : Nat) :
    (s.faultWrite a b c w x y z).flt.ring = (s.faultRec a b c w x y z :: s.flt.ring).take 256 := by
  have e1 : ∀ (u : State) (n : Nat), (u.faultTally n).flt = u.flt := by
    intro u n; unfold State.faultTally; split
    · exact (rfl)
    · split <;> exact (rfl)
  have e2 : ∀ (u : State) (b : Bool), (u.faultOverflow b).flt = u.flt := by
    intro u b; unfold State.faultOverflow; split <;> exact (rfl)
  have e3 : ∀ (u : State) (n : Nat) (r : FaultRec), (u.faultFirst n r).flt = u.flt := by
    intro u n r; unfold State.faultFirst; split <;> exact (rfl)
  have h : (s.faultWrite a b c w x y z).flt = (s.faultPush (s.faultRec a b c w x y z)).flt := by
    unfold State.faultWrite
    dsimp only
    rw [State.plinthEvent_flt, State.logRec_flt, State.raise_flt, e3, e2, e1]
  rw [h]
  unfold State.faultPush
  dsimp only
  rw [State.set_flt, State.set_flt]

theorem faultRec_words (s : State) (a b c : Nat) (w : Who) (x y z : Nat) :
    let r := s.faultRec a b c w x y z
    r.read = false ∧ wbits r.w0 35 35 = 1 ∧ wbits r.w0 34 33 = faultClass b
    ∧ wbits r.w0 31 24 = a % 256 ∧ wbits r.w0 23 16 = b % 256 ∧ wbits r.w0 15 0 = s.get F.FLT_RING_NEXTSEQ
    ∧ r.w1 = BitVec.ofNat 36 c ∧ wbits r.w2 35 28 = w.master ∧ wbits r.w2 27 24 = x % 16 ∧ wbits r.w2 23 16 = y % 256
    ∧ wbits r.w2 15 0 = z % 65536 := by
  have h1 := faultClass_lt b
  have h2 : s.get F.FLT_RING_NEXTSEQ < 65536 := State.get_lt s F.FLT_RING_NEXTSEQ 0 0 0
  have h3 := Who.master_lt w
  unfold State.faultRec
  dsimp only
  simp only [wbits_ofNat]
  refine ⟨trivial, ?_, ?_, ?_, ?_, ?_, trivial, ?_, ?_, ?_, ?_⟩ <;> omega

theorem faultWrite_recorded (s : State) (a b c : Nat) (w : Who) (x y z : Nat) : Recorded s (s.faultWrite a b c w x y z) a b c w x y z := by
  refine ⟨⟨_, faultWrite_flt s a b c w x y z, faultRec_words s a b c w x y z⟩, ?_, ?_⟩
  · rw [faultWrite_ring _ _ _ _ _ _ _ _ _ rfl]
    unfold State.faultPush
    dsimp only
    rw [State.get_set_same _ _ _ _ _ _ rfl]
    exact Nat.mod_eq_of_lt (Nat.mod_lt _ (by decide))
  · rw [faultWrite_ring _ _ _ _ _ _ _ _ _ rfl]
    unfold State.faultPush
    dsimp only
    rw [State.get_set_field _ F.FLT_RING_NEXTSEQ F.FLT_RING_COUNT _ _ _ _ rfl rfl (by decide), State.get_set_same _ _ _ _ _ _ rfl]
    exact Nat.mod_eq_of_lt (by simp only [F.FLT_RING_COUNT]; omega)

/-- A record of a state that holds the same ring and the same sequence number. -/
theorem Recorded.of_same {s u t : State} {a b c : Nat} {w : Who} {x y z : Nat} (h : Recorded u t a b c w x y z) (hr : u.flt.ring = s.flt.ring)
    (hs : u.get F.FLT_RING_NEXTSEQ = s.get F.FLT_RING_NEXTSEQ) : Recorded s t a b c w x y z := by
  obtain ⟨h1, h2, h3⟩ := h
  rw [hr, hs] at h1
  rw [hs] at h2
  rw [hr] at h3
  exact ⟨h1, h2, h3⟩

theorem faultWrite_rest (s : State) (a b c : Nat) (w : Who) (x y z : Nat) : let t := s.faultWrite a b c w x y z
    t = { s with regs := t.regs, flt := t.flt, host := t.host, outs := t.outs, pln := t.pln } := by
  apply State.ext' <;> simp

end Sys2Proof.Machine
end

