-- ==== Sys2Proof/Laws/Safe.lean ====
section
/-! SUPPORT. The safe state: what a fatal fault leaves (R521, R526, R527). -/
set_option linter.unusedVariables false
set_option linter.unusedSimpArgs false

namespace Sys2Proof.Machine

/-- SAFE is as before. -/
def SafeSame (s t : State) : Prop := t.get F.FLT_STATUS_SAFE = s.get F.FLT_STATUS_SAFE

namespace SafeSame

theorem refl (s : State) : SafeSame s s := rfl
theorem trans {s t u : State} (h : SafeSame s t) (k : SafeSame t u) : SafeSame s u := Eq.trans k h
theorem ite {s t u : State} {c : Prop} [Decidable c] (h : SafeSame s t) (k : SafeSame s u) : SafeSame s (if c then t else u) := by
  split <;> assumption
theorem foldl {α : Type} {f : State → α → State} {P : α → Prop} (hf : ∀ s a, P a → SafeSame s (f s a)) (l : List α) (s : State)
    (hl : ∀ a, a ∈ l → P a) : SafeSame s (l.foldl f s) := by
  induction l generalizing s with
  | nil => exact refl s
  | cons a l ih => exact (hf s a (hl a (List.mem_cons_self ..))).trans (ih (f s a) (fun b hb => hl b (List.mem_cons_of_mem _ hb)))
theorem of_regs {s t : State} (h : t.regs = s.regs) (hc : t.chip = s.chip) : SafeSame s t := get_same h hc _ _ _ _
/-- A register other than FLT_STATUS. -/
theorem wr {s : State} (id : RegId) (v : Word) (i j k : Nat) (h : Reg.offset ⟨id, i, j, k⟩ ≠ 0xE00000) : SafeSame s (s.wr id v i j k) :=
  State.get_wr_ne _ _ _ _ _ _ _ _ _ _ (fun hh => h hh.symm)
theorem set {s : State} (f : Fld) (v i j k : Nat) (h : Reg.offset ⟨f.id, i, j, k⟩ ≠ 0xE00000) : SafeSame s (s.set f v i j k) := wr _ _ _ _ _ h
theorem inc {s : State} (f : Fld) (v i j k : Nat) (h : Reg.offset ⟨f.id, i, j, k⟩ ≠ 0xE00000) : SafeSame s (s.inc f v i j k) := wr _ _ _ _ _ h

theorem raise {s : State} (c en : Fld) (m src i : Nat) (h : Reg.offset ⟨c.id, i, 0, 0⟩ ≠ 0xE00000) : SafeSame s (s.raise c en m src i) := by
  unfold SafeSame
  rw [State.raise_get]
  exact set _ _ _ _ _ h

theorem faultTally (s : State) (c : Nat) : SafeSame s (s.faultTally c) := by
  unfold State.faultTally
  split
  · exact (show SafeSame s (s.set F.FLT_STATUS_COR 1) from State.get_set_field s F.FLT_STATUS_COR F.FLT_STATUS_SAFE 1 0 0 0 rfl rfl (by decide)).trans
      (inc _ _ _ _ _ (by decide))
  · split
    · exact (show SafeSame s (s.set F.FLT_STATUS_UNC 1) from State.get_set_field s F.FLT_STATUS_UNC F.FLT_STATUS_SAFE 1 0 0 0 rfl rfl (by decide)).trans
        (inc _ _ _ _ _ (by decide))
    · exact (show SafeSame s (s.set F.FLT_STATUS_FAT 1) from State.get_set_field s F.FLT_STATUS_FAT F.FLT_STATUS_SAFE 1 0 0 0 rfl rfl (by decide)).trans
        (inc _ _ _ _ _ (by decide))

theorem faultFirst (s : State) (c : Nat) (r : FaultRec) (hc : c < 3) : SafeSame s (s.faultFirst c r) := by
  have h : ∀ i, i < 6 → Reg.offset ⟨.FLT_FIRST, c, i, 0⟩ ≠ 0xE00000 := by
    intro i hi; simp only [Reg.offset, RegId.desc]; omega
  unfold State.faultFirst
  apply ite
  · exact inc _ _ _ _ _ (h 5 (by omega))
  · exact ((((wr _ _ _ _ _ (h 0 (by omega))).trans (wr _ _ _ _ _ (h 1 (by omega)))).trans (wr _ _ _ _ _ (h 2 (by omega)))).trans
      (wr _ _ _ _ _ (h 3 (by omega)))).trans (wr _ _ _ _ _ (h 4 (by omega)))

theorem faultWrite (s : State) (a b c : Nat) (w : Who) (x y z : Nat) : SafeSame s (s.faultWrite a b c w x y z) := by
  unfold State.faultWrite
  dsimp only
  refine trans ?_ (of_regs (State.plinthEvent_regs _ _) (State.plinthEvent_chip _ _))
  refine trans ?_ (of_regs (State.logRec_regs _ _ _ _ _) (State.logRec_chip _ _ _ _ _))
  refine trans ?_ (raise _ _ _ _ _ (by decide))
  refine trans ?_ (faultFirst _ _ _ (faultClass_lt b))
  have h1 : SafeSame s (s.faultPush (s.faultRec a b c w x y z)) := by
    unfold State.faultPush
    refine trans (t := { s with flt := { s.flt with ring := (s.faultRec a b c w x y z :: s.flt.ring).take 256 } }) (of_regs rfl rfl) ?_
    exact (set _ _ _ _ _ (by decide)).trans (set _ _ _ _ _ (by decide))
  refine (h1.trans (faultTally _ (faultClass b))).trans ?_
  unfold State.faultOverflow
  exact ite (State.get_set_field _ F.FLT_STATUS_OVF F.FLT_STATUS_SAFE 1 0 0 0 rfl rfl (by decide)) (refl _)

theorem modPort (s : State) (p : Nat) (f : PAcc → PAcc) : SafeSame s (s.modPort p f) := of_regs rfl rfl
theorem emit (s : State) (o : Out) : SafeSame s (s.emit o) := of_regs rfl rfl
theorem count (s : State) (a b c n : Nat) : SafeSame s (s.count a b c n) := of_regs rfl rfl

theorem sendPause (s : State) (l : Nat) (b : Bool) (c : Nat) : SafeSame s (s.sendPause l b c) := by
  unfold State.sendPause
  exact ite (refl s) ((emit _ _).trans (count _ _ _ _ _))

theorem pausePort (s : State) (l : Nat) (hl : l < 40) : SafeSame s (s.pausePort l) := by
  unfold State.pausePort
  dsimp only
  apply ite (refl s)
  exact ((set _ _ _ _ _ (by simp only [Reg.offset, RegId.desc, F.UPL_FC_STATUS_TXPAUSED]; omega)).trans (modPort _ _ _)).trans (sendPause _ _ _ _)

theorem setBnd (s : State) (b : Nat) (x : Bond) : SafeSame s (s.setBnd b x) := by
  unfold State.setBnd
  split
  · exact of_regs rfl rfl
  · exact refl s

theorem stopBond (s : State) (b : Nat) : SafeSame s (s.stopBond b) := by
  unfold State.stopBond
  dsimp only
  split
  · exact refl s
  · exact trans (trans (setBnd _ _ _) (ite (refl _) (emit _ _))) (ite (refl _) (emit _ _))

theorem flow (s : State) : SafeSame s s.flow := by
  unfold State.flow
  refine (foldl (P := fun l => l < 40) (fun s l hl => pausePort s l hl) _ _ ?_).trans (foldl (P := fun _ => True) (fun s b _ => stopBond s b) _ _ (fun _ _ => trivial))
  intro a ha
  rw [range'_eq, List.mem_range'_1] at ha
  omega

theorem setInuse (s : State) (p n : Nat) : SafeSame s (s.setInuse p n) := by
  unfold State.setInuse
  dsimp only
  split
  · exact refl s
  · rename_i hp
    have h : SafeSame s ((s.set F.BUF_POOL_STATUS_INUSE n p).thresholds p) := by
      unfold State.thresholds
      exact (set _ _ _ _ _ (by simp only [Reg.offset, RegId.desc, F.BUF_POOL_STATUS_INUSE]; omega)).trans
        (set _ _ _ _ _ (by simp only [Reg.offset, RegId.desc, F.BUF_POOL_STATUS_STATE]; omega))
    exact ite h (h.trans (flow _))

theorem dropRef (s : State) (p i a : Nat) : SafeSame s (s.dropRef p i a) := by
  unfold State.dropRef
  dsimp only
  split
  · refine (((inc F.BUF_EVT_CNT_DFREE 1 0 0 0 (by decide)).trans (set F.BUF_STATUS_DFREE 1 0 0 0 (by decide))).trans (faultWrite _ 0x20 0x11 i .device 5 0 p)).trans ?_
    unfold State.dfreeCapture
    exact ite (refl _) (wr .BUF_DFREE _ 0 0 0 (by decide))
  · exact ite ((of_regs rfl rfl : SafeSame s (s.setBuf p i _)).trans (setInuse _ _ _)) (of_regs rfl rfl)

theorem fences (u : State) (c : Vector Engine 2) (p : Engine) (d : Dp) : SafeSame u { u with cmd := c, plinth := p, dp := d } := of_regs rfl rfl
theorem dp (u : State) (d : Dp) : SafeSame u { u with dp := d } := of_regs rfl rfl

theorem release (s : State) (h a : Nat) : SafeSame s (s.release h a) := by
  unfold State.release
  split
  · exact refl s
  · have h1 : ∀ x, SafeSame s ((s.setHdl h none).setInuse 4 x) := fun x => (of_regs rfl rfl : SafeSame s (s.setHdl h none)).trans (setInuse _ _ _)
    exact ((h1 _).trans (fences _ _ _ _)).trans (dropRef _ _ _ _)

theorem discardPackets (s : State) : SafeSame s s.discardPackets := by
  unfold State.discardPackets
  have h : SafeSame s (s.live.foldl (fun s (e : Nat × Hdl) => s.release e.1 0) s) :=
    foldl (f := fun s (e : Nat × Hdl) => s.release e.1 0) (P := fun _ => True) (fun s e _ => release s e.1 0) _ _ (fun _ _ => trivial)
  dsimp only
  generalize s.live.foldl (fun s (e : Nat × Hdl) => s.release e.1 0) s = u at h
  exact h.trans (dp _ _)

end SafeSame

theorem OnlyData.discardPackets (s : State) : OnlyData s s.discardPackets := by
  unfold State.discardPackets
  have h := OnlyData.foldl (fun s (e : Nat × Hdl) => OnlyData.release s e.1 0) s.live s
  dsimp only
  generalize s.live.foldl (fun s (e : Nat × Hdl) => s.release e.1 0) s = u at h
  exact h.trans (OnlyData.dp _ _)

theorem discardPackets_empty (s : State) :
    s.discardPackets.dp.swc = [] ∧ s.discardPackets.dp.ingress = [] ∧ ∀ q, (s.discardPackets.que q).items = [] := by
  unfold State.discardPackets
  dsimp only
  generalize s.live.foldl (fun s (e : Nat × Hdl) => s.release e.1 0) s = u
  refine ⟨rfl, rfl, fun q => ?_⟩
  unfold State.que
  dsimp only
  generalize u.dp.queues = l
  induction l with
  | nil => rfl
  | cons e l ih =>
    rw [List.map_cons]
    unfold sget
    split
    · rfl
    · exact ih

/-! Registers that a packet's end may change. -/

/-- The registers of the buffer manager, the fault collector and the flow-control status of the uplink ports. -/
def packetRegs (o : Nat) : Prop := o / 2 ^ 20 = 7 ∨ o / 2 ^ 20 = 14 ∨ ∃ l, l < 40 ∧ o = Reg.offset ⟨.UPL_FC_STATUS, l, 0, 0⟩

namespace PacketRegs

theorem wr {s : State} (id : RegId) (v : Word) (i j k : Nat) (h : Reg.offset ⟨id, i, j, k⟩ / 2 ^ 20 = 7) : RegsBut s (s.wr id v i j k) packetRegs :=
  RegsBut.wr _ _ _ _ _ (Or.inl h)
theorem set {s : State} (f : Fld) (v i j k : Nat) (h : Reg.offset ⟨f.id, i, j, k⟩ / 2 ^ 20 = 7) : RegsBut s (s.set f v i j k) packetRegs :=
  RegsBut.set _ _ _ _ _ (Or.inl h)
theorem inc {s : State} (f : Fld) (v i j k : Nat) (h : Reg.offset ⟨f.id, i, j, k⟩ / 2 ^ 20 = 7) : RegsBut s (s.inc f v i j k) packetRegs :=
  RegsBut.inc _ _ _ _ _ (Or.inl h)

theorem faultWrite (s : State) (a b c : Nat) (w : Who) (x y z : Nat) : RegsBut s (s.faultWrite a b c w x y z) packetRegs := by
  refine (RegsBut.faultWrite a b c w x y z).mono (fun o h => Or.inr (Or.inl ?_))
  rcases h with h | h | h | h | ⟨c, i, hc, hi, h⟩ <;> subst h <;> simp only [Reg.offset, RegId.desc] <;> omega

theorem foldl {α : Type} {f : State → α → State} {P : α → Prop} (hf : ∀ s a, P a → RegsBut s (f s a) packetRegs) (l : List α) (s : State)
    (hl : ∀ a, a ∈ l → P a) : RegsBut s (l.foldl f s) packetRegs := by
  induction l generalizing s with
  | nil => exact RegsBut.rfl
  | cons a l ih => exact (hf s a (hl a (List.mem_cons_self ..))).trans (ih (f s a) (fun b hb => hl b (List.mem_cons_of_mem _ hb)))

theorem sendPause (s : State) (l : Nat) (b : Bool) (c : Nat) : RegsBut s (s.sendPause l b c) packetRegs := by
  unfold State.sendPause
  exact RegsBut.ite RegsBut.rfl (RegsBut.of_regs rfl)

theorem pausePort (s : State) (l : Nat) (hl : l < 40) : RegsBut s (s.pausePort l) packetRegs := by
  unfold State.pausePort
  dsimp only
  apply RegsBut.ite RegsBut.rfl
  have h1 : ∀ w, RegsBut s (s.set F.UPL_FC_STATUS_TXPAUSED w l) packetRegs := fun w => RegsBut.set _ _ _ _ _ (Or.inr (Or.inr ⟨l, hl, rfl⟩))
  have h2 : ∀ (u : State) (g : PAcc → PAcc), RegsBut u (u.modPort l g) packetRegs := fun u g => RegsBut.of_regs rfl
  exact ((h1 _).trans (h2 _ _)).trans (sendPause _ _ _ _)

theorem setBnd (s : State) (b : Nat) (x : Bond) : RegsBut s (s.setBnd b x) packetRegs := by
  unfold State.setBnd
  split
  · exact RegsBut.of_regs rfl
  · exact RegsBut.rfl

theorem stopBond (s : State) (b : Nat) : RegsBut s (s.stopBond b) packetRegs := by
  have he : ∀ (u : State) o, RegsBut u (u.emit o) packetRegs := fun u o => RegsBut.of_regs rfl
  unfold State.stopBond
  dsimp only
  split
  · exact RegsBut.rfl
  · exact RegsBut.trans (RegsBut.trans (setBnd _ _ _) (RegsBut.ite RegsBut.rfl (he _ _))) (RegsBut.ite RegsBut.rfl (he _ _))

theorem flow (s : State) : RegsBut s s.flow packetRegs := by
  unfold State.flow
  refine (foldl (f := State.pausePort) (P := fun l => l < 40) (fun s l hl => pausePort s l hl) _ s ?_).trans
    (foldl (f := State.stopBond) (P := fun _ => True) (fun s b _ => stopBond s b) _ _ (fun _ _ => trivial))
  intro a ha
  rw [range'_eq, List.mem_range'_1] at ha
  omega

theorem setInuse (s : State) (p n : Nat) : RegsBut s (s.setInuse p n) packetRegs := by
  unfold State.setInuse
  dsimp only
  split
  · exact RegsBut.rfl
  · rename_i hp
    have h : RegsBut s ((s.set F.BUF_POOL_STATUS_INUSE n p).thresholds p) packetRegs := by
      unfold State.thresholds
      exact (set F.BUF_POOL_STATUS_INUSE _ p 0 0 (by simp only [Reg.offset, RegId.desc, F.BUF_POOL_STATUS_INUSE]; omega)).trans
        (set F.BUF_POOL_STATUS_STATE _ p 0 0 (by simp only [Reg.offset, RegId.desc, F.BUF_POOL_STATUS_STATE]; omega))
    exact RegsBut.ite h (h.trans (flow _))

theorem dropRef (s : State) (p i a : Nat) : RegsBut s (s.dropRef p i a) packetRegs := by
  have hb : ∀ b, RegsBut s (s.setBuf p i b) packetRegs := fun b => RegsBut.of_regs rfl
  unfold State.dropRef
  dsimp only
  split
  · refine (((inc F.BUF_EVT_CNT_DFREE 1 0 0 0 (by decide)).trans (set F.BUF_STATUS_DFREE 1 0 0 0 (by decide))).trans (faultWrite _ 0x20 0x11 i .device 5 0 p)).trans ?_
    unfold State.dfreeCapture
    exact RegsBut.ite RegsBut.rfl (wr .BUF_DFREE _ 0 0 0 (by decide))
  · exact RegsBut.ite ((hb _).trans (setInuse _ _ _)) (hb _)

theorem release (s : State) (h a : Nat) : RegsBut s (s.release h a) packetRegs := by
  unfold State.release
  split
  · exact RegsBut.rfl
  · have h0 : RegsBut s (s.setHdl h none) packetRegs := RegsBut.of_regs rfl
    have h1 : ∀ (u : State) (c : Vector Engine 2) (p : Engine) (d : Dp), RegsBut u { u with cmd := c, plinth := p, dp := d } packetRegs :=
      fun u c p d => RegsBut.of_regs rfl
    exact ((h0.trans (setInuse _ _ _)).trans (h1 _ _ _ _)).trans (dropRef _ _ _ _)

theorem discardPackets (s : State) : RegsBut s s.discardPackets packetRegs := by
  unfold State.discardPackets
  have h : RegsBut s (s.live.foldl (fun s (e : Nat × Hdl) => s.release e.1 0) s) packetRegs :=
    foldl (f := fun s (e : Nat × Hdl) => s.release e.1 0) (P := fun _ => True) (fun s e _ => release s e.1 0) _ _ (fun _ _ => trivial)
  dsimp only
  generalize s.live.foldl (fun s (e : Nat × Hdl) => s.release e.1 0) s = u at h
  exact h.trans (RegsBut.of_regs rfl)

end PacketRegs

/-- A field that a fold sets for each number of a list. -/
theorem foldl_set_mem (f : Fld) (l : List Nat) (s : State) (k : Nat) (hf : f.ok = true)
    (hne : ∀ a, a ∈ l → a ≠ k → Reg.offset ⟨f.id, k, 0, 0⟩ ≠ Reg.offset ⟨f.id, a, 0, 0⟩) :
    (k ∈ l ∨ s.get f k = 0) → (l.foldl (fun s r => s.set f 0 r) s).get f k = 0 := by
  induction l generalizing s with
  | nil => intro h; rcases h with h | h
           · cases h
           · exact h
  | cons a l ih =>
    intro h
    rw [List.foldl_cons]
    apply ih _ (fun b hb => hne b (List.mem_cons_of_mem _ hb))
    by_cases ha : a = k
    · right; subst ha; rw [State.get_set_same _ _ _ _ _ _ hf]; simp
    · rcases h with h | h
      · left
        rcases List.mem_cons.mp h with h | h
        · exact absurd h.symm ha
        · exact h
      · right; rw [State.get_set_reg _ _ _ _ _ _ _ _ _ _ (hne a (List.mem_cons_self ..) ha), h]

theorem ringsLasersOff_only (s : State) : OnlyData s s.ringsLasersOff := by
  unfold State.ringsLasersOff
  exact (OnlyData.foldl (f := fun s r => State.set s F.HCI_RING_STATUS_ENABLED 0 r) (fun s r => OnlyData.set _ _ _ _ _ _) _ s).trans
    (OnlyData.foldl (f := fun s r => State.set s F.PON_TREE_STATUS_TXON 0 r) (fun s r => OnlyData.set _ _ _ _ _ _) _ _)

theorem ringsLasersOff_dp (s : State) : s.ringsLasersOff.dp = s.dp := by
  unfold State.ringsLasersOff
  rw [foldl_fld (fun s t => State.set s F.PON_TREE_STATUS_TXON 0 t) State.dp (fun s a => State.set_dp ..),
    foldl_fld (fun s t => State.set s F.HCI_RING_STATUS_ENABLED 0 t) State.dp (fun s a => State.set_dp ..)]

theorem mem_range' {a n k : Nat} : a ∈ range' k n ↔ k ≤ a ∧ a < k + n := by rw [range'_eq, List.mem_range'_1]

theorem ringsLasersOff_safe (s : State) : SafeSame s s.ringsLasersOff := by
  unfold State.ringsLasersOff
  refine SafeSame.trans
    (SafeSame.foldl (f := fun s r => State.set s F.HCI_RING_STATUS_ENABLED 0 r) (P := fun l => l < 16) (fun s l hl => SafeSame.set _ _ _ _ _ ?_) _ s ?_)
    (SafeSame.foldl (f := fun s r => State.set s F.PON_TREE_STATUS_TXON 0 r) (P := fun l => l < 64) (fun s l hl => SafeSame.set _ _ _ _ _ ?_) _ _ ?_)
  · simp only [Reg.offset, RegId.desc, F.HCI_RING_STATUS_ENABLED]; omega
  · intro a ha; rw [mem_range'] at ha; omega
  · simp only [Reg.offset, RegId.desc, F.PON_TREE_STATUS_TXON]; omega
  · intro a ha; rw [mem_range'] at ha; omega

theorem ringsLasersOff_rings (s : State) (r : Fin 16) : s.ringsLasersOff.get F.HCI_RING_STATUS_ENABLED r = 0 := by
  have hr := r.isLt
  have : ∀ (l : List Nat) (v : State), (∀ a, a ∈ l → a < 64) →
      (l.foldl (fun s t => s.set F.PON_TREE_STATUS_TXON 0 t) v).get F.HCI_RING_STATUS_ENABLED r = v.get F.HCI_RING_STATUS_ENABLED r := by
    intro l
    induction l with
    | nil => intros; rfl
    | cons a l ih =>
      intro v hl
      rw [List.foldl_cons, ih _ (fun b hb => hl b (List.mem_cons_of_mem _ hb))]
      have := hl a (List.mem_cons_self ..)
      exact State.get_set_reg _ _ _ _ _ _ _ _ _ _ (by simp only [Reg.offset, RegId.desc, F.HCI_RING_STATUS_ENABLED, F.PON_TREE_STATUS_TXON]; omega)
  unfold State.ringsLasersOff
  rw [this _ _ (fun a ha => by rw [mem_range'] at ha; omega)]
  apply foldl_set_mem _ _ _ _ rfl
  · intro a ha hne; simp only [Reg.offset, RegId.desc, F.HCI_RING_STATUS_ENABLED]; omega
  · left; rw [mem_range']; omega

theorem ringsLasersOff_lasers (s : State) (r : Fin 64) : s.ringsLasersOff.get F.PON_TREE_STATUS_TXON r = 0 := by
  have hr := r.isLt
  unfold State.ringsLasersOff
  apply foldl_set_mem _ _ _ _ rfl
  · intro a ha hne; simp only [Reg.offset, RegId.desc, F.PON_TREE_STATUS_TXON]; omega
  · left; rw [mem_range']; omega

/-- The registers that entry to the safe state may change. -/
def safeRegs (o : Nat) : Prop := packetRegs o ∨ (∃ r, r < 16 ∧ o = Reg.offset ⟨.HCI_RING_STATUS, r, 0, 0⟩)
  ∨ ∃ t, t < 64 ∧ o = Reg.offset ⟨.PON_TREE_STATUS, t, 0, 0⟩

theorem ringsLasersOff_regs (s : State) : RegsBut s s.ringsLasersOff safeRegs := by
  have key : ∀ (f : Fld) (n : Nat) (hf : ∀ a, a < n → safeRegs (Reg.offset ⟨f.id, a, 0, 0⟩)) (l : List Nat) (s : State), (∀ a, a ∈ l → a < n) →
      RegsBut s (l.foldl (fun s r => s.set f 0 r) s) safeRegs := by
    intro f n hf l
    induction l with
    | nil => intro s _; exact RegsBut.rfl
    | cons a l ih =>
      intro s hl
      exact (RegsBut.set f 0 a 0 0 (hf a (hl a (List.mem_cons_self ..)))).trans (ih _ (fun b hb => hl b (List.mem_cons_of_mem _ hb)))
  unfold State.ringsLasersOff
  exact (key F.HCI_RING_STATUS_ENABLED 16 (fun a ha => Or.inr (Or.inl ⟨a, ha, rfl⟩)) _ _ (fun a ha => by rw [mem_range'] at ha; omega)).trans
    (key F.PON_TREE_STATUS_TXON 64 (fun a ha => Or.inr (Or.inr ⟨a, ha, rfl⟩)) _ _ (fun a ha => by rw [mem_range'] at ha; omega))

theorem setSafe_regs (s : State) : RegsBut s (s.set F.FLT_STATUS_SAFE 1) safeRegs :=
  RegsBut.set F.FLT_STATUS_SAFE 1 0 0 0 (Or.inl (Or.inr (Or.inl (by decide))))

theorem discardPackets_regs (s : State) : RegsBut s s.discardPackets safeRegs := (PacketRegs.discardPackets s).mono (fun o h => Or.inl h)

theorem stopWork_regs (u : State) : RegsBut u (u.stopWork.plinthEvent 6) safeRegs :=
  RegsBut.of_regs (by rw [State.plinthEvent_regs]; rfl)

theorem enterSafe_regs (s : State) : RegsBut s s.enterSafe safeRegs := by
  have h := (setSafe_regs s).trans ((discardPackets_regs _).trans ((ringsLasersOff_regs _).trans (stopWork_regs _)))
  unfold State.enterSafe
  exact h

theorem State.stopWork_get (s : State) (f : Fld) (i j k : Nat) : s.stopWork.get f i j k = s.get f i j k := (rfl)
theorem State.stopWork_dp (s : State) : s.stopWork.dp = s.dp := (rfl)
theorem State.stopWork_boot (s : State) : s.stopWork.boot = { s.boot with alive := false, faultLow := true } := (rfl)
theorem State.stopWork_cmd (s : State) (c : Fin 2) : s.stopWork.cmd.get c = (s.cmd.get c).stopSafe := by
  unfold State.stopWork; simp [Vector.get]
theorem State.stopWork_map (s : State) (m : Fin 64) : s.stopWork.map.get m = { s.map.get m with run := false, stall := .none } := by
  unfold State.stopWork; simp [Vector.get]
theorem State.stopWork_kept (s : State) : s.stopWork.pending = s.pending ∧ s.stopWork.chip = s.chip ∧ s.stopWork.tree = s.tree
    ∧ s.stopWork.tim = s.tim ∧ s.stopWork.clk = s.clk ∧ s.stopWork.slots = s.slots := ⟨rfl, rfl, rfl, rfl, rfl, rfl⟩

theorem enterSafe_enters (s : State) : EntersSafe s s.enterSafe := by
  have hd := ((OnlyData.set s F.FLT_STATUS_SAFE 1 0 0 0).trans (OnlyData.discardPackets (s.set F.FLT_STATUS_SAFE 1))).trans (ringsLasersOff_only _)
  have hsafe := Eq.trans (ringsLasersOff_safe _) (Eq.trans (SafeSame.discardPackets (s.set F.FLT_STATUS_SAFE 1)) (State.get_set_same _ F.FLT_STATUS_SAFE 1 0 0 0 rfl))
  have hp := discardPackets_empty (s.set F.FLT_STATUS_SAFE 1)
  have hdp := ringsLasersOff_dp (s.set F.FLT_STATUS_SAFE 1).discardPackets
  have hr := ringsLasersOff_rings (s.set F.FLT_STATUS_SAFE 1).discardPackets
  have hl := ringsLasersOff_lasers (s.set F.FLT_STATUS_SAFE 1).discardPackets
  unfold State.enterSafe
  unfold State.que at hp
  rw [← hdp] at hp
  generalize (s.set F.FLT_STATUS_SAFE 1).discardPackets.ringsLasersOff = u at *
  have hk := State.stopWork_kept u
  constructor
  · show State.flag _ _ = true
    rw [flag_get _ _ _ rfl, State.plinthEvent_get, State.stopWork_get, hsafe]; rfl
  · rw [State.plinthEvent_boot, State.stopWork_boot]
  · rw [State.plinthEvent_boot, State.stopWork_boot]
  · intro c f hf
    rw [State.plinthEvent_cmd, State.stopWork_cmd] at hf
    unfold Engine.stopSafe at hf
    simp only [Option.map_eq_some_iff] at hf
    obtain ⟨g, _, rfl⟩ := hf
    exact fun h => by cases h
  · intro m; rw [State.plinthEvent_map, State.stopWork_map]
  · intro r; rw [State.plinthEvent_get, State.stopWork_get]; exact hr r
  · intro r; rw [State.plinthEvent_get, State.stopWork_get]; exact hl r
  · unfold State.que
    rw [State.plinthEvent_dp, State.stopWork_dp]
    exact hp
  · rw [State.plinthEvent_pending, State.plinthEvent_chip, State.plinthEvent_tree, State.plinthEvent_tim, State.plinthEvent_clk, State.plinthEvent_slots,
      hk.1, hk.2.1, hk.2.2.1, hk.2.2.2.1, hk.2.2.2.2.1, hk.2.2.2.2.2]
    exact ⟨hd.pending, hd.chip, hd.tree, hd.tim, hd.clk, hd.slots⟩

theorem fatal_enters (s : State) (source cause addr : Nat) (who : Who) (access status detail : Nat) (h : s.safe = false) :
    EntersSafe s (s.fatal source cause addr who access status detail) := by
  unfold State.fatal
  dsimp only
  have h1 : (s.faultWrite source cause addr who access status detail).safe = false := by
    unfold State.safe at h ⊢
    rw [flag_get _ _ _ rfl] at h ⊢
    rw [show State.get _ F.FLT_STATUS_SAFE = s.get F.FLT_STATUS_SAFE from SafeSame.faultWrite s source cause addr who access status detail]
    exact h
  rw [if_neg (by rw [h1]; decide)]
  have e := enterSafe_enters (s.faultWrite source cause addr who access status detail)
  have k := e.kept
  have o := OnlyData.faultWrite s source cause addr who access status detail
  exact ⟨e.safe, e.alive, e.faultN, e.fragments, e.maps, e.rings, e.lasers, e.packets, k.1.trans o.pending, k.2.1.trans o.chip,
    k.2.2.1.trans o.tree, k.2.2.2.1.trans o.tim, k.2.2.2.2.1.trans o.clk, k.2.2.2.2.2.trans o.slots⟩

theorem fatal_regs (s : State) (source cause addr : Nat) (who : Who) (access status detail : Nat) :
    RegsBut s (s.fatal source cause addr who access status detail) safeRegs := by
  have h := (PacketRegs.faultWrite s source cause addr who access status detail).mono (Q := safeRegs) (fun o h => Or.inl h)
  unfold State.fatal
  exact RegsBut.ite h (h.trans (enterSafe_regs _))

theorem fatal_chip (s : State) (source cause addr : Nat) (who : Who) (access status detail : Nat) :
    (s.fatal source cause addr who access status detail).chip = s.chip := by
  unfold State.fatal
  dsimp only
  split
  · exact (OnlyData.faultWrite s source cause addr who access status detail).chip
  · exact ((enterSafe_enters (s.faultWrite source cause addr who access status detail)).kept.2.1).trans
      (OnlyData.faultWrite s source cause addr who access status detail).chip

theorem enterSafe_boot (s : State) : s.enterSafe.boot = { s.boot with alive := false, faultLow := true } := by
  have hd := ((OnlyData.set s F.FLT_STATUS_SAFE 1 0 0 0).trans (OnlyData.discardPackets (s.set F.FLT_STATUS_SAFE 1))).trans (ringsLasersOff_only _)
  unfold State.enterSafe
  rw [State.plinthEvent_boot, State.stopWork_boot, hd.boot]

theorem fatal_boot (s : State) (source cause addr : Nat) (who : Who) (access status detail : Nat) (h : s.safe = false) :
    (s.fatal source cause addr who access status detail).boot = { s.boot with alive := false, faultLow := true } := by
  have h1 : (s.faultWrite source cause addr who access status detail).safe = false := by
    unfold State.safe at h ⊢
    rw [flag_get _ _ _ rfl] at h ⊢
    rw [show State.get _ F.FLT_STATUS_SAFE = s.get F.FLT_STATUS_SAFE from SafeSame.faultWrite s source cause addr who access status detail]
    exact h
  unfold State.fatal
  dsimp only
  rw [if_neg (by rw [h1]; decide), enterSafe_boot, (OnlyData.faultWrite s source cause addr who access status detail).boot]

end Sys2Proof.Machine
end

