-- ==== Sys2Proof/Laws/Write.lean ====
section
/-! SUPPORT. Host writes that are done and host writes that are rejected. -/
namespace Sys2Proof.Machine

theorem State.logLimited_rest (s : State) (a : Nat) (p q : Word) : s.logLimited a p q = { s with regs := (s.logLimited a p q).regs, pln := (s.logLimited a p q).pln } := by
  apply State.ext' <;> simp

theorem State.reject_rest (s : State) (r : Rejection) : s.reject r = { s with regs := (s.reject r).regs, pln := (s.reject r).pln } := by
  apply State.ext' <;> simp

theorem State.rejectReg_rejected (s : State) (f : Fld) (st : Status) (i : Nat) (hf : f.ok = true) (hr : ¬ rejectRegs (Reg.offset ⟨f.id, i, 0, 0⟩))
    (hc : st.code < 2 ^ (f.hi + 1 - f.lo)) : Rejected s (s.rejectReg f st i) f i st := by
  unfold State.rejectReg
  have h := RegsBut.reject (s := s.set f st.code i) { reg := true, ring := none, status := st }
  have hx := State.reject_rest (s.set f st.code i) { reg := true, ring := none, status := st }
  refine ⟨?_, ?_, ?_⟩
  · rw [h.get (State.reject_chip _ _) _ _ _ _ hr, State.get_set_same _ _ _ _ _ _ hf]
    exact Nat.mod_eq_of_lt hc
  · exact hx
  · exact (RegsBut.set f st.code i 0 0 (Or.inl (Eq.refl _))).trans (h.mono (fun o ho => Or.inr ho))

/-- A host write that its block carries out. -/
theorem write_done {s t : State} {id : RegId} {i j : Nat} {v : Word} (h : WriteReaches s ⟨id, i, j, 0⟩ v)
    (hp : Reg.plain ⟨id, i, j, 0⟩ = true) (hb : s.blockWrite .host ⟨id, i, j, 0⟩ v = .done t) : s.writeOf id i j v = .next t := by
  rw [State.writeOf_reaches h hp, State.regWrite_done hb]

/-- A host write that its block rejects. -/
theorem write_rejected {s : State} {id : RegId} {i j : Nat} {v : Word} {st : Status} {f : Fld} {n : Nat} (h : WriteReaches s ⟨id, i, j, 0⟩ v)
    (hp : Reg.plain ⟨id, i, j, 0⟩ = true) (hb : s.blockWrite .host ⟨id, i, j, 0⟩ v = .reject st)
    (he : Reg.errField ⟨id, i, j, 0⟩ = (f, n)) (hf : f.ok = true) (hr : ¬ rejectRegs (Reg.offset ⟨f.id, n, 0, 0⟩))
    (hc : st.code < 2 ^ (f.hi + 1 - f.lo)) : ∃ t, s.writeOf id i j v = .next t ∧ Rejected s t f n st := by
  refine ⟨_, ?_, State.rejectReg_rejected s f st n hf hr hc⟩
  rw [State.writeOf_reaches h hp, State.regWrite_reject hb, he]

end Sys2Proof.Machine
end

