-- ==== Sys2Proof/Laws/Domain.lean ====
section
/-! SUPPORT. Domains: their states, the lanes that settle with them, and what the end of a wake leaves as it was. -/
namespace Sys2Proof.Machine

theorem sget_filter {α : Type} (d : α) (m : SMap α) (f : Nat → Bool) (k : Nat) :
    sget d (m.filter (fun e => f e.1)) k = if f k = true then sget d m k else d := by
  induction m with
  | nil => simp [sget]
  | cons p m ih =>
    obtain ⟨k', v⟩ := p
    rw [List.filter_cons]
    by_cases hf : f k' = true
    · rw [if_pos hf]
      simp only [sget]
      by_cases hk : k = k'
      · subst hk; rw [if_pos rfl, if_pos rfl, if_pos hf]
      · rw [if_neg hk, if_neg hk, ih]
    · rw [if_neg hf, ih]
      simp only [sget]
      by_cases hk : k = k'
      · subst hk; rw [if_neg hf, if_neg hf]
      · rw [if_neg hk]

theorem setDomain_domain (s : State) (n v m : Nat) (hn : n < 26) (hm : m < 26) (hv : v < 16) :
    (s.setDomain n v).domainState m = if m = n then v else s.domainState m := by
  unfold State.setDomain State.domainState
  by_cases h : n = 0
  · rw [if_pos h]
    by_cases hm0 : m = 0
    · rw [if_pos hm0, if_pos (by omega), State.get_set_same _ _ _ _ _ _ rfl]; exact Nat.mod_eq_of_lt hv
    · rw [if_neg hm0, if_neg (by omega), if_neg hm0, State.get_set_reg _ _ _ _ _ _ _ _ _ _ (by simp only [Reg.offset, RegId.desc, F.PWR_CORE_STATUS_STATE, F.QUOIN_STATUS_STATE]; omega)]
  · rw [if_neg h]
    by_cases hm0 : m = 0
    · rw [if_pos hm0, if_neg (by omega), if_pos hm0, State.get_set_reg _ _ _ _ _ _ _ _ _ _ (by simp only [Reg.offset, RegId.desc, F.PWR_CORE_STATUS_STATE, F.QUOIN_STATUS_STATE]; omega)]
    · rw [if_neg hm0]
      by_cases hmn : m = n
      · subst hmn; rw [if_pos rfl, State.get_set_same _ _ _ _ _ _ rfl]; exact Nat.mod_eq_of_lt hv
      · rw [if_neg hmn, if_neg hm0, State.get_set_reg _ _ _ _ _ _ _ _ _ _ (by simp only [Reg.offset, RegId.desc, F.QUOIN_STATUS_STATE]; omega)]

theorem setDomain_only (s : State) (n v : Nat) : s.setDomain n v = { s with regs := (s.setDomain n v).regs } := by
  unfold State.setDomain
  split <;> exact only_regs_set (Eq.refl s) _ _ _ _ _

/-- What the ends of a wake leave alone. -/
structure WakeKeeps (u v : State) : Prop where
  reg : ∀ (f : Fld) (i : Nat), (Reg.offset ⟨f.id, i, 0, 0⟩ / 2 ^ 20 = 13 ∨ f.id = .FLT_RING ∨ f.id = .FLT_STATUS) → v.get f i = u.get f i
  chip : v.chip = u.chip
  flt : v.flt = u.flt
  dp : v.dp = u.dp
  boot : v.boot = u.boot
  pending : v.pending = u.pending
  waker : v.host.waker = u.host.waker
  waiting : v.host.waiting = u.host.waiting
  pwr : v.pwr.rested = u.pwr.rested

theorem WakeKeeps.trans {u v w : State} (h : WakeKeeps u v) (k : WakeKeeps v w) : WakeKeeps u w :=
  ⟨fun f i hf => (k.reg f i hf).trans (h.reg f i hf), k.chip.trans h.chip, k.flt.trans h.flt, k.dp.trans h.dp, k.boot.trans h.boot, k.pending.trans h.pending,
    k.waker.trans h.waker, k.waiting.trans h.waiting, k.pwr.trans h.pwr⟩

theorem WakeKeeps.rfl' (u : State) : WakeKeeps u u := ⟨fun _ _ _ => rfl, rfl, rfl, rfl, rfl, rfl, rfl, rfl, rfl⟩

theorem WakeKeeps.foldl {α : Type} (f : State → α → State) (hf : ∀ s a, WakeKeeps s (f s a)) (l : List α) (s : State) : WakeKeeps s (l.foldl f s) := by
  induction l generalizing s with
  | nil => exact .rfl' _
  | cons a l ih => exact (hf s a).trans (ih _)

theorem off_fault {f : Fld} {i : Nat} (h : Reg.offset ⟨f.id, i, 0, 0⟩ / 2 ^ 20 = 13 ∨ f.id = .FLT_RING ∨ f.id = .FLT_STATUS) :
    0xD00000 ≤ Reg.offset ⟨f.id, i, 0, 0⟩ ∧ Reg.offset ⟨f.id, i, 0, 0⟩ ≠ Reg.offset ⟨.PLN_LOG_CTRL, 0, 0, 0⟩ := by
  rcases h with h | h | h
  · simp only [Reg.offset, RegId.desc] at h ⊢; omega
  · rw [h]; simp only [Reg.offset, RegId.desc]; omega
  · rw [h]; simp only [Reg.offset, RegId.desc]; omega

theorem WakeKeeps.of_regsBut {u v : State} (h : RegsBut u v (fun o => o < 0xD00000 ∨ o = Reg.offset ⟨.PLN_LOG_CTRL, 0, 0, 0⟩)) (hc : v.chip = u.chip) (h1 : v.flt = u.flt) (h2 : v.dp = u.dp) (h3 : v.boot = u.boot)
    (h4 : v.pending = u.pending) (h5 : v.host.waker = u.host.waker) (h6 : v.host.waiting = u.host.waiting) (h7 : v.pwr.rested = u.pwr.rested) : WakeKeeps u v :=
  ⟨fun f i hf => h.get hc f i 0 0 (by have := off_fault hf; omega), hc, h1, h2, h3, h4, h5, h6, h7⟩

theorem setEng_keeps (u : State) (e : Eng) (x : Engine) : WakeKeeps u (u.setEng e x) :=
  .of_regsBut (.of_regs (State.setEng_regs ..)) (State.setEng_chip ..) (State.setEng_flt ..) (State.setEng_dp ..) (State.setEng_boot ..) (State.setEng_pending ..)
    (by rw [State.setEng_host]) (by rw [State.setEng_host]) (by rw [State.setEng_pwr])

theorem set_keeps (u : State) (f : Fld) (v i : Nat) (h : Reg.offset ⟨f.id, i, 0, 0⟩ < 0xD00000) : WakeKeeps u (u.set f v i) :=
  .of_regsBut (.set f v i 0 0 (Or.inl h)) (State.set_chip ..) (State.set_flt ..) (State.set_dp ..) (State.set_boot ..) (State.set_pending ..)
    (by rw [State.set_host]) (by rw [State.set_host]) (by rw [State.set_pwr])

theorem laneSettle_keeps (u : State) (k : Nat) (hk : k < 148) : WakeKeeps u (u.laneSettle k) := by
  unfold State.laneSettle
  dsimp only
  split
  · exact .of_regsBut (.of_regs (rfl)) (rfl) (rfl) (rfl) (rfl) (rfl) (rfl) (rfl) (rfl)
  · exact ((set_keeps _ _ _ _ (by simp [Reg.offset, RegId.desc, F.SER_LANE_STATUS_STATE, F.SER_LANE_STATUS_RXREADY, F.SER_PRBS_CTRL_LOCK]; omega)).trans (set_keeps _ _ _ _ (by simp only [Reg.offset, RegId.desc, F.SER_LANE_STATUS_STATE, F.SER_LANE_STATUS_RXREADY, F.SER_PRBS_CTRL_LOCK]; omega))).trans (set_keeps _ _ _ _ (by simp only [Reg.offset, RegId.desc, F.SER_LANE_STATUS_STATE, F.SER_LANE_STATUS_RXREADY, F.SER_PRBS_CTRL_LOCK]; omega))

theorem lanesSettle_keeps (u : State) : WakeKeeps u u.lanesSettle := by
  unfold State.lanesSettle
  have : ∀ (l : List Nat), (∀ k, k ∈ l → k < 148) → ∀ u : State, WakeKeeps u (l.foldl State.laneSettle u) := by
    intro l
    induction l with
    | nil => intro _ u; exact .rfl' _
    | cons a l ih => intro h u; exact (laneSettle_keeps u a (h a (List.mem_cons_self ..))).trans (ih (fun k hk => h k (List.mem_cons_of_mem _ hk)) _)
  exact this _ (fun k hk => by rw [mem_range'] at hk; omega) u

theorem laneSettle_engs (u : State) (k : Nat) : (u.laneSettle k).cmd = u.cmd ∧ (u.laneSettle k).map = u.map ∧ (u.laneSettle k).plinth = u.plinth ∧ (u.laneSettle k).tree = u.tree := by
  unfold State.laneSettle
  dsimp only
  split
  · exact ⟨(rfl), (rfl), (rfl), (rfl)⟩
  · simp

theorem lanesSettle_engs (u : State) : u.lanesSettle.cmd = u.cmd ∧ u.lanesSettle.map = u.map ∧ u.lanesSettle.plinth = u.plinth ∧ u.lanesSettle.tree = u.tree :=
  ⟨foldl_fld _ State.cmd (fun s a => (laneSettle_engs s a).1) _ _, foldl_fld _ State.map (fun s a => (laneSettle_engs s a).2.1) _ _,
    foldl_fld _ State.plinth (fun s a => (laneSettle_engs s a).2.2.1) _ _, foldl_fld _ State.tree (fun s a => (laneSettle_engs s a).2.2.2) _ _⟩

theorem putSave_fields (s : State) (n l k : Nat) (ws : List Word) : s.putSave n l k ws = { s with regs := (s.putSave n l k ws).regs } := by
  induction ws generalizing s k with
  | nil => rfl
  | cons w ws ih => rw [State.putSave, ih]; exact (rfl)

theorem writeSave_keeps (s : State) (n l : Nat) (e : Eng) (a b c : Nat) (hn : n < 66) (hl : l < 2) : WakeKeeps s (s.writeSave n l e a b c) := by
  unfold State.writeSave
  have hr := RegsBut.putSave (s := s) n l 0 (s.saveImage e a b c) hn hl (by simp [State.saveImage])
  have hf := putSave_fields s n l 0 (s.saveImage e a b c)
  generalize s.putSave n l 0 (s.saveImage e a b c) = u at hr hf
  refine .of_regsBut ?_ ?_ ?_ ?_ ?_ ?_ ?_ ?_ ?_
  · exact (hr.trans (RegsBut.of_regs (t := { u with free := s.free + 15 }) (rfl))).mono (fun o h => Or.inl (by omega))
  all_goals (show _ = _; rw [hf])

theorem writeSave_eng (s : State) (n l : Nat) (e e' : Eng) (a b c : Nat) : (s.writeSave n l e a b c).eng e' = s.eng e' := by
  unfold State.writeSave
  have hf := putSave_fields s n l 0 (s.saveImage e a b c)
  generalize s.putSave n l 0 (s.saveImage e a b c) = u at hf
  have h1 : u.cmd = s.cmd := by rw [hf]
  have h2 : u.map = s.map := by rw [hf]
  have h3 : u.plinth = s.plinth := by rw [hf]
  cases e' with
  | cmd c => rw [State.eng_cmd, State.eng_cmd]; show u.cmd.get c = _; rw [h1]
  | map c => rw [State.eng_map, State.eng_map]; show u.map.get c = _; rw [h2]
  | plinth => rw [State.eng_plinth, State.eng_plinth]; show u.plinth = _; rw [h3]

def unPre (s : State) (e : Eng) : State := match e with | .cmd c => s.serviceTrap c 0xA | _ => s

theorem unstall_eq (q : Nat) (s : State) (e : Eng) : s.unstall q e = if (s.eng e).wakesOn q = true then (unPre s e).setEng e { (unPre s e).eng e with stall := .none } else s := by
  unfold State.unstall unPre
  cases e <;> rfl

theorem unPre_eng (s : State) (e e' : Eng) : (unPre s e).eng e' = s.eng e' := by
  unfold unPre
  cases e with
  | cmd c => exact writeSave_eng ..
  | map c => rfl
  | plinth => rfl

theorem unPre_keeps (s : State) (e : Eng) : WakeKeeps s (unPre s e) := by
  unfold unPre
  cases e with
  | cmd c => exact writeSave_keeps s _ 0 _ _ _ _ (by omega) (by decide)
  | map c => exact .rfl' _
  | plinth => exact .rfl' _

theorem unstall_keeps (q : Nat) (s : State) (e : Eng) : WakeKeeps s (s.unstall q e) := by
  rw [unstall_eq]
  split
  · exact (unPre_keeps s e).trans (setEng_keeps _ _ _)
  · exact .rfl' _

theorem setEng_eng (s : State) (e e' : Eng) (x : Engine) : (s.setEng e x).eng e' = if e' = e then x else s.eng e' := by
  by_cases h : e' = e
  · subst h; rw [if_pos rfl, State.eng_setEng]
  · rw [if_neg h, State.eng_setEng_ne _ _ _ _ h]

theorem unstall_eng (q : Nat) (s : State) (e e' : Eng) : (s.unstall q e).eng e' = if e' = e ∧ (s.eng e).wakesOn q = true then { s.eng e with stall := .none } else s.eng e' := by
  rw [unstall_eq]
  by_cases h : (s.eng e).wakesOn q = true
  · rw [if_pos h, setEng_eng, unPre_eng, unPre_eng]
    by_cases he : e' = e
    · rw [if_pos he, if_pos ⟨he, h⟩]
    · rw [if_neg he, if_neg (fun hh => he hh.1)]
  · rw [if_neg h, if_neg (fun hh => h hh.2)]

theorem wakesOn_iff (en : Engine) (q : Nat) : en.wakesOn q = true ↔ ∃ qs, en.stall = .wake qs ∧ q ∈ qs := by
  unfold Engine.wakesOn
  cases en.stall <;> simp

theorem mem_allEngines (e : Eng) : e ∈ allEngines := by
  unfold allEngines
  cases e with
  | map t =>
    refine List.mem_append_left _ (List.mem_map.mpr ⟨t.val, mem_range'.mpr ⟨by omega, by omega⟩, ?_⟩)
    congr 1; apply Fin.ext; simp [Fin.ofNat]
  | cmd c =>
    refine List.mem_append_right _ ?_
    match c with
    | 0 => simp
    | 1 => simp
  | plinth => exact List.mem_append_right _ (by simp)

/-- A fold over engines that ends the waits of each leaves none waiting. -/
theorem fold_waits (q : Nat) (f : State → Eng → State) (P : State → Eng → Prop) (hk : ∀ s e e', P s e' → P (f s e) e')
    (hsame : ∀ s e e', P s e' → ((f s e).eng e').wakesOn q = true → (s.eng e').wakesOn q = true) (hdone : ∀ s e, P s e → ((f s e).eng e).wakesOn q = false)
    (l : List Eng) (s : State) (e : Eng) (hp : P s e) (he : e ∈ l ∨ (s.eng e).wakesOn q = false) : ((l.foldl f s).eng e).wakesOn q = false := by
  induction l generalizing s with
  | nil => rcases he with h | h; exact absurd h (List.not_mem_nil); exact h
  | cons a l ih =>
    refine ih _ (hk _ _ _ hp) ?_
    by_cases hae : e = a
    · subst hae; exact .inr (hdone _ _ hp)
    · rcases he with h | h
      · rcases List.mem_cons.mp h with h | h
        · exact absurd h hae
        · exact .inl h
      · refine .inr ?_
        by_contra hc
        rw [Bool.not_eq_false] at hc
        rw [hsame s a e hp hc] at h
        cases h

theorem unstall_all (q : Nat) (s : State) (e : Eng) : ((allEngines.foldl (State.unstall q) s).eng e).wakesOn q = false := by
  refine fold_waits q (State.unstall q) (fun _ _ => True) (fun _ _ _ h => h) ?_ ?_ _ s e trivial (.inl (mem_allEngines e))
  · intro s a e' _ h
    rw [unstall_eng] at h
    split at h
    · simp [Engine.wakesOn] at h
    · exact h
  · intro s a _
    rw [unstall_eng]
    split
    · simp [Engine.wakesOn]
    · next h => by_contra hc; exact h ⟨rfl, by simpa using hc⟩

theorem drain_keeps (s : State) (h : s.host.waiting = []) : s.drain = { s with host := { s.host with waiting := [] } } := by
  unfold State.drain; rw [h]; rfl

theorem drain_wk (s : State) (h : s.host.waiting = []) : WakeKeeps s s.drain ∧ (∀ e, s.drain.eng e = s.eng e) ∧ s.drain.tree = s.tree := by
  rw [drain_keeps s h]
  refine ⟨.of_regsBut (.of_regs (rfl)) (rfl) (rfl) (rfl) (rfl) (rfl) (rfl) h.symm (rfl), ?_, (rfl)⟩
  intro e
  cases e with
  | cmd c => rw [State.eng_cmd, State.eng_cmd]
  | map c => rw [State.eng_map, State.eng_map]
  | plinth => rw [State.eng_plinth, State.eng_plinth]

theorem unPre_tree (s : State) (e : Eng) : (unPre s e).tree = s.tree := by
  unfold unPre
  cases e with
  | cmd c => exact State.writeSave_tree ..
  | map c => rfl
  | plinth => rfl

theorem unstall_tree (q : Nat) (s : State) (e : Eng) : (s.unstall q e).tree = s.tree := by
  rw [unstall_eq]
  split
  · rw [State.setEng_tree, unPre_tree]
  · rfl

def reProt (u : State) (t : Nat) : State := if u.flag F.PON_PROT_CTRL_EN t then u.set F.PON_PROT_STATUS_STATE (if u.slotValid t then ppARMED else ppOFF) t else u

theorem reProt_keeps (u : State) (t : Nat) (ht : t < 64) : WakeKeeps u (reProt u t) ∧ (reProt u t).tree = u.tree := by
  unfold reProt
  generalize (if u.slotValid t then ppARMED else ppOFF) = v
  by_cases h : u.flag F.PON_PROT_CTRL_EN t = true
  · rw [if_pos h]; exact ⟨set_keeps _ _ _ _ (by simp only [Reg.offset, RegId.desc, F.PON_PROT_STATUS_STATE]; omega), State.set_tree ..⟩
  · rw [if_neg h]; exact ⟨.rfl' _, rfl⟩

theorem restoredTree_keeps (s : State) (t : Nat) (ht : t < 64) : WakeKeeps s (s.restoredTree t) ∧ (s.restoredTree t).tree = s.tree := by
  have h1 := set_keeps s F.PON_RNG_LIMIT_EQDLIM (eqdLimit (s.get F.PON_US_CTRL_ORIGIN t)) t (by simp only [Reg.offset, RegId.desc, F.PON_RNG_LIMIT_EQDLIM]; omega)
  have h2 : (s.set F.PON_RNG_LIMIT_EQDLIM (eqdLimit (s.get F.PON_US_CTRL_ORIGIN t)) t).tree = s.tree := State.set_tree ..
  have e : s.restoredTree t = reProt (s.set F.PON_RNG_LIMIT_EQDLIM (eqdLimit (s.get F.PON_US_CTRL_ORIGIN t)) t) t := (rfl)
  rw [e]
  generalize s.set F.PON_RNG_LIMIT_EQDLIM (eqdLimit (s.get F.PON_US_CTRL_ORIGIN t)) t = u at h1 h2
  exact ⟨h1.trans (reProt_keeps u t ht).1, (reProt_keeps u t ht).2.trans h2⟩

theorem WakeKeeps.of_eq {u v : State} (h : RegsBut u v (fun o => o < 0xD00000 ∨ o = Reg.offset ⟨.PLN_LOG_CTRL, 0, 0, 0⟩)) (hc : v.chip = u.chip) (h1 : v.flt = u.flt) (h2 : v.dp = u.dp) (h3 : v.boot = u.boot)
    (h4 : v.pending = u.pending) (h5 : v.host = u.host) (h7 : v.pwr = u.pwr) : WakeKeeps u v :=
  .of_regsBut h hc h1 h2 h3 h4 (by rw [h5]) (by rw [h5]) (by rw [h7])

theorem saveTrap_keeps (s : State) (e : Eng) (a b c : Nat) : WakeKeeps s (s.saveTrap e a b c) :=
  .of_eq ((RegsBut.saveTrap e a b c).mono (fun o h => Or.inl (by omega))) (by simp) (by simp) (by simp) (by simp) (by simp) (by simp) (by simp)

theorem reject_keeps (s : State) (r : Rejection) : WakeKeeps s (s.reject r) :=
  .of_eq ((RegsBut.reject r).mono (fun o h => by
    rcases h with ⟨n, hn, h⟩ | h | h
    · simp only [Reg.offset, RegId.desc] at h ⊢; omega
    · simp only [Reg.offset, RegId.desc] at h ⊢; omega
    · exact .inr h)) (by simp) (by simp) (by simp) (by simp) (by simp) (by simp) (by simp)

theorem post_waker (s : State) (o : Out) : (s.post o).host.waker = s.host.waker ∧ (s.post o).host.waiting = s.host.waiting := by
  unfold State.post
  split
  · exact ⟨rfl, rfl⟩
  · exact ⟨rfl, rfl⟩

theorem signal_waker (s : State) (k : Nat) : (s.signal k).host.waker = s.host.waker ∧ (s.signal k).host.waiting = s.host.waiting := by
  unfold State.signal State.signalVector
  split
  · split
    · exact ⟨rfl, rfl⟩
    · exact post_waker ..
  · exact ⟨rfl, rfl⟩

theorem raise_waker (s : State) (c en : Fld) (m src i : Nat) : (s.raise c en m src i).host.waker = s.host.waker ∧ (s.raise c en m src i).host.waiting = s.host.waiting := by
  unfold State.raise
  dsimp only
  split
  · rw [State.orBits_host]; exact ⟨rfl, rfl⟩
  · obtain ⟨a, b⟩ := signal_waker (s.orBits c m i) src
    rw [State.orBits_host] at a b
    exact ⟨a, b⟩

theorem raise_keeps (s : State) (c en : Fld) (m src i : Nat) (h : Reg.offset ⟨c.id, i, 0, 0⟩ < 0xD00000) : WakeKeeps s (s.raise c en m src i) :=
  .of_regsBut (.raise c en m src i (Or.inl h)) (by simp) (by simp) (by simp) (by simp) (by simp) (raise_waker ..).1 (raise_waker ..).2 (by rw [State.raise_pwr])

theorem dropMap_keeps (s : State) (t : Fin 64) : WakeKeeps s (s.dropMap t) :=
  .of_eq (.of_regs (by simp)) (by simp) (by simp) (by simp) (by simp) (by simp) (by simp) (by simp)

theorem mapTrap_keeps (s : State) (t : Fin 64) (v st : Nat) (hv : v ≠ 4) : WakeKeeps s (s.mapTrap t v st) := by
  unfold State.mapTrap
  rw [if_neg hv]
  refine WakeKeeps.trans (WakeKeeps.trans (WakeKeeps.trans (WakeKeeps.trans (set_keeps _ _ _ _ ?_) (set_keeps _ _ _ _ ?_)) (set_keeps _ _ _ _ ?_)) (set_keeps _ _ _ _ ?_)) (raise_keeps _ _ _ _ _ _ ?_)
  all_goals (simp only [Reg.offset, RegId.desc, F.MAP_ENG_STATUS_LASTSTAT, F.MAP_ENG_STATUS_LASTVEC, F.MAP_ENG_STATUS_FLT, F.MAP_EVT_CNT_FAULTS]; omega)

theorem failInstr_keeps (s : State) (e : Eng) (idx op : Nat) (st : Status) : WakeKeeps s (s.failInstr e idx op st) := by
  have h := saveTrap_keeps s e 5 st.code idx
  unfold State.failInstr
  generalize s.saveTrap e 5 st.code idx = u at h
  cases e with
  | map t => exact h.trans ((mapTrap_keeps u t 5 st.code (by decide)).trans (dropMap_keeps _ _))
  | plinth => exact h.trans (setEng_keeps _ _ _)
  | cmd c =>
    dsimp only
    split
    · exact h
    · refine h.trans (WakeKeeps.trans (WakeKeeps.trans (setEng_keeps _ _ _) (set_keeps _ _ _ _ ?_)) (reject_keeps _ _))
      simp only [Reg.offset, RegId.desc, F.CMD_ENG_STATUS_LASTVEC]; omega

theorem endWait_keeps (q : Nat) (s : State) (e : Eng) : WakeKeeps s (s.endWait q e) := by
  unfold State.endWait
  dsimp only
  split
  · exact failInstr_keeps ..
  · exact .rfl' _

theorem WakeKeeps.dom {u v : State} (h : WakeKeeps u v) (n : Nat) (hn : n < 26) : v.domainState n = u.domainState n
    ∧ (if n = 0 then v.get F.PWR_CORE_STATUS_WAKESTAT else v.get F.QUOIN_STATUS_WAKESTAT (n - 1)) = (if n = 0 then u.get F.PWR_CORE_STATUS_WAKESTAT else u.get F.QUOIN_STATUS_WAKESTAT (n - 1))
    ∧ (if n = 0 then v.get F.PWR_CORE_STATUS_FAILCAUSE else v.get F.QUOIN_STATUS_FAILCAUSE (n - 1)) = (if n = 0 then u.get F.PWR_CORE_STATUS_FAILCAUSE else u.get F.QUOIN_STATUS_FAILCAUSE (n - 1)) := by
  have hq : ∀ f : Fld, f.id = .QUOIN_STATUS → v.get f (n - 1) = u.get f (n - 1) := by
    intro f hf; exact h.reg f (n - 1) (.inl (by rw [hf]; simp only [Reg.offset, RegId.desc]; omega))
  have hc : ∀ f : Fld, f.id = .PWR_CORE_STATUS → v.get f = u.get f := by
    intro f hf; exact h.reg f 0 (.inl (by rw [hf]; decide))
  unfold State.domainState
  rw [hq _ rfl, hq _ rfl, hq _ rfl, hc _ rfl, hc _ rfl, hc _ rfl]
  exact ⟨rfl, rfl, rfl⟩

theorem lanesSettle_domain (s : State) (m : Nat) (hm : m < 26) : s.lanesSettle.domainState m = s.domainState m :=
  ((lanesSettle_keeps s).dom m hm).1

end Sys2Proof.Machine
end

