-- ==== Sys2Proof/WellFormed.lean ====
section
/-! DEFINITION. Which commands are well formed: the shapes of what the outside hands over. Every command of a well-formed
shape is carried out or rejected by its meaning; a shape that is not well formed never occurs at the block. -/
namespace Sys2Proof

/-- A port a packet arrives at: an uplink lane, a tree or a bond bundle (R351). -/
def portOk (p : Nat) : Bool := decide (p < 40) || (decide (64 ≤ p) && decide (p < 132))

/-- A write of 1 to 8 bytes that lies in BAR0 (R16, R17). -/
def accessOk (off size : Nat) : Bool := decide (1 ≤ size) && decide (size ≤ 8) && decide (off + size ≤ 2 ^ 24)

/-- The shape of a command. A descriptor has four 64-bit slots and a fragment at most 4,095 words (R137, R138); a sensor update
names the 64 sensors and a monitor update the 24 monitors (R96, R531); the plinth's engine holds no patch RAM to scrub (R208);
a PLOAM message has 48 bytes (R280); a PFC frame carries eight quanta (R484); a CREDIT message counts one pool or eight (R496);
there are four I2C buses (R87); an access has 1 to 8 bytes (R17). -/
def Instr.wellFormed (i : Instr) : Bool :=
  match i with
  | .add _ _ _ _ => true
  | .adc _ _ _ _ => true
  | .sub _ _ _ _ => true
  | .sbc _ _ _ _ => true
  | .and_ _ _ _ _ => true
  | .or_ _ _ _ _ => true
  | .xor _ _ _ _ => true
  | .andn _ _ _ _ => true
  | .shl _ _ _ _ => true
  | .shr _ _ _ _ => true
  | .sar _ _ _ _ => true
  | .ror _ _ _ _ => true
  | .mul _ _ _ _ => true
  | .mulhu _ _ _ _ => true
  | .minu _ _ _ _ => true
  | .maxu _ _ _ _ => true
  | .cmp _ _ _ _ => true
  | .tst _ _ _ _ => true
  | .clz _ _ _ _ => true
  | .popc _ _ _ _ => true
  | .divu _ _ _ _ => true
  | .remu _ _ _ _ => true
  | .addi _ _ _ _ => true
  | .cmpi _ _ _ _ => true
  | .andi _ _ _ _ => true
  | .ori _ _ _ _ => true
  | .xori _ _ _ _ => true
  | .shi _ _ _ _ => true
  | .lil _ _ _ => true
  | .lih _ _ _ => true
  | .bfx _ _ _ _ => true
  | .bfi _ _ _ _ => true
  | .ld _ _ _ _ => true
  | .st _ _ _ _ => true
  | .rst _ _ _ _ => true
  | .mfsr _ _ _ _ => true
  | .mtsr _ _ _ _ => true
  | .sel _ _ => true
  | .br _ _ _ => true
  | .jal _ _ _ => true
  | .jalr _ _ _ _ => true
  | .end_ _ _ => true
  | .wait _ _ _ _ => true
  | .waitDone _ => true
  | .trap _ _ _ _ => true
  | .dbnz _ _ _ _ => true
  | .grant _ _ => true
  | .rpt _ _ => true
  | .ard _ _ => true
  | .trd _ _ => true
  | .quiet _ _ => true
  | .rssi _ _ => true
  | .twrite _ _ => true
  | .tread _ _ => true
  | .tinsert _ _ => true
  | .tdelete _ _ => true
  | .tlookup _ _ => true
  | .tableOpFinish _ _ => true
  | .tbank _ _ => true
  | .bankDrainEnd => true
  | .fence _ _ => true
  | .fenceDone _ => true
  | .tgen _ _ => true
  | .qset _ _ => true
  | .qread _ _ => true
  | .cset _ _ => true
  | .clink _ _ => true
  | .cdel _ _ => true
  | .mset _ _ => true
  | .mread _ _ => true
  | .cntrd _ _ => true
  | .tcmp _ _ => true
  | .tget _ _ => true
  | .ttrig _ _ => true
  | .ttrigCancel _ _ => true
  | .tcap _ _ => true
  | .rdreg _ _ _ _ => true
  | .wrreg _ _ _ _ => true
  | .patch _ _ _ _ _ => true
  | .gpload _ _ _ _ _ => true
  | .fbmap _ _ _ _ _ => true
  | .engctlHalt _ _ _ _ => true
  | .engctlHaltDone _ => true
  | .engctlStart _ _ _ _ => true
  | .unitEnable _ _ _ _ => true
  | .unitDisable _ _ _ _ => true
  | .pcsel _ _ _ _ => true
  | .pcrd _ _ _ _ => true
  | .tmact _ _ _ _ => true
  | .tmdeact _ _ _ _ => true
  | .tmeqd _ _ _ _ => true
  | .plsend _ _ _ _ => true
  | .plrecv _ _ _ _ => true
  | .kload _ _ _ _ => true
  | .kclr _ _ _ _ => true
  | .cval _ _ _ _ => true
  | .sense _ _ _ _ => true
  | .logw _ _ _ _ => true
  | .flash _ _ _ _ _ => true
  | .updateCheck _ _ _ _ => true
  | .updateStage _ _ _ _ => true
  | .updateConfirm _ _ _ _ => true
  | .updateRevoke _ _ _ _ => true
  | .deadline _ => true
  | .tick _ => true
  | .patchScrub e _ => decide (e ≠ .plinth)
  | .doorbell _ _ => true
  | .ringEnable _ _ => true
  | .ringDisable _ _ => true
  | .descriptorFetch _ desc frag => decide (desc.length = 4) && decide (frag.length ≤ 4095)
  | .fragmentCompletion _ => true
  | .fragmentTimeout _ => true
  | .hostMemoryError _ desc _ => decide (desc.length = 0 ∨ desc.length = 4)
  | .ringInterrupt _ => true
  | .negotiate _ => true
  | .busMasterDisable _ => true
  | .busMasterEnable => true
  | .pciePerstN => true
  | .functionLevelReset => true
  | .registerWrite off size _ => accessOk off size
  | .powerOn => true
  | .resetNAssert _ => true
  | .resetNRelease _ _ => true
  | .porDone => true
  | .softReset _ => true
  | .phaseFuses _ => true
  | .phaseClocks _ => true
  | .phaseSram _ => true
  | .phaseStackmem _ => true
  | .phaseFirmware _ => true
  | .bootImageTimeout => true
  | .phasePatch _ _ => true
  | .supplyLost _ => true
  | .aonBrownout => true
  | .wakeComplete _ => true
  | .wakeFail _ _ => true
  | .stageStall _ => true
  | .sensorUpdate temps => decide (temps.length = 64)
  | .throttleStep => true
  | .vmonUpdate mvs => decide (mvs.length = 24)
  | .safeReqN _ => true
  | .safekey _ => true
  | .fltRecSel _ => true
  | .watchdogExpiry => true
  | .kick _ => true
  | .plinthTick => true
  | .logMirror _ => true
  | .hreq _ => true
  | .ack _ => true
  | .info => true
  | .logread => true
  | .sensors => true
  | .logwrite => true
  | .imgwrite => true
  | .imgdone => true
  | .confirm => true
  | .reset => true
  | .mirror _ => true
  | .wake => true
  | .mgmtFrame _ => true
  | .bmcPowerRestored => true
  | .bmcWakeRequest => true
  | .bmcReset => true
  | .frameBoundary => true
  | .vddStep => true
  | .ltStep => true
  | .pwrGovEn _ => true
  | .watts _ => true
  | .doze _ => true
  | .rest _ => true
  | .deep _ => true
  | .deepSave => true
  | .deepWake => true
  | .burstRst _ => true
  | .rssiTrig _ => true
  | .burstReceived _ b => b.ploams.all (fun m => decide (m.length = 48))
  | .driftHoldoffEnd _ _ => true
  | .burstMissing _ => true
  | .sdChange _ _ => true
  | .cont _ => true
  | .los _ => true
  | .alignCheck _ _ _ _ => true
  | .ponDsCtrl _ _ => true
  | .ponBondCtrl _ _ => true
  | .ponPmCtrl _ _ => true
  | .ponPmSel _ _ => true
  | .pmSecond => true
  | .protEn _ _ => true
  | .switch _ _ => true
  | .portExchange _ => true
  | .protLaneTimeout _ => true
  | .rwaitExpiry _ _ => true
  | .done _ _ => true
  | .packetArrival p => portOk p.port
  | .learnRequest => true
  | .freezeHoldEnd _ => true
  | .ageTick => true
  | .fwdFlush _ => true
  | .fwdFlushDone => true
  | .reseqRelease _ _ => true
  | .selection _ => true
  | .handleRelease _ => true
  | .bufThr _ _ _ => true
  | .bufFlush _ => true
  | .portFlushDone => true
  | .auditGo _ => true
  | .auditPeriod => true
  | .auditVisit _ _ => true
  | .clsExqCtrl _ _ => true
  | .clsExqHead _ _ => true
  | .commit _ _ => true
  | .cancel _ _ => true
  | .gateDisable _ _ => true
  | .gateListStart _ => true
  | .gateEntry _ => true
  | .queueSample _ => true
  | .cipNonceEpoch _ => true
  | .measurement _ _ => true
  | .dhold _ => true
  | .wtrExpiry => true
  | .requal _ _ => true
  | .step _ => true
  | .timeSnap _ => true
  | .sfdone => true
  | .freqSourceLoss => true
  | .freqSourceReturn => true
  | .ppsOut _ => true
  | .todTx _ _ => true
  | .todRx _ _ _ => true
  | .triggerFire _ => true
  | .capture _ _ => true
  | .timeCapData _ => true
  | .pcFrzArm _ => true
  | .pcFreeze => true
  | .resume _ => true
  | .telEn _ => true
  | .telRd _ => true
  | .inj1 _ _ => true
  | .clr _ _ => true
  | .serPrbsCtrl _ _ => true
  | .prbsLockLoss _ => true
  | .laneExitDone _ => true
  | .uplPortCtrl _ _ => true
  | .linkUp _ => true
  | .linkDown _ _ => true
  | .trainingRestart _ => true
  | .uplFcCtrl _ _ => true
  | .pauseRefresh _ => true
  | .pause _ _ => true
  | .pfc _ _ quanta => decide (quanta.length = 8)
  | .pauseExpiry _ _ => true
  | .uplFrerCtrl _ _ => true
  | .frerReset _ _ => true
  | .bondTrainDone _ => true
  | .caps _ _ => true
  | .bondRetrain _ => true
  | .flitError _ => true
  | .nak _ _ => true
  | .credit _ m => decide (m.counts.length = 1 ∨ m.counts.length = 8)
  | .stop _ _ => true
  | .go _ _ => true
  | .down _ => true
  | .time _ _ => true
  | .timeExchange _ => true
  | .rmt _ _ => true
  | .sysRmtGo _ => true
  | .remoteTimeout => true
  | .sysId _ => true
  | .registerRead _ size => decide (1 ≤ size ∧ size ≤ 8)
  | .pciePerstNRelease => true
  | .prbsLock _ => true
  | .forwardedClockLoss _ => true
  | .flitAlignmentLoss _ _ => true
  | .linkTrainingFailed _ _ => true
  | .frequencyLoopLock => true
  | .rclkOutResume => true
  | .consoleRx _ _ => true
  | .i2cTimeout bus => decide (bus < 4)
  | .aliveToggle => true
  | .perfCounterWrap _ => true
  | .vddCoreSettled => true
  | .receiverAdapted _ => true

end Sys2Proof
end

