-- ==== Sys2Proof/Tests/Slice0.lean ====
section
/-! SUPPORT. Small tests of the model: what is well formed, words written out from the spec's encodings, and witnesses of the
statements' hypotheses. -/
namespace Sys2Proof.Tests
open Sys2Proof Sys2Proof.Machine

/-! Ill-formed commands are refused. -/

theorem test_wf_descriptor : (Instr.descriptorFetch 0 [1, 2, 3] []).wellFormed = false := by decide
theorem test_wf_memory_error : (Instr.hostMemoryError 0 [1] .timeout).wellFormed = false := by decide
theorem test_wf_sensors : (Instr.sensorUpdate [none]).wellFormed = false := by decide
theorem test_wf_monitors : (Instr.vmonUpdate []).wellFormed = false := by decide
theorem test_wf_scrub : (Instr.patchScrub .plinth true).wellFormed = false := by decide
theorem test_wf_ploam : (Instr.burstReceived 0 { offset := 0, headerOk := true, onuId := 0, serial := 0, ploams := [[0]], reports := [], corrected := 0, uncorrectable := 0, trailerOk := true, frames := [] }).wellFormed = false := by decide
theorem test_wf_port : (Instr.packetArrival ⟨40, 0, 0, [], false⟩).wellFormed = false := by decide
theorem test_wf_pfc : (Instr.pfc 0 0 [0]).wellFormed = false := by decide
theorem test_wf_credit : (Instr.credit 0 ⟨[]⟩).wellFormed = false := by decide
theorem test_wf_bus : (Instr.i2cTimeout 4).wellFormed = false := by decide
theorem test_wf_write : (Instr.registerWrite 0xFFFFFF 8 0).wellFormed = false := by decide
theorem test_wf_read : (Instr.registerRead 0 9).wellFormed = false := by decide
theorem test_wf_good : (Instr.registerWrite 0xFFFFF8 8 0).wellFormed = true := by decide

/-! Words written out bit by bit from the encodings of spec/06 and spec/08 to 20. -/

theorem test_word_add : decodeAshlar (.cmd 0) 0b000000_00001_00010_00011_000000000000000#36 0 = some (.add (.cmd 0) 1 2 3) := by decide
theorem test_word_addi : decodeAshlar (.map 3) 0b000001_00101_00000_11111111111111111111#36 0 = some (.addi (.map 3) 5 0 (-1)) := by decide
theorem test_word_lih : decodeAshlar .plinth 0b001000_00101_0000000000000000000000111#36 0 = some (.lih .plinth 5 7) := by decide
theorem test_word_lih_reserved : decodeAshlar .plinth 0b001000_00101_0000000000000100000000000#36 0 = none := by decide
theorem test_word_trap : decodeAshlar (.cmd 1) 0b011101_00000_00000_00000000000000001101#36 0 = some (.trap (.cmd 1) 0 0 13) := by decide
theorem test_word_grant : decodeAshlar (.map 0) 0b100000_00000_00001_00010_00000000_0000000#36 0b00011_00000_00000000000000000000000000#36
    = some (.grant (.map 0) { d := 0, a := 1, b := 2, tid := 0, fn := 0, c := 3, n := 0, imm := 0 }) := by decide
theorem test_word_twrite : decodeAshlar (.cmd 0) 0b101000_00000_00001_00010_01000001_0000000#36 0b00000_00100_00000000000000000000000000#36
    = some (.twrite (.cmd 0) { d := 0, a := 1, b := 2, tid := 0x41, fn := 0, c := 0, n := 4, imm := 0 }) := by decide
theorem test_word_qset : decodeAshlar (.cmd 0) 0b110000_00000_00001_00010_000000000000000#36 0 = some (.qset (.cmd 0) ⟨0, 1, 2, 0⟩) := by decide
theorem test_word_wrreg : decodeAshlar (.cmd 0) 0b111100_00000_00001_00010_000000000000001#36 0 = some (.wrreg (.cmd 0) 0 1 2) := by decide
theorem test_word_kload : decodeAshlar (.cmd 0) 0b111101_00000_00001_00010_000000000010000#36 0 = some (.kload (.cmd 0) 0 1 2) := by decide
theorem test_word_sense : decodeAshlar .plinth 0b111110_00001_00010_00000_000000000000000#36 0 = some (.sense .plinth 1 2 0) := by decide
theorem test_word_unassigned : decodeAshlar (.cmd 0) 0b000000_00001_00010_00011_000000000010110#36 0 = none := by decide

end Sys2Proof.Tests
end

section

/-! What every step keeps (O58): one lemma per operation of the model says that it leaves the commands that wait and the part
as they are; `revoke` alone changes the part, and what it does is a lemma of its own. -/

namespace Sys2Proof.Machine

/-- What a step keeps beside the command it takes: the commands that wait, and the part. -/
def State.kept (s : State) : List Instr × Chip := (s.pending, s.chip)

@[simp] theorem State.kept_mk (p : List Instr) (c : Chip) (regs : SMap Word) (clk : Clock) (boot : Boot) (host : HostIf) (pwr : Pwr)
    (flt : Flt) (pln : Pln) (tel : Tel) (cmd : Vector Engine 2) (map : Vector Engine 64) (plinth : Engine) (tree : Vector Tree 64)
    (slots : SMap LineCtx) (bad : List Nat) (tim : Tim) (dp : Dp) (outs : List Out) (free : Nat) :
    State.kept ⟨p, c, regs, clk, boot, host, pwr, flt, pln, tel, cmd, map, plinth, tree, slots, bad, tim, dp, outs, free⟩ = (p, c) := (rfl)

@[simp] theorem State.kept_eta (s : State) : (s.pending, s.chip) = s.kept := (rfl)
@[simp] theorem State.kept_ite (c : Prop) [Decidable c] (s t : State) : (if c then s else t).kept = if c then s.kept else t.kept :=
  apply_ite State.kept c s t

@[simp] theorem State.kept_dite (c : Prop) [Decidable c] (f : c → State) (g : ¬ c → State) :
    (dite c f g).kept = dite c (fun h => (f h).kept) (fun h => (g h).kept) :=
  apply_dite State.kept c f g

@[simp] theorem State.kept_foldl {α : Type} (f : State → α → State) (hf : ∀ s a, (f s a).kept = s.kept) (l : List α) (s : State) :
    (l.foldl f s).kept = s.kept := by
  induction l generalizing s with
  | nil => rfl
  | cons a l ih => rw [List.foldl_cons, ih, hf]

theorem State.kept_of_ite {s t u : State} {c : Prop} [Decidable c] (ht : t.kept = s.kept) (hu : u.kept = s.kept) :
    (if c then t else u).kept = s.kept := by
  split <;> assumption

theorem State.kept_of_eq {s t : State} (hp : t.pending = s.pending) (hc : t.chip = s.chip) : t.kept = s.kept := Prod.ext hp hc
theorem OnlyData.kept {s t : State} (h : OnlyData s t) : t.kept = s.kept := Prod.ext h.pending h.chip
theorem State.kept_host (s : State) (x : HostIf) : { s with host := x }.kept = s.kept := (rfl)

/-- What an outcome keeps, where it is a next state. -/
def nextKept : Host.Outcome State Fault Refusal → Option (List Instr × Chip)
  | .next t => some t.kept
  | .fault _ => none
  | .refused _ => none

@[simp] theorem nextKept_next (t : State) : nextKept (.next t) = some t.kept := (rfl)
@[simp] theorem nextKept_ite (c : Prop) [Decidable c] (o p : Host.Outcome State Fault Refusal) :
    nextKept (if c then o else p) = if c then nextKept o else nextKept p := apply_ite nextKept c o p

/-- The state a write within a block leaves: a rejected one leaves s. -/
def WriteRes.after (s : State) : WriteRes → State
  | .done t => t
  | .reject _ => s

@[simp] theorem WriteRes.after_done (s t : State) : WriteRes.after s (.done t) = t := (rfl)
@[simp] theorem WriteRes.after_reject (s : State) (st : Status) : WriteRes.after s (.reject st) = s := (rfl)
@[simp] theorem WriteRes.after_ite (s : State) (c : Prop) [Decidable c] (w x : WriteRes) :
    WriteRes.after s (if c then w else x) = if c then w.after s else x.after s := apply_ite (WriteRes.after s) c w x

/-- The state an instruction's own work leaves; one that read a bad word leaves s. -/
def Res.after (s : State) : Res → State
  | .ok t => t
  | .jump t _ _ => t
  | .done t => t
  | .wait t => t
  | .fail _ t => t
  | .memErr => s

@[simp] theorem Res.after_ok (s t : State) : Res.after s (.ok t) = t := (rfl)
@[simp] theorem Res.after_jump (s t : State) (x y : Nat) : Res.after s (.jump t x y) = t := (rfl)
@[simp] theorem Res.after_done (s t : State) : Res.after s (.done t) = t := (rfl)
@[simp] theorem Res.after_wait (s t : State) : Res.after s (.wait t) = t := (rfl)
@[simp] theorem Res.after_fail (s t : State) (st : Status) : Res.after s (.fail st t) = t := (rfl)
@[simp] theorem Res.after_memErr (s : State) : Res.after s .memErr = s := (rfl)
@[simp] theorem Res.after_ite (s : State) (c : Prop) [Decidable c] (w x : Res) :
    Res.after s (if c then w else x) = if c then w.after s else x.after s := apply_ite (Res.after s) c w x
@[simp] theorem State.powerOn_chip (c : Chip) : (State.powerOn c).chip = c := (rfl)

@[simp] theorem judge_kept (s : State) (absent range state : Bool) (k : WriteRes) (h : (WriteRes.after s k).kept = s.kept) :
    (WriteRes.after s (judge absent range state k)).kept = s.kept := by
  simp [judge, h]

/-- The state an insertion leaves. -/
def Placed.state : Placed → State
  | .at_ s _ _ _ _ => s
  | .parity s => s
  | .full s => s

@[simp] theorem Placed.state_at (s : State) (t i m : Nat) (p : Bool) : (Placed.at_ s t i m p).state = s := (rfl)
@[simp] theorem Placed.state_parity (s : State) : (Placed.parity s).state = s := (rfl)
@[simp] theorem Placed.state_full (s : State) : (Placed.full s).state = s := (rfl)

/-- The state a search for its domains leaves an access. -/
def Reach.state : Reach → State
  | .go s => s
  | .fail s => s
  | .wait s => s

@[simp] theorem Reach.state_go (s : State) : (Reach.go s).state = s := (rfl)
@[simp] theorem Reach.state_fail (s : State) : (Reach.fail s).state = s := (rfl)
@[simp] theorem Reach.state_wait (s : State) : (Reach.wait s).state = s := (rfl)
@[simp] theorem Reach.state_ite (c : Prop) [Decidable c] (a b : Reach) : (if c then a else b).state = if c then a.state else b.state :=
  apply_ite Reach.state c a b

/-- The state the search of a buffer leaves. -/
def BufRes.state : BufRes → State
  | .got s _ _ => s
  | .colour s => s
  | .empty s => s

@[simp] theorem BufRes.state_got (s : State) (p i : Nat) : (BufRes.got s p i).state = s := (rfl)
@[simp] theorem BufRes.state_colour (s : State) : (BufRes.colour s).state = s := (rfl)
@[simp] theorem BufRes.state_empty (s : State) : (BufRes.empty s).state = s := (rfl)

/-- The state an access within the part leaves. -/
def Access.state : Access → State
  | .done s _ => s
  | .shut s => s
  | .fail s => s
  | .wait s => s

@[simp] theorem Access.state_done (s : State) (v : Word) : (Access.done s v).state = s := (rfl)
@[simp] theorem Access.state_shut (s : State) : (Access.shut s).state = s := (rfl)
@[simp] theorem Access.state_fail (s : State) : (Access.fail s).state = s := (rfl)
@[simp] theorem Access.state_wait (s : State) : (Access.wait s).state = s := (rfl)
@[simp] theorem Access.state_ite (c : Prop) [Decidable c] (a b : Access) : (if c then a else b).state = if c then a.state else b.state :=
  apply_ite Access.state c a b

/-- Work that leaves what a step keeps may end at another word, wait or fail. -/
theorem Res.after_kept {s t : State} {r : Res} (h : (r.after t).kept = t.kept) (ht : t.kept = s.kept) : (r.after s).kept = s.kept := by
  cases r with
  | memErr => rfl
  | ok u | jump u _ _ | done u | wait u | fail _ u => exact Eq.trans h ht

/-! The operations every chapter shares. -/

@[simp] theorem State.wr_kept (s : State) (id : RegId) (v : Word) (i j k : Nat) : (s.wr id v i j k).kept = s.kept := (OnlyData.wr ..).kept
@[simp] theorem State.set_kept (s : State) (f : Fld) (v i j k : Nat) : (s.set f v i j k).kept = s.kept := (OnlyData.set ..).kept
@[simp] theorem State.inc_kept (s : State) (f : Fld) (n i j k : Nat) : (s.inc f n i j k).kept = s.kept := (OnlyData.inc ..).kept
@[simp] theorem State.fresh_kept (s : State) : s.fresh.2.kept = s.kept := by simp [State.fresh]
@[simp] theorem State.plainWrite_pending (s : State) (r : Reg) (v : Word) : (s.plainWrite r v).pending = s.pending := by
  simp [State.plainWrite]
@[simp] theorem State.plainWrite_kept (s : State) (r : Reg) (v : Word) : (s.plainWrite r v).kept = s.kept := by simp [State.plainWrite]
@[simp] theorem State.clearRc_kept (s : State) (r : Reg) : (s.clearRc r).kept = s.kept := by simp [State.clearRc]
@[simp] theorem State.emit_kept (s : State) (o : Out) : (s.emit o).kept = s.kept := (OnlyData.emit ..).kept
@[simp] theorem State.post_kept (s : State) (o : Out) : (s.post o).kept = s.kept := (OnlyData.post ..).kept
@[simp] theorem State.signalVector_kept (s : State) (v : Nat) : (s.signalVector v).kept = s.kept := State.kept_of_eq (by simp) (by simp)
@[simp] theorem State.signal_kept (s : State) (src : Nat) : (s.signal src).kept = s.kept := (OnlyData.signal ..).kept
@[simp] theorem State.raise_kept (s : State) (cause en : Fld) (mask src i : Nat) :
    (s.raise cause en mask src i).kept = s.kept := (OnlyData.raise ..).kept
@[simp] theorem State.plinthEvent_kept (s : State) (e : Nat) : (s.plinthEvent e).kept = s.kept := State.kept_of_eq (by simp) (by simp)
@[simp] theorem State.logRec_kept (s : State) (type origin : Nat) (p0 p1 : Word) :
    (s.logRec type origin p0 p1).kept = s.kept := (OnlyData.logRec ..).kept
@[simp] theorem State.logLimited_kept (s : State) (type : Nat) (p0 p1 : Word) :
    (s.logLimited type p0 p1).kept = s.kept := (OnlyData.logLimited ..).kept
@[simp] theorem State.reject_kept (s : State) (r : Rejection) : (s.reject r).kept = s.kept := (OnlyData.reject ..).kept
@[simp] theorem State.rejectReg_kept (s : State) (err : Fld) (st : Status) (i : Nat) :
    (s.rejectReg err st i).kept = s.kept := (OnlyData.rejectReg ..).kept
@[simp] theorem State.faultWrite_kept (s : State) (source cause addr : Nat) (who : Who) (access status detail : Nat) :
    (s.faultWrite source cause addr who access status detail).kept = s.kept := (OnlyData.faultWrite ..).kept
@[simp] theorem State.count_kept (s : State) (family inst event n : Nat) :
    (s.count family inst event n).kept = s.kept := (OnlyData.count ..).kept
@[simp] theorem State.perfWrapped_kept (s : State) (i : Nat) : (s.perfWrapped i).kept = s.kept := (OnlyData.perfWrapped ..).kept
@[simp] theorem State.perfFold_kept (f : Perf → Nat) (s : State) (ps : SMap Perf) :
    (State.perfFold f s ps).kept = s.kept := (OnlyData.perfFold ..).kept
@[simp] theorem State.perfEvent_kept (s : State) (src inst n : Nat) : (s.perfEvent src inst n).kept = s.kept := (OnlyData.perfEvent ..).kept

/-! Engines and the run of an instruction. -/

@[simp] theorem State.setEng_kept (s : State) (e : Eng) (en : Engine) :
    (s.setEng e en).kept = s.kept := State.kept_of_eq (by simp) (by simp)
@[simp] theorem State.modTree_kept (s : State) (t : Fin 64) (f : Tree → Tree) :
    (s.modTree t f).kept = s.kept := State.kept_of_eq (by simp) (by simp)
@[simp] theorem State.setReg_kept (s : State) (e : Eng) (r : RegNo) (v : Word) :
    (s.setReg e r v).kept = s.kept := State.kept_of_eq (by simp) (by simp)
@[simp] theorem State.setMem_kept (s : State) (e : Eng) (a : Nat) (v : Word) :
    (s.setMem e a v).kept = s.kept := State.kept_of_eq (by simp) (by simp)

@[simp] theorem State.storeRange_kept (s : State) (e : Eng) (a : Nat) (vs : List Word) : (s.storeRange e a vs).kept = s.kept := by
  induction vs generalizing s a with
  | nil => rfl
  | cons v vs ih => simp [State.storeRange, ih]

@[simp] theorem State.writeSave_kept (s : State) (n level : Nat) (e : Eng) (vec status apc : Nat) :
    (s.writeSave n level e vec status apc).kept = s.kept := State.kept_of_eq (by simp) (by simp)
@[simp] theorem State.saveTrap_kept (s : State) (e : Eng) (vec status apc : Nat) :
    (s.saveTrap e vec status apc).kept = s.kept := State.kept_of_eq (by simp) (by simp)
@[simp] theorem State.dropMap_kept (s : State) (t : Fin 64) : (s.dropMap t).kept = s.kept := State.kept_of_eq (by simp) (by simp)
@[simp] theorem State.mapTrap_kept (s : State) (t : Fin 64) (vec status : Nat) :
    (s.mapTrap t vec status).kept = s.kept := State.kept_of_eq (by simp) (by simp)

@[simp] theorem State.failInstr_kept (s : State) (e : Eng) (idx op : Nat) (st : Status) (vec : Nat) :
    (s.failInstr e idx op st vec).kept = s.kept := by
  unfold State.failInstr
  dsimp only
  repeat' split
  all_goals simp

@[simp] theorem State.engineFault_kept (s : State) (e : Eng) (vec : Nat) : (s.engineFault e vec).kept = s.kept := by
  unfold State.engineFault
  dsimp only
  split <;> simp

@[simp] theorem State.spend_kept (s : State) (e : Eng) (n : Nat) : (s.spend e n).kept = s.kept := by
  unfold State.spend
  split <;> simp

@[simp] theorem State.plinthTake_kept (n : Nat) (s : State) : (State.plinthTake n s).kept = s.kept := by
  induction n generalizing s with
  | zero => rfl
  | succ n ih => simp [State.plinthTake, ih]

@[simp] theorem State.retire_kept (s : State) (e : Eng) (idx target : Nat) : (s.retire e idx target).kept = s.kept := by
  unfold State.retire
  split <;> simp

@[simp] theorem State.atDeadline_kept (s : State) (e : Eng) : (s.atDeadline e).kept = s.kept := by simp [State.atDeadline]

/-- The end of an instruction adds nothing to what its own work did; without budget it undoes that work. -/
theorem State.finishInstr_kept_cases (s : State) (e : Eng) (idx len op cost : Nat) (r : Res) :
    (s.finishInstr e idx len op cost r).kept = s.kept ∨ (s.finishInstr e idx len op cost r).kept = (r.after s).kept := by
  cases r with
  | wait t => exact Or.inr rfl
  | ok t | jump t _ _ | done t | fail _ t | memErr => simp only [State.finishInstr]; split <;> simp

@[simp] theorem State.finishInstr_kept (s : State) (e : Eng) (idx len op cost : Nat) (r : Res) (h : (r.after s).kept = s.kept) :
    (s.finishInstr e idx len op cost r).kept = s.kept :=
  (s.finishInstr_kept_cases e idx len op cost r).elim id (fun h' => h'.trans h)

/-- Running an instruction leaves what a step keeps as it was, or as the instruction's own work leaves it. -/
theorem State.runInstr_kept_cases (s : State) (e : Eng) (i : Instr) (regs : List RegNo) (cost : Nat) (body : State → Res) :
    (s.runInstr e i regs cost body).kept = s.kept ∨ (s.runInstr e i regs cost body).kept = ((body s).after s).kept := by
  unfold State.runInstr
  dsimp only
  repeat' split
  case h_2.isFalse.isFalse.isFalse.isFalse.isFalse.isFalse.isFalse => exact State.finishInstr_kept_cases ..
  all_goals exact Or.inl (by simp)

@[simp] theorem nextKept_instr (e : Eng) (i : Instr) (regs : List RegNo) (cost : Nat) (body : State → Res) (s : State)
    (h : ((body s).after s).kept = s.kept) : nextKept (instr e i regs cost body s) = some s.kept :=
  congrArg some ((s.runInstr_kept_cases e i regs cost body).elim id (fun h' => h'.trans h))

/-! Operands of instructions. -/

@[simp] theorem State.putAlu_kept (s : State) (e : Eng) (d : RegNo) (r : Alu) :
    (s.putAlu e d r).kept = s.kept := State.kept_of_eq (by simp) (by simp)

@[simp] theorem State.target_kept (s : State) (e : Eng) (t : Word) (cost : Nat) (k : State) (h : k.kept = s.kept) :
    ((s.target e t cost k).after s).kept = s.kept := by
  simp [State.target, h]

@[simp] theorem State.image_kept (s : State) (e : Eng) (addr : Word) (n : Nat) (k : List Word → Res)
    (h : ∀ ws, ((k ws).after s).kept = s.kept) : ((s.image e addr n k).after s).kept = s.kept := by
  simp [State.image, h]

@[simp] theorem State.dest_kept (s : State) (e : Eng) (addr : Word) (n : Nat) (k : Nat → Res)
    (h : ∀ a, ((k a).after s).kept = s.kept) : ((s.dest e addr n k).after s).kept = s.kept := by
  simp [State.dest, h]

/-! The cipher engine. -/

@[simp] theorem State.setSlot_kept (s : State) (k : Nat) (x : KeySlot) : (s.setSlot k x).kept = s.kept := by simp [State.setSlot]
@[simp] theorem State.keyErr_kept (s : State) (t u : Nat) : (s.keyErr t u).kept = s.kept := by simp [State.keyErr]
@[simp] theorem State.omciFail_kept (s : State) (t u : Nat) : (s.omciFail t u).kept = s.kept := by simp [State.omciFail]

@[simp] theorem nextKept_execKload (e : Eng) (d a b : RegNo) (s : State) : nextKept (execKload e d a b s) = some s.kept := by
  refine nextKept_instr _ _ _ _ _ _ ?_
  dsimp only
  split
  · rfl
  · refine State.image_kept _ _ _ _ _ (fun ws => ?_)
    split <;> simp

@[simp] theorem nextKept_execKclr (e : Eng) (d a b : RegNo) (s : State) : nextKept (execKclr e d a b s) = some s.kept := by simp [execKclr]
@[simp] theorem State.cvalRun_kept (s : State) (e : Eng) (d : RegNo) (a : Nat) (ws : List Word) (key : List Nat) :
    ((s.cvalRun e d a ws key).after s).kept = s.kept := by simp [State.cvalRun]

@[simp] theorem nextKept_execCval (e : Eng) (d a b : RegNo) (s : State) : nextKept (execCval e d a b s) = some s.kept := by
  refine nextKept_instr _ _ _ _ _ _ (State.image_kept _ _ _ _ _ (fun ws => ?_))
  dsimp only
  repeat' split
  all_goals simp

@[simp] theorem State.cipWrite_kept (s : State) (r : Reg) (v : Word) : ((s.cipWrite r v).after s).kept = s.kept := by
  unfold State.cipWrite
  split <;> simp

/-! Tables. -/

@[simp] theorem State.tabPut_kept (s : State) (tid i : Nat) (ws : List Word) : (s.tabPut tid i ws).kept = s.kept := by simp [State.tabPut]
@[simp] theorem State.tabGood_kept (s : State) (tid i : Nat) : (s.tabGood tid i).kept = s.kept := by simp [State.tabGood]

@[simp] theorem State.foundBad_kept (s : State) (tid i : Nat) (who : Who) (st : Status) : (s.foundBad tid i who st).kept = s.kept := by
  unfold State.foundBad
  split <;> simp

@[simp] theorem State.htReport_kept (s : State) (bad : List (Nat × Nat)) (who : Who) (st : Status) :
    (s.htReport bad who st).kept = s.kept := by simp [State.htReport]
@[simp] theorem State.htMove_kept (tid : Nat) (s : State) (m : Nat × Nat) : (State.htMove tid s m).kept = s.kept := by simp [State.htMove]

@[simp] theorem State.htInsert_kept (s : State) (tid : Nat) (ws : List Word) (replace : List Word → List Word) (who : Who) (st : Status) :
    (s.htInsert tid ws replace who st).state.kept = s.kept := by
  unfold State.htInsert
  dsimp only
  repeat' split
  all_goals simp

@[simp] theorem State.rehome_kept (s : State) : s.rehome.kept = s.kept := by
  refine State.kept_foldl _ (fun s i => ?_) _ s
  split
  · rfl
  · dsimp only; split <;> simp

@[simp] theorem State.emRemove_kept (s : State) (tid i : Nat) : (s.emRemove tid i).kept = s.kept := by simp [State.emRemove]

/-! Parsing and classification. -/

@[simp] theorem State.countMark_kept (s : State) (port : Nat) (mark : Option Nat) : (s.countMark port mark).kept = s.kept := by
  unfold State.countMark
  split <;> simp

@[simp] theorem State.countHit_kept (s : State) (bank : Nat) (rule : Option Nat) : (s.countHit bank rule).kept = s.kept := by
  unfold State.countHit
  split <;> simp

@[simp] theorem State.rcDrop_kept (s : State) (port : Nat) : (s.rcDrop port).kept = s.kept := by simp [State.rcDrop]

@[simp] theorem State.classify_kept (s : State) (p : Pkt) : (s.classify p).1.kept = s.kept := by
  unfold State.classify
  dsimp only
  repeat' split
  all_goals simp

@[simp] theorem State.clsWrite_kept (s : State) (r : Reg) (v : Word) : ((s.clsWrite r v).after s).kept = s.kept := by
  unfold State.clsWrite
  split <;> simp

/-! Forwarding and learning. -/

@[simp] theorem State.lookupDest_kept (s : State) (p : Pkt) (v : Verdict) : (s.lookupDest p v).1.kept = s.kept := by
  unfold State.lookupDest
  dsimp only
  repeat' split
  all_goals simp

@[simp] theorem State.refreshAge_kept (s : State) (t i : Nat) : (s.refreshAge t i).kept = s.kept := by simp [State.refreshAge]
@[simp] theorem State.queueLearn_kept (s : State) (l : Learn) : (s.queueLearn l).kept = s.kept := by simp [State.queueLearn]

@[simp] theorem State.learnFrom_kept (s : State) (p : Pkt) (v : Verdict) : (s.learnFrom p v).1.kept = s.kept := by
  unfold State.learnFrom
  dsimp only
  repeat' split
  all_goals simp

@[simp] theorem State.trackMove_kept (s : State) (key : Nat) : (s.trackMove key).1.kept = s.kept := by
  unfold State.trackMove
  dsimp only
  repeat' split
  all_goals simp

@[simp] theorem State.applyMove_kept (s : State) (key t i port term : Nat) : (s.applyMove key t i port term).kept = s.kept := by
  simp [State.applyMove]

@[simp] theorem nextKept_execLearnRequest (s : State) : nextKept (execLearnRequest s) = some s.kept := by
  unfold execLearnRequest
  split
  · rfl
  · next l rest _ =>
    dsimp only
    split
    case h_3 =>
      have h := State.htInsert_kept { s with dp := { s.dp with learns := rest } } 0x10
        (State.learnedWords { s with dp := { s.dp with learns := rest } } l.key l.port l.term) (fun old => old) .device .ok
      split <;> simp_all
    all_goals simp

@[simp] theorem nextKept_execFreezeHoldEnd (key : BitVec 64) (s : State) : nextKept (execFreezeHoldEnd key s) = some s.kept := by
  unfold execFreezeHoldEnd
  dsimp only
  repeat' split
  all_goals simp

@[simp] theorem State.emRemoveAll_kept (s : State) (es : List (Nat × Nat × List Word)) : (s.emRemoveAll es).kept = s.kept := by
  simp [State.emRemoveAll]
@[simp] theorem nextKept_execAgeTick (s : State) : nextKept (execAgeTick s) = some s.kept := by simp [execAgeTick]
@[simp] theorem State.flushStart_kept (s : State) : s.flushStart.kept = s.kept := by simp [State.flushStart]
@[simp] theorem nextKept_execFwdFlushDone (s : State) : nextKept (execFwdFlushDone s) = some s.kept := by simp [execFwdFlushDone]
@[simp] theorem State.downFlush_kept (s : State) (port : Nat) (term : Option Nat) : (s.downFlush port term).kept = s.kept := by
  simp [State.downFlush]

@[simp] theorem State.fwdWrite_kept (s : State) (r : Reg) (v : Word) : ((s.fwdWrite r v).after s).kept = s.kept := by
  unfold State.fwdWrite
  split <;> simp

/-! Exception queues. -/

@[simp] theorem State.setExq_kept (s : State) (q : Nat) (b : Option Bucket) : (s.setExq q b).kept = s.kept := by simp [State.setExq]

@[simp] theorem State.postBytes_kept (s : State) (n addr : Nat) (bs : List Byte) : (s.postBytes n addr bs).kept = s.kept := by
  induction n generalizing s addr bs with
  | zero => rfl
  | succ n ih => simp [State.postBytes, ih]

@[simp] theorem State.exqRecord_kept (s : State) (p : Pkt) (x : ExRec) : (s.exqRecord p x).kept = s.kept := by simp [State.exqRecord]
@[simp] theorem State.exqDeliver_kept (s : State) (p : Pkt) (x : ExRec) : (s.exqDeliver p x).kept = s.kept := by simp [State.exqDeliver]

@[simp] theorem State.exqWrite_kept (s : State) (r : Reg) (v : Word) : ((s.exqWrite r v).after s).kept = s.kept := by
  unfold State.exqWrite
  split <;> simp

/-! Gates. -/

@[simp] theorem State.setGate_kept (s : State) (g : Nat) (x : GateSt) : (s.setGate g x).kept = s.kept := by simp [State.setGate]

@[simp] theorem State.gateStatus_kept (s : State) (g entry : Nat) : (s.gateStatus g entry).kept = s.kept := by
  unfold State.gateStatus
  dsimp only
  split <;> simp

@[simp] theorem State.gateAt_kept (s : State) (g : Nat) (l : GList) (cycleAt entry : Nat) : (s.gateAt g l cycleAt entry).kept = s.kept := by
  simp [State.gateAt]

/-- gateStart is opened here under a name: its sums of large constants are not to be evaluated. -/
@[simp] theorem State.gateCommit_kept (s : State) (g : Nat) (v : Word) : ((s.gateCommit g v).after s).kept = s.kept := by
  obtain ⟨start, h⟩ : ∃ f, State.gateStart = f := ⟨_, rfl⟩
  unfold State.gateCommit
  rw [h]
  simp

@[simp] theorem State.gateWrite_kept (s : State) (r : Reg) (v : Word) : ((s.gateWrite r v).after s).kept = s.kept := by
  have h : ((if fv v F.GATE_CTRL_COMMIT = 1 then s.gateCommit r.i v else .done s).after s).kept = s.kept := by simp
  unfold State.gateWrite
  dsimp only
  generalize (if fv v F.GATE_CTRL_COMMIT = 1 then s.gateCommit r.i v else WriteRes.done s) = w at h
  repeat' split
  all_goals simp_all

@[simp] theorem nextKept_execGateListStart (g : Fin 128) (s : State) : nextKept (execGateListStart g s) = some s.kept := by
  unfold execGateListStart
  split <;> simp

@[simp] theorem nextKept_execGateEntry (g : Fin 128) (s : State) : nextKept (execGateEntry g s) = some s.kept := by
  unfold execGateEntry
  dsimp only
  split <;> simp

@[simp] theorem State.rephaseGate_kept (s : State) (g : Nat) : (s.rephaseGate g).kept = s.kept := by
  obtain ⟨start, h⟩ : ∃ f, State.gateStart = f := ⟨_, rfl⟩
  unfold State.rephaseGate
  rw [h]
  dsimp only
  split <;> split <;> simp

@[simp] theorem State.rephaseGates_kept (s : State) : s.rephaseGates.kept = s.kept := by simp [State.rephaseGates]

/-! Queues and courses. -/

@[simp] theorem State.setQue_kept (s : State) (q : Nat) (x : Que) : (s.setQue q x).kept = s.kept := (OnlyData.setQue ..).kept
@[simp] theorem State.setCrs_kept (s : State) (c : Nat) (x : Crs) : (s.setCrs c x).kept = s.kept := (OnlyData.setCrs ..).kept
@[simp] theorem State.setMtr_kept (s : State) (m : Nat) (x : Mtr) : (s.setMtr m x).kept = s.kept := (OnlyData.setMtr ..).kept

/-! Table operations of the engines. -/

@[simp] theorem State.issueOp_kept (s : State) (e : Eng) (k : TKind) (tid index : Nat) (image : List Word) (d : RegNo) (dst len : Nat) :
    ((s.issueOp e k tid index image d dst len).after s).kept = s.kept := by simp [State.issueOp]

@[simp] theorem State.tabChecks_after (s : State) (k : TKind) (tid n i : Nat) (byIndex : Bool) (work : Res)
    (h : (work.after s).kept = s.kept) :
    ((s.tabChecks k tid n i byIndex work).after s).kept = s.kept := by
  simp [State.tabChecks, h]

@[simp] theorem nextKept_execTwrite (e : Eng) (f : FmtX) (s : State) : nextKept (execTwrite e f s) = some s.kept := by
  refine nextKept_instr _ _ _ _ _ _ (State.tabChecks_after _ _ _ _ _ _ _ (State.image_kept _ _ _ _ _ (fun ws => ?_)))
  split <;> simp

@[simp] theorem nextKept_execTread (e : Eng) (f : FmtX) (s : State) : nextKept (execTread e f s) = some s.kept :=
  nextKept_instr _ _ _ _ _ _ (State.tabChecks_after _ _ _ _ _ _ _ (State.dest_kept _ _ _ _ _ (fun a => by simp)))

@[simp] theorem nextKept_execTinsert (e : Eng) (f : FmtX) (s : State) : nextKept (execTinsert e f s) = some s.kept := by
  refine nextKept_instr _ _ _ _ _ _ (State.tabChecks_after _ _ _ _ _ _ _ (State.image_kept _ _ _ _ _ (fun ws => ?_)))
  split <;> simp

@[simp] theorem nextKept_execTdelete (e : Eng) (f : FmtX) (s : State) : nextKept (execTdelete e f s) = some s.kept :=
  nextKept_instr _ _ _ _ _ _ (State.tabChecks_after _ _ _ _ _ _ _ (State.image_kept _ _ _ _ _ (fun ws => by simp)))

@[simp] theorem nextKept_execTlookup (e : Eng) (f : FmtX) (s : State) : nextKept (execTlookup e f s) = some s.kept :=
  nextKept_instr _ _ _ _ _ _ (State.tabChecks_after _ _ _ _ _ _ _
    (State.dest_kept _ _ _ _ _ (fun a => State.image_kept _ _ _ _ _ (fun ws => by simp))))

@[simp] theorem State.stampMark_kept (s : State) (e : Eng) (o : TabOp) (earlier : List TabOp) :
    (s.stampMark e o earlier).kept = s.kept := by
  unfold State.stampMark
  split <;> simp

@[simp] theorem State.endHold_kept (s : State) (key : Nat) : (s.endHold key).kept = s.kept := by simp [State.endHold]

@[simp] theorem State.tabWrite_kept (s : State) (o : TabOp) : (s.tabWrite o).kept = s.kept := by
  unfold State.tabWrite
  split <;> simp

@[simp] theorem State.tabEffect_kept (s : State) (e : Eng) (o : TabOp) : (s.tabEffect e o).1.kept = s.kept := by
  unfold State.tabEffect
  dsimp only
  split
  case h_3 =>
    generalize hr : s.htInsert _ _ _ _ _ = r
    have h : r.state.kept = s.kept := hr ▸ State.htInsert_kept ..
    cases r <;> simp_all
  all_goals (repeat' split) <;> simp

@[simp] theorem nextKept_execTableOpFinish (e : Eng) (k : Nat) (s : State) : nextKept (execTableOpFinish e k s) = some s.kept := by
  unfold execTableOpFinish
  dsimp only
  split <;> simp

@[simp] theorem nextKept_execTbank (e : Eng) (f : FmtX) (s : State) : nextKept (execTbank e f s) = some s.kept := by simp [execTbank]

@[simp] theorem State.bankDone_kept (s : State) (e : Eng) : (s.bankDone e).kept = s.kept := by
  unfold State.bankDone
  dsimp only
  split <;> simp

@[simp] theorem nextKept_execBankDrainEnd (s : State) : nextKept (execBankDrainEnd s) = some s.kept := by simp [execBankDrainEnd]
@[simp] theorem nextKept_execFence (e : Eng) (f : FmtX) (s : State) : nextKept (execFence e f s) = some s.kept := by simp [execFence]

@[simp] theorem nextKept_execFenceDone (e : Eng) (s : State) : nextKept (execFenceDone e s) = some s.kept := by
  unfold execFenceDone
  dsimp only
  split <;> simp

@[simp] theorem nextKept_execTgen (e : Eng) (f : FmtX) (s : State) : nextKept (execTgen e f s) = some s.kept := by simp [execTgen]

/-! Accesses that find their domains. -/

@[simp] theorem State.setDomain_kept (s : State) (q v : Nat) : (s.setDomain q v).kept = s.kept := by simp [State.setDomain]
@[simp] theorem State.startWake_kept (s : State) (q : Nat) (who : Who) : (s.startWake q who).kept = s.kept := (OnlyData.startWake ..).kept
@[simp] theorem State.reach_kept (s : State) (qs : List Nat) (who : Who) : (s.reach qs who).state.kept = s.kept := by simp [State.reach]

@[simp] theorem State.touch_kept (s : State) (e : Eng) (qs : List Nat) (k : State → Res) (h : ∀ t, ((k t).after t).kept = t.kept) :
    ((s.touch e qs k).after s).kept = s.kept := by
  have hr := s.reach_kept qs (engWho e)
  unfold State.touch
  generalize s.reach qs (engWho e) = a at hr
  cases a with
  | go t => exact Res.after_kept (h t) hr
  | fail t => exact hr
  | wait t => simpa using hr

/-! Buffers and handles. -/

@[simp] theorem State.setHdl_kept (s : State) (h : Nat) (x : Option Hdl) : (s.setHdl h x).kept = s.kept := (OnlyData.setHdl ..).kept
@[simp] theorem State.setBuf_kept (s : State) (p i : Nat) (b : Buf) : (s.setBuf p i b).kept = s.kept := (OnlyData.setBuf ..).kept
@[simp] theorem State.thresholds_kept (s : State) (p : Nat) : (s.thresholds p).kept = s.kept := (OnlyData.thresholds ..).kept
@[simp] theorem State.modPort_kept (s : State) (p : Nat) (f : PAcc → PAcc) : (s.modPort p f).kept = s.kept := (OnlyData.modPort ..).kept
@[simp] theorem State.sendPause_kept (s : State) (l : Nat) (priority : Bool) (classes : Nat) :
    (s.sendPause l priority classes).kept = s.kept := (OnlyData.sendPause ..).kept
@[simp] theorem State.pausePort_kept (s : State) (l : Nat) : (s.pausePort l).kept = s.kept := (OnlyData.pausePort ..).kept
@[simp] theorem State.setBnd_kept (s : State) (b : Nat) (x : Bond) : (s.setBnd b x).kept = s.kept := (OnlyData.setBnd ..).kept
@[simp] theorem State.stopBond_kept (s : State) (b : Nat) : (s.stopBond b).kept = s.kept := (OnlyData.stopBond ..).kept
@[simp] theorem State.flow_kept (s : State) : s.flow.kept = s.kept := (OnlyData.flow ..).kept
@[simp] theorem State.setInuse_kept (s : State) (p n : Nat) : (s.setInuse p n).kept = s.kept := (OnlyData.setInuse ..).kept
@[simp] theorem State.takeBuf_kept (s : State) (p : Nat) : (s.takeBuf p).1.kept = s.kept := (OnlyData.takeBuf ..).kept
@[simp] theorem State.takeHdl_kept (s : State) : s.takeHdl.1.kept = s.kept := (OnlyData.takeHdl ..).kept
@[simp] theorem State.release_kept (s : State) (h source : Nat) : (s.release h source).kept = s.kept := (OnlyData.release ..).kept

@[simp] theorem State.seekBuf_kept (s : State) (colour : Nat) (spilled : Bool) (n p : Nat) :
    (s.seekBuf colour spilled n p).state.kept = s.kept := by
  induction n generalizing s spilled p with
  | zero => rfl
  | succ n ih =>
    have h := s.takeBuf_kept p
    unfold State.seekBuf
    split
    · rfl
    · generalize s.takeBuf p = a at h
      obtain ⟨s1, _ | i⟩ := a
      · dsimp only
        split
        · exact (ih ..).trans h
        · exact h
      · simpa using h

@[simp] theorem State.wakeStack_kept (s : State) (p port : Nat) : (s.wakeStack p port).kept = s.kept := (OnlyData.wakeStack ..).kept

@[simp] theorem State.takeIn_kept (s : State) (x : Pkt) (egress : Option Nat) (mk : Nat → Nat → Hdl) :
    (s.takeIn x egress mk).1.kept = s.kept := by
  have h := s.takeHdl_kept
  unfold State.takeIn
  generalize s.takeHdl = a at h
  obtain ⟨s1, _ | k⟩ := a
  · dsimp only; repeat' split
    all_goals simp_all
  · have h' := s1.seekBuf_kept x.colour false 4 (s1.poolFor x.bytes.length)
    dsimp only
    generalize s1.seekBuf x.colour false 4 (s1.poolFor x.bytes.length) = b at h'
    cases b <;> (repeat' split) <;> simp_all

@[simp] theorem State.share_kept (s : State) (x : Pkt) (h : Nat) (mk : Nat → Nat → Hdl) : (s.share x h mk).1.kept = s.kept := by
  have hk := s.takeHdl_kept
  unfold State.share
  dsimp only
  repeat' split
  all_goals simp_all

@[simp] theorem State.modQAcc_kept (s : State) (q : Nat) (f : QAcc → QAcc) : (s.modQAcc q f).kept = s.kept := (OnlyData.modQAcc ..).kept
@[simp] theorem State.flushQueue_kept (p : Nat) (s : State) (q : Nat) :
    (State.flushQueue p s q).kept = s.kept := (OnlyData.flushQueue ..).kept
@[simp] theorem State.flushBegin_kept (s : State) (p : Nat) : (s.flushBegin p).kept = s.kept := (OnlyData.flushBegin ..).kept
@[simp] theorem State.portFlush_kept (s : State) (p : Nat) : (s.portFlush p).kept = s.kept := (OnlyData.portFlush ..).kept

@[simp] theorem nextKept_execPortFlushDone (s : State) : nextKept (execPortFlushDone s) = some s.kept := by
  unfold execPortFlushDone
  dsimp only
  repeat' split
  all_goals simp

@[simp] theorem State.auditStart_kept (s : State) : s.auditStart.kept = s.kept := (OnlyData.auditStart ..).kept
@[simp] theorem nextKept_execAuditPeriod (s : State) : nextKept (execAuditPeriod s) = some s.kept := by simp [execAuditPeriod]
@[simp] theorem State.auditFound_kept (s : State) (leaked : Bool) (p i : Nat) :
    (s.auditFound leaked p i).kept = s.kept := (OnlyData.auditFound ..).kept

@[simp] theorem nextKept_execAuditVisit (pool : Fin 4) (index : Nat) (s : State) :
    nextKept (execAuditVisit pool index s) = some s.kept := by
  unfold execAuditVisit
  dsimp only
  repeat' split
  all_goals simp

@[simp] theorem State.thrWrite_kept (s : State) (r : Reg) (v0 : Word) : ((s.thrWrite r v0).after s).kept = s.kept := by
  simp [State.thrWrite]
@[simp] theorem State.flushWrite_kept (s : State) (r : Reg) (v : Word) : ((s.flushWrite r v).after s).kept = s.kept := by
  simp [State.flushWrite]

@[simp] theorem State.bufWrite_kept (s : State) (r : Reg) (v : Word) : ((s.bufWrite r v).after s).kept = s.kept := by
  unfold State.bufWrite
  split <;> simp

/-! Scheduling. -/

@[simp] theorem nextKept_execQset (e : Eng) (f : FmtA) (s : State) : nextKept (execQset e f s) = some s.kept := by simp [execQset]
@[simp] theorem nextKept_execQread (e : Eng) (f : FmtA) (s : State) : nextKept (execQread e f s) = some s.kept := by simp [execQread]
@[simp] theorem nextKept_execCset (e : Eng) (f : FmtA) (s : State) : nextKept (execCset e f s) = some s.kept := by simp [execCset]
@[simp] theorem nextKept_execClink (e : Eng) (f : FmtA) (s : State) : nextKept (execClink e f s) = some s.kept := by simp [execClink]
@[simp] theorem nextKept_execCdel (e : Eng) (f : FmtA) (s : State) : nextKept (execCdel e f s) = some s.kept := by simp [execCdel]
@[simp] theorem State.queueDrop_kept (s : State) (q colour : Nat) : (s.queueDrop q colour).kept = s.kept := by simp [State.queueDrop]

@[simp] theorem State.enqueue_kept (s : State) (h q : Nat) : (s.enqueue h q).kept = s.kept := by
  unfold State.enqueue
  split <;> simp

@[simp] theorem State.capMark_kept (s : State) : s.capMark.kept = s.kept := by simp [State.capMark]
@[simp] theorem State.capFrame_kept (s : State) (capacity cds : Nat) : (s.capFrame capacity cds).kept = s.kept := by simp [State.capFrame]
@[simp] theorem State.setNode_kept (s : State) (k : Nat) (n : Node) : (s.setNode k n).kept = s.kept := by simp [State.setNode]

@[simp] theorem State.turnOf_kept (s : State) (c ph : Nat) (set : List Nat) (n turn : Nat) :
    (s.turnOf c ph set n turn).1.kept = s.kept := by
  induction n generalizing s turn with
  | zero => rfl
  | succ n ih => simp only [State.turnOf]; split <;> simp [ih]

@[simp] theorem State.turnPaid_kept (s : State) (c key ph k len : Nat) : (s.turnPaid c key ph k len).kept = s.kept := by
  simp [State.turnPaid]

@[simp] theorem State.pick_kept (s : State) (g : Nat) (bar : Bool) (n c : Nat) : (s.pick g bar n c).state.kept = s.kept := by
  induction n generalizing s c with
  | zero => rfl
  | succ n ih =>
    unfold State.pick
    dsimp only
    repeat' split
    all_goals simp [ih]

@[simp] theorem State.dropOversize_kept (s : State) (g q n : Nat) : (s.dropOversize g q n).kept = s.kept := by
  induction n generalizing s with
  | zero => rfl
  | succ n ih =>
    unfold State.dropOversize
    dsimp only
    repeat' split
    all_goals simp [ih]

@[simp] theorem State.countHeld_kept (g : Nat) (s : State) (q : Nat) : (State.countHeld g s q).kept = s.kept := by
  unfold State.countHeld
  dsimp only
  repeat' split
  all_goals simp

@[simp] theorem State.debitNode_kept (len : Nat) (s : State) (k : Nat) : (State.debitNode len s k).kept = s.kept := by
  simp [State.debitNode]
@[simp] theorem State.takeCredit_kept (s : State) (g cls len : Nat) : (s.takeCredit g cls len).kept = s.kept := by simp [State.takeCredit]

@[simp] theorem State.dequeue_kept (s : State) (g q : Nat) (capped : Bool) : (s.dequeue g q capped).kept = s.kept := by
  unfold State.dequeue
  dsimp only
  repeat' split
  all_goals simp

@[simp] theorem State.select_kept (s : State) (g : Nat) : (s.select g).kept = s.kept := by
  unfold State.select
  dsimp only
  repeat' split
  all_goals simp

@[simp] theorem nextKept_execSelection (egress : Nat) (s : State) : nextKept (execSelection egress s) = some s.kept := by
  simp [execSelection]

@[simp] theorem State.schWrite_kept (s : State) (r : Reg) (v : Word) : ((s.schWrite r v).after s).kept = s.kept := by
  unfold State.schWrite
  split <;> simp

/-! Meters. -/

@[simp] theorem nextKept_execMset (e : Eng) (f : FmtA) (s : State) : nextKept (execMset e f s) = some s.kept := by simp [execMset]
@[simp] theorem nextKept_execMread (e : Eng) (f : FmtA) (s : State) : nextKept (execMread e f s) = some s.kept := by simp [execMread]
@[simp] theorem State.meter_kept (s : State) (k pre len : Nat) : (s.meter k pre len).1.kept = s.kept := by simp [State.meter]

/-! Replication. -/

@[simp] theorem State.setFrer_kept (s : State) (j : Nat) (x : Frer) : (s.setFrer j x).kept = s.kept := by simp [State.setFrer]

@[simp] theorem State.drawSeq_kept (s : State) (j stream : Nat) : (s.drawSeq j stream).1.kept = s.kept := by
  unfold State.drawSeq
  split <;> simp

@[simp] theorem State.recover_kept (s : State) (j stream seq : Nat) : (s.recover j stream seq).1.kept = s.kept := by
  unfold State.recover
  dsimp only
  repeat' split
  all_goals simp

@[simp] theorem State.eliminate_kept (s : State) (l : Nat) (bs : List Byte) : (s.eliminate l bs).1.kept = s.kept := by
  unfold State.eliminate
  dsimp only
  repeat' split
  all_goals simp

@[simp] theorem nextKept_execFrerReset (j c : Fin 8) (s : State) : nextKept (execFrerReset j c s) = some s.kept := by simp [execFrerReset]

/-! Performance monitoring of the trees. -/

@[simp] theorem State.modPm_kept (s : State) (t : Fin 64) (k : Nat) (f : PmScope → PmScope) : (s.modPm t k f).kept = s.kept := by
  simp [State.modPm]

@[simp] theorem State.pmBurst_kept (s : State) (t : Fin 64) (term : Option Nat) (errored : Bool) :
    (s.pmBurst t term errored).kept = s.kept := by
  unfold State.pmBurst
  split <;> simp

@[simp] theorem State.pmTree_kept (sec : Nat) (s : State) (t : Fin 64) : (State.pmTree sec s t).kept = s.kept := by simp [State.pmTree]
@[simp] theorem nextKept_execPmSecond (s : State) : nextKept (execPmSecond s) = some s.kept := by simp [execPmSecond]
@[simp] theorem State.pmSuspectAll_kept (s : State) : s.pmSuspectAll.kept = s.kept := by simp [State.pmSuspectAll]
@[simp] theorem State.pmCtrlWrite_kept (s : State) (r : Reg) (v : Word) : ((s.pmCtrlWrite r v).after s).kept = s.kept := by
  simp [State.pmCtrlWrite]

@[simp] theorem State.pmSelWrite_kept (s : State) (r : Reg) (v : Word) : ((s.pmSelWrite r v).after s).kept = s.kept := by
  unfold State.pmSelWrite
  dsimp only
  repeat' split
  all_goals simp

/-! The time base and its domains. -/

@[simp] theorem State.setDomState_kept (s : State) (d : Fin 2) (v : Nat) : (s.setDomState d v).kept = s.kept := by simp [State.setDomState]
@[simp] theorem State.setDom_kept (s : State) (d : Fin 2) (x : DomSt) : (s.setDom d x).kept = s.kept := by simp [State.setDom]
@[simp] theorem State.timeEvent_kept (s : State) (bitNo : Nat) : (s.timeEvent bitNo).kept = s.kept := by simp [State.timeEvent]
@[simp] theorem State.fireTrigger_kept (s : State) (i : Nat) : (s.fireTrigger i).kept = s.kept := by simp [State.fireTrigger]
@[simp] theorem State.lateTrigger_kept (before : Word) (s : State) (i : Nat) : (State.lateTrigger before s i).kept = s.kept := by
  simp [State.lateTrigger]
@[simp] theorem State.freezeDue_kept (s : State) : s.freezeDue.kept = s.kept := by simp [State.freezeDue]
@[simp] theorem State.stepTime_kept (s : State) (d : Fin 2) : (s.stepTime d).kept = s.kept := by simp [State.stepTime]
@[simp] theorem State.istep_kept (s : State) : s.istep.kept = s.kept := by simp [State.istep]
@[simp] theorem State.switchTo_kept (s : State) (d : Fin 2) : (s.switchTo d).kept = s.kept := by simp [State.switchTo]
@[simp] theorem State.autoSwitch_kept (s : State) : s.autoSwitch.kept = s.kept := by simp [State.autoSwitch]
@[simp] theorem State.steer_kept (s : State) : s.steer.kept = s.kept := by simp [State.steer]
@[simp] theorem State.putResid_kept (s : State) (d : Fin 2) (r : Int) : (s.putResid d r).kept = s.kept := by simp [State.putResid]
@[simp] theorem State.servo_kept (s : State) (d : Fin 2) : (s.servo d).kept = s.kept := by simp [State.servo]
@[simp] theorem State.measure_kept (s : State) (d : Fin 2) (ofs : Int) (age : Nat) : (s.measure d ofs age).kept = s.kept := by
  simp [State.measure]
@[simp] theorem State.goWrite_kept (s : State) (r : Reg) (d : Fin 2) (v : Word) : ((s.goWrite r d v).after s).kept = s.kept := by
  simp [State.goWrite]
@[simp] theorem State.latchSnap_kept (s : State) (tb : Nat) (valid : Bool) : (s.latchSnap tb valid).kept = s.kept := by
  simp [State.latchSnap]
@[simp] theorem State.timeCtrlWrite_kept (s : State) (r : Reg) (v : Word) : ((s.timeCtrlWrite r v).after s).kept = s.kept := by
  simp [State.timeCtrlWrite]
@[simp] theorem State.snapWrite_kept (s : State) (r : Reg) (v : Word) : ((s.snapWrite r v).after s).kept = s.kept := by
  simp [State.snapWrite]

@[simp] theorem State.timeWrite_kept (s : State) (r : Reg) (v : Word) : ((s.timeWrite r v).after s).kept = s.kept := by
  unfold State.timeWrite
  dsimp only
  split <;> simp

@[simp] theorem State.timeReadEffect_kept (s : State) (r : Reg) : (s.timeReadEffect r).kept = s.kept := by
  unfold State.timeReadEffect
  dsimp only
  split <;> simp

@[simp] theorem nextKept_execDhold (d : Fin 2) (s : State) : nextKept (execDhold d s) = some s.kept := by simp [execDhold]
@[simp] theorem nextKept_execWtrExpiry (s : State) : nextKept (execWtrExpiry s) = some s.kept := by simp [execWtrExpiry]
@[simp] theorem nextKept_execSfdone (s : State) : nextKept (execSfdone s) = some s.kept := by simp [execSfdone]
@[simp] theorem State.freqLost_kept (s : State) : s.freqLost.kept = s.kept := by simp [State.freqLost]
@[simp] theorem nextKept_execFreqSourceLoss (s : State) : nextKept (execFreqSourceLoss s) = some s.kept := by simp [execFreqSourceLoss]
@[simp] theorem nextKept_execFreqSourceReturn (s : State) : nextKept (execFreqSourceReturn s) = some s.kept := by
  simp [execFreqSourceReturn]
@[simp] theorem nextKept_execFrequencyLoopLock (s : State) : nextKept (execFrequencyLoopLock s) = some s.kept := by
  simp [execFrequencyLoopLock]
@[simp] theorem nextKept_execRclkOutResume (s : State) : nextKept (execRclkOutResume s) = some s.kept := by simp [execRclkOutResume]
@[simp] theorem nextKept_execPpsOut (i : Fin 2) (s : State) : nextKept (execPpsOut i s) = some s.kept := by simp [execPpsOut]
@[simp] theorem nextKept_execTodRx (i : Fin 2) (byte : Byte) (stopOk : Bool) (s : State) :
    nextKept (execTodRx i byte stopOk s) = some s.kept := by simp [execTodRx]
@[simp] theorem State.todDrain_kept (s : State) (i : Fin 2) : (s.todDrain i).kept = s.kept := by simp [State.todDrain]
@[simp] theorem nextKept_execTriggerFire (i : Fin 4) (s : State) : nextKept (execTriggerFire i s) = some s.kept := by simp [execTriggerFire]
@[simp] theorem nextKept_execCapture (i : Fin 6) (rising : Bool) (s : State) : nextKept (execCapture i rising s) = some s.kept := by
  simp [execCapture]
@[simp] theorem nextKept_execPcFreeze (s : State) : nextKept (execPcFreeze s) = some s.kept := by simp [execPcFreeze]

/-! Serial lanes. -/

@[simp] theorem State.laneSettle_kept (s : State) (k : Nat) : (s.laneSettle k).kept = s.kept := by simp [State.laneSettle]
@[simp] theorem State.lanesSettle_kept (s : State) : s.lanesSettle.kept = s.kept := by simp [State.lanesSettle]
@[simp] theorem nextKept_execLaneExitDone (k : Fin 148) (s : State) : nextKept (execLaneExitDone k s) = some s.kept := by
  simp [execLaneExitDone]
@[simp] theorem nextKept_execReceiverAdapted (k : Fin 148) (s : State) : nextKept (execReceiverAdapted k s) = some s.kept := by
  simp [execReceiverAdapted]
@[simp] theorem State.lineCount_kept (s : State) (f : Fld) (k : Nat) : (s.lineCount f k).kept = s.kept := by simp [State.lineCount]

@[simp] theorem State.serRefresh_kept (s : State) (r : Reg) : (s.serRefresh r).kept = s.kept := by
  unfold State.serRefresh
  split <;> simp

@[simp] theorem nextKept_execPrbsLock (k : Fin 148) (s : State) : nextKept (execPrbsLock k s) = some s.kept := by simp [execPrbsLock]
@[simp] theorem nextKept_execPrbsLockLoss (k : Fin 148) (s : State) : nextKept (execPrbsLockLoss k s) = some s.kept := by
  simp [execPrbsLockLoss]
@[simp] theorem State.laneCtrlWrite_kept (s : State) (r : Reg) (v : Word) : ((s.laneCtrlWrite r v).after s).kept = s.kept := by
  simp [State.laneCtrlWrite]
@[simp] theorem State.ffeWrite_kept (s : State) (r : Reg) (v : Word) : ((s.ffeWrite r v).after s).kept = s.kept := by simp [State.ffeWrite]
@[simp] theorem State.prbsWrite_kept (s : State) (r : Reg) (v : Word) : ((s.prbsWrite r v).after s).kept = s.kept := by
  simp [State.prbsWrite]

/-! Uplink ports. -/

@[simp] theorem State.setLanes_kept (s : State) (l n : Nat) (on : Bool) : (s.setLanes l n on).kept = s.kept := by simp [State.setLanes]
@[simp] theorem State.uplinkDown_kept (s : State) (l : Nat) : (s.uplinkDown l).kept = s.kept := by simp [State.uplinkDown]
@[simp] theorem nextKept_execLinkDown (l : Fin 40) (remote : Bool) (s : State) : nextKept (execLinkDown l remote s) = some s.kept := by
  simp [execLinkDown]
@[simp] theorem State.trainTaps_kept (s : State) (l : Nat) : (s.trainTaps l).kept = s.kept := by simp [State.trainTaps]
@[simp] theorem nextKept_execLinkUp (l : Fin 40) (s : State) : nextKept (execLinkUp l s) = some s.kept := by simp [execLinkUp]
@[simp] theorem nextKept_execLinkTrainingFailed (l : Fin 40) (an : Bool) (s : State) :
    nextKept (execLinkTrainingFailed l an s) = some s.kept := by simp [execLinkTrainingFailed]
@[simp] theorem nextKept_execTrainingRestart (_l : Fin 40) (s : State) : nextKept (execTrainingRestart _l s) = some s.kept := by
  simp [execTrainingRestart]
@[simp] theorem State.ctlDrop_kept (s : State) (l : Nat) : (s.ctlDrop l).kept = s.kept := by simp [State.ctlDrop]
@[simp] theorem State.pauseFrame_kept (s : State) (l quanta : Nat) : (s.pauseFrame l quanta).kept = s.kept := by simp [State.pauseFrame]
@[simp] theorem State.pfcFrame_kept (s : State) (l classes : Nat) (quanta : List Nat) : (s.pfcFrame l classes quanta).kept = s.kept := by
  simp [State.pfcFrame]
@[simp] theorem nextKept_execPause (l : Fin 40) (quanta : BitVec 16) (s : State) : nextKept (execPause l quanta s) = some s.kept := by
  simp [execPause]
@[simp] theorem nextKept_execPfc (l : Fin 40) (classes : BitVec 8) (quanta : List (BitVec 16)) (s : State) :
    nextKept (execPfc l classes quanta s) = some s.kept := by simp [execPfc]
@[simp] theorem nextKept_execPauseExpiry (l : Fin 40) (c : Fin 8) (s : State) : nextKept (execPauseExpiry l c s) = some s.kept := by
  simp [execPauseExpiry]
@[simp] theorem nextKept_execPauseRefresh (l : Fin 40) (s : State) : nextKept (execPauseRefresh l s) = some s.kept := by
  simp [execPauseRefresh]
@[simp] theorem State.controlFrame_kept (s : State) (l : Nat) (bs : List Byte) : (s.controlFrame l bs).kept = s.kept := by
  simp [State.controlFrame]
@[simp] theorem State.portCtrlWrite_kept (s : State) (r : Reg) (v : Word) : ((s.portCtrlWrite r v).after s).kept = s.kept := by
  simp [State.portCtrlWrite]
@[simp] theorem State.fcCtrlWrite_kept (s : State) (r : Reg) (v : Word) : ((s.fcCtrlWrite r v).after s).kept = s.kept := by
  simp [State.fcCtrlWrite]
@[simp] theorem State.frerWrite_kept (s : State) (r : Reg) (v : Word) : ((s.frerWrite r v).after s).kept = s.kept := by
  simp [State.frerWrite]
@[simp] theorem State.frerCfgWrite_kept (s : State) (r : Reg) (v : Word) : ((s.frerCfgWrite r v).after s).kept = s.kept := by
  simp [State.frerCfgWrite]

@[simp] theorem State.serWrite_kept (s : State) (r : Reg) (v : Word) : ((s.serWrite r v).after s).kept = s.kept := by
  unfold State.serWrite
  split <;> simp

/-! Ingress. -/

@[simp] theorem State.noteWindow_kept (s : State) (p n : Nat) : (s.noteWindow p n).kept = s.kept := by simp [State.noteWindow]

@[simp] theorem State.joinSwc_kept (s : State) (h : Option Nat) : (s.joinSwc h).kept = s.kept := by
  unfold State.joinSwc
  split <;> simp

@[simp] theorem State.wakeEgress_kept (s : State) (egress : Option Nat) (port : Nat) : (s.wakeEgress egress port).kept = s.kept := by
  unfold State.wakeEgress
  split <;> simp

@[simp] theorem State.admitQueue_kept (s : State) (x : Pkt) (q : Nat) (fseq : Option Nat) : (s.admitQueue x q fseq).1.kept = s.kept := by
  simp [State.admitQueue]

@[simp] theorem State.admitCopy_kept (s : State) (x : Pkt) (egress h : Option Nat) (mk : Nat → Nat → Hdl) :
    (s.admitCopy x egress h mk).1.kept = s.kept := by
  unfold State.admitCopy
  dsimp only
  repeat' split
  all_goals simp

@[simp] theorem State.admitSplit_kept (s : State) (x : Pkt) (q j : Nat) : (s.admitSplit x q j).1.kept = s.kept := by
  unfold State.admitSplit
  dsimp only
  repeat' split
  all_goals simp

@[simp] theorem State.admitRecords_kept (s : State) (x : Pkt) (h : Option Nat) (rs : List ExRec) :
    (s.admitRecords x h rs).kept = s.kept := by
  induction rs generalizing s with
  | nil => rfl
  | cons r rs ih => simp [State.admitRecords, ih]

@[simp] theorem State.colourOf_kept (s : State) (x : Pkt) (v : Verdict) : (s.colourOf x v).1.kept = s.kept := by
  unfold State.colourOf
  dsimp only
  repeat' split
  all_goals simp

@[simp] theorem State.forwardOn_kept (s : State) (x : Pkt) (v : Verdict) (q : Nat) (copies : List ExRec) :
    (s.forwardOn x v q copies).kept = s.kept := by
  unfold State.forwardOn
  dsimp only
  repeat' split
  all_goals simp

@[simp] theorem State.forwardPkt_kept (s : State) (x : Pkt) (v : Verdict) : (s.forwardPkt x v).kept = s.kept := by
  unfold State.forwardPkt
  dsimp only
  split <;> simp

@[simp] theorem State.enter_kept (s : State) (x0 : Pkt) : (s.enter x0).kept = s.kept := by
  unfold State.enter
  dsimp only
  split <;> simp

@[simp] theorem State.rxLevel_kept (s : State) (p : Nat) : (s.rxLevel p).kept = s.kept := by simp [State.rxLevel]
@[simp] theorem State.returnCredit_kept (s : State) (p cls len : Nat) : (s.returnCredit p cls len).kept = s.kept := by
  simp [State.returnCredit]
@[simp] theorem State.receive_kept (s : State) (x : Pkt) (cls : Nat) : (s.receive x cls).kept = s.kept := by simp [State.receive]

@[simp] theorem State.nextWaiting_kept (s : State) (p : Nat) : (s.nextWaiting p).kept = s.kept := by
  unfold State.nextWaiting
  split <;> simp

@[simp] theorem State.macReceive_kept (s : State) (l : Nat) (bs : List Byte) : (s.macReceive l bs).1.kept = s.kept := by
  unfold State.macReceive
  dsimp only
  repeat' split
  all_goals simp

@[simp] theorem nextKept_execPacketArrival (p : Packet) (s : State) : nextKept (execPacketArrival p s) = some s.kept := by
  have h := s.macReceive_kept p.port p.bytes
  unfold execPacketArrival
  dsimp only
  repeat' split
  all_goals simp_all

/-! Bond links. -/

@[simp] theorem State.bondClear_kept (s : State) (b st : Nat) : (s.bondClear b st).kept = s.kept := by simp [State.bondClear]
@[simp] theorem State.bondDown_kept (s : State) (b : Nat) : (s.bondDown b).kept = s.kept := by simp [State.bondDown]
@[simp] theorem nextKept_execBondRetrain (b : Fin 4) (s : State) : nextKept (execBondRetrain b s) = some s.kept := by simp [execBondRetrain]
@[simp] theorem nextKept_execBondTrainDone (b : Fin 4) (s : State) : nextKept (execBondTrainDone b s) = some s.kept := by
  simp [execBondTrainDone]
@[simp] theorem nextKept_execCaps (b : Fin 4) (m : CapsMsg) (s : State) : nextKept (execCaps b m s) = some s.kept := by simp [execCaps]
@[simp] theorem nextKept_execFlitError (b : Fin 4) (s : State) : nextKept (execFlitError b s) = some s.kept := by simp [execFlitError]
@[simp] theorem nextKept_execNak (b : Fin 4) (seq : BitVec 10) (s : State) : nextKept (execNak b seq s) = some s.kept := by simp [execNak]
@[simp] theorem nextKept_execDown (b : Fin 4) (s : State) : nextKept (execDown b s) = some s.kept := by simp [execDown]
@[simp] theorem nextKept_execForwardedClockLoss (b : Fin 4) (s : State) : nextKept (execForwardedClockLoss b s) = some s.kept := by
  simp [execForwardedClockLoss]
@[simp] theorem nextKept_execFlitAlignmentLoss (b lane : Fin 4) (s : State) : nextKept (execFlitAlignmentLoss b lane s) = some s.kept := by
  simp [execFlitAlignmentLoss]
@[simp] theorem nextKept_execCredit (b : Fin 4) (m : CreditMsg) (s : State) : nextKept (execCredit b m s) = some s.kept := by
  simp [execCredit]
@[simp] theorem nextKept_execStop (b : Fin 4) (classes : BitVec 8) (s : State) : nextKept (execStop b classes s) = some s.kept := by
  simp [execStop]
@[simp] theorem nextKept_execGo (b : Fin 4) (classes : BitVec 8) (s : State) : nextKept (execGo b classes s) = some s.kept := by
  simp [execGo]
@[simp] theorem nextKept_execTimeExchange (b : Fin 4) (s : State) : nextKept (execTimeExchange b s) = some s.kept := by
  simp [execTimeExchange]
@[simp] theorem State.bondMeasure_kept (s : State) (b : Nat) (ofs : Int) : (s.bondMeasure b ofs).kept = s.kept := by
  simp [State.bondMeasure]

@[simp] theorem nextKept_execTime (b : Fin 4) (m : TimeMsg) (s : State) : nextKept (execTime b m s) = some s.kept := by
  unfold execTime
  dsimp only
  repeat' split
  all_goals simp

@[simp] theorem State.rmtStart_kept (s : State) : s.rmtStart.kept = s.kept := by
  unfold State.rmtStart
  dsimp only
  repeat' split
  all_goals simp

@[simp] theorem State.sysWrite_kept (s : State) (r : Reg) (v : Word) : ((s.sysWrite r v).after s).kept = s.kept := by
  unfold State.sysWrite
  split <;> simp

@[simp] theorem nextKept_execRemoteTimeout (s : State) : nextKept (execRemoteTimeout s) = some s.kept := by simp [execRemoteTimeout]

/-! Loads and stores. -/

@[simp] theorem nextKept_execLd (e : Eng) (d a : RegNo) (imm : BitVec 20) (s : State) : nextKept (execLd e d a imm s) = some s.kept := by
  simp [execLd]
@[simp] theorem nextKept_execSt (e : Eng) (d a : RegNo) (imm : BitVec 20) (s : State) : nextKept (execSt e d a imm s) = some s.kept := by
  simp [execSt]

@[simp] theorem nextKept_execRst (e : Eng) (d a : RegNo) (imm : BitVec 20) (s : State) : nextKept (execRst e d a imm s) = some s.kept := by
  refine nextKept_instr _ _ _ _ _ _ ?_
  dsimp only
  repeat' split
  all_goals simp

@[simp] theorem nextKept_execMfsr (e : Eng) (d a : RegNo) (imm : BitVec 20) (s : State) :
    nextKept (execMfsr e d a imm s) = some s.kept := by simp [execMfsr]
@[simp] theorem nextKept_execMtsr (e : Eng) (d a : RegNo) (imm : BitVec 20) (s : State) :
    nextKept (execMtsr e d a imm s) = some s.kept := by simp [execMtsr]
@[simp] theorem nextKept_execSel (e : Eng) (f : FmtA) (s : State) : nextKept (execSel e f s) = some s.kept := by simp [execSel]

/-! Maps and grants. -/

@[simp] theorem State.mapTrunc_kept (s : State) (t : Fin 64) : (s.mapTrunc t).kept = s.kept := by simp [State.mapTrunc]
@[simp] theorem State.appendGrant_kept (s : State) (t : Fin 64) (g : Grant) (k : Tree → Tree) : (s.appendGrant t g k).kept = s.kept := by
  simp [State.appendGrant]

@[simp] theorem nextKept_execGrant (e : Eng) (f : FmtX) (s : State) : nextKept (execGrant e f s) = some s.kept := by
  refine nextKept_instr _ _ _ _ _ _ ?_
  dsimp only
  split <;> simp

@[simp] theorem nextKept_execRpt (e : Eng) (f : FmtX) (s : State) : nextKept (execRpt e f s) = some s.kept := by
  refine nextKept_instr _ _ _ _ _ _ ?_
  dsimp only
  split <;> simp

@[simp] theorem nextKept_execArd (e : Eng) (f : FmtX) (s : State) : nextKept (execArd e f s) = some s.kept := by simp [execArd]
@[simp] theorem nextKept_execTrd (e : Eng) (f : FmtX) (s : State) : nextKept (execTrd e f s) = some s.kept := by simp [execTrd]
@[simp] theorem nextKept_execQuiet (e : Eng) (f : FmtX) (s : State) : nextKept (execQuiet e f s) = some s.kept := by simp [execQuiet]
@[simp] theorem nextKept_execRssi (e : Eng) (f : FmtX) (s : State) : nextKept (execRssi e f s) = some s.kept := by simp [execRssi]

/-! Terminals. -/

@[simp] theorem State.zeroTerm_kept (s : State) (t u : Nat) : (s.zeroTerm t u).kept = s.kept := by simp [State.zeroTerm]
@[simp] theorem State.putCtx_kept (s : State) (t u : Nat) (c : LineCtx) : (s.putCtx t u c).kept = s.kept := by simp [State.putCtx]
@[simp] theorem State.rangingTime_kept (s : State) (t : Fin 64) (u eqd : Nat) : (s.rangingTime t u eqd).kept = s.kept := by
  simp [State.rangingTime]
@[simp] theorem State.dropOwn_kept (s : State) (t : Fin 64) (u : Nat) : (s.dropOwn t u).kept = s.kept := by simp [State.dropOwn]
@[simp] theorem State.switchLost_kept (s : State) (t : Nat) : (s.switchLost t).kept = s.kept := by simp [State.switchLost]
@[simp] theorem State.switchEnd_kept (s : State) (t : Fin 64) : (s.switchEnd t).kept = s.kept := by simp [State.switchEnd]
@[simp] theorem State.restore_kept (s : State) (t : Fin 64) (u : Nat) (c : LineCtx) : (s.restore t u c).kept = s.kept := by
  simp [State.restore]
@[simp] theorem State.switchStart_kept (s : State) (t : Fin 64) : (s.switchStart t).kept = s.kept := by simp [State.switchStart]
@[simp] theorem State.saveSlot_kept (s : State) (t : Fin 64) : (s.saveSlot t).kept = s.kept := by simp [State.saveSlot]
@[simp] theorem State.moveCtx_kept (t : Fin 64) (peer slot : Nat) (s : State) (u : Nat) :
    (State.moveCtx t peer slot s u).kept = s.kept := by simp [State.moveCtx]
@[simp] theorem nextKept_execPortExchange (t : Fin 64) (s : State) : nextKept (execPortExchange t s) = some s.kept := by
  simp [execPortExchange]
@[simp] theorem nextKept_execProtLaneTimeout (t : Fin 64) (s : State) : nextKept (execProtLaneTimeout t s) = some s.kept := by
  simp [execProtLaneTimeout]
@[simp] theorem nextKept_execRwaitExpiry (t : Fin 64) (u : Fin 256) (s : State) : nextKept (execRwaitExpiry t u s) = some s.kept := by
  simp [execRwaitExpiry]

@[simp] theorem State.onTerm_kept (s : State) (e : Eng) (a : Word) (range : Bool) (k : State → Fin 64 → Nat → Res)
    (h : ∀ s t u, ((k s t u).after s).kept = s.kept) : ((s.onTerm e a range k).after s).kept = s.kept := by
  simp [State.onTerm, h]

@[simp] theorem nextKept_execTmact (e : Eng) (d a b : RegNo) (s : State) : nextKept (execTmact e d a b s) = some s.kept := by
  refine nextKept_instr _ _ _ _ _ _ ?_
  dsimp only
  split
  · rfl
  · exact State.image_kept _ _ _ _ _ (fun ws => by simp)

@[simp] theorem State.withdraw_kept (s : State) (t u : Nat) : (s.withdraw t u).kept = s.kept := by simp [State.withdraw]
@[simp] theorem State.tabTidy_kept (s : State) : s.tabTidy.kept = s.kept := by simp [State.tabTidy]
@[simp] theorem nextKept_execTmdeact (e : Eng) (d a b : RegNo) (s : State) : nextKept (execTmdeact e d a b s) = some s.kept := by
  simp [execTmdeact]
@[simp] theorem nextKept_execTmeqd (e : Eng) (d a b : RegNo) (s : State) : nextKept (execTmeqd e d a b s) = some s.kept := by
  simp [execTmeqd]

@[simp] theorem nextKept_execPlsend (e : Eng) (d a b : RegNo) (s : State) : nextKept (execPlsend e d a b s) = some s.kept := by
  refine nextKept_instr _ _ _ _ _ _ ?_
  dsimp only
  split
  · rfl
  · exact State.image_kept _ _ _ _ _ (fun ws => by simp)

@[simp] theorem nextKept_execPlrecv (e : Eng) (d a b : RegNo) (s : State) : nextKept (execPlrecv e d a b s) = some s.kept := by
  refine nextKept_instr _ _ _ _ _ _ ?_
  dsimp only
  split
  · rfl
  · split
    · rfl
    · refine State.dest_kept _ _ _ _ _ (fun x => State.touch_kept _ _ _ _ (fun s => ?_))
      split <;> simp

/-! The optical line. -/

@[simp] theorem State.treeAcc_kept (s : State) (t : Nat) (f : TAcc → TAcc) : (s.treeAcc t f).kept = s.kept := by simp [State.treeAcc]
@[simp] theorem State.treeMark_kept (s : State) (t bitNo : Nat) : (s.treeMark t bitNo).kept = s.kept := by simp [State.treeMark]
@[simp] theorem State.setRogue_kept (s : State) (t : Nat) (f : Fld) (mark : Nat) : (s.setRogue t f mark).kept = s.kept := by
  simp [State.setRogue]
@[simp] theorem State.strayEvent_kept (s : State) (t : Fin 64) : (s.strayEvent t).kept = s.kept := by simp [State.strayEvent]
@[simp] theorem State.strayCheck_kept (s : State) (t : Fin 64) : (s.strayCheck t).kept = s.kept := by simp [State.strayCheck]
@[simp] theorem State.bondDegSet_kept (s : State) (t : Nat) : (s.bondDegSet t).kept = s.kept := by simp [State.bondDegSet]
@[simp] theorem State.bondDegClear_kept (s : State) (t : Nat) : (s.bondDegClear t).kept = s.kept := by simp [State.bondDegClear]

@[simp] theorem State.noteSkew_kept (s : State) (t : Fin 64) (u : Nat) (offset : Int) : (s.noteSkew t u offset).1.kept = s.kept := by
  unfold State.noteSkew
  dsimp only
  repeat' split
  all_goals simp

@[simp] theorem State.burstMissed_kept (s : State) (t : Fin 64) (x : Expect) : (s.burstMissed t x).kept = s.kept := by
  unfold State.burstMissed
  split <;> simp

@[simp] theorem State.closeDue_kept (s : State) (t : Fin 64) : (s.closeDue t).kept = s.kept := by simp [State.closeDue]
@[simp] theorem State.putExpect_kept (s : State) (t : Fin 64) (i : Nat) (x : Expect) : (s.putExpect t i x).kept = s.kept := by
  simp [State.putExpect]

@[simp] theorem State.takePloam_kept (t : Fin 64) (x : Expect) (b : Burst) (s : State) (m : List Byte) :
    (State.takePloam t x b s m).kept = s.kept := by
  unfold State.takePloam
  split <;> simp

@[simp] theorem State.takeReport_kept (t : Fin 64) (s : State) (r : BitVec 12 × BitVec 24) : (State.takeReport t s r).kept = s.kept := by
  simp [State.takeReport]
@[simp] theorem State.takeFrame_kept (t : Fin 64) (u : Nat) (merged : Bool) (s : State) (x : UpFrame) :
    (State.takeFrame t u merged s x).kept = s.kept := by simp [State.takeFrame]
@[simp] theorem State.drift_kept (s : State) (t : Fin 64) (u : Nat) (off : Int) : (s.drift t u off).kept = s.kept := by simp [State.drift]
@[simp] theorem State.confirm_kept (s : State) (t : Fin 64) (u : Nat) (off : Int) : (s.confirm t u off).kept = s.kept := by
  simp [State.confirm]

@[simp] theorem State.burstSeen_kept (s : State) (t : Fin 64) (x : Expect) (b : Burst) : (s.burstSeen t x b).kept = s.kept := by
  unfold State.burstSeen
  dsimp only
  split <;> simp

@[simp] theorem State.burstJudged_kept (s : State) (t : Fin 64) (x : Expect) (b : Burst) : (s.burstJudged t x b).kept = s.kept := by
  unfold State.burstJudged
  split <;> simp

@[simp] theorem State.measureRange_kept (s : State) (t : Fin 64) (u : Nat) (off : Int) : (s.measureRange t u off).kept = s.kept := by
  simp [State.measureRange]

@[simp] theorem State.quietBurst_kept (s : State) (t : Fin 64) (i : Nat) (x : Expect) (b : Burst) :
    (s.quietBurst t i x b).kept = s.kept := by
  unfold State.quietBurst
  dsimp only
  repeat' split
  all_goals simp

@[simp] theorem State.grantBurst_kept (s : State) (t : Fin 64) (i : Nat) (x : Expect) (b : Burst) :
    (s.grantBurst t i x b).kept = s.kept := by simp [State.grantBurst]
@[simp] theorem State.foundBetween_kept (s : State) (t : Fin 64) (b : Burst) : (s.foundBetween t b).kept = s.kept := by
  simp [State.foundBetween]

@[simp] theorem nextKept_execBurstReceived (t : Fin 64) (b : Burst) (s : State) : nextKept (execBurstReceived t b s) = some s.kept := by
  unfold execBurstReceived
  dsimp only
  repeat' split
  all_goals simp

@[simp] theorem nextKept_execBurstMissing (t : Fin 64) (s : State) : nextKept (execBurstMissing t s) = some s.kept := by
  unfold execBurstMissing
  dsimp only
  repeat' split
  all_goals simp

@[simp] theorem nextKept_execDriftHoldoffEnd (t : Fin 64) (u : Fin 256) (s : State) :
    nextKept (execDriftHoldoffEnd t u s) = some s.kept := by simp [execDriftHoldoffEnd]
@[simp] theorem nextKept_execSdChange (t : Fin 64) (level : Bool) (s : State) : nextKept (execSdChange t level s) = some s.kept := by
  simp [execSdChange]
@[simp] theorem nextKept_execCont (t : Fin 64) (s : State) : nextKept (execCont t s) = some s.kept := by simp [execCont]
@[simp] theorem nextKept_execLos (t : Fin 64) (s : State) : nextKept (execLos t s) = some s.kept := by simp [execLos]

@[simp] theorem nextKept_execBurstRst (t : Fin 64) (s : State) : nextKept (execBurstRst t s) = some s.kept := by
  unfold execBurstRst
  dsimp only
  repeat' split
  all_goals simp

@[simp] theorem nextKept_execRssiTrig (t : Fin 64) (s : State) : nextKept (execRssiTrig t s) = some s.kept := by
  unfold execRssiTrig
  dsimp only
  repeat' split
  all_goals simp

/-! Frames of the trees. -/

@[simp] theorem State.expectBurst_kept (t : Fin 64) (s : State) (gs : List (Nat × Grant)) : (State.expectBurst t s gs).kept = s.kept := by
  unfold State.expectBurst
  split <;> simp

@[simp] theorem State.expectWindow_kept (t : Fin 64) (s : State) (w : Window) : (State.expectWindow t s w).kept = s.kept := by
  unfold State.expectWindow
  split <;> simp

@[simp] theorem State.expectMap_kept (t : Fin 64) (w : Option Window) (s : State) (bursts : List (List (Nat × Grant))) :
    (State.expectMap t w s bursts).kept = s.kept := by
  have h : ∀ (s : State) (b : List (Nat × Grant)), (match b with
      | (_, g) :: _ => if g.quiet.isSome then s else s.expectBurst t b
      | [] => s).kept = s.kept := by
    intro s b; split <;> simp
  unfold State.expectMap
  dsimp only
  split
  · exact State.kept_foldl _ h _ _
  · exact (State.kept_foldl _ h _ _).trans ((State.expectWindow_kept ..).trans (State.kept_foldl _ h _ _))

@[simp] theorem State.sealPloam_kept (s : State) (t : Fin 64) (m : Nat × List Byte) : (s.sealPloam t m).1.kept = s.kept := by
  unfold State.sealPloam
  split <;> simp

@[simp] theorem State.takePloams_kept (t : Fin 64) (n : Nat) (q : List (Nat × List Byte)) (s : State) :
    (State.takePloams t n q s).1.kept = s.kept := by
  induction q generalizing n s with
  | nil => cases n <;> rfl
  | cons m q ih =>
    cases n with
    | zero => rfl
    | succ n =>
      have h := s.sealPloam_kept t m
      unfold State.takePloams
      generalize s.sealPloam t m = a at h
      obtain ⟨s1, _ | bs⟩ := a <;> simp_all

@[simp] theorem State.framePloams_kept (s : State) (t : Fin 64) : (s.framePloams t).1.kept = s.kept := by simp [State.framePloams]

@[simp] theorem State.sendFrame_kept (s : State) (t : Fin 64) : (s.sendFrame t).kept = s.kept := by
  unfold State.sendFrame
  dsimp only
  repeat' split
  all_goals simp

@[simp] theorem State.deadlineTrap_kept (s : State) (t : Fin 64) : (s.deadlineTrap t).kept = s.kept := by simp [State.deadlineTrap]
@[simp] theorem nextKept_execDeadline (t : Fin 64) (s : State) : nextKept (execDeadline t s) = some s.kept := by simp [execDeadline]
@[simp] theorem State.frameEntry_kept (s : State) (t : Fin 64) : (s.frameEntry t).kept = s.kept := by simp [State.frameEntry]

@[simp] theorem State.treeBoundary_kept (s : State) (t : Fin 64) : (s.treeBoundary t).kept = s.kept := by
  unfold State.treeBoundary
  dsimp only
  split <;> simp

@[simp] theorem State.ageAllocs_kept (s : State) : s.ageAllocs.kept = s.kept := by simp [State.ageAllocs]

/-! Registers of the trees. -/

@[simp] theorem State.loopCodewords_kept (s : State) (t : Nat) : (s.loopCodewords t).kept = s.kept := by simp [State.loopCodewords]
@[simp] theorem State.alignCheck_kept (s : State) (t : Fin 64) (pos errs count : Nat) : (s.alignCheck t pos errs count).kept = s.kept := by
  simp [State.alignCheck]
@[simp] theorem nextKept_execAlignCheck (t : Fin 64) (pos errs count : Nat) (s : State) :
    nextKept (execAlignCheck t pos errs count s) = some s.kept := by simp [execAlignCheck]
@[simp] theorem State.dsCtrlWrite_kept (s : State) (r : Reg) (v : Word) : ((s.dsCtrlWrite r v).after s).kept = s.kept := by
  simp [State.dsCtrlWrite]
@[simp] theorem State.bondCtrlWrite_kept (s : State) (r : Reg) (v : Word) : ((s.bondCtrlWrite r v).after s).kept = s.kept := by
  simp [State.bondCtrlWrite]
@[simp] theorem State.protWrite_kept (s : State) (r : Reg) (v0 : Word) : ((s.protWrite r v0).after s).kept = s.kept := by
  simp [State.protWrite]

@[simp] theorem State.ponWrite_kept (s : State) (r : Reg) (v : Word) : ((s.ponWrite r v).after s).kept = s.kept := by
  unfold State.ponWrite
  split <;> simp

/-! The governor. -/

@[simp] theorem State.publishEnergy_kept (s : State) : s.publishEnergy.kept = s.kept := by simp [State.publishEnergy]
@[simp] theorem State.publishDemand_kept (s : State) : s.publishDemand.kept = s.kept := by simp [State.publishDemand]
@[simp] theorem State.countRing_kept (s : State) : s.countRing.kept = s.kept := by simp [State.countRing]
@[simp] theorem State.govern_kept (s : State) (capacity : Nat) : (s.govern capacity).kept = s.kept := by simp [State.govern]
@[simp] theorem State.ungoverned_kept (s : State) : s.ungoverned.kept = s.kept := by simp [State.ungoverned]
@[simp] theorem State.govEvents_kept (s : State) : s.govEvents.kept = s.kept := by simp [State.govEvents]
@[simp] theorem State.govBoundary_kept (s : State) : s.govBoundary.kept = s.kept := by simp [State.govBoundary]

@[simp] theorem nextKept_execVddStep (s : State) : nextKept (execVddStep s) = some s.kept := by
  unfold execVddStep
  split <;> simp

@[simp] theorem nextKept_execVddCoreSettled (s : State) : nextKept (execVddCoreSettled s) = some s.kept := by
  unfold execVddCoreSettled
  split <;> simp

@[simp] theorem State.throttleDown_kept (s : State) : s.throttleDown.kept = s.kept := by simp [State.throttleDown]
@[simp] theorem nextKept_execThrottleStep (s : State) : nextKept (execThrottleStep s) = some s.kept := by simp [execThrottleStep]
@[simp] theorem State.ltDown_kept (s : State) : s.ltDown.kept = s.kept := by simp [State.ltDown]
@[simp] theorem State.ltUp_kept (s : State) : s.ltUp.kept = s.kept := by simp [State.ltUp]
@[simp] theorem nextKept_execLtStep (s : State) : nextKept (execLtStep s) = some s.kept := by simp [execLtStep]
@[simp] theorem State.govCtrlWrite_kept (s : State) (r : Reg) (v : Word) : ((s.govCtrlWrite r v).after s).kept = s.kept :=
  judge_kept _ _ _ _ _ (by simp)
@[simp] theorem State.wattsWrite_kept (s : State) (r : Reg) (v : Word) : ((s.wattsWrite r v).after s).kept = s.kept :=
  judge_kept _ _ _ _ _ (by simp)

/-! Faults and the safe state. -/

@[simp] theorem State.discardPackets_kept (s : State) : s.discardPackets.kept = s.kept := (OnlyData.discardPackets ..).kept
@[simp] theorem State.kept_stopWork (s : State) : s.stopWork.kept = s.kept := by simp [State.stopWork]
@[simp] theorem State.ringsLasersOff_kept (s : State) : s.ringsLasersOff.kept = s.kept := by simp [State.ringsLasersOff]
@[simp] theorem State.enterSafe_kept (s : State) : s.enterSafe.kept = s.kept := by simp [State.enterSafe]
@[simp] theorem State.fatal_kept (s : State) (source cause addr : Nat) (who : Who) (access status detail : Nat) :
    (s.fatal source cause addr who access status detail).kept = s.kept := by simp [State.fatal]
@[simp] theorem nextKept_execSafeReqN (widthNs : Nat) (s : State) : nextKept (execSafeReqN widthNs s) = some s.kept := by
  simp [execSafeReqN]

@[simp] theorem State.takeReadings_kept (s : State) (i : Nat) (xs : List (Option (BitVec 12))) : (s.takeReadings i xs).kept = s.kept := by
  induction xs generalizing s i with
  | nil => rfl
  | cons x xs ih => cases x <;> simp [State.takeReadings, ih]

@[simp] theorem State.sensorFailed_kept (s : State) (i : Nat) : (s.sensorFailed i).kept = s.kept := by simp [State.sensorFailed]
@[simp] theorem State.judgeSensors_kept (s : State) (temps : List (Option (BitVec 12))) : (s.judgeSensors temps).kept = s.kept := by
  simp [State.judgeSensors]

@[simp] theorem State.showHottest_kept (s : State) : s.showHottest.kept = s.kept := by
  unfold State.showHottest
  split <;> simp

@[simp] theorem State.trip_kept (s before : State) : (s.trip before).kept = s.kept := by simp [State.trip]
@[simp] theorem State.throttle_kept (s : State) (tripped : Bool) : (s.throttle tripped).kept = s.kept := by simp [State.throttle]
@[simp] theorem State.ceiling_kept (s : State) : s.ceiling.kept = s.kept := by simp [State.ceiling]
@[simp] theorem State.hotRefresh_kept (s : State) (k : Nat) : (s.hotRefresh k).kept = s.kept := by simp [State.hotRefresh]
@[simp] theorem nextKept_execSensorUpdate (temps : List (Option (BitVec 12))) (s : State) :
    nextKept (execSensorUpdate temps s) = some s.kept := by simp [execSensorUpdate]

@[simp] theorem State.vmon_kept (s : State) (i : Nat) (x : Option (BitVec 12)) : (s.vmon i x).kept = s.kept := by
  unfold State.vmon
  split <;> simp

@[simp] theorem State.vmons_kept (s : State) (i : Nat) (xs : List (Option (BitVec 12))) : (s.vmons i xs).kept = s.kept := by
  induction xs generalizing s i with
  | nil => rfl
  | cons x xs ih => simp [State.vmons, ih]

@[simp] theorem nextKept_execVmonUpdate (mvs : List (Option (BitVec 12))) (s : State) : nextKept (execVmonUpdate mvs s) = some s.kept := by
  simp [execVmonUpdate]
@[simp] theorem State.domainFailed_kept (s : State) (q cause : Nat) : (s.domainFailed q cause).kept = s.kept := by simp [State.domainFailed]
@[simp] theorem nextKept_execSupplyLost (q : Dom) (s : State) : nextKept (execSupplyLost q s) = some s.kept := by simp [execSupplyLost]
@[simp] theorem nextKept_execStageStall (stage : Nat) (s : State) : nextKept (execStageStall stage s) = some s.kept := by
  simp [execStageStall]
@[simp] theorem State.safeKeyWrite_kept (s : State) (who : Who) (v : Word) : (s.safeKeyWrite who v).kept = s.kept := by
  simp [State.safeKeyWrite]

@[simp] theorem State.recSelWrite_kept (s : State) (r : Reg) (v : Word) : (s.recSelWrite r v).kept = s.kept := by
  unfold State.recSelWrite
  dsimp only
  split <;> simp

@[simp] theorem State.fltWrite_kept (s : State) (r : Reg) (who : Who) (v : Word) : ((s.fltWrite r who v).after s).kept = s.kept := by
  unfold State.fltWrite
  split <;> simp

/-! Units and engine control. -/

@[simp] theorem State.treeEnable_kept (s : State) (t : Nat) : (s.treeEnable t).kept = s.kept := by simp [State.treeEnable]
@[simp] theorem State.snapLost_kept (s : State) (t : Nat) : (s.snapLost t).kept = s.kept := by simp [State.snapLost]
@[simp] theorem State.treeDisable_kept (s : State) (t : Fin 64) : (s.treeDisable t).kept = s.kept := by simp [State.treeDisable]
@[simp] theorem State.portEnable_kept (s : State) (l : Nat) : (s.portEnable l).kept = s.kept := by simp [State.portEnable]
@[simp] theorem State.portDisable_kept (s : State) (l : Nat) : (s.portDisable l).kept = s.kept := by simp [State.portDisable]
@[simp] theorem State.bondEnable_kept (s : State) (b : Nat) : (s.bondEnable b).kept = s.kept := by simp [State.bondEnable]
@[simp] theorem State.bondDisable_kept (s : State) (b : Nat) : (s.bondDisable b).kept = s.kept := by simp [State.bondDisable]
@[simp] theorem State.unitSet_kept (s : State) (a : Word) (on : Bool) : (s.unitSet a on).kept = s.kept := by simp [State.unitSet]
@[simp] theorem State.unit_kept (s : State) (e : Eng) (a b : Word) : ((s.unit e a b).after s).kept = s.kept := by simp [State.unit]
@[simp] theorem nextKept_execUnitEnable (e : Eng) (d a b : RegNo) (s : State) : nextKept (execUnitEnable e d a b s) = some s.kept := by
  simp [execUnitEnable]
@[simp] theorem nextKept_execUnitDisable (e : Eng) (d a b : RegNo) (s : State) : nextKept (execUnitDisable e d a b s) = some s.kept := by
  simp [execUnitDisable]
@[simp] theorem State.engctl_kept (s : State) (e : Eng) (a b : Word) : ((s.engctl e a b).after s).kept = s.kept := by simp [State.engctl]
@[simp] theorem nextKept_execEngctlHalt (e : Eng) (d a b : RegNo) (s : State) : nextKept (execEngctlHalt e d a b s) = some s.kept := by
  simp [execEngctlHalt]
@[simp] theorem nextKept_execEngctlStart (e : Eng) (d a b : RegNo) (s : State) : nextKept (execEngctlStart e d a b s) = some s.kept := by
  simp [execEngctlStart]
@[simp] theorem State.haltSeen_kept (t : Nat) (s : State) (e : Eng) : (State.haltSeen t s e).kept = s.kept := by simp [State.haltSeen]
@[simp] theorem nextKept_execEngctlHaltDone (t : Fin 64) (s : State) : nextKept (execEngctlHaltDone t s) = some s.kept := by
  simp [execEngctlHaltDone]
@[simp] theorem State.serviceTrap_kept (s : State) (c : Fin 2) (vec : Nat) : (s.serviceTrap c vec).kept = s.kept := by
  simp [State.serviceTrap]
@[simp] theorem nextKept_execTick (c : Fin 2) (s : State) : nextKept (execTick c s) = some s.kept := by simp [execTick]

@[simp] theorem nextKept_execPatchScrub (e : Eng) (corrected : Bool) (s : State) :
    nextKept (execPatchScrub e corrected s) = some s.kept := by
  unfold execPatchScrub
  dsimp only
  repeat' split
  all_goals simp

/-! Loads of programs, maps and patches. -/

@[simp] theorem State.loadSource_kept (s : State) (e : Eng) (ws : List Word) (src : Transfer) (k : List Word → Res)
    (h : ∀ ws, ((k ws).after s).kept = s.kept) : ((s.loadSource e ws src k).after s).kept = s.kept := by
  unfold State.loadSource
  dsimp only
  repeat' split
  all_goals simp [h]

@[simp] theorem State.loadChecks_kept (s : State) (e : Eng) (a : Word) (targets : Nat → Bool) (offset : Bool) (k : List Word → Res)
    (h : ∀ ws, ((k ws).after s).kept = s.kept) : ((s.loadChecks e a targets offset k).after s).kept = s.kept := by
  simp [State.loadChecks, h]

@[simp] theorem nextKept_execGpload (e : Eng) (d a b : RegNo) (src : Transfer) (s : State) :
    nextKept (execGpload e d a b src s) = some s.kept := by
  refine nextKept_instr _ _ _ _ _ _ (State.loadChecks_kept _ _ _ _ _ _ (fun ws => ?_))
  dsimp only
  split
  · rfl
  · split
    · rfl
    · exact State.loadSource_kept _ _ _ _ _ (fun image => by split <;> simp)

@[simp] theorem nextKept_execFbmap (e : Eng) (d a b : RegNo) (src : Transfer) (s : State) :
    nextKept (execFbmap e d a b src s) = some s.kept := by
  refine nextKept_instr _ _ _ _ _ _ (State.loadChecks_kept _ _ _ _ _ _ (fun ws => State.loadSource_kept _ _ _ _ _ (fun image => ?_)))
  split
  · split <;> rfl
  · rfl

@[simp] theorem State.install_kept (p : Patch) (s : State) (n : Nat) : (State.install p s n).kept = s.kept := by simp [State.install]
@[simp] theorem State.deliverPatch_kept (p : Patch) (s : State) (n : Nat) : (State.deliverPatch p s n).kept = s.kept := by
  simp [State.deliverPatch]
@[simp] theorem State.refusePatch_kept (s : State) (n : Nat) : (s.refusePatch n).kept = s.kept := by simp [State.refusePatch]

@[simp] theorem nextKept_execPatch (e : Eng) (d a b : RegNo) (src : Transfer) (s : State) :
    nextKept (execPatch e d a b src s) = some s.kept :=
  nextKept_instr _ _ _ _ _ _ (State.loadChecks_kept _ _ _ _ _ _ (fun ws => State.loadSource_kept _ _ _ _ _ (fun image => by simp)))

/-! Counters. -/

@[simp] theorem nextKept_execCntrd (e : Eng) (f : FmtA) (s : State) : nextKept (execCntrd e f s) = some s.kept := by simp [execCntrd]
@[simp] theorem nextKept_execPcsel (e : Eng) (d a b : RegNo) (s : State) : nextKept (execPcsel e d a b s) = some s.kept := by
  simp [execPcsel]
@[simp] theorem nextKept_execPcrd (e : Eng) (d a b : RegNo) (s : State) : nextKept (execPcrd e d a b s) = some s.kept := by simp [execPcrd]
@[simp] theorem State.perfTick_kept (s : State) (n : Nat) : (s.perfTick n).kept = s.kept := by simp [State.perfTick]
@[simp] theorem nextKept_execPerfCounterWrap (i : Fin 256) (s : State) : nextKept (execPerfCounterWrap i s) = some s.kept := by
  simp [execPerfCounterWrap]

/-! Rings and fragments. -/

@[simp] theorem State.modRing_kept (s : State) (r : Nat) (f : RingSt → RingSt) : (s.modRing r f).kept = s.kept := by simp [State.modRing]
@[simp] theorem State.ringErr_kept (s : State) (r : Nat) (st : Status) : (s.ringErr r st).kept = s.kept := by simp [State.ringErr]
@[simp] theorem State.rejectRing_kept (s : State) (r : Nat) (st : Status) : (s.rejectRing r st).kept = s.kept := by simp [State.rejectRing]
@[simp] theorem State.ringOff_kept (s : State) (r : Nat) : (s.ringOff r).kept = s.kept := by simp [State.ringOff]
@[simp] theorem State.applyEnable_kept (s : State) (r : Nat) : (s.applyEnable r).kept = s.kept := by simp [State.applyEnable]
@[simp] theorem State.ringCtrlWrite_kept (s : State) (r : Reg) (v : Word) : (s.ringCtrlWrite r v).kept = s.kept := by
  simp [State.ringCtrlWrite]
@[simp] theorem State.tailWrite_kept (s : State) (r : Reg) (v : Word) : (s.tailWrite r v).kept = s.kept := by simp [State.tailWrite]
@[simp] theorem State.ringFixedWrite_kept (s : State) (r : Reg) (v : Word) : (s.ringFixedWrite r v).kept = s.kept := by
  simp [State.ringFixedWrite]
@[simp] theorem State.negotiateFails_kept (s : State) (st : Status) : (s.negotiateFails st).kept = s.kept := by simp [State.negotiateFails]
@[simp] theorem State.negotiate_kept (s : State) : s.negotiate.kept = s.kept := by simp [State.negotiate]
@[simp] theorem State.negotiateWrite_kept (s : State) (r : Reg) (v : Word) : (s.negotiateWrite r v).kept = s.kept := by
  simp [State.negotiateWrite]

@[simp] theorem State.hciWrite_kept (s : State) (r : Reg) (v : Word) : (s.hciWrite r v).kept = s.kept := by
  unfold State.hciWrite
  split <;> simp

@[simp] theorem State.ringSignal_kept (s : State) (r : Nat) : (s.ringSignal r).kept = s.kept := by simp [State.ringSignal]
@[simp] theorem State.ringCount_kept (s : State) (r : Nat) (st : Status) (noint : Bool) : (s.ringCount r st noint).kept = s.kept := by
  simp [State.ringCount]
@[simp] theorem State.complete_kept (s : State) (r counter : Nat) (c : Fin 2) (st : Status) (index last results : Nat) (noint : Bool) :
    (s.complete r counter c st index last results noint).kept = s.kept := by simp [State.complete]
@[simp] theorem State.headNext_kept (s : State) (r : Nat) : (s.headNext r).kept = s.kept := by simp [State.headNext]
@[simp] theorem State.served_kept (s : State) (c : Fin 2) (r : Nat) : (s.served c r).kept = s.kept := by simp [State.served]
@[simp] theorem State.badDesc_kept (s : State) (c : Fin 2) (r : Nat) (noint : Bool) : (s.badDesc c r noint).kept = s.kept := by
  simp [State.badDesc]

@[simp] theorem State.fragPatch_kept (s : State) (c : Fin 2) : (s.fragPatch c).kept = s.kept := by
  unfold State.fragPatch
  split <;> simp

@[simp] theorem State.startFragment_kept (s : State) (c : Fin 2) (r : Fin 16) (d : Desc) (slots : List (BitVec 64)) :
    (s.startFragment c r d slots).kept = s.kept := by simp [State.startFragment]

@[simp] theorem nextKept_execDescriptorFetch (c : Fin 2) (desc frag : List (BitVec 64)) (s : State) :
    nextKept (execDescriptorFetch c desc frag s) = some s.kept := by
  unfold execDescriptorFetch
  split <;> simp

@[simp] theorem nextKept_execHostMemoryError (c : Fin 2) (desc : List (BitVec 64)) (err : HostErr) (s : State) :
    nextKept (execHostMemoryError c desc err s) = some s.kept := by
  unfold execHostMemoryError
  split <;> simp

@[simp] theorem State.afterFragment_kept (s : State) (r : Nat) : (s.afterFragment r).kept = s.kept := by simp [State.afterFragment]
@[simp] theorem State.liftBarriers_kept (s : State) : s.liftBarriers.kept = s.kept := by simp [State.liftBarriers]

@[simp] theorem nextKept_execFragmentCompletion (c : Fin 2) (s : State) : nextKept (execFragmentCompletion c s) = some s.kept := by
  unfold execFragmentCompletion
  dsimp only
  repeat' split
  all_goals simp

@[simp] theorem nextKept_execFragmentTimeout (c : Fin 2) (s : State) : nextKept (execFragmentTimeout c s) = some s.kept := by
  simp [execFragmentTimeout]
@[simp] theorem nextKept_execRingInterrupt (r : Fin 16) (s : State) : nextKept (execRingInterrupt r s) = some s.kept := by
  simp [execRingInterrupt]
@[simp] theorem nextKept_execBusMasterDisable (d3hot : Bool) (s : State) : nextKept (execBusMasterDisable d3hot s) = some s.kept := by
  simp [execBusMasterDisable]
@[simp] theorem nextKept_execBusMasterEnable (s : State) : nextKept (execBusMasterEnable s) = some s.kept := by simp [execBusMasterEnable]
@[simp] theorem State.ringsReset_kept (s : State) : s.ringsReset.kept = s.kept := by simp [State.ringsReset]
@[simp] theorem State.functionClear_kept (s : State) : s.functionClear.kept = s.kept := by simp [State.functionClear]
@[simp] theorem State.functionReset_kept (s : State) : s.functionReset.kept = s.kept := by simp [State.functionReset]
@[simp] theorem nextKept_execPciePerstN (s : State) : nextKept (execPciePerstN s) = some s.kept := by simp [execPciePerstN]
@[simp] theorem nextKept_execFunctionLevelReset (s : State) : nextKept (execFunctionLevelReset s) = some s.kept := by
  simp [execFunctionLevelReset]
@[simp] theorem nextKept_execPciePerstNRelease (s : State) : nextKept (execPciePerstNRelease s) = some s.kept := by
  simp [execPciePerstNRelease]

/-! Power states. -/

@[simp] theorem State.forget_kept (s : State) (q : Nat) : (s.forget q).kept = s.kept := by simp [State.forget]
@[simp] theorem State.restoredTree_kept (s : State) (t : Nat) : (s.restoredTree t).kept = s.kept := by simp [State.restoredTree]
@[simp] theorem State.restoreGroup_kept (s : State) (q : Nat) : (s.restoreGroup q).kept = s.kept := by simp [State.restoreGroup]
@[simp] theorem nextKept_execDoze (q : Fin 25) (s : State) : nextKept (execDoze q s) = some s.kept := by simp [execDoze]
@[simp] theorem State.turnOff_kept (s : State) (q : Nat) : (s.turnOff q).kept = s.kept := by simp [State.turnOff]
@[simp] theorem State.rest_kept (s : State) : s.rest.kept = s.kept := by simp [State.rest]
@[simp] theorem State.disableAll_kept (s : State) : s.disableAll.kept = s.kept := by simp [State.disableAll]
@[simp] theorem State.deepStart_kept (s : State) : s.deepStart.kept = s.kept := by simp [State.deepStart]

@[simp] theorem State.flushAll_kept (s : State) : s.flushAll.kept = s.kept := by
  have h : ∀ (s : State) (o : Option Nat), (match o with
      | some p => (s.inc F.BUF_PORT_STATE_FLUSHED 1 p).count 0x02 p 0x05 1
      | none => s).kept = s.kept := by
    intro s o; cases o <;> simp
  unfold State.flushAll
  refine (State.kept_foldl _ (fun s e => ?_) _ _).trans (State.kept_foldl _ (fun s e => ?_) _ _)
  · exact (h _ _).trans (State.release_kept ..)
  · split <;> simp

@[simp] theorem State.saveAll_kept (s : State) : s.saveAll.kept = s.kept := by simp [State.saveAll]
@[simp] theorem State.deepFrame_kept (s : State) : s.deepFrame.kept = s.kept := by simp [State.deepFrame]
@[simp] theorem State.haltEngine_kept (s : State) (t : Nat) : (s.haltEngine t).kept = s.kept := by simp [State.haltEngine]
@[simp] theorem State.domainsOff_kept (s : State) : s.domainsOff.kept = s.kept := by simp [State.domainsOff]
@[simp] theorem State.sleepWrite_kept (s : State) (r : Reg) (v : Word) : ((s.sleepWrite r v).after s).kept = s.kept := by
  simp [State.sleepWrite]

@[simp] theorem State.pwrWrite_kept (s : State) (r : Reg) (v : Word) : ((s.pwrWrite r v).after s).kept = s.kept := by
  unfold State.pwrWrite
  split <;> simp

@[simp] theorem State.pwrReadEffect_kept (s : State) (r : Reg) : (s.pwrReadEffect r).kept = s.kept := by
  unfold State.pwrReadEffect
  split <;> simp

@[simp] theorem State.countResidency_kept (s : State) : s.countResidency.kept = s.kept := by simp [State.countResidency]

/-! Egress. -/

@[simp] theorem State.dropRecords_kept (s : State) (x : Hdl) : (s.dropRecords x).kept = s.kept := by simp [State.dropRecords]
@[simp] theorem State.dropBad_kept (s : State) (h : Nat) (x : Hdl) (out : Nat) : (s.dropBad h x out).kept = s.kept := by
  simp [State.dropBad]

@[simp] theorem State.deliver_kept (s : State) (h : Nat) (x : Hdl) (out : Nat) : (s.deliver h x out).kept = s.kept := by
  unfold State.deliver
  dsimp only
  repeat' split
  all_goals simp

@[simp] theorem nextKept_execReseqRelease (out : Fin 14) (port : Nat) (s : State) :
    nextKept (execReseqRelease out port s) = some s.kept := by
  unfold execReseqRelease
  split <;> simp

@[simp] theorem State.countSent_kept (s : State) (g len : Nat) (stomp : Bool) : (s.countSent g len stomp).kept = s.kept := by
  simp [State.countSent]

@[simp] theorem State.sendOut_kept (s : State) (g u gem : Nat) (enc : Bool) (x : Hdl) : (s.sendOut g u gem enc x).kept = s.kept := by
  unfold State.sendOut
  dsimp only
  repeat' split
  all_goals simp

@[simp] theorem nextKept_execHandleRelease (h : Nat) (s : State) : nextKept (execHandleRelease h s) = some s.kept := by
  unfold execHandleRelease
  dsimp only
  repeat' split
  all_goals simp

/-! Telemetry. -/

@[simp] theorem State.telFlag_kept (s : State) (f : Fld) : (s.telFlag f).kept = s.kept := by simp [State.telFlag]
@[simp] theorem State.ringPut_kept (s : State) (ws : List Word) : (s.ringPut ws).kept = s.kept := by simp [State.ringPut]

@[simp] theorem State.ringRecord_kept (s : State) (ws : List Word) : ((s.ringRecord ws).getD s).kept = s.kept := by
  unfold State.ringRecord
  dsimp only
  repeat' split
  all_goals simp

@[simp] theorem State.ownPacket_kept (s : State) (bs : List Byte) (q seq : Nat) : ((s.ownPacket bs q seq).getD s).kept = s.kept := by
  have h := s.takeHdl_kept
  unfold State.ownPacket
  generalize s.takeHdl = a at h
  obtain ⟨s1, _ | k⟩ := a
  · rfl
  · have h' := s1.seekBuf_kept 0 false 4 (s1.poolFor bs.length)
    dsimp only
    generalize s1.seekBuf 0 false 4 (s1.poolFor bs.length) = b at h'
    cases b <;> simp_all

theorem State.ownPacket_of_eq {s t : State} {bs : List Byte} {q seq : Nat} (h : s.ownPacket bs q seq = some t) : t.kept = s.kept := by
  simpa [h] using s.ownPacket_kept bs q seq

@[simp] theorem State.sillagePump_kept (n : Nat) (s : State) : (State.sillagePump n s).kept = s.kept := by
  induction n generalizing s with
  | zero => rfl
  | succ n ih =>
    unfold State.sillagePump
    split
    · rfl
    · refine State.kept_of_ite rfl ?_
      split
      · refine State.kept_of_ite (by simp [ih]) ?_
        split
        · next h => simp [ih, State.ownPacket_of_eq h]
        · rfl
      · split
        · next h => simp [ih, State.ownPacket_of_eq h]
        · rfl

@[simp] theorem State.closeFrame_kept (s : State) : s.closeFrame.kept = s.kept := by simp [State.closeFrame]

@[simp] theorem State.frameRecord_kept (s : State) (ws : List Word) : ((s.frameRecord ws).getD s).kept = s.kept := by
  unfold State.frameRecord
  split <;> simp

@[simp] theorem State.telRecord_kept (s : State) (ws : List Word) : (s.telRecord ws).1.kept = s.kept := by
  have h : ((if s.telUplink then s.frameRecord ws else s.ringRecord ws).getD s).kept = s.kept := by split <;> simp
  unfold State.telRecord
  generalize (if s.telUplink then s.frameRecord ws else s.ringRecord ws) = a at h
  cases a <;> (split <;> simp_all)

theorem State.telRecord_of_eq {s t : State} {ws : List Word} {b : Bool} (h : s.telRecord ws = (t, b)) : t.kept = s.kept := by
  simpa [h] using s.telRecord_kept ws

@[simp] theorem State.epochOut_kept (s : State) : s.epochOut.kept = s.kept := by
  unfold State.epochOut
  split <;> rename_i h <;> simp [State.telRecord_of_eq h]

@[simp] theorem State.deviceOut_kept (s : State) : s.deviceOut.kept = s.kept := by
  unfold State.deviceOut
  split <;> rename_i h <;> simp [State.telRecord_of_eq h]

@[simp] theorem State.treeOut_kept (s : State) (t : Nat) : (s.treeOut t).kept = s.kept := by
  unfold State.treeOut
  dsimp only
  split <;> rename_i h <;> simp [State.telRecord_of_eq h]

@[simp] theorem State.portOut_kept (s : State) (p : Nat) : (s.portOut p).kept = s.kept := by
  unfold State.portOut
  dsimp only
  split <;> rename_i h <;> simp [State.telRecord_of_eq h]

@[simp] theorem State.eventOut_kept (s : State) (e : Nat × Word) : (s.eventOut e).kept = s.kept := by
  unfold State.eventOut
  split <;> rename_i h <;> simp [State.telRecord_of_eq h]

@[simp] theorem State.eventsOut_kept (s : State) : s.eventsOut.kept = s.kept := by simp [State.eventsOut]
@[simp] theorem State.coalEnd_kept (s : State) : s.coalEnd.kept = s.kept := by simp [State.coalEnd]
@[simp] theorem State.epoch_kept (s : State) : s.epoch.kept = s.kept := by simp [State.epoch]

@[simp] theorem nextKept_execQueueSample (q : Fin 262144) (s : State) : nextKept (execQueueSample q s) = some s.kept := by
  unfold execQueueSample
  dsimp only
  split
  · rfl
  · split
    · simp
    · split <;> rename_i h <;> simp [State.telRecord_of_eq h]

@[simp] theorem State.telStart_kept (s : State) : s.telStart.kept = s.kept := by simp [State.telStart]
@[simp] theorem State.telCtrlWrite_kept (s : State) (r : Reg) (v : Word) : ((s.telCtrlWrite r v).after s).kept = s.kept :=
  judge_kept _ _ _ _ _ (by simp)
@[simp] theorem State.telRdWrite_kept (s : State) (r : Reg) (v : Word) : ((s.telRdWrite r v).after s).kept = s.kept := by
  simp [State.telRdWrite]
@[simp] theorem State.freezeWrite_kept (s : State) (v : Word) : ((s.freezeWrite v).after s).kept = s.kept := by simp [State.freezeWrite]

@[simp] theorem State.telWrite_kept (s : State) (r : Reg) (v : Word) : ((s.telWrite r v).after s).kept = s.kept := by
  unfold State.telWrite
  split <;> simp

/-! The clock. -/

@[simp] theorem State.cycles_kept (s : State) (n : Nat) : (s.cycles n).kept = s.kept := by simp [State.cycles]
@[simp] theorem State.advance_kept (s : State) (n : Nat) : (s.advance n).kept = s.kept := by simp [State.advance]
@[simp] theorem State.nextFrame_kept (s : State) : s.nextFrame.kept = s.kept := by simp [State.nextFrame]
@[simp] theorem nextKept_execFrameBoundary (s : State) : nextKept (execFrameBoundary s) = some s.kept := by simp [execFrameBoundary]

/-! Arithmetic. -/

@[simp] theorem State.nextKept_regOp (e : Eng) (i : Instr) (d a b : RegNo) (cost : Nat) (f : Word → Word → Bool → Alu) (s : State) :
    nextKept (State.regOp e i d a b cost f s) = some s.kept := by simp [State.regOp]

@[simp] theorem State.nextKept_immOp (e : Eng) (i : Instr) (d a : RegNo) (f : Word → Word → Option Alu) (s : State) :
    nextKept (State.immOp e i d a f s) = some s.kept := by
  refine nextKept_instr _ _ _ _ _ _ ?_
  split <;> simp

@[simp] theorem nextKept_execAdd (e : Eng) (d a b : RegNo) (s : State) : nextKept (execAdd e d a b s) = some s.kept := by simp [execAdd]
@[simp] theorem nextKept_execAdc (e : Eng) (d a b : RegNo) (s : State) : nextKept (execAdc e d a b s) = some s.kept := by simp [execAdc]
@[simp] theorem nextKept_execSub (e : Eng) (d a b : RegNo) (s : State) : nextKept (execSub e d a b s) = some s.kept := by simp [execSub]
@[simp] theorem nextKept_execSbc (e : Eng) (d a b : RegNo) (s : State) : nextKept (execSbc e d a b s) = some s.kept := by simp [execSbc]
@[simp] theorem nextKept_execAnd (e : Eng) (d a b : RegNo) (s : State) : nextKept (execAnd e d a b s) = some s.kept := by simp [execAnd]
@[simp] theorem nextKept_execOr (e : Eng) (d a b : RegNo) (s : State) : nextKept (execOr e d a b s) = some s.kept := by simp [execOr]
@[simp] theorem nextKept_execXor (e : Eng) (d a b : RegNo) (s : State) : nextKept (execXor e d a b s) = some s.kept := by simp [execXor]
@[simp] theorem nextKept_execAndn (e : Eng) (d a b : RegNo) (s : State) : nextKept (execAndn e d a b s) = some s.kept := by simp [execAndn]
@[simp] theorem nextKept_execShl (e : Eng) (d a b : RegNo) (s : State) : nextKept (execShl e d a b s) = some s.kept := by simp [execShl]
@[simp] theorem nextKept_execShr (e : Eng) (d a b : RegNo) (s : State) : nextKept (execShr e d a b s) = some s.kept := by simp [execShr]
@[simp] theorem nextKept_execSar (e : Eng) (d a b : RegNo) (s : State) : nextKept (execSar e d a b s) = some s.kept := by simp [execSar]
@[simp] theorem nextKept_execRor (e : Eng) (d a b : RegNo) (s : State) : nextKept (execRor e d a b s) = some s.kept := by simp [execRor]
@[simp] theorem nextKept_execMul (e : Eng) (d a b : RegNo) (s : State) : nextKept (execMul e d a b s) = some s.kept := by simp [execMul]
@[simp] theorem nextKept_execMulhu (e : Eng) (d a b : RegNo) (s : State) : nextKept (execMulhu e d a b s) = some s.kept := by
  simp [execMulhu]
@[simp] theorem nextKept_execMinu (e : Eng) (d a b : RegNo) (s : State) : nextKept (execMinu e d a b s) = some s.kept := by simp [execMinu]
@[simp] theorem nextKept_execMaxu (e : Eng) (d a b : RegNo) (s : State) : nextKept (execMaxu e d a b s) = some s.kept := by simp [execMaxu]
@[simp] theorem nextKept_execCmp (e : Eng) (d a b : RegNo) (s : State) : nextKept (execCmp e d a b s) = some s.kept := by simp [execCmp]
@[simp] theorem nextKept_execTst (e : Eng) (d a b : RegNo) (s : State) : nextKept (execTst e d a b s) = some s.kept := by simp [execTst]
@[simp] theorem nextKept_execClz (e : Eng) (d a b : RegNo) (s : State) : nextKept (execClz e d a b s) = some s.kept := by simp [execClz]
@[simp] theorem nextKept_execPopc (e : Eng) (d a b : RegNo) (s : State) : nextKept (execPopc e d a b s) = some s.kept := by simp [execPopc]
@[simp] theorem nextKept_execDivu (e : Eng) (d a b : RegNo) (s : State) : nextKept (execDivu e d a b s) = some s.kept := by simp [execDivu]
@[simp] theorem nextKept_execRemu (e : Eng) (d a b : RegNo) (s : State) : nextKept (execRemu e d a b s) = some s.kept := by simp [execRemu]
@[simp] theorem nextKept_execAddi (e : Eng) (d a : RegNo) (imm : BitVec 20) (s : State) :
    nextKept (execAddi e d a imm s) = some s.kept := by simp [execAddi]
@[simp] theorem nextKept_execCmpi (e : Eng) (d a : RegNo) (imm : BitVec 20) (s : State) :
    nextKept (execCmpi e d a imm s) = some s.kept := by simp [execCmpi]
@[simp] theorem nextKept_execAndi (e : Eng) (d a : RegNo) (imm : BitVec 20) (s : State) :
    nextKept (execAndi e d a imm s) = some s.kept := by simp [execAndi]
@[simp] theorem nextKept_execOri (e : Eng) (d a : RegNo) (imm : BitVec 20) (s : State) : nextKept (execOri e d a imm s) = some s.kept := by
  simp [execOri]
@[simp] theorem nextKept_execXori (e : Eng) (d a : RegNo) (imm : BitVec 20) (s : State) :
    nextKept (execXori e d a imm s) = some s.kept := by simp [execXori]
@[simp] theorem nextKept_execShi (e : Eng) (d a : RegNo) (imm : BitVec 20) (s : State) : nextKept (execShi e d a imm s) = some s.kept := by
  simp [execShi]
@[simp] theorem nextKept_execBfx (e : Eng) (d a : RegNo) (imm : BitVec 20) (s : State) : nextKept (execBfx e d a imm s) = some s.kept := by
  simp [execBfx]
@[simp] theorem nextKept_execBfi (e : Eng) (d a : RegNo) (imm : BitVec 20) (s : State) : nextKept (execBfi e d a imm s) = some s.kept := by
  simp [execBfi]
@[simp] theorem nextKept_execLil (e : Eng) (d : RegNo) (imm : BitVec 25) (s : State) : nextKept (execLil e d imm s) = some s.kept := by
  simp [execLil]
@[simp] theorem nextKept_execLih (e : Eng) (d : RegNo) (imm : BitVec 25) (s : State) : nextKept (execLih e d imm s) = some s.kept := by
  simp [execLih]

/-! Firmware images and revocations. -/

@[simp] theorem State.logUpdate_kept (s : State) (origin fwver : Nat) : (s.logUpdate origin fwver).kept = s.kept := by
  simp [State.logUpdate]
@[simp] theorem State.runPlinth_kept (s : State) (ws : List Word) (trial : Bool) (slot : Option (Fin 2)) :
    (s.runPlinth ws trial slot).kept = s.kept := by simp [State.runPlinth]
@[simp] theorem State.mirrorLog_kept (s : State) (ok : Bool) : (s.mirrorLog ok).kept = s.kept := by simp [State.mirrorLog]
@[simp] theorem nextKept_execLogMirror (ok : Bool) (s : State) : nextKept (execLogMirror ok s) = some s.kept := by simp [execLogMirror]
@[simp] theorem nextKept_execSense (e : Eng) (d a b : RegNo) (s : State) : nextKept (execSense e d a b s) = some s.kept := by
  simp [execSense]
@[simp] theorem nextKept_execLogw (e : Eng) (d a b : RegNo) (s : State) : nextKept (execLogw e d a b s) = some s.kept := by simp [execLogw]
@[simp] theorem State.openBytes_kept (s : State) (a n : Nat) : (s.openBytes a n).kept = s.kept := by simp [State.openBytes]

@[simp] theorem nextKept_execFlash (e : Eng) (d a b : RegNo) (responds : Bool) (s : State) :
    nextKept (execFlash e d a b responds s) = some s.kept := by
  refine nextKept_instr _ _ _ _ _ _ (State.image_kept _ _ _ _ _ (fun ws => ?_))
  cases responds <;> simp

/-- The part with more of its keys revoked. -/
def Chip.revoking (c : Chip) (m : BitVec 4) : Chip := { c with keysRevoked := c.keysRevoked ||| m }

theorem Chip.revoking_zero (c : Chip) : c.revoking 0 = c := by simp [Chip.revoking]

theorem Chip.revoked_and_revoking (c : Chip) (m : BitVec 4) : c.keysRevoked &&& (c.revoking m).keysRevoked = c.keysRevoked := by
  ext i
  simpa [Chip.revoking] using Or.inl

/-- The queue and the part k are those of s, but for keys of the part that may have been revoked since. -/
def State.KeptButRevoked (s : State) (k : List Instr × Chip) : Prop := ∃ m, k = (s.pending, s.chip.revoking m)

theorem State.KeptButRevoked.of_kept {s : State} {k : List Instr × Chip} (h : k = s.kept) : s.KeptButRevoked k :=
  ⟨0, by rw [h, Chip.revoking_zero]; rfl⟩

theorem State.revoke_keptButRevoked (s : State) (a : Nat) : s.KeptButRevoked (s.revoke a).2.kept := by
  unfold State.revoke
  split
  · exact .of_kept rfl
  · dsimp only
    split
    · exact .of_kept rfl
    · split
      · exact .of_kept rfl
      · split
        · exact .of_kept rfl
        · exact ⟨_, State.logUpdate_kept ..⟩

@[simp] theorem State.stage_kept (s : State) (k : Fin 2) (origin : Nat) : (s.stage k origin).2.kept = s.kept := by
  unfold State.stage
  dsimp only
  repeat' split
  all_goals simp

@[simp] theorem State.confirmTrial_kept (s : State) (origin : Nat) : (s.confirmTrial origin).2.kept = s.kept := by
  unfold State.confirmTrial
  dsimp only
  repeat' split
  all_goals simp

theorem State.update_keptButRevoked (s : State) (ws : List Word) : s.KeptButRevoked (s.update ws).2.kept := by
  unfold State.update
  dsimp only
  split
  · exact .of_kept rfl
  · split
    · exact .of_kept (State.stage_kept ..)
    · split
      · exact .of_kept (State.confirmTrial_kept ..)
      · split
        · exact State.revoke_keptButRevoked ..
        · split <;> exact .of_kept rfl

theorem State.updateAt_keptButRevoked (s : State) (e : Eng) (a : Word) : s.KeptButRevoked ((s.updateAt e a).after s).kept := by
  unfold State.updateAt State.image
  dsimp only
  split
  · exact .of_kept rfl
  · split
    · exact .of_kept rfl
    · split
      · exact .of_kept rfl
      · have h := s.update_keptButRevoked (s.memRange e a.toNat 4)
        split
        · next heq => rwa [heq] at h
        · exact .of_kept rfl

/-- Each row of UPDATE does the work its operand names. -/
theorem instr_updateAt_keptButRevoked (e : Eng) (i : Instr) (a : RegNo) (s : State) :
    ∃ k, nextKept (instr e i [a] 20 (fun s => s.updateAt e (s.reg e a)) s) = some k ∧ s.KeptButRevoked k := by
  refine ⟨_, rfl, ?_⟩
  rcases s.runInstr_kept_cases e i [a] 20 (fun s => s.updateAt e (s.reg e a)) with h | h
  · exact .of_kept h
  · rw [h]; exact s.updateAt_keptButRevoked e (s.reg e a)

/-! Reset and start-up. -/

@[simp] theorem State.cold_kept (s : State) : s.cold.kept = s.kept := by simp [State.cold]
@[simp] theorem State.fullReset_kept (s : State) (cause : ResetCause) : (s.fullReset cause).kept = s.kept := by simp [State.fullReset]
@[simp] theorem State.powerCycle_kept (s : State) : s.powerCycle.kept = s.kept := by simp [State.powerCycle]
@[simp] theorem nextKept_execPowerOn (s : State) : nextKept (execPowerOn s) = some s.kept := by simp [execPowerOn]
@[simp] theorem nextKept_execAonBrownout (s : State) : nextKept (execAonBrownout s) = some s.kept := by simp [execAonBrownout]
@[simp] theorem nextKept_execResetNAssert (widthNs : Nat) (s : State) : nextKept (execResetNAssert widthNs s) = some s.kept := by
  simp [execResetNAssert]
@[simp] theorem nextKept_execResetNRelease (boot : BitVec 2) (i2ca : BitVec 3) (s : State) :
    nextKept (execResetNRelease boot i2ca s) = some s.kept := by simp [execResetNRelease]
@[simp] theorem nextKept_execPorDone (s : State) : nextKept (execPorDone s) = some s.kept := by simp [execPorDone]
@[simp] theorem nextKept_execAliveToggle (s : State) : nextKept (execAliveToggle s) = some s.kept := by simp [execAliveToggle]
@[simp] theorem State.rstWrite_kept (s : State) (who : Who) (v : Word) : (s.rstWrite who v).kept = s.kept := by simp [State.rstWrite]
@[simp] theorem State.phaseStatus_kept (s : State) (st : Nat) : (s.phaseStatus st).kept = s.kept := by simp [State.phaseStatus]
@[simp] theorem State.phaseOpen_kept (s : State) : s.phaseOpen.kept = s.kept := by simp [State.phaseOpen]
@[simp] theorem State.phaseFatal_kept (s : State) (source : Nat) : (s.phaseFatal source).kept = s.kept := by simp [State.phaseFatal]
@[simp] theorem State.degrade_kept (s : State) (st : Status) : (s.degrade st).kept = s.kept := by simp [State.degrade]
@[simp] theorem State.bootDone_kept (s : State) : s.bootDone.kept = s.kept := by simp [State.bootDone]
@[simp] theorem State.afterMemory_kept (s : State) : s.afterMemory.kept = s.kept := by simp [State.afterMemory]
@[simp] theorem nextKept_execPhaseFuses (ok : Bool) (s : State) : nextKept (execPhaseFuses ok s) = some s.kept := by simp [execPhaseFuses]
@[simp] theorem nextKept_execPhaseClocks (ok : Bool) (s : State) : nextKept (execPhaseClocks ok s) = some s.kept := by
  simp [execPhaseClocks]
@[simp] theorem State.subsystem_kept (s : State) : s.subsystem.kept = s.kept := by simp [State.subsystem]
@[simp] theorem State.deepRestore_kept (s : State) : s.deepRestore.kept = s.kept := by simp [State.deepRestore]
@[simp] theorem nextKept_execPhaseSram (ok : Bool) (s : State) : nextKept (execPhaseSram ok s) = some s.kept := by simp [execPhaseSram]
@[simp] theorem nextKept_execPhaseStackmem (ok : Bool) (s : State) : nextKept (execPhaseStackmem ok s) = some s.kept := by
  simp [execPhaseStackmem]
@[simp] theorem State.endTrial_kept (s : State) : s.endTrial.kept = s.kept := by simp [State.endTrial]

@[simp] theorem nextKept_execPhaseFirmware (src : Transfer) (s : State) : nextKept (execPhaseFirmware src s) = some s.kept := by
  unfold execPhaseFirmware
  dsimp only
  repeat' split
  all_goals simp

@[simp] theorem nextKept_execBootImageTimeout (s : State) : nextKept (execBootImageTimeout s) = some s.kept := by
  simp [execBootImageTimeout]

@[simp] theorem State.bootPatch_kept (s : State) (img : Except Status (List Word)) (targets : List Nat) :
    (s.bootPatch img targets).kept = s.kept := by
  unfold State.bootPatch
  repeat' split
  all_goals simp

@[simp] theorem nextKept_execPhasePatch (map cmd : Transfer) (s : State) : nextKept (execPhasePatch map cmd s) = some s.kept := by
  simp [execPhasePatch]
@[simp] theorem nextKept_execDeepSave (s : State) : nextKept (execDeepSave s) = some s.kept := by simp [execDeepSave]
@[simp] theorem State.deepCold_kept (s : State) : s.deepCold.kept = s.kept := by simp [State.deepCold]
@[simp] theorem nextKept_execDeepWake (s : State) : nextKept (execDeepWake s) = some s.kept := by simp [execDeepWake]

/-! The plinth. -/

@[simp] theorem nextKept_execPlinthTick (s : State) : nextKept (execPlinthTick s) = some s.kept := by simp [execPlinthTick]
@[simp] theorem nextKept_execWatchdogExpiry (s : State) : nextKept (execWatchdogExpiry s) = some s.kept := by simp [execWatchdogExpiry]
@[simp] theorem State.freeIn_kept (s : State) (lo hi : Nat) : (s.freeIn lo hi).2.kept = s.kept := by simp [State.freeIn]

@[simp] theorem State.wdogWrite_kept (s : State) (r : Reg) (who : Who) (v : Word) : ((s.wdogWrite r who v).after s).kept = s.kept := by
  have h : (if fv v F.PLN_WDOG_TIMEOUT < 10 then s.freeIn 10 65535 else (fv v F.PLN_WDOG_TIMEOUT, s)).2.kept = s.kept := by
    split <;> simp
  unfold State.wdogWrite
  split
  · rfl
  · dsimp only
    generalize (if fv v F.PLN_WDOG_TIMEOUT < 10 then s.freeIn 10 65535 else (fv v F.PLN_WDOG_TIMEOUT, s)) = a at h
    simpa using h

@[simp] theorem nextKept_execKick (v : Word) (s : State) : nextKept (execKick v s) = some s.kept := by
  have h := s.wdogWrite_kept ⟨.PLN_WDOG, 0, 0, 0⟩ .plinth v
  unfold execKick
  repeat' split
  all_goals simp_all

@[simp] theorem State.mboxWrite_kept (s : State) (v : Word) : ((s.mboxWrite v).after s).kept = s.kept := by simp [State.mboxWrite]

@[simp] theorem State.plnWrite_kept (s : State) (r : Reg) (who : Who) (v : Word) : ((s.plnWrite r who v).after s).kept = s.kept := by
  unfold State.plnWrite
  dsimp only
  repeat' split
  all_goals simp

@[simp] theorem State.reply_kept (s : State) (st : Status) (ws : List Word) : (s.reply st ws).kept = s.kept := by simp [State.reply]

@[simp] theorem State.serve_kept (s : State) (cmd need : Nat) (answer : State → Status × List Word × State)
    (h : ∀ s, (answer s).2.2.kept = s.kept) : (s.serve cmd need answer).kept = s.kept := by
  simp [State.serve, h]

@[simp] theorem nextKept_execInfo (s : State) : nextKept (execInfo s) = some s.kept := by simp [execInfo]
@[simp] theorem nextKept_execLogread (s : State) : nextKept (execLogread s) = some s.kept := by simp [execLogread]
@[simp] theorem nextKept_execSensors (s : State) : nextKept (execSensors s) = some s.kept :=
  congrArg some (State.serve_kept _ _ _ _ (fun s => by dsimp only; split <;> rfl))
@[simp] theorem nextKept_execLogwrite (s : State) : nextKept (execLogwrite s) = some s.kept :=
  congrArg some (State.serve_kept _ _ _ _ (fun s => by dsimp only; split <;> simp))

@[simp] theorem nextKept_execImgwrite (s : State) : nextKept (execImgwrite s) = some s.kept := by
  refine congrArg some (State.serve_kept _ _ _ _ (fun s => ?_))
  dsimp only
  repeat' split
  all_goals simp

@[simp] theorem State.bootImages_kept (s : State) : s.bootImages.2.2.kept = s.kept := by simp [State.bootImages]

@[simp] theorem nextKept_execImgdone (s : State) : nextKept (execImgdone s) = some s.kept := by
  refine congrArg some (State.serve_kept _ _ _ _ (fun s => ?_))
  dsimp only
  repeat' split
  all_goals simp

@[simp] theorem nextKept_execConfirm (s : State) : nextKept (execConfirm s) = some s.kept := by simp [execConfirm]
@[simp] theorem State.plinthReset_kept (s : State) : s.plinthReset.kept = s.kept := by simp [State.plinthReset]
@[simp] theorem nextKept_execReset (s : State) : nextKept (execReset s) = some s.kept := by simp [execReset]
@[simp] theorem nextKept_execMirror (ok : Bool) (s : State) : nextKept (execMirror ok s) = some s.kept := by simp [execMirror]
@[simp] theorem nextKept_execWake (s : State) : nextKept (execWake s) = some s.kept := by simp [execWake]
@[simp] theorem nextKept_execMgmtFrame (frame : List Byte) (s : State) : nextKept (execMgmtFrame frame s) = some s.kept := by
  simp [execMgmtFrame]
@[simp] theorem nextKept_execBmcPowerRestored (s : State) : nextKept (execBmcPowerRestored s) = some s.kept := by
  simp [execBmcPowerRestored]
@[simp] theorem nextKept_execBmcWakeRequest (s : State) : nextKept (execBmcWakeRequest s) = some s.kept := by simp [execBmcWakeRequest]
@[simp] theorem nextKept_execBmcReset (s : State) : nextKept (execBmcReset s) = some s.kept := by simp [execBmcReset]
@[simp] theorem nextKept_execConsoleRx (byte : Byte) (stopOk : Bool) (s : State) :
    nextKept (execConsoleRx byte stopOk s) = some s.kept := by simp [execConsoleRx]
@[simp] theorem nextKept_execI2cTimeout (bus : Nat) (s : State) : nextKept (execI2cTimeout bus s) = some s.kept := by simp [execI2cTimeout]

/-! Accesses of the host. -/

@[simp] theorem State.regReadEffect_kept (s : State) (r : Reg) : (s.regReadEffect r).kept = s.kept := by simp [State.regReadEffect]
@[simp] theorem State.engWrite_kept (s : State) (r : Reg) (v : Word) : (s.engWrite r v).kept = s.kept := by simp [State.engWrite]
@[simp] theorem State.blockWrite_kept (s : State) (who : Who) (r : Reg) (v : Word) : ((s.blockWrite who r v).after s).kept = s.kept := by
  simp [State.blockWrite]

@[simp] theorem State.regWrite_kept (s : State) (who : Who) (r : Reg) (v : Word) : (s.regWrite who r v).kept = s.kept := by
  have h := s.blockWrite_kept who r v
  unfold State.regWrite
  split <;> simp_all

@[simp] theorem State.rejectWrite_kept (s : State) (st : Status) : (s.rejectWrite st).kept = s.kept := by simp [State.rejectWrite]
@[simp] theorem State.domains_kept (s : State) (off : Nat) (who : Who) : (s.domains off who).state.kept = s.kept := by simp [State.domains]

@[simp] theorem State.slotRead_kept (s : State) (who : Who) (off : Nat) (full : Bool) : (s.slotRead who off full).state.kept = s.kept := by
  have h := s.domains_kept off who
  unfold State.slotRead
  dsimp only
  repeat' split
  all_goals simp_all

@[simp] theorem State.slotWrite_kept (s : State) (who : Who) (off : Nat) (v : Word) : (s.slotWrite who off v).state.kept = s.kept := by
  have h := s.domains_kept off who
  unfold State.slotWrite
  repeat' split
  all_goals simp_all

@[simp] theorem State.msixPut_kept (s : State) (off v : Nat) : (s.msixPut off v).kept = s.kept := by
  unfold State.msixPut
  refine State.kept_of_ite rfl (State.kept_of_ite ?_ (State.kept_host ..))
  exact (State.signalVector_kept ..).trans ((State.kept_host ..).trans (State.kept_host ..))

@[simp] theorem State.msixWrite_kept (s : State) (off size : Nat) (v : BitVec 64) : (s.msixWrite off size v).kept = s.kept := by
  simp [State.msixWrite]
@[simp] theorem State.await_kept (s : State) (w : Waiting) : (s.await w).kept = s.kept := by simp [State.await]

@[simp] theorem State.barRead_kept (s : State) (off size : Nat) : (s.barRead off size).kept = s.kept := by
  have h := s.slotRead_kept .host (off - off % 8) (size = 8)
  unfold State.barRead
  dsimp only
  repeat' split
  all_goals simp_all

@[simp] theorem State.barWrite_kept (s : State) (off size : Nat) (v : BitVec 64) : (s.barWrite off size v).kept = s.kept := by
  have h := s.slotWrite_kept .host off (v.truncate 36)
  unfold State.barWrite
  dsimp only
  repeat' split
  all_goals simp_all

@[simp] theorem State.rdregWork_kept (s : State) (e : Eng) (d : RegNo) (off : Nat) : ((s.rdregWork e d off).after s).kept = s.kept := by
  have h := s.slotRead_kept (engWho e) off true
  unfold State.rdregWork
  generalize s.slotRead (engWho e) off true = a at h
  cases a <;> simp_all

@[simp] theorem nextKept_execRdreg (e : Eng) (d a b : RegNo) (s : State) : nextKept (execRdreg e d a b s) = some s.kept := by
  simp [execRdreg]
@[simp] theorem State.stopAfter_kept (s t : State) (e : Eng) : (s.stopAfter t e).kept = t.kept := by simp [State.stopAfter]

@[simp] theorem State.wrregWork_kept (s : State) (e : Eng) (off : Nat) (v : Word) : ((s.wrregWork e off v).after s).kept = s.kept := by
  have h := s.slotWrite_kept (engWho e) off v
  unfold State.wrregWork
  generalize s.slotWrite (engWho e) off v = a at h
  cases a <;> simp_all

@[simp] theorem nextKept_execWrreg (e : Eng) (d a b : RegNo) (s : State) : nextKept (execWrreg e d a b s) = some s.kept := by
  simp [execWrreg]
@[simp] theorem State.nextKept_writeOf (s : State) (id : RegId) (i j : Nat) (v : Word) : nextKept (s.writeOf id i j v) = some s.kept := by
  simp [State.writeOf]
@[simp] theorem nextKept_execDoorbell (r : Fin 16) (v : Word) (s : State) : nextKept (execDoorbell r v s) = some s.kept := by
  simp [execDoorbell]
@[simp] theorem nextKept_execRingEnable (r : Fin 16) (v : Word) (s : State) : nextKept (execRingEnable r v s) = some s.kept := by
  simp [execRingEnable]
@[simp] theorem nextKept_execRingDisable (r : Fin 16) (v : Word) (s : State) : nextKept (execRingDisable r v s) = some s.kept := by
  simp [execRingDisable]
@[simp] theorem nextKept_execNegotiate (v : Word) (s : State) : nextKept (execNegotiate v s) = some s.kept := by simp [execNegotiate]
@[simp] theorem nextKept_execSoftReset (v : Word) (s : State) : nextKept (execSoftReset v s) = some s.kept := by simp [execSoftReset]
@[simp] theorem nextKept_execSafekey (v : Word) (s : State) : nextKept (execSafekey v s) = some s.kept := by simp [execSafekey]
@[simp] theorem nextKept_execFltRecSel (v : Word) (s : State) : nextKept (execFltRecSel v s) = some s.kept := by simp [execFltRecSel]
@[simp] theorem nextKept_execHreq (v : Word) (s : State) : nextKept (execHreq v s) = some s.kept := by simp [execHreq]
@[simp] theorem nextKept_execAck (v : Word) (s : State) : nextKept (execAck v s) = some s.kept := by simp [execAck]
@[simp] theorem nextKept_execPwrGovEn (v : Word) (s : State) : nextKept (execPwrGovEn v s) = some s.kept := by simp [execPwrGovEn]
@[simp] theorem nextKept_execWatts (v : Word) (s : State) : nextKept (execWatts v s) = some s.kept := by simp [execWatts]
@[simp] theorem nextKept_execRest (v : Word) (s : State) : nextKept (execRest v s) = some s.kept := by simp [execRest]
@[simp] theorem nextKept_execDeep (v : Word) (s : State) : nextKept (execDeep v s) = some s.kept := by simp [execDeep]
@[simp] theorem nextKept_execPonDsCtrl (t : Fin 64) (v : Word) (s : State) : nextKept (execPonDsCtrl t v s) = some s.kept := by
  simp [execPonDsCtrl]
@[simp] theorem nextKept_execPonBondCtrl (t : Fin 64) (v : Word) (s : State) : nextKept (execPonBondCtrl t v s) = some s.kept := by
  simp [execPonBondCtrl]
@[simp] theorem nextKept_execPonPmCtrl (t : Fin 64) (v : Word) (s : State) : nextKept (execPonPmCtrl t v s) = some s.kept := by
  simp [execPonPmCtrl]
@[simp] theorem nextKept_execPonPmSel (t : Fin 64) (v : Word) (s : State) : nextKept (execPonPmSel t v s) = some s.kept := by
  simp [execPonPmSel]
@[simp] theorem nextKept_execProtEn (t : Fin 64) (v : Word) (s : State) : nextKept (execProtEn t v s) = some s.kept := by simp [execProtEn]
@[simp] theorem nextKept_execSwitch (t : Fin 64) (v : Word) (s : State) : nextKept (execSwitch t v s) = some s.kept := by simp [execSwitch]
@[simp] theorem nextKept_execDone (t : Fin 64) (v : Word) (s : State) : nextKept (execDone t v s) = some s.kept := by simp [execDone]
@[simp] theorem nextKept_execFwdFlush (v : Word) (s : State) : nextKept (execFwdFlush v s) = some s.kept := by simp [execFwdFlush]
@[simp] theorem nextKept_execBufThr (p : Fin 5) (k : Fin 4) (v : Word) (s : State) : nextKept (execBufThr p k v s) = some s.kept := by
  simp [execBufThr]
@[simp] theorem nextKept_execBufFlush (v : Word) (s : State) : nextKept (execBufFlush v s) = some s.kept := by simp [execBufFlush]
@[simp] theorem nextKept_execAuditGo (v : Word) (s : State) : nextKept (execAuditGo v s) = some s.kept := by simp [execAuditGo]
@[simp] theorem nextKept_execClsExqCtrl (q : Fin 8) (v : Word) (s : State) : nextKept (execClsExqCtrl q v s) = some s.kept := by
  simp [execClsExqCtrl]
@[simp] theorem nextKept_execClsExqHead (q : Fin 8) (v : Word) (s : State) : nextKept (execClsExqHead q v s) = some s.kept := by
  simp [execClsExqHead]
@[simp] theorem nextKept_execCommit (g : Fin 128) (v : Word) (s : State) : nextKept (execCommit g v s) = some s.kept := by simp [execCommit]
@[simp] theorem nextKept_execCancel (g : Fin 128) (v : Word) (s : State) : nextKept (execCancel g v s) = some s.kept := by simp [execCancel]
@[simp] theorem nextKept_execGateDisable (g : Fin 128) (v : Word) (s : State) : nextKept (execGateDisable g v s) = some s.kept := by
  simp [execGateDisable]
@[simp] theorem nextKept_execCipNonceEpoch (v : Word) (s : State) : nextKept (execCipNonceEpoch v s) = some s.kept := by
  simp [execCipNonceEpoch]
@[simp] theorem nextKept_execMeasurement (d : Fin 2) (v : Word) (s : State) : nextKept (execMeasurement d v s) = some s.kept := by
  simp [execMeasurement]
@[simp] theorem nextKept_execRequal (d : Fin 2) (v : Word) (s : State) : nextKept (execRequal d v s) = some s.kept := by simp [execRequal]
@[simp] theorem nextKept_execStep (v : Word) (s : State) : nextKept (execStep v s) = some s.kept := by simp [execStep]
@[simp] theorem nextKept_execTimeSnap (v : Word) (s : State) : nextKept (execTimeSnap v s) = some s.kept := by simp [execTimeSnap]
@[simp] theorem nextKept_execTodTx (i : Fin 2) (v : Word) (s : State) : nextKept (execTodTx i v s) = some s.kept := by simp [execTodTx]
@[simp] theorem nextKept_execPcFrzArm (v : Word) (s : State) : nextKept (execPcFrzArm v s) = some s.kept := by simp [execPcFrzArm]
@[simp] theorem nextKept_execResume (v : Word) (s : State) : nextKept (execResume v s) = some s.kept := by simp [execResume]
@[simp] theorem nextKept_execTelEn (v : Word) (s : State) : nextKept (execTelEn v s) = some s.kept := by simp [execTelEn]
@[simp] theorem nextKept_execTelRd (v : Word) (s : State) : nextKept (execTelRd v s) = some s.kept := by simp [execTelRd]
@[simp] theorem nextKept_execInj1 (k : Fin 148) (v : Word) (s : State) : nextKept (execInj1 k v s) = some s.kept := by simp [execInj1]
@[simp] theorem nextKept_execClr (k : Fin 148) (v : Word) (s : State) : nextKept (execClr k v s) = some s.kept := by simp [execClr]
@[simp] theorem nextKept_execSerPrbsCtrl (k : Fin 148) (v : Word) (s : State) : nextKept (execSerPrbsCtrl k v s) = some s.kept := by
  simp [execSerPrbsCtrl]
@[simp] theorem nextKept_execUplPortCtrl (l : Fin 40) (v : Word) (s : State) : nextKept (execUplPortCtrl l v s) = some s.kept := by
  simp [execUplPortCtrl]
@[simp] theorem nextKept_execUplFcCtrl (l : Fin 40) (v : Word) (s : State) : nextKept (execUplFcCtrl l v s) = some s.kept := by
  simp [execUplFcCtrl]
@[simp] theorem nextKept_execUplFrerCtrl (j : Fin 8) (v : Word) (s : State) : nextKept (execUplFrerCtrl j v s) = some s.kept := by
  simp [execUplFrerCtrl]
@[simp] theorem nextKept_execSysRmtGo (v : Word) (s : State) : nextKept (execSysRmtGo v s) = some s.kept := by simp [execSysRmtGo]
@[simp] theorem nextKept_execSysId (v : Word) (s : State) : nextKept (execSysId v s) = some s.kept := by simp [execSysId]
@[simp] theorem nextKept_execRegisterWrite (off size : Nat) (v : BitVec 64) (s : State) :
    nextKept (execRegisterWrite off size v s) = some s.kept := by simp [execRegisterWrite]
@[simp] theorem nextKept_execRegisterRead (off size : Nat) (s : State) : nextKept (execRegisterRead off size s) = some s.kept := by
  simp [execRegisterRead]
@[simp] theorem nextKept_execTimeCapData (i : Fin 6) (s : State) : nextKept (execTimeCapData i s) = some s.kept := by simp [execTimeCapData]

/-! Control flow. -/

@[simp] theorem nextKept_execBr (e : Eng) (d : RegNo) (imm : BitVec 25) (s : State) : nextKept (execBr e d imm s) = some s.kept := by
  simp [execBr]
@[simp] theorem nextKept_execJal (e : Eng) (d : RegNo) (imm : BitVec 25) (s : State) : nextKept (execJal e d imm s) = some s.kept := by
  simp [execJal]
@[simp] theorem nextKept_execJalr (e : Eng) (d a : RegNo) (imm : BitVec 20) (s : State) :
    nextKept (execJalr e d a imm s) = some s.kept := by simp [execJalr]
@[simp] theorem nextKept_execDbnz (e : Eng) (d a : RegNo) (imm : BitVec 20) (s : State) :
    nextKept (execDbnz e d a imm s) = some s.kept := by simp [execDbnz]
@[simp] theorem State.endFrag_kept (s : State) (c : Fin 2) : (s.endFrag c).kept = s.kept := by simp [State.endFrag]
@[simp] theorem State.commitMap_kept (s : State) (t : Fin 64) : (s.commitMap t).kept = s.kept := by simp [State.commitMap]

@[simp] theorem State.plinthReturn_kept (s : State) : s.plinthReturn.kept = s.kept := by
  unfold State.plinthReturn
  split <;> simp

@[simp] theorem nextKept_execEnd (e : Eng) (f : FmtA) (s : State) : nextKept (execEnd e f s) = some s.kept := by
  unfold execEnd
  split <;> simp

@[simp] theorem nextKept_execWait (e : Eng) (d a : RegNo) (imm : BitVec 20) (s : State) :
    nextKept (execWait e d a imm s) = some s.kept := by simp [execWait]

@[simp] theorem nextKept_execWaitDone (e : Eng) (s : State) : nextKept (execWaitDone e s) = some s.kept := by
  unfold execWaitDone
  dsimp only
  split <;> simp

@[simp] theorem nextKept_execTrap (e : Eng) (d a : RegNo) (imm : BitVec 20) (s : State) :
    nextKept (execTrap e d a imm s) = some s.kept := by simp [execTrap]

/-! Remote accesses. -/

@[simp] theorem State.rmtForward_kept (s : State) (dst hops : Nat) (words : Nat → List Nat) :
    (s.rmtForward dst hops words).kept = s.kept := by
  unfold State.rmtForward
  repeat' split
  all_goals simp

@[simp] theorem State.rmtAnswer_kept (s : State) (src : Nat) (st : Status) (v : Word) : (s.rmtAnswer src st v).kept = s.kept := by
  simp [State.rmtAnswer]

@[simp] theorem State.rmtServe_kept (s : State) (bundle src hops : Nat) (wr : Bool) (off : Nat) (v : Word) :
    (s.rmtServe bundle src hops wr off v).kept = s.kept := by
  have h : (if wr then s.slotWrite .remote off v else s.slotRead .remote off true).state.kept = s.kept := by simp
  unfold State.rmtServe
  generalize (if wr then s.slotWrite .remote off v else s.slotRead .remote off true) = a at h
  cases a <;> simp_all

@[simp] theorem State.rmtEnd_kept (s : State) (status : Nat) (v : Word) : (s.rmtEnd status v).kept = s.kept := by simp [State.rmtEnd]

@[simp] theorem nextKept_execRmt (b : Fin 4) (m : RmtMsg) (s : State) : nextKept (execRmt b m s) = some s.kept := by
  unfold execRmt
  dsimp only
  repeat' split
  all_goals simp

/-! Instructions on time. -/

@[simp] theorem nextKept_execTcmp (e : Eng) (f : FmtA) (s : State) : nextKept (execTcmp e f s) = some s.kept := by simp [execTcmp]
@[simp] theorem nextKept_execTget (e : Eng) (f : FmtA) (s : State) : nextKept (execTget e f s) = some s.kept := by simp [execTget]
@[simp] theorem nextKept_execTtrig (e : Eng) (f : FmtA) (s : State) : nextKept (execTtrig e f s) = some s.kept := by simp [execTtrig]
@[simp] theorem nextKept_execTtrigCancel (e : Eng) (f : FmtA) (s : State) : nextKept (execTtrigCancel e f s) = some s.kept := by
  simp [execTtrigCancel]
@[simp] theorem nextKept_execTcap (e : Eng) (f : FmtA) (s : State) : nextKept (execTcap e f s) = some s.kept := by simp [execTcap]

/-! The end of a wake. -/

@[simp] theorem State.retry_kept (s : State) (w : Waiting) : (s.retry w).kept = s.kept := by
  unfold State.retry
  split <;> simp

@[simp] theorem State.drain_kept (s : State) : s.drain.kept = s.kept := by simp [State.drain]

@[simp] theorem State.unstall_kept (q : Nat) (s : State) (e : Eng) : (State.unstall q s e).kept = s.kept := by
  unfold State.unstall
  split <;> simp

@[simp] theorem State.endWait_kept (q : Nat) (s : State) (e : Eng) : (State.endWait q s e).kept = s.kept := by simp [State.endWait]
@[simp] theorem State.woken_kept (s : State) (q : Nat) : (s.woken q).kept = s.kept := by simp [State.woken]
@[simp] theorem State.wakeEnds_kept (s : State) (q cause : Nat) : (s.wakeEnds q cause).kept = s.kept := by simp [State.wakeEnds]

@[simp] theorem nextKept_execWakeComplete (q : Dom) (s : State) : nextKept (execWakeComplete q s) = some s.kept := by
  unfold execWakeComplete
  dsimp only
  split <;> simp

@[simp] theorem State.wakeRecord_kept (s : State) (n : Nat) (who : Who) (code : Nat) : (s.wakeRecord n who code).kept = s.kept := by
  simp [State.wakeRecord]

@[simp] theorem nextKept_execWakeFail (q : Dom) (cause : FailCause) (s : State) : nextKept (execWakeFail q cause s) = some s.kept := by
  unfold execWakeFail
  dsimp only
  split <;> simp

/-! Commands. -/

/-- A command answers a next state, with the same commands waiting and the same part, but for keys it may have revoked. -/
theorem exec_keptButRevoked (i : Instr) (s : State) : ∃ k, nextKept (exec i s) = some k ∧ s.KeptButRevoked k := by
  cases i
  case updateCheck e d a b => exact instr_updateAt_keptButRevoked ..
  case updateStage e d a b => exact instr_updateAt_keptButRevoked ..
  case updateConfirm e d a b => exact instr_updateAt_keptButRevoked ..
  case updateRevoke e d a b => exact instr_updateAt_keptButRevoked ..
  all_goals exact ⟨s.kept, by simp [exec], .of_kept rfl⟩

/-! Steps. -/

theorem step_keptButRevoked (s : State) :
    ∃ t, step s = .next t ∧ State.KeptButRevoked { s with pending := s.pending.tail } t.kept := by
  unfold step
  split
  · next h =>
    refine ⟨_, rfl, .of_kept ?_⟩
    rw [State.advance_kept]
    exact congrArg (·, s.chip) (by rw [h]; rfl)
  · next c cs h =>
    obtain ⟨k, hk, hr⟩ := exec_keptButRevoked c { s with pending := cs }
    rw [h]
    generalize exec c { s with pending := cs } = o at hk
    cases o with
    | next t => exact ⟨t, rfl, by rwa [Option.some.inj hk]⟩
    | fault r | refused r => cases hk

/-- Settles O58: each command keeps the queue behind it and the part but for the keys UPDATE revokes, since each named operation of
the model does. -/
theorem everyStepKeepsThePart : Obligations.EveryStepKeepsThePart := by
  intro s
  obtain ⟨t, ht, m, hm⟩ := step_keptButRevoked s
  obtain ⟨hp, hc⟩ := Prod.mk.inj hm
  refine ⟨t, ht, hp, ?_, ?_⟩
  · rw [hc]; rfl
  · rw [hc]; exact s.chip.revoked_and_revoking m

end Sys2Proof.Machine

end

section

/-! Accesses of the host (O28): an access of 8 bytes to an open slot is the slot's own access, and each way a slot's access ends
gives one clause. -/

namespace Sys2Proof.Machine

variable {s : State} {off size : Nat} {w : BitVec 64} {v : Word} {r : Reg} {q : Nat} {who : Who}

/-! What shuts an access out. -/

theorem State.safeShut_of_safe (h : s.safe = false) : s.safeShut off v = false := by
  simp [State.safeShut, h]

theorem State.deepShut_of_deep (h : s.pwr.deep = 0) : s.deepShut off = false := by
  simp [State.deepShut, h]

theorem State.barWrite_closed (h : s.barOpen = false) : s.barWrite off size w = s := by
  simp [State.barWrite, h]

theorem State.barRead_closed (h : s.barOpen = false) : s.barRead off size = s := by
  simp [State.barRead, h]

/-- A write that is not one whole slot is rejected (R563). -/
theorem State.barWrite_partial (ho : s.barOpen = true) (hb : off < 0x1000000) (hs : s.safe = false) (hd : s.pwr.deep = 0)
    (hm : inMsix off = false) (hp : size ≠ 8 ∨ off % 8 ≠ 0) : s.barWrite off size w = s.rejectWrite .erange := by
  simp [State.barWrite, ho, hb, State.safeShut_of_safe hs, State.deepShut_of_deep hd, hm, hp]

/-- A read that crosses a slot's end is aborted (R562). -/
theorem State.barRead_crossing (ho : s.barOpen = true) (hb : off < 0x1000000) (hm : inMsix off = false) (hp : 8 < off % 8 + size) :
    s.barRead off size = s.emit .completerAbort := by
  have h2 : ¬ bar2 ≤ off := by unfold bar2; omega
  simp [State.barRead, ho, h2, hb, hm, hp]

/-! Accesses of 8 bytes to a slot. -/

/-- An access of 8 bytes of the host comes to the slot at off: the link is up, the offset names a slot of BAR0 outside the MSI-X
structures, a Deep entry does not shut its block, and no earlier write waits. -/
structure State.OpensSlot (s : State) (off : Nat) : Prop where
  up : s.barOpen = true
  bar0 : off < 0x1000000
  aligned : off % 8 = 0
  msix : inMsix off = false
  deep : s.deepShut off = false
  order : s.writeWaits = false

/-- What the host's write leaves, by how the slot's access ended. -/
def Access.written (a : Access) (w : Waiting) : State :=
  match a with
  | .done s _ => s
  | .shut s => s
  | .fail s => s
  | .wait s => s.await w

/-- What the host's read of a slot leaves, by how the slot's access ended. -/
def Access.answered (a : Access) (w : Waiting) : State :=
  match a with
  | .done s v => s.emit (.readData (v.zeroExtend 64))
  | .shut s => s.emit .completerAbort
  | .fail s => s.emit .completerAbort
  | .wait s => s.await w

theorem sliceSlot_whole (v : Word) : sliceSlot v 0 8 = v.zeroExtend 64 := by
  apply BitVec.eq_of_toNat_eq
  have := v.isLt
  simp only [sliceSlot, BitVec.truncate_eq_setWidth, BitVec.toNat_setWidth, BitVec.toNat_ofNat]
  omega

theorem State.OpensSlot.not_beyond (h : s.OpensSlot off) : ¬ 0x1000000 ≤ off := Nat.not_le_of_lt h.bar0

theorem State.OpensSlot.barWrite (h : s.OpensSlot off) (hs : s.safe = false) :
    s.barWrite off 8 w = (s.slotWrite .host off (w.truncate 36)).written (.write off 8 w) := by
  have h1 : ¬ 0x1000000 ≤ off := h.not_beyond
  simp [State.barWrite, h.up, h1, h.aligned, h.msix, h.deep, h.order, State.safeShut_of_safe hs]
  rfl

theorem State.OpensSlot.barRead (h : s.OpensSlot off) : s.barRead off 8 = (s.slotRead .host off true).answered (.read off 8) := by
  have h1 : ¬ 0x1000000 ≤ off := h.not_beyond
  have h2 : ¬ bar2 ≤ off := fun h' => h1 (le_trans (by decide) h')
  simp [State.barRead, h.up, h1, h2, h.aligned, h.msix, h.order, sliceSlot_whole]
  rfl

theorem WriteReaches.opensSlot (h : WriteReaches s r v) (hb : r.offset < 0x1000000) (ha : r.offset % 8 = 0)
    (hm : inMsix r.offset = false) : s.OpensSlot r.offset :=
  ⟨h.up, hb, ha, hm, h.deep, h.order⟩

/-! How a slot's access ends. -/

theorem State.slotWrite_absent (h : s.chip.offAbsent off = true) : s.slotWrite who off v = .done s 0 := by
  simp [State.slotWrite, h]

theorem State.slotRead_absent (full : Bool) (h : s.chip.offAbsent off = true) : s.slotRead who off full = .done s 0 := by
  simp [State.slotRead, h]

theorem State.slotWrite_readyShut (ha : s.chip.offAbsent off = false) (hs : s.safe = false) (hd : s.deepShut off = false)
    (hr : s.readyShut off = true) : s.slotWrite who off v = .shut (s.rejectWrite .estate) := by
  simp [State.slotWrite, ha, State.safeShut_of_safe hs, hd, hr]

theorem State.slotRead_readyShut (full : Bool) (ha : s.chip.offAbsent off = false) (hr : s.readyShut off = true) :
    s.slotRead who off full = .shut s := by
  simp [State.slotRead, ha, hr]

/-- A slot that one sleeping quoin serves: its access starts the wake (R119). -/
theorem State.domains_wakes (ho : alwaysOpen off = false) (hs : s.safe = false) (hq : servedBy off = [q]) (h1 : 1 ≤ q)
    (h : s.domainState q = 1 ∨ s.domainState q = 4) : s.domains off who = .wait (s.startWake q who) := by
  simp [State.domains, ho, hs, hq, reach_wakes h1 h]

theorem State.slotWrite_wakes (ha : s.chip.offAbsent off = false) (hs : s.safe = false) (hd : s.deepShut off = false)
    (hr : s.readyShut off = false) (ho : alwaysOpen off = false) (hq : servedBy off = [q]) (h1 : 1 ≤ q)
    (h : s.domainState q = 1 ∨ s.domainState q = 4) : s.slotWrite who off v = .wait (s.startWake q who) := by
  simp [State.slotWrite, ha, State.safeShut_of_safe hs, hd, hr, State.domains_wakes ho hs hq h1 h]

/-- A read of a register that answers is the register's value, and has its effects. -/
theorem State.slotRead_reaches (h : WriteReaches s r v) (hr : Reg.ofOffset r.offset = some r) :
    s.slotRead who r.offset true = .done ((s.serRefresh r).regReadEffect r) ((s.serRefresh r).regValue r) := by
  simp [State.slotRead, h.present, h.deep, h.ready, State.domains_ready h.domains, hr]

/-! What an access leaves that waits for its domain. -/

/-- Its wake has begun, and it stands behind the accesses that waited before it. -/
structure State.Awaits (s t : State) (q : Nat) (x : Waiting) : Prop where
  waiting : t.host.waiting = s.host.waiting ++ [x]
  waking : t.domainState q = 2
  outs : t.outs = s.outs
  dp : t.dp = s.dp
  regs : RegsBut s t (fun o => o = Reg.offset ⟨.QUOIN_STATUS, q - 1, 0, 0⟩)

theorem State.awaits_startWake (s : State) (who : Who) (x : Waiting) (h1 : 1 ≤ q) : s.Awaits ((s.startWake q who).await x) q x where
  waiting := by rw [startWake_eq _ _ _ h1]; simp [State.await]
  waking := (domainState_same rfl rfl q).trans (startWake_state s q who h1)
  outs := by rw [startWake_eq _ _ _ h1]; simp [State.await]
  dp := by rw [startWake_eq _ _ _ h1]; simp [State.await]
  regs := by
    rw [startWake_eq _ _ _ h1]
    exact RegsBut.trans (t := s.set F.QUOIN_STATUS_STATE 2 (q - 1)) (RegsBut.set _ _ _ _ _ rfl) (RegsBut.of_regs rfl)

/-! The registers O28 names. -/

theorem Reg.plain_iff : r.plain = true ↔
    Reg.ofOffset r.offset = some r ∧ r.offset < 0x1000000 ∧ inMsix r.offset = false ∧ r.offset % 8 = 0 := by
  simp [Reg.plain, and_assoc]

theorem wbits_bit (v : Word) (n : Nat) : decide (wbits v n n = 1) = v.getLsbD n := by
  simp [wbits, bits, BitVec.getLsbD, Nat.testBit_eq_decide_div_mod_eq, Nat.shiftRight_eq_div_pow]

theorem plain_hciIntMap (k : Fin 32) : Reg.plain ⟨.HCI_INT_MAP, k, 0, 0⟩ = true := by
  revert k; decide

theorem plain_timeCapData (i : Fin 6) : Reg.plain ⟨.TIME_CAP_DATA, i, 0, 0⟩ = true := by
  revert i; decide

theorem offset_hciIntMap (k : Fin 32) : Reg.offset ⟨.HCI_INT_MAP, k, 0, 0⟩ = 0x10A000 + 8 * k.val := by
  revert k; decide

theorem hciIntMap_within :
    F.HCI_INT_MAP_VECTOR.within (RegId.desc .HCI_INT_MAP).rw = true ∧ F.HCI_INT_MAP_EN.within (RegId.desc .HCI_INT_MAP).rw = true := by
  decide

theorem timeCapData_ne_stat (i : Fin 6) : Reg.offset ⟨.TIME_CAP_DATA, i, 0, 0⟩ ≠ Reg.offset ⟨.TIME_CAP_STAT, i, 0, 0⟩ := by
  revert i; decide

theorem block_timeCapData (i : Fin 6) : Reg.block ⟨.TIME_CAP_DATA, i, 0, 0⟩ = 10 := by
  revert i; decide

theorem State.serRefresh_timeCapData (i : Fin 6) : s.serRefresh ⟨.TIME_CAP_DATA, i, 0, 0⟩ = s := rfl

theorem State.regWrite_hciIntMap (k : Fin 32) :
    s.regWrite who ⟨.HCI_INT_MAP, k, 0, 0⟩ v = s.plainWrite ⟨.HCI_INT_MAP, k, 0, 0⟩ v :=
  State.regWrite_done (State.blockWrite_1 _ _ _ _ (by revert k; decide))

/-- The read of a capture takes it (R467). -/
theorem State.regReadEffect_timeCapData (i : Fin 6) :
    s.regReadEffect ⟨.TIME_CAP_DATA, i, 0, 0⟩ = (s.wr .TIME_CAP_DATA 0 i).set F.TIME_CAP_STAT_NEW 0 i := by
  simp [State.regReadEffect, block_timeCapData, State.timeReadEffect]

theorem State.regValue_timeCapData (i : Fin 6) : s.regValue ⟨.TIME_CAP_DATA, i, 0, 0⟩ = s.rd .TIME_CAP_DATA i := by
  simp [State.regValue, block_timeCapData, State.timeValue]

/-! The clauses of O28. -/

theorem registerAccess_closed (h : s.barOpen = false) :
    exec (.registerWrite off size w) s = .next s ∧ exec (.registerRead off size) s = .next s :=
  ⟨congrArg Host.Outcome.next (State.barWrite_closed h), congrArg Host.Outcome.next (State.barRead_closed h)⟩

theorem registerWrite_reaches (hr : Reg.ofOffset r.offset = some r) (hb : r.offset < 0x1000000) (ha : r.offset % 8 = 0)
    (hm : inMsix r.offset = false) (h : WriteReaches s r v) :
    exec (.registerWrite r.offset 8 (v.zeroExtend 64)) s = .next (s.regWrite .host r v) :=
  congrArg Host.Outcome.next (State.barWrite_reaches h hr hb hm ha)

theorem registerRead_reaches (hr : Reg.ofOffset r.offset = some r) (hb : r.offset < 0x1000000) (ha : r.offset % 8 = 0)
    (hm : inMsix r.offset = false) (h : WriteReaches s r v) :
    exec (.registerRead r.offset 8) s
      = .next (((s.serRefresh r).regReadEffect r).emit (.readData (((s.serRefresh r).regValue r).zeroExtend 64))) := by
  refine congrArg Host.Outcome.next ?_
  rw [(h.opensSlot hb ha hm).barRead, State.slotRead_reaches h hr]
  rfl

theorem registerAccess_absent (h : s.OpensSlot off) (hs : s.safe = false) (ha : s.chip.offAbsent off = true) :
    exec (.registerWrite off 8 w) s = .next s ∧ exec (.registerRead off 8) s = .next (s.emit (.readData 0)) := by
  refine ⟨congrArg Host.Outcome.next ?_, congrArg Host.Outcome.next ?_⟩
  · rw [h.barWrite hs, State.slotWrite_absent ha]
    rfl
  · rw [h.barRead, State.slotRead_absent true ha]
    rfl

theorem registerAccess_readyShut (h : s.OpensSlot off) (hs : s.safe = false) (ha : s.chip.offAbsent off = false)
    (hr : s.readyShut off = true) :
    exec (.registerWrite off 8 w) s = .next (s.reject { reg := true, ring := none, status := .estate })
      ∧ exec (.registerRead off 8) s = .next (s.emit .completerAbort) := by
  refine ⟨congrArg Host.Outcome.next ?_, congrArg Host.Outcome.next ?_⟩
  · rw [h.barWrite hs, State.slotWrite_readyShut ha hs h.deep hr]
    rfl
  · rw [h.barRead, State.slotRead_readyShut true ha hr]
    rfl

theorem registerWrite_wakes (h : s.OpensSlot off) (hs : s.safe = false) (ha : s.chip.offAbsent off = false)
    (hr : s.readyShut off = false) (ho : alwaysOpen off = false) (hq : servedBy off = [q]) (h1 : 1 ≤ q)
    (hd : s.domainState q = 1 ∨ s.domainState q = 4) :
    ∃ t, exec (.registerWrite off 8 w) s = .next t ∧ s.Awaits t q (.write off 8 w) := by
  refine ⟨_, congrArg Host.Outcome.next ?_, s.awaits_startWake .host (.write off 8 w) h1⟩
  rw [h.barWrite hs, State.slotWrite_wakes ha hs h.deep hr ho hq h1 hd]
  rfl

/-- A write of HCI_INT_MAP stores its vector and its enable, and nothing else. -/
theorem registerWrite_hciIntMap (k : Fin 32) (h : WriteReaches s ⟨.HCI_INT_MAP, k, 0, 0⟩ v) :
    ∃ t, exec (.registerWrite (0x10A000 + 8 * k.val) 8 (v.zeroExtend 64)) s = .next t
      ∧ t = { s with regs := t.regs } ∧ t.get F.HCI_INT_MAP_VECTOR k = v.toNat % 64 ∧ t.flag F.HCI_INT_MAP_EN k = v.getLsbD 8
      ∧ RegsBut s t (fun o => o = 0x10A000 + 8 * k.val) := by
  obtain ⟨hr, hb, hm, ha⟩ := Reg.plain_iff.1 (plain_hciIntMap k)
  have hw := registerWrite_reaches hr hb ha hm h
  rw [offset_hciIntMap, State.regWrite_hciIntMap] at hw
  refine ⟨_, hw, only_regs_plain _ _ _, ?_, ?_, offset_hciIntMap k ▸ RegsBut.plainWrite _ _ _⟩
  · rw [get_plain_rw s ⟨.HCI_INT_MAP, k, 0, 0⟩ v F.HCI_INT_MAP_VECTOR rfl rfl hciIntMap_within.1]
    simp [wbits, bits, F.HCI_INT_MAP_VECTOR]
  · rw [flag_get _ _ _ rfl, get_plain_rw s ⟨.HCI_INT_MAP, k, 0, 0⟩ v F.HCI_INT_MAP_EN rfl rfl hciIntMap_within.2]
    exact wbits_bit v 8

/-- The host's read of a capture answers it and takes it (R467). -/
theorem timeCapData_takes (i : Fin 6) (h : WriteReaches s ⟨.TIME_CAP_DATA, i, 0, 0⟩ v) :
    ∃ t, exec (.timeCapData i) s = .next t ∧ t.outs = s.outs ++ [.readData ((s.rd .TIME_CAP_DATA i).zeroExtend 64)]
      ∧ t.get F.TIME_CAP_STAT_NEW i = 0 ∧ t.rd .TIME_CAP_DATA i = 0
      ∧ RegsBut s t (fun o => o = Reg.offset ⟨.TIME_CAP_DATA, i, 0, 0⟩ ∨ o = Reg.offset ⟨.TIME_CAP_STAT, i, 0, 0⟩) := by
  obtain ⟨hr, hb, hm, ha⟩ := Reg.plain_iff.1 (plain_timeCapData i)
  have hx : exec (.timeCapData i) s = _ := registerRead_reaches hr hb ha hm h
  rw [State.serRefresh_timeCapData, State.regReadEffect_timeCapData, State.regValue_timeCapData] at hx
  refine ⟨_, hx, ?_, ?_, ?_, ?_⟩
  · exact congrArg (· ++ _) (by simp)
  · rw [State.emit_get]
    exact State.get_set_same _ F.TIME_CAP_STAT_NEW 0 i 0 0 rfl
  · rw [State.emit_rd]
    exact (State.rd_wr_ne _ _ _ _ _ _ _ _ _ _ (timeCapData_ne_stat i)).trans (State.rd_wr_same ..)
  · exact ((RegsBut.wr _ _ _ _ _ (Or.inl rfl)).trans (RegsBut.set F.TIME_CAP_STAT_NEW _ _ _ _ (Or.inr rfl))).trans
      (RegsBut.of_regs rfl)

/-- Settles O28: each clause is the way one slot's access ends. -/
theorem hostRegisterAccess : Obligations.HostRegisterAccess := by
  intro s r v off size w q k i
  refine ⟨registerAccess_closed, registerWrite_reaches, registerWrite_hciIntMap k, ?_, ?_, ?_,
    fun hr hb ha hm h _ => registerRead_reaches hr hb ha hm h, fun h _ => timeCapData_takes i h⟩
  · exact fun ho hb hs hd hm hp => congrArg Host.Outcome.next (State.barWrite_partial ho hb hs hd hm hp)
  · intro ho hb hs hd hm ha hw
    have h : s.OpensSlot off := ⟨ho, hb, ha, hm, State.deepShut_of_deep hd, hw⟩
    refine ⟨registerAccess_absent h hs, registerAccess_readyShut h hs, fun hp hr hopen hq h1 hst => ?_⟩
    obtain ⟨t, ht, hwait⟩ := registerWrite_wakes h hs hp hr hopen hq h1 hst
    exact ⟨t, ht, hwait.waiting, hwait.waking, hwait.outs, hwait.dp, hwait.regs⟩
  · exact fun ho hb _ hm hp => congrArg Host.Outcome.next (State.barRead_crossing ho hb hm hp)

end Sys2Proof.Machine

end

section

/-! Faults (O39). A record lies in the registers of the fault block, so what stands outside that block, and what the cause of the
fault did there first, can be read past it; what enters the safe state does so through `fatal_enters`. -/

namespace Sys2Proof.Machine

variable {s u : State} {P : Nat → Prop}

/-! Reading past a record. -/

/-- The fault registers lie above those of the engines and the domains. -/
theorem le_of_faultRegs {o : Nat} (h : faultRegs o) : 0xE00000 ≤ o := by
  rcases h with rfl | rfl | rfl | rfl | ⟨c, i, -, -, rfl⟩ <;> simp only [Reg.offset, RegId.desc] <;> omega

/-- What a fault's cause and its record both leave as it was. -/
def FaultKeeps (s t : State) : Prop :=
  t.pending = s.pending ∧ t.chip = s.chip ∧ t.dp = s.dp ∧ t.cmd = s.cmd ∧ t.map = s.map ∧ t.tree = s.tree ∧ t.tel = s.tel

section
variable {source cause addr : Nat} {who : Who} {access status detail : Nat}

theorem FaultKeeps.thenFault (h : FaultKeeps s u) : FaultKeeps s (u.faultWrite source cause addr who access status detail) := by
  simpa [FaultKeeps] using h

theorem RegsBut.thenFault (h : RegsBut s u P) :
    RegsBut s (u.faultWrite source cause addr who access status detail) (fun o => faultRegs o ∨ P o) :=
  (h.mono fun _ => Or.inr).trans ((RegsBut.faultWrite _ _ _ _ _ _ _).mono fun _ => Or.inl)

theorem faultWrite_get_below {f : Fld} {i : Nat} (h : Reg.offset ⟨f.id, i, 0, 0⟩ < 0xE00000) :
    (u.faultWrite source cause addr who access status detail).get f i = u.get f i :=
  (RegsBut.faultWrite _ _ _ _ _ _ _).get (State.faultWrite_chip ..) f i 0 0 fun hf => Nat.not_le_of_lt h (le_of_faultRegs hf)

/-- A record written after a change outside the fault block is a record of the state before that change. -/
theorem RegsBut.recorded (h : RegsBut s u P) (hP : ∀ o, P o → o < 0xE00000) (hchip : u.chip = s.chip) (hflt : u.flt = s.flt) :
    Recorded s (u.faultWrite source cause addr who access status detail) source cause addr who access status detail :=
  (faultWrite_recorded ..).of_same (by rw [hflt]) (h.get hchip F.FLT_RING_NEXTSEQ 0 0 0 fun hp => absurd (hP _ hp) (by decide))

end

theorem RegsBut.safe (h : RegsBut s u P) (hP : ∀ o, P o → o < 0xE00000) (hchip : u.chip = s.chip) : u.safe = s.safe := by
  unfold State.safe State.flag
  rw [h.get hchip F.FLT_STATUS_SAFE 0 0 0 fun hp => absurd (hP _ hp) (by decide)]

/-- The safe state is entered from s where it is entered from a state that agrees with s on what the entry keeps. -/
theorem EntersSafe.of_kept {t : State} (h : EntersSafe u t)
    (k : u.pending = s.pending ∧ u.chip = s.chip ∧ u.tree = s.tree ∧ u.tim = s.tim ∧ u.clk = s.clk ∧ u.slots = s.slots) :
    EntersSafe s t := by
  obtain ⟨h1, h2, h3, h4, h5, h6⟩ := h.kept
  obtain ⟨k1, k2, k3, k4, k5, k6⟩ := k
  exact { h with kept := ⟨h1.trans k1, h2.trans k2, h3.trans k3, h4.trans k4, h5.trans k5, h6.trans k6⟩ }

/-! Stalled stages (R45). -/

theorem stageStall_records {stage : Nat} (hready : s.domainState 0 = domREADY) (hnew : stage ∉ s.boot.stalledStages) :
    ∃ t, exec (.stageStall stage) s = .next t ∧ Recorded s t 0x00 0x1C stage .device 0 0 0 ∧ FaultKeeps s t
      ∧ t.boot = { s.boot with stalledStages := s.boot.stalledStages ++ [stage] } ∧ RegsBut s t faultRegs := by
  have hmark : RegsBut s { s with boot := { s.boot with stalledStages := s.boot.stalledStages ++ [stage] } } (fun _ => False) :=
    RegsBut.of_regs rfl
  have hx : exec (.stageStall stage) s = execStageStall stage s := rfl
  refine ⟨_, hx.trans (if_neg (by simp [hready, hnew])), hmark.recorded (fun _ => False.elim) rfl rfl,
    FaultKeeps.thenFault ⟨rfl, rfl, rfl, rfl, rfl, rfl, rfl⟩, State.faultWrite_boot .., ?_⟩
  exact hmark.thenFault.mono fun _ h => h.resolve_right id

theorem stageStall_idle {stage : Nat} (h : s.domainState 0 ≠ domREADY ∨ stage ∈ s.boot.stalledStages) :
    exec (.stageStall stage) s = .next s := by
  have hx : exec (.stageStall stage) s = execStageStall stage s := rfl
  exact hx.trans (if_pos (by simpa using h))

/-! Lost supplies (R103). -/

/-- The status register of a domain. -/
def statusReg (n : Nat) : Reg := if n = 0 then ⟨.PWR_CORE_STATUS, 0, 0, 0⟩ else ⟨.QUOIN_STATUS, n - 1, 0, 0⟩

theorem domNo_le (q : Dom) : domNo q ≤ 25 := by
  cases q with
  | core => exact Nat.zero_le _
  | quoin q => exact q.isLt

theorem statusReg_below {n : Nat} (hn : n ≤ 25) : (statusReg n).offset < 0xE00000 := by
  unfold statusReg
  split <;> simp only [Reg.offset, RegId.desc] <;> omega

theorem domainFailed_only (n c : Nat) : s.domainFailed n c = { s with regs := (s.domainFailed n c).regs } := by
  unfold State.domainFailed
  split <;> exact only_regs_set (setDomain_only s n domFAILED) ..

theorem domainFailed_regs (n c : Nat) : RegsBut s (s.domainFailed n c) (fun o => o = (statusReg n).offset) := by
  unfold State.domainFailed State.setDomain statusReg
  by_cases h : n = 0
  · simp only [if_pos h]
    exact RegsBut.trans (RegsBut.set F.PWR_CORE_STATUS_STATE _ _ _ _ rfl) (RegsBut.set F.PWR_CORE_STATUS_FAILCAUSE _ _ _ _ rfl)
  · simp only [if_neg h]
    exact RegsBut.trans (RegsBut.set F.QUOIN_STATUS_STATE _ _ _ _ rfl) (RegsBut.set F.QUOIN_STATUS_FAILCAUSE _ _ _ _ rfl)

/-- A quoin that failed shows FAILED and its cause (R118). -/
theorem domainFailed_quoin {n : Nat} (h : n ≠ 0) :
    (s.domainFailed n 4).get F.QUOIN_STATUS_STATE (n - 1) = 5 ∧ (s.domainFailed n 4).get F.QUOIN_STATUS_FAILCAUSE (n - 1) = 4 := by
  unfold State.domainFailed State.setDomain
  simp only [if_neg h]
  exact ⟨(State.get_set_field _ F.QUOIN_STATUS_FAILCAUSE F.QUOIN_STATUS_STATE _ _ _ _ rfl rfl (by decide)).trans
    (State.get_set_same _ _ _ _ _ _ rfl), State.get_set_same _ _ _ _ _ _ rfl⟩

section
variable {q : Dom}

theorem supplyLost_contained (hrst : s.boot.inReset = false) (hready : s.domainState (domNo q) = domREADY)
    (hc : ¬ (domNo q = 0 ∨ domNo q = 24)) :
    ∃ t, exec (.supplyLost q) s = .next t ∧ t.get F.QUOIN_STATUS_STATE (domNo q - 1) = 5
      ∧ t.get F.QUOIN_STATUS_FAILCAUSE (domNo q - 1) = 4 ∧ Recorded s t 0x32 0x16 (domNo q) .device 0 0 4 ∧ FaultKeeps s t
      ∧ t.boot = s.boot ∧ RegsBut s t (fun o => faultRegs o ∨ o = Reg.offset ⟨.QUOIN_STATUS, domNo q - 1, 0, 0⟩) := by
  have hx : exec (.supplyLost q) s = execSupplyLost q s := rfl
  have hle := domNo_le q
  generalize hn : domNo q = n at *
  have h0 : n ≠ 0 := fun h => hc (Or.inl h)
  have hrun : execSupplyLost q s = .next ((s.domainFailed n 4).faultWrite 0x32 0x16 n .device 0 0 4) := by
    simp [execSupplyLost, hn, hrst, hready, not_or.1 hc]
  have hregs : RegsBut s (s.domainFailed n 4) _ := domainFailed_regs n 4
  have honly := domainFailed_only (s := s) n 4
  have hbelow : (Reg.offset ⟨.QUOIN_STATUS, n - 1, 0, 0⟩) < 0xE00000 := by simp only [Reg.offset, RegId.desc]; omega
  obtain ⟨hstate, hcause⟩ := domainFailed_quoin (s := s) h0
  refine ⟨_, hx.trans hrun, (faultWrite_get_below hbelow).trans hstate,
    (faultWrite_get_below hbelow).trans hcause,
    hregs.recorded (fun o ho => ho ▸ statusReg_below hle) (by rw [honly]) (by rw [honly]),
    FaultKeeps.thenFault ?_, ?_, ?_⟩
  · rw [honly]
    exact ⟨rfl, rfl, rfl, rfl, rfl, rfl, rfl⟩
  · rw [State.faultWrite_boot, honly]
  · rw [show statusReg n = ⟨.QUOIN_STATUS, n - 1, 0, 0⟩ from if_neg h0] at hregs
    exact hregs.thenFault

theorem supplyLost_fatal (hrst : s.boot.inReset = false) (hready : s.domainState (domNo q) = domREADY)
    (hc : domNo q = 0 ∨ domNo q = 24) (hs : s.safe = false) : ∃ t, exec (.supplyLost q) s = .next t ∧ EntersSafe s t := by
  have hx : exec (.supplyLost q) s = execSupplyLost q s := rfl
  have hrun : execSupplyLost q s = .next ((s.domainFailed (domNo q) 4).fatal 0x32 0x20 (domNo q) .device 0 0 4) := by
    simp [execSupplyLost, hrst, hready, hc]
  have honly := domainFailed_only (s := s) (domNo q) 4
  have hsafe : (s.domainFailed (domNo q) 4).safe = s.safe :=
    (domainFailed_regs _ 4).safe (fun o ho => ho ▸ statusReg_below (domNo_le q)) (by rw [honly])
  refine ⟨_, hx.trans hrun, (fatal_enters _ _ _ _ _ _ _ _ (hsafe.trans hs)).of_kept ?_⟩
  rw [honly]
  exact ⟨rfl, rfl, rfl, rfl, rfl, rfl⟩

theorem supplyLost_idle (h : s.boot.inReset = true ∨ s.domainState (domNo q) ≠ domREADY) : exec (.supplyLost q) s = .next s := by
  have hx : exec (.supplyLost q) s = execSupplyLost q s := rfl
  exact hx.trans (if_pos (by simpa using h))

end

/-! The scrub of patch RAM (R208). -/

/-- A scrub's record after the error bit it sets, which lies outside the fault block: both stand. Drawing the free micro-address
advances the count of free values first. -/
theorem scrub_records {f : Fld} {i : Nat} (addr : Nat) (who : Who) (hf : f.ok = true) (hbit : f.hi = f.lo)
    (hbelow : Reg.offset ⟨f.id, i, 0, 0⟩ < 0xE00000) :
    let t := (s.fresh.2.set f 1 i).faultWrite 0x26 0x01 addr who 7 0 0
    t.get f i = 1 ∧ Recorded s t 0x26 0x01 addr who 7 0 0 ∧ FaultKeeps s t
      ∧ RegsBut s t (fun o => faultRegs o ∨ o = Reg.offset ⟨f.id, i, 0, 0⟩) := by
  have hregs : RegsBut s (s.fresh.2.set f 1 i) (fun o => o = Reg.offset ⟨f.id, i, 0, 0⟩) :=
    RegsBut.trans (t := s.fresh.2) (RegsBut.of_regs rfl) (RegsBut.set _ _ _ _ _ rfl)
  refine ⟨?_, hregs.recorded (fun o ho => ho ▸ hbelow) rfl rfl,
    FaultKeeps.thenFault ⟨rfl, rfl, rfl, rfl, rfl, rfl, rfl⟩, hregs.thenFault⟩
  rw [faultWrite_get_below hbelow, State.get_set_same _ _ _ _ _ _ hf, hbit]
  simp

/-- The micro-address that a scrub's record names lies in the patch RAM (R208). -/
def scrubAddr (s : State) : Nat := 0x2000 + Config.freeNat s.free % 1024

theorem scrubAddr_within : 0x2000 ≤ scrubAddr s ∧ scrubAddr s < 0x2400 := by
  unfold scrubAddr
  omega

theorem patchScrub_cmd (c : Fin 2) : ∃ t addr, exec (.patchScrub (.cmd c) true) s = .next t ∧ 0x2000 ≤ addr ∧ addr < 0x2400
    ∧ t.get F.CMD_ENG_STATUS_CSCE c = 1 ∧ Recorded s t 0x26 0x01 addr (.cmd c) 7 0 0 ∧ FaultKeeps s t
    ∧ RegsBut s t (fun o => faultRegs o ∨ o = Reg.offset ⟨.CMD_ENG_STATUS, c, 0, 0⟩) := by
  have hx : exec (.patchScrub (.cmd c) true) s
    = .next ((s.fresh.2.set F.CMD_ENG_STATUS_CSCE 1 c).faultWrite 0x26 0x01 (scrubAddr s) (.cmd c) 7 0 0) := rfl
  exact ⟨_, _, hx, scrubAddr_within.1, scrubAddr_within.2,
    scrub_records _ _ rfl rfl (by simp only [Reg.offset, RegId.desc, F.CMD_ENG_STATUS_CSCE]; omega)⟩

theorem patchScrub_map {m : Fin 64} (hm : m.val < s.chip.trees) :
    ∃ t addr, exec (.patchScrub (.map m) true) s = .next t ∧ 0x2000 ≤ addr ∧ addr < 0x2400
      ∧ t.get F.MAP_ENG_STATUS_CSCE m = 1 ∧ Recorded s t 0x26 0x01 addr (.map m) 7 0 0 ∧ FaultKeeps s t
      ∧ RegsBut s t (fun o => faultRegs o ∨ o = Reg.offset ⟨.MAP_ENG_STATUS, m, 0, 0⟩) := by
  have hx : exec (.patchScrub (.map m) true) s
    = .next ((s.fresh.2.set F.MAP_ENG_STATUS_CSCE 1 m).faultWrite 0x26 0x01 (scrubAddr s) (.map m) 7 0 0) :=
    if_neg (Nat.not_le_of_lt hm)
  exact ⟨_, _, hx, scrubAddr_within.1, scrubAddr_within.2,
    scrub_records _ _ rfl rfl (by simp only [Reg.offset, RegId.desc, F.MAP_ENG_STATUS_CSCE]; omega)⟩

/-! The key of FLT_CTRL (R528) and SAFE_REQ_N (R67, R68). -/

section
variable {v : Word} {width : Nat}

theorem safekey_writes (h : WriteReaches s ⟨.FLT_CTRL, 0, 0, 0⟩ v) : exec (.safekey v) s = .next (s.safeKeyWrite .host v) :=
  write_done h (by decide) (State.blockWrite_14 _ _ _ _ rfl)

theorem safekey_enters (h : WriteReaches s ⟨.FLT_CTRL, 0, 0, 0⟩ v) (hv : fv v F.FLT_CTRL_SAFEKEY = 0x3C5A) (hs : s.safe = false) :
    ∃ t, exec (.safekey v) s = .next t ∧ EntersSafe s t := by
  have hkey : s.safeKeyWrite .host v = s.fatal 0x39 0x25 0 .host 2 0 0 := if_pos hv
  exact ⟨_, safekey_writes h, hkey ▸ fatal_enters _ _ _ _ _ _ _ _ hs⟩

theorem safekey_other (h : WriteReaches s ⟨.FLT_CTRL, 0, 0, 0⟩ v) (hv : fv v F.FLT_CTRL_SAFEKEY ≠ 0x3C5A) :
    exec (.safekey v) s = .next s :=
  (safekey_writes h).trans (congrArg Host.Outcome.next (if_neg hv))

theorem safeReqN_enters (hrst : s.boot.inReset = false) (hw : 100 ≤ width) (hpor : s.boot.porDone = true) (hs : s.safe = false) :
    ∃ t, exec (.safeReqN width) s = .next t ∧ EntersSafe s t := by
  have hx : exec (.safeReqN width) s = execSafeReqN width s := rfl
  have hrun : execSafeReqN width s = .next (s.fresh.2.fatal 0x38 0x24 0) := by simp [execSafeReqN, State.fresh, hrst, hw, hpor]
  exact ⟨_, hx.trans hrun, (fatal_enters s.fresh.2 _ _ _ _ _ _ _ hs).of_kept ⟨rfl, rfl, rfl, rfl, rfl, rfl⟩⟩

theorem safeReqN_waits (hrst : s.boot.inReset = false) (hw : 100 ≤ width) (hpor : s.boot.porDone = false) :
    exec (.safeReqN width) s = .next { s.fresh.2 with boot := { s.boot with safeReqLow := true } } := by
  have hx : exec (.safeReqN width) s = execSafeReqN width s := rfl
  rw [hx]
  simp [execSafeReqN, State.fresh, hrst, hw, hpor]

theorem safeReqN_short (hw : width < 20) : exec (.safeReqN width) s = .next (if s.boot.inReset then s else s.fresh.2) := by
  have hx : exec (.safeReqN width) s = execSafeReqN width s := rfl
  have h1 : ¬ 100 ≤ width := by omega
  have h2 : ¬ 20 ≤ width := by omega
  rw [hx]
  cases hrst : s.boot.inReset <;> simp [execSafeReqN, State.fresh, hrst, h1, h2]

end

/-! The latch of a record (R520, R524). -/

/-- The state with five words in FLT_REC; a word that the list does not hold is zero. -/
def State.latchRec (s : State) (ws : List Word) : State := (range' 0 5).foldl (fun s i => s.wr .FLT_REC (nth 0 ws i) i) s

theorem foldl_wr_fltRec (ws : List Word) (l : List Nat) (i : Nat) (h : i ∈ l ∨ s.rd .FLT_REC i = nth 0 ws i) :
    (l.foldl (fun s i => s.wr .FLT_REC (nth 0 ws i) i) s).rd .FLT_REC i = nth 0 ws i := by
  induction l generalizing s with
  | nil => exact h.resolve_left List.not_mem_nil
  | cons a l ih =>
    apply ih
    by_cases ha : i = a
    · subst ha
      exact Or.inr (State.rd_wr_same ..)
    · refine h.imp (fun hi => (List.mem_cons.1 hi).resolve_left ha) fun hi => ?_
      rw [State.rd_wr_ne _ _ _ _ _ _ _ _ _ _ (by simp only [Reg.offset, RegId.desc]; omega), hi]

theorem latchRec_rd (ws : List Word) (i : Fin 5) : (s.latchRec ws).rd .FLT_REC i = nth 0 ws i :=
  foldl_wr_fltRec ws _ i (Or.inl (mem_range'.2 (by omega)))

theorem findIdx_true_drop {α : Type} (d : α) {l : List α} {n : Nat} (h : n < l.length) :
    findIdx (fun _ => true) (l.drop n) 0 = some (0, nth d l n) := by
  induction l generalizing n with
  | nil => exact absurd h (Nat.not_lt_zero _)
  | cons x xs ih =>
    cases n with
    | zero => rfl
    | succ n => exact ih (Nat.lt_of_succ_lt_succ h)

section
variable {v : Word}

theorem fltRecSel_writes (h : WriteReaches s ⟨.FLT_REC_SEL, 0, 0, 0⟩ v) :
    exec (.fltRecSel v) s = .next (s.recSelWrite ⟨.FLT_REC_SEL, 0, 0, 0⟩ v) :=
  write_done h (by decide) (State.blockWrite_14 _ _ _ _ rfl)

/-- A record that the ring holds is latched and marked read. -/
theorem recSelWrite_held (r : Reg) (d : FaultRec) (h : fv v F.FLT_REC_SEL_AGE < s.flt.ring.length) :
    let x := nth d s.flt.ring (fv v F.FLT_REC_SEL_AGE)
    s.recSelWrite r v = State.latchRec { s.plainWrite r v with
        flt := { s.flt with ring := setNth { x with read := true } s.flt.ring (fv v F.FLT_REC_SEL_AGE) } }
      [x.w0, x.w1, x.w2, x.w3, x.w4] := by
  unfold State.recSelWrite
  simp only [State.plainWrite_flt, findIdx_true_drop d h]
  rfl

/-- An age that no record of the ring has latches zeros. -/
theorem recSelWrite_beyond (r : Reg) (h : s.flt.ring.length ≤ fv v F.FLT_REC_SEL_AGE) :
    s.recSelWrite r v = (s.plainWrite r v).latchRec [] := by
  unfold State.recSelWrite
  simp only [State.plainWrite_flt, List.drop_eq_nil_of_le h]
  rfl

theorem fltRecSel_held {d : FaultRec} (h : WriteReaches s ⟨.FLT_REC_SEL, 0, 0, 0⟩ v)
    (hage : fv v F.FLT_REC_SEL_AGE < s.flt.ring.length) :
    let x := nth d s.flt.ring (fv v F.FLT_REC_SEL_AGE)
    ∃ t, exec (.fltRecSel v) s = .next t ∧ t.rd .FLT_REC 0 = x.w0 ∧ t.rd .FLT_REC 1 = x.w1 ∧ t.rd .FLT_REC 2 = x.w2
      ∧ t.rd .FLT_REC 3 = x.w3 ∧ t.rd .FLT_REC 4 = x.w4
      ∧ t.flt.ring = setNth { x with read := true } s.flt.ring (fv v F.FLT_REC_SEL_AGE)
      ∧ t = { s with regs := t.regs, flt := t.flt } := by
  have hx := (fltRecSel_writes h).trans (congrArg Host.Outcome.next (recSelWrite_held _ d hage))
  exact ⟨_, hx, latchRec_rd _ 0, latchRec_rd _ 1, latchRec_rd _ 2, latchRec_rd _ 3, latchRec_rd _ 4, rfl, rfl⟩

theorem fltRecSel_beyond (h : WriteReaches s ⟨.FLT_REC_SEL, 0, 0, 0⟩ v) (hage : s.flt.ring.length ≤ fv v F.FLT_REC_SEL_AGE) :
    ∃ t, exec (.fltRecSel v) s = .next t ∧ (∀ i : Fin 5, t.rd .FLT_REC i = 0) ∧ t = { s with regs := t.regs } := by
  have hx := (fltRecSel_writes h).trans (congrArg Host.Outcome.next (recSelWrite_beyond _ hage))
  exact ⟨_, hx, latchRec_rd [], rfl⟩

end

/-- Settles O39: a contained fault is a change outside the fault block and then a record, a fatal one enters the safe state, and a
selected record is latched where the ring holds it. -/
theorem faultsAreRecorded : Obligations.FaultsAreRecorded := by
  intro s stage q c m v width n central only failed age pick
  refine ⟨stageStall_records, stageStall_idle, fun hrst hready hc => ?_, supplyLost_fatal, supplyLost_idle, patchScrub_cmd c,
    patchScrub_map, fun _ => rfl, fun h => ⟨safekey_enters h, safekey_other h⟩, safeReqN_enters,
    fun hrst hw hpor => ⟨_, safeReqN_waits hrst hw hpor, rfl, rfl⟩, fun hw => ⟨_, safeReqN_short hw, ?_⟩,
    fun h => ⟨fltRecSel_held h, fltRecSel_beyond h⟩⟩
  · obtain ⟨t, hx, hstate, hcause, hrest⟩ := supplyLost_contained hrst hready hc
    have h0 : domNo q ≠ 0 := fun h => hc (Or.inl h)
    exact ⟨t, hx, ⟨(if_neg h0).trans hstate, (if_neg h0).trans hcause⟩, hrest⟩
  · cases s.boot.inReset <;> rfl

end Sys2Proof.Machine

end

section

/-! Resets and pins (O31, O56). A full reset marks its cause, logs it and then puts back all that always-on memory and flash do not
hold, so a register reads past it what it held where it is kept, and its reset value where it is not; a power-on reset keeps no
register at all. -/

namespace Sys2Proof.Machine

variable {s : State} {cause : ResetCause}

/-! The state that a power-on reset starts from (R105). -/

theorem State.powerOn_rd (c : Chip) (id : RegId) (i j k : Nat) :
    (State.powerOn c).rd id i j k = BitVec.ofNat 36 (Reg.reset c ⟨id, i, j, k⟩) := rfl

theorem State.powerOn_map_run (c : Chip) (m : Fin 64) : ((State.powerOn c).map.get m).run = false := by
  simp [State.powerOn, Vector.get]

theorem State.powerOn_cmd_frag (c : Chip) (e : Fin 2) : ((State.powerOn c).cmd.get e).frag = none := by
  simp [State.powerOn, Vector.get]

/-- What every reset leaves: the commands that wait and the part are as they were, POR_DONE is low, and every engine, table and
clock is as at power-on. -/
def ColdAfter (s t : State) : Prop :=
  let o := State.powerOn s.chip
  t.pending = s.pending ∧ t.chip = s.chip ∧ t.dp = o.dp ∧ t.tel = o.tel ∧ t.tim = o.tim ∧ t.pwr = o.pwr ∧ t.clk = o.clk
    ∧ t.cmd = o.cmd ∧ t.map = o.map ∧ t.tree = o.tree ∧ t.slots = [] ∧ t.host = o.host ∧ t.boot.porDone = false

/-! What a full reset keeps (R73, R106, R524). -/

theorem State.cold_rd (s : State) (id : RegId) (i j k : Nat) :
    s.cold.rd id i j k = if keptReg (Reg.offset ⟨id, i, j, k⟩) then s.rd id i j k else (State.powerOn s.chip).rd id i j k :=
  sget_filter _ s.regs keptReg _

theorem State.cold_rd_kept {id : RegId} {i j k : Nat} (h : keptReg (Reg.offset ⟨id, i, j, k⟩) = true) :
    s.cold.rd id i j k = s.rd id i j k := by
  rw [State.cold_rd, if_pos h]

theorem State.cold_rd_lost {id : RegId} {i j k : Nat} (h : keptReg (Reg.offset ⟨id, i, j, k⟩) = false) :
    s.cold.rd id i j k = (State.powerOn s.chip).rd id i j k := by
  rw [State.cold_rd, h]
  rfl

theorem rstCause_kept : keptReg (Reg.offset ⟨.RST_CAUSE, 0, 0, 0⟩) = true := by decide

theorem State.cold_get_rstCause (f : Fld) (hf : f.id = .RST_CAUSE) : s.cold.get f = s.get f := by
  unfold State.get
  rw [State.cold_rd_kept (by rw [hf]; exact rstCause_kept)]

theorem State.cold_after (s : State) : ColdAfter s s.cold :=
  ⟨rfl, rfl, rfl, rfl, rfl, rfl, rfl, rfl, rfl, rfl, rfl, rfl, rfl⟩

/-! The mark and the record of a full reset (R108, R532). -/

/-- The state in which a full reset logs its cause: RST_CAUSE holds the cause, the count and whether the device was safe. -/
def State.causeMarked (s : State) (cause : ResetCause) : State :=
  let s1 := (s.set cause.fld 1).inc F.RST_CAUSE_COUNT 1
  if s.safe then s1.set F.RST_CAUSE_SAFE 1 else s1

/-- The state that a full reset goes cold from. -/
def State.resetLogged (s : State) (cause : ResetCause) : State :=
  (s.causeMarked cause).logRec 0x005 0 ((s.causeMarked cause).rd .RST_CAUSE) 0

theorem State.fullReset_eq (s : State) (cause : ResetCause) : s.fullReset cause = (s.resetLogged cause).cold := rfl

theorem State.causeMarked_only (s : State) (cause : ResetCause) :
    s.causeMarked cause = { s with regs := (s.causeMarked cause).regs } := by
  unfold State.causeMarked
  cases s.safe <;> rfl

theorem ResetCause.fld_id (c : ResetCause) : c.fld.id = .RST_CAUSE := by cases c <;> rfl

theorem State.causeMarked_regs (s : State) (cause : ResetCause) :
    RegsBut s (s.causeMarked cause) (fun o => o = Reg.offset ⟨.RST_CAUSE, 0, 0, 0⟩) := by
  have hmark := (RegsBut.set (s := s) cause.fld 1 0 0 0 (P := fun o => o = Reg.offset ⟨.RST_CAUSE, 0, 0, 0⟩)
    (by rw [cause.fld_id])).trans (RegsBut.inc F.RST_CAUSE_COUNT 1 0 0 0 rfl)
  unfold State.causeMarked
  exact RegsBut.ite (hmark.trans (RegsBut.set F.RST_CAUSE_SAFE 1 0 0 0 rfl)) hmark

/-- A field of RST_CAUSE other than SAFE and COUNT is as the cause's own bit left it. -/
theorem State.causeMarked_get {f : Fld} (hf : f.id = .RST_CAUSE) (hhi : f.hi < 5) :
    (s.causeMarked cause).get f = (s.set cause.fld 1).get f := by
  have hcount : ((s.set cause.fld 1).inc F.RST_CAUSE_COUNT 1).get f = (s.set cause.fld 1).get f :=
    State.get_set_field _ F.RST_CAUSE_COUNT f _ _ _ _ rfl hf (Or.inl (by simp only [F.RST_CAUSE_COUNT]; omega))
  unfold State.causeMarked
  split
  · exact (State.get_set_field _ F.RST_CAUSE_SAFE f _ _ _ _ rfl hf (Or.inl hhi)).trans hcount
  · exact hcount

theorem State.causeMarked_count :
    (s.causeMarked cause).get F.RST_CAUSE_COUNT
      = min (2 ^ (F.RST_CAUSE_COUNT.hi + 1 - F.RST_CAUSE_COUNT.lo) - 1) (s.get F.RST_CAUSE_COUNT + 1) := by
  have hbit : (s.set cause.fld 1).get F.RST_CAUSE_COUNT = s.get F.RST_CAUSE_COUNT := by
    cases cause <;> exact State.get_set_field _ _ _ _ _ _ _ rfl rfl (by decide)
  have hcount := State.get_inc_same (s.set cause.fld 1) F.RST_CAUSE_COUNT 1 0 0 0 rfl
  rw [hbit] at hcount
  unfold State.causeMarked
  split
  · exact (State.get_set_field _ F.RST_CAUSE_SAFE F.RST_CAUSE_COUNT _ _ _ _ rfl rfl (by decide)).trans hcount
  · exact hcount

theorem State.logRec_keepsFlash (s : State) (type origin : Nat) (p q : Word) : let t := s.logRec type origin p q
    t.pln.flash = s.pln.flash ∧ t.pln.dirA = s.pln.dirA ∧ t.pln.dirB = s.pln.dirB := by
  unfold State.logRec
  split <;> exact ⟨rfl, rfl, rfl⟩

theorem State.logRec_last (h : s.chip.plinth = true) (type origin : Nat) (p q : Word) :
    (s.logRec type origin p q).pln.log.getLast? = some ⟨type, origin, s.pln.logSeq, s.seconds, s.nanos, p, q⟩ := by
  unfold State.logRec
  rw [if_pos h]
  dsimp only
  rw [List.getLast?_drop, if_neg (by simp), List.getLast?_append]
  rfl

/-! A full reset (R106, R108, R532). -/

theorem State.fullReset_get_rstCause (f : Fld) (hf : f.id = .RST_CAUSE) : (s.fullReset cause).get f = (s.causeMarked cause).get f := by
  rw [State.fullReset_eq, State.cold_get_rstCause f hf, State.resetLogged, State.logRec_get]

/-- A full reset: what always-on memory and flash hold stays, with the record of the reset; the rest is at its reset value. -/
def FullyReset (s t : State) : Prop :=
  ColdAfter s t ∧ t.flt.ring = s.flt.ring ∧ t.pln.flash = s.pln.flash ∧ t.pln.dirA = s.pln.dirA ∧ t.pln.dirB = s.pln.dirB
    ∧ (∀ id i j k, keptReg (Reg.offset ⟨id, i, j, k⟩) = false → t.rd id i j k = (State.powerOn s.chip).rd id i j k)
    ∧ (∀ id i j k, keptReg (Reg.offset ⟨id, i, j, k⟩) = true → id ≠ .RST_CAUSE →
        Reg.offset ⟨id, i, j, k⟩ ≠ Reg.offset ⟨.RST_CAUSE, 0, 0, 0⟩ → t.rd id i j k = s.rd id i j k)
    ∧ (s.chip.plinth = true → ∃ r, t.pln.log.getLast? = some r ∧ r.type = 5 ∧ r.seq = s.pln.logSeq)

theorem State.fullReset_fully (s : State) (cause : ResetCause) : FullyReset s (s.fullReset cause) := by
  have honly := s.causeMarked_only cause
  have hchip : (s.causeMarked cause).chip = s.chip := by rw [honly]
  have hpln : (s.causeMarked cause).pln = s.pln := by rw [honly]
  have hlchip : (s.resetLogged cause).chip = s.chip := (State.logRec_chip ..).trans hchip
  have hlpend : (s.resetLogged cause).pending = s.pending := (State.logRec_pending ..).trans (by rw [honly])
  have hlring : (s.resetLogged cause).flt.ring = s.flt.ring := congrArg Flt.ring ((State.logRec_flt ..).trans (by rw [honly]))
  obtain ⟨hflash, hdirA, hdirB⟩ := (s.causeMarked cause).logRec_keepsFlash 5 0 ((s.causeMarked cause).rd .RST_CAUSE) 0
  rw [hpln] at hflash hdirA hdirB
  rw [State.fullReset_eq]
  refine ⟨?_, hlring, hflash, hdirA, hdirB, fun id i j k h => ?_, fun id i j k h _ hne => ?_, fun hp => ?_⟩
  · obtain ⟨hpend, hc, hrest⟩ := (s.resetLogged cause).cold_after
    exact ⟨hpend.trans hlpend, hc.trans hlchip, hrest⟩
  · rw [State.cold_rd_lost h, hlchip]
  · rw [State.cold_rd_kept h, State.resetLogged, State.logRec_rd]
    exact (s.causeMarked_regs cause).rd hchip id i j k hne
  · exact ⟨_, State.logRec_last (hchip ▸ hp) .., rfl, congrArg Pln.logSeq hpln⟩

/-! RESET_N low, and the key in RST_CTRL (R64, R104, R105, R109). -/

section
variable {width : Nat} {v : Word}

theorem resetNAssert_resets (ha : s.boot.aonDown = false) (hw : 10000 ≤ width) :
    ∃ t, exec (.resetNAssert width) s = .next t ∧ FullyReset s t ∧ t.boot.inReset = true
      ∧ t.get F.RST_CAUSE_PIN = 1 ∧ t.get F.RST_CAUSE_SOFT = s.get F.RST_CAUSE_SOFT
      ∧ t.get F.RST_CAUSE_COUNT = min (2 ^ (F.RST_CAUSE_COUNT.hi + 1 - F.RST_CAUSE_COUNT.lo) - 1) (s.get F.RST_CAUSE_COUNT + 1) := by
  have hx : exec (.resetNAssert width) s = execResetNAssert width s := rfl
  have hrun : execResetNAssert width s
      = .next { s.fresh.2.fullReset .pin with boot := { (s.fresh.2.fullReset .pin).boot with inReset := true } } := by
    simp [execResetNAssert, State.fresh, ha, hw]
  have hget (f : Fld) (hf : f.id = .RST_CAUSE) := State.fullReset_get_rstCause (s := s.fresh.2) (cause := .pin) f hf
  refine ⟨_, hx.trans hrun, s.fresh.2.fullReset_fully .pin, rfl, ?_, ?_, ?_⟩
  · exact (hget F.RST_CAUSE_PIN rfl).trans ((State.causeMarked_get rfl (by decide)).trans (State.get_set_same _ F.RST_CAUSE_PIN 1 0 0 0 rfl))
  · exact (hget F.RST_CAUSE_SOFT rfl).trans ((State.causeMarked_get rfl (by decide)).trans
      (State.get_set_field _ F.RST_CAUSE_PIN F.RST_CAUSE_SOFT 1 0 0 0 rfl rfl (by decide)))
  · exact (hget F.RST_CAUSE_COUNT rfl).trans State.causeMarked_count

theorem resetNAssert_short (hw : width < 1000) : ∃ t, exec (.resetNAssert width) s = .next t ∧ t = { s with free := t.free } := by
  have hx : exec (.resetNAssert width) s = execResetNAssert width s := rfl
  have hrun : execResetNAssert width s = .next (if s.boot.aonDown then s else s.fresh.2) := by
    have h1 : ¬ 10000 ≤ width := by omega
    have h2 : ¬ 1000 ≤ width := by omega
    cases ha : s.boot.aonDown <;> simp [execResetNAssert, State.fresh, ha, h1, h2]
  refine ⟨_, hx.trans hrun, ?_⟩
  cases s.boot.aonDown <;> rfl

theorem softReset_writes (h : WriteReaches s ⟨.RST_CTRL, 0, 0, 0⟩ v) : exec (.softReset v) s = .next (s.rstWrite .host v) :=
  write_done h (by decide) (State.blockWrite_13 _ _ _ _ rfl)

theorem softReset_resets (h : WriteReaches s ⟨.RST_CTRL, 0, 0, 0⟩ v) (hv : fv v F.RST_CTRL_KEY = 0xA5C3) :
    ∃ t, exec (.softReset v) s = .next t ∧ FullyReset s t ∧ t.boot.inReset = false ∧ t.get F.RST_CAUSE_SOFT = 1 := by
  have hkey : s.rstWrite .host v = s.fullReset .soft := if_pos hv
  refine ⟨_, (softReset_writes h).trans (congrArg Host.Outcome.next hkey), s.fullReset_fully .soft, rfl, ?_⟩
  exact (State.fullReset_get_rstCause F.RST_CAUSE_SOFT rfl).trans
    ((State.causeMarked_get rfl (by decide)).trans (State.get_set_same _ F.RST_CAUSE_SOFT 1 0 0 0 rfl))

theorem softReset_other (h : WriteReaches s ⟨.RST_CTRL, 0, 0, 0⟩ v) (hv : fv v F.RST_CTRL_KEY ≠ 0xA5C3) :
    exec (.softReset v) s = .next s :=
  (softReset_writes h).trans (congrArg Host.Outcome.next (if_neg hv))

end

/-! VDD_AON (R102 to R104, R108). -/

theorem State.powerCycle_cold (s : State) : ColdAfter s s.powerCycle :=
  ⟨rfl, rfl, rfl, rfl, rfl, rfl, rfl, rfl, rfl, rfl, rfl, rfl, rfl⟩

theorem powerOn_resets (s : State) : let o := State.powerOn s.chip
    ∃ t, exec .powerOn s = .next t ∧ ColdAfter s t ∧ t.boot.inReset = true ∧ t.flt = {} ∧ t.pln.log = [] ∧ t.pln.flash = s.pln.flash
      ∧ t.get F.RST_CAUSE_BROWN = (if s.boot.aonDown then 1 else o.get F.RST_CAUSE_BROWN)
      ∧ ∀ id i j k, Reg.offset ⟨id, i, j, k⟩ ≠ Reg.offset ⟨.RST_CAUSE, 0, 0, 0⟩ → t.rd id i j k = o.rd id i j k := by
  have hx : exec .powerOn s = execPowerOn s := rfl
  cases ha : s.boot.aonDown with
  | true =>
    refine ⟨_, hx.trans (if_pos ha), s.powerCycle_cold, rfl, rfl, rfl, rfl, ?_, fun id i j k hne => ?_⟩
    · exact State.get_set_same _ F.RST_CAUSE_BROWN 1 0 0 0 rfl
    · exact State.rd_wr_ne _ .RST_CAUSE id _ 0 0 0 i j k hne
  | false =>
    exact ⟨_, hx.trans (if_neg (by simp [ha])), s.powerCycle_cold, rfl, rfl, rfl, rfl, rfl, fun _ _ _ _ _ => rfl⟩

theorem aonBrownout_holds (s : State) :
    ∃ t, exec .aonBrownout s = .next t ∧ ColdAfter s t ∧ t.boot.inReset = true ∧ t.boot.aonDown = true ∧ t.flt = {} ∧ t.regs = [] :=
  ⟨_, rfl, s.powerCycle_cold, rfl, rfl, rfl, rfl⟩

/-! The straps (R70 to R73). -/

/-- The word that RESET_N rising latches into ID_STRAP. -/
def strapWord (s : State) (boot : BitVec 2) (i2ca : BitVec 3) : Nat :=
  b2n (s.chip.plinth && boot = 3) * 2 ^ 6 + b2n (!s.chip.plinth) * 2 ^ 5 + boot.toNat * 2 ^ 3 + i2ca.toNat

theorem b2n_le (b : Bool) : b2n b ≤ 1 := by cases b <;> decide

theorem strapWord_fields (s : State) (boot : BitVec 2) (i2ca : BitVec 3) :
    let t := s.wr .ID_STRAP (BitVec.ofNat 36 (strapWord s boot i2ca))
    t.get F.ID_STRAP_BOOT = boot.toNat ∧ t.get F.ID_STRAP_I2CA = i2ca.toNat ∧ t.get F.ID_STRAP_IGNORED = b2n (!s.chip.plinth) := by
  have hboot := boot.isLt
  have hi2ca := i2ca.isLt
  have hbad := b2n_le (s.chip.plinth && boot = 3)
  have hign := b2n_le (!s.chip.plinth)
  have hget (f : Fld) (hf : f.id = .ID_STRAP) := get_wr_word s f (strapWord s boot i2ca) 0 0 0 .ID_STRAP hf
  refine ⟨(hget F.ID_STRAP_BOOT rfl).trans ?_, (hget F.ID_STRAP_I2CA rfl).trans ?_, (hget F.ID_STRAP_IGNORED rfl).trans ?_⟩ <;>
    simp only [strapWord, F.ID_STRAP_BOOT, F.ID_STRAP_I2CA, F.ID_STRAP_IGNORED] <;> omega

theorem resetNRelease_latches (hrst : s.boot.inReset = true) (ha : s.boot.aonDown = false) (boot : BitVec 2) (i2ca : BitVec 3) :
    ∃ t, exec (.resetNRelease boot i2ca) s = .next t ∧ t.boot.inReset = false
      ∧ t.get F.ID_STRAP_BOOT = boot.toNat ∧ t.get F.ID_STRAP_I2CA = i2ca.toNat ∧ t.get F.ID_STRAP_IGNORED = b2n (!s.chip.plinth)
      ∧ t = { s with regs := t.regs, boot := { s.boot with inReset := false } }
      ∧ RegsBut s t (fun o => o = Reg.offset ⟨.ID_STRAP, 0, 0, 0⟩) := by
  have hx : exec (.resetNRelease boot i2ca) s = execResetNRelease boot i2ca s := rfl
  obtain ⟨hboot, hi2ca, hign⟩ := strapWord_fields s boot i2ca
  exact ⟨_, hx.trans (if_neg (by simp [hrst, ha])), rfl, hboot, hi2ca, hign, rfl, RegsBut.wr .ID_STRAP _ 0 0 0 rfl⟩

/-! POR_DONE and ALIVE (R64, R65, R67). -/

/-- A fatal fault moves ALIVE and FAULT_N at most. -/
theorem fatal_boot_pins (s : State) (source cause addr : Nat) :
    ∃ alive faultLow, (s.fatal source cause addr).boot = { s.boot with alive := alive, faultLow := faultLow } := by
  unfold State.fatal
  dsimp only
  split
  · exact ⟨s.boot.alive, s.boot.faultLow, State.faultWrite_boot ..⟩
  · exact ⟨false, true, by rw [enterSafe_boot, State.faultWrite_boot]⟩

/-- The state that POR_DONE leaves where SAFE_REQ_N is high. -/
def State.porStarted (s : State) : State :=
  { s with boot := { s.boot with porDone := true, alive := true, linkTraining := s.boot.linkTraining || s.boot.perstRise,
                                 perstRise := false, safeReqLow := false } }

theorem porDone_runs (hrst : s.boot.inReset = false) (ha : s.boot.aonDown = false) (hpor : s.boot.porDone = false) :
    exec .porDone s = .next (if s.boot.safeReqLow then s.porStarted.fatal 0x38 0x24 0 else s.porStarted) := by
  have hx : exec .porDone s = execPorDone s := rfl
  exact hx.trans (if_neg (by simp [hrst, ha, hpor]))

theorem porDone_starts (hrst : s.boot.inReset = false) (ha : s.boot.aonDown = false) (hpor : s.boot.porDone = false) :
    ∃ t, exec .porDone s = .next t ∧ t.boot.porDone = true ∧ t.boot.safeReqLow = false
      ∧ (s.boot.safeReqLow = false → t.boot.alive = true ∧ t = { s with boot := t.boot })
      ∧ (s.boot.safeReqLow = true → s.safe = false → EntersSafe s t) := by
  refine ⟨_, porDone_runs hrst ha hpor, ?_⟩
  cases s.boot.safeReqLow with
  | false => exact ⟨rfl, rfl, fun _ => ⟨rfl, rfl⟩, fun h => by cases h⟩
  | true =>
    obtain ⟨_, _, hboot⟩ := fatal_boot_pins s.porStarted 0x38 0x24 0
    have henters (hs : s.safe = false) := (fatal_enters s.porStarted 0x38 0x24 0 .device 0 0 0 hs).of_kept (s := s) ⟨rfl, rfl, rfl, rfl, rfl, rfl⟩
    rw [if_pos rfl]
    exact ⟨by rw [hboot]; rfl, by rw [hboot]; rfl, (fun h => by cases h), fun _ => henters⟩

theorem aliveToggle_toggles (hrst : s.boot.inReset = false) (hpor : s.boot.porDone = true) (hs : s.safe = false) :
    ∃ t, exec .aliveToggle s = .next t ∧ t.boot.alive = !s.boot.alive
      ∧ t = { s with boot := { s.boot with alive := t.boot.alive } } := by
  have hx : exec .aliveToggle s = execAliveToggle s := rfl
  exact ⟨_, hx.trans (if_pos (by simp [hrst, hpor, hs])), rfl, rfl⟩

/-- Settles O56: the machine at reset is the one a power-on reset leaves, whose registers are all unlisted. -/
theorem resetState : Obligations.ResetState :=
  ⟨rfl, State.powerOn_rd _, State.powerOn_map_run _, State.powerOn_cmd_frag _, rfl, rfl, rfl, rfl, rfl⟩

/-- Settles O31: each reset goes cold, a full one from the state that holds its mark and its record; and each pin's command does what
its own section gives. -/
theorem resetsAndPins : Obligations.ResetsAndPins := by
  intro s v width boot i2ca
  exact ⟨resetNAssert_resets, resetNAssert_short, fun h => ⟨softReset_resets h, softReset_other h⟩, powerOn_resets s,
    aonBrownout_holds s, fun hrst ha => resetNRelease_latches hrst ha boot i2ca, porDone_starts, aliveToggle_toggles⟩

end Sys2Proof.Machine

end

section

/-! The governor (O44). A set-point frame and its settling are one movement of VDD_CORE; the throttle and the thermal level change the
governor's own state alone; a write of its registers is judged, and then done. -/

namespace Sys2Proof.Machine

variable {s : State} {l : Nat} {ls : List Nat} {v : Word}

/-! The movement of VDD_CORE (R502, R503, R509). -/

/-- Registers do not see the governor's own state. -/
theorem withPwr_get (u : State) (p : Pwr) (f : Fld) (i j k : Nat) : ({ u with pwr := p } : State).get f i j k = u.get f i j k :=
  get_same rfl rfl f i j k

/-- The state in which the set-point frame of level l is on its way to the regulator, and the steps ls are still to come. -/
def State.vddSent (s : State) (l : Nat) (ls : List Nat) : State :=
  { (s.emit (.vddFrame (s.get F.PWR_VREG_PHYAD) (s.get F.PWR_VREG_REGAD) (s.get F.PWR_VID_VID l))).set F.PWR_GOV_STATUS_MOVING 1 with
    pwr := { s.pwr with plan := ls, moving := some l } }

theorem vddStep_runs (hplan : s.pwr.plan = l :: ls) (hstill : s.pwr.moving = none) : exec .vddStep s = .next (s.vddSent l ls) := by
  have hx : exec .vddStep s = execVddStep s := rfl
  simp [hx, execVddStep, hplan, hstill, State.vddSent]

theorem State.vddSent_only : let t := s.vddSent l ls; t = { s with regs := t.regs, outs := t.outs, pwr := t.pwr } := by
  apply State.ext' <;> simp [State.vddSent]

theorem vddStep_sends (hplan : s.pwr.plan = l :: ls) (hstill : s.pwr.moving = none) : ∃ t, exec .vddStep s = .next t
    ∧ t.outs = s.outs ++ [.vddFrame (s.get F.PWR_VREG_PHYAD) (s.get F.PWR_VREG_REGAD) (s.get F.PWR_VID_VID l)]
    ∧ t.get F.PWR_GOV_STATUS_MOVING = 1 ∧ t.get F.PWR_GOV_STATUS_LEVEL = s.get F.PWR_GOV_STATUS_LEVEL
    ∧ t.pwr = { s.pwr with plan := ls, moving := some l } ∧ t = { s with regs := t.regs, outs := t.outs, pwr := t.pwr } := by
  refine ⟨s.vddSent l ls, vddStep_runs hplan hstill, ?_, ?_, ?_, rfl, s.vddSent_only⟩
  · rw [State.vddSent, State.set_outs, State.emit]
  · rw [State.vddSent, withPwr_get, State.get_set_same _ _ _ _ _ _ rfl]; rfl
  · rw [State.vddSent, withPwr_get,
      State.get_set_field _ F.PWR_GOV_STATUS_MOVING F.PWR_GOV_STATUS_LEVEL _ _ _ _ rfl rfl (by decide), State.emit_get]

/-- No frame goes out where none is planned, nor before the last one has had its time. -/
theorem vddStep_idle (h : s.pwr.plan = [] ∨ s.pwr.moving ≠ none) : exec .vddStep s = .next s := by
  have hx : exec .vddStep s = execVddStep s := rfl
  rw [hx, execVddStep]
  split
  · next hplan hstill => simp [hplan, hstill] at h
  · rfl

/-- The state in which VDD_CORE has settled at level l. -/
def State.vddSettled (s : State) (l : Nat) : State :=
  { (s.set F.PWR_GOV_STATUS_LEVEL l).set F.PWR_GOV_STATUS_MOVING 0 with pwr := { s.pwr with moving := none } }

theorem vddCoreSettled_runs (hmoving : s.pwr.moving = some l) : exec .vddCoreSettled s = .next (s.vddSettled l) := by
  have hx : exec .vddCoreSettled s = execVddCoreSettled s := rfl
  simp [hx, execVddCoreSettled, hmoving, State.vddSettled]

theorem State.vddSettled_only : let t := s.vddSettled l; t = { s with regs := t.regs, pwr := t.pwr } := by
  apply State.ext' <;> simp [State.vddSettled]

theorem vddCoreSettled_settles (hl : l < 8) (hmoving : s.pwr.moving = some l) : ∃ t, exec .vddCoreSettled s = .next t
    ∧ t.get F.PWR_GOV_STATUS_LEVEL = l ∧ t.get F.PWR_GOV_STATUS_MOVING = 0
    ∧ t.pwr = { s.pwr with moving := none } ∧ t = { s with regs := t.regs, pwr := t.pwr } := by
  refine ⟨s.vddSettled l, vddCoreSettled_runs hmoving, ?_, ?_, rfl, s.vddSettled_only⟩
  · rw [State.vddSettled, withPwr_get,
      State.get_set_field _ F.PWR_GOV_STATUS_MOVING F.PWR_GOV_STATUS_LEVEL _ _ _ _ rfl rfl (by decide),
      State.get_set_same _ _ _ _ _ _ rfl]
    exact Nat.mod_eq_of_lt (Nat.lt_trans hl (by decide))
  · rw [State.vddSettled, withPwr_get, State.get_set_same _ _ _ _ _ _ rfl]; rfl

theorem vddCoreSettled_idle (h : s.pwr.moving = none) : exec .vddCoreSettled s = .next s := by
  have hx : exec .vddCoreSettled s = execVddCoreSettled s := rfl
  rw [hx, execVddCoreSettled, h]

/-! The throttle (R94) and the thermal level (R507). -/

/-- The throttle lowers the level where the device throttles, a sensor still reads 100 °C or more and the safe state does not hold it. -/
theorem throttleStep_runs : exec .throttleStep s = .next
    (if s.get F.THERM_SUMMARY_THROTTLE = 1 ∧ s.pwr.over100 = true then s.throttleDown else s) := by
  have hx : exec .throttleStep s = execThrottleStep s := rfl
  rw [hx, execThrottleStep, flag_get _ _ _ rfl, apply_ite Host.Outcome.next]
  simp

theorem throttleDown_safe (h : s.safe = true) : s.throttleDown = s := if_pos h

theorem throttleDown_adds (hs : s.safe = false) (hplan : s.pwr.plan = []) (hlevel : 0 < s.askedLevel) :
    s.throttleDown = { s with pwr := { s.pwr with plan := [s.askedLevel - 1] } } := by
  unfold State.throttleDown
  simp [hs, hplan, Nat.ne_of_gt hlevel]

theorem throttleStep_adds (hthr : s.get F.THERM_SUMMARY_THROTTLE = 1) (hhot : s.pwr.over100 = true) (hs : s.safe = false)
    (hplan : s.pwr.plan = []) (hlevel : 0 < s.askedLevel) : ∃ t, exec .throttleStep s = .next t
      ∧ t.pwr = { s.pwr with plan := [s.askedLevel - 1] } ∧ t = { s with pwr := t.pwr } := by
  rw [throttleStep_runs, if_pos ⟨hthr, hhot⟩, throttleDown_adds hs hplan hlevel]
  exact ⟨_, rfl, rfl, rfl⟩

theorem throttleStep_idle (h : s.get F.THERM_SUMMARY_THROTTLE = 0 ∨ s.pwr.over100 = false ∨ s.safe = true) :
    exec .throttleStep s = .next s := by
  rw [throttleStep_runs]
  split
  · next hgo => rw [throttleDown_safe (by simpa [hgo] using h)]
  · rfl

theorem ltStep_lowers (h : s.pwr.ceilHot = true) : exec .ltStep s = .next s.ltDown := if_pos h

theorem ltStep_raises (hhot : s.pwr.ceilHot = false) (hcool : s.pwr.ceilCool = true) : exec .ltStep s = .next s.ltUp :=
  (if_neg (by simp [hhot])).trans (if_pos hcool)

theorem ltStep_stays (hhot : s.pwr.ceilHot = false) (hcool : s.pwr.ceilCool = false) : exec .ltStep s = .next s :=
  (if_neg (by simp [hhot])).trans (if_neg (by simp [hcool]))

/-! Writes of the power block (R501, R503, R508). -/

section
variable {k : WriteRes} {bad refused : Bool}

theorem judge_erange (h : bad = true) : judge false bad refused k = .reject .erange := by simp [judge, h]
theorem judge_estate (hb : bad = false) (h : refused = true) : judge false bad refused k = .reject .estate := by simp [judge, hb, h]
theorem judge_ok (hb : bad = false) (h : refused = false) : judge false bad refused k = k := by simp [judge, hb, h]

end

/-- What a write of PWR_GOV_CTRL that is carried out leaves: EN ends a return to PL0, and its fall starts one and drops the plan. -/
def State.govCtrlWritten (s : State) (v : Word) : State :=
  let en := decide (fv v F.PWR_GOV_CTRL_EN = 1)
  let was := s.flag F.PWR_GOV_CTRL_EN
  { s.plainWrite ⟨.PWR_GOV_CTRL, 0, 0, 0⟩ v with
    pwr := { s.pwr with returning := !en && (was || s.pwr.returning), plan := if was && !en then [] else s.pwr.plan } }

/-- A value of PWR_GOV_CTRL is out of range (R501). -/
def govCtrlBad (v : Word) : Bool :=
  fv v F.PWR_GOV_CTRL_CEIL < 40 || 125 < fv v F.PWR_GOV_CTRL_CEIL || fv v F.PWR_GOV_CTRL_DOWNHOLD = 0 || fv v F.PWR_GOV_CTRL_CPKT < 64

theorem govCtrlBad_iff : govCtrlBad v = true ↔ fv v F.PWR_GOV_CTRL_CEIL < 40 ∨ 125 < fv v F.PWR_GOV_CTRL_CEIL
    ∨ fv v F.PWR_GOV_CTRL_DOWNHOLD = 0 ∨ fv v F.PWR_GOV_CTRL_CPKT < 64 := by
  simp [govCtrlBad, or_assoc]

theorem govCtrl_judged : s.blockWrite .host ⟨.PWR_GOV_CTRL, 0, 0, 0⟩ v
    = judge false (govCtrlBad v) (fv v F.PWR_GOV_CTRL_EN = 1 && !s.flag F.PWR_VREG_EN) (.done (s.govCtrlWritten v)) :=
  State.blockWrite_13 _ _ _ _ rfl

theorem budget_judged : s.blockWrite .host ⟨.PWR_BUDGET, 0, 0, 0⟩ v = judge false (fv v F.PWR_BUDGET_WATTS = 0) false
    (.done { s.plainWrite ⟨.PWR_BUDGET, 0, 0, 0⟩ v with pwr := { s.pwr with debt := 0 } }) :=
  State.blockWrite_13 _ _ _ _ rfl

theorem pwrSleepStatus_not_reject : ¬ rejectRegs (Reg.offset ⟨.PWR_SLEEP_STATUS, 0, 0, 0⟩) := by
  rintro (⟨n, hn, h⟩ | h | h) <;> simp only [Reg.offset, RegId.desc] at h <;> omega

/-- A write of a register of the power block that is rejected shows its status in PWR_SLEEP_STATUS. -/
theorem pwr_rejected {id : RegId} {st : Status} (h : WriteReaches s ⟨id, 0, 0, 0⟩ v) (hp : Reg.plain ⟨id, 0, 0, 0⟩ = true)
    (hblock : Reg.block ⟨id, 0, 0, 0⟩ = 13) (hst : st.code < 2 ^ 8) (hb : s.blockWrite .host ⟨id, 0, 0, 0⟩ v = .reject st) :
    ∃ t, s.writeOf id 0 0 v = .next t ∧ Rejected s t F.PWR_SLEEP_STATUS_ERR 0 st :=
  write_rejected h hp hb (by simp [Reg.errField, hblock]) rfl pwrSleepStatus_not_reject hst

section
variable (h : WriteReaches s ⟨.PWR_GOV_CTRL, 0, 0, 0⟩ v)
include h

theorem pwrGovEn_erange (hbad : govCtrlBad v = true) :
    ∃ t, exec (.pwrGovEn v) s = .next t ∧ Rejected s t F.PWR_SLEEP_STATUS_ERR 0 .erange :=
  pwr_rejected h (by decide) rfl (by decide) (govCtrl_judged.trans (judge_erange hbad))

theorem pwrGovEn_estate (hbad : govCtrlBad v = false) (hen : fv v F.PWR_GOV_CTRL_EN = 1) (hreg : s.get F.PWR_VREG_EN = 0) :
    ∃ t, exec (.pwrGovEn v) s = .next t ∧ Rejected s t F.PWR_SLEEP_STATUS_ERR 0 .estate :=
  pwr_rejected h (by decide) rfl (by decide)
    (govCtrl_judged.trans (judge_estate hbad (by rw [flag_get _ _ _ rfl]; simp [hen, hreg])))

theorem pwrGovEn_runs (hbad : govCtrlBad v = false) (hreg : fv v F.PWR_GOV_CTRL_EN = 1 → s.get F.PWR_VREG_EN = 1) :
    exec (.pwrGovEn v) s = .next (s.govCtrlWritten v) :=
  write_done h (by decide) (govCtrl_judged.trans (judge_ok hbad (by rw [flag_get _ _ _ rfl]; simpa using hreg)))

end

theorem State.govCtrlWritten_get (f : Fld) (hid : f.id = .PWR_GOV_CTRL) (hok : f.ok = true) (hrw : f.within 0xFFFFFFFFF = true) :
    (s.govCtrlWritten v).get f = fv v f := by
  rw [State.govCtrlWritten, withPwr_get]
  exact get_plain_rw s ⟨.PWR_GOV_CTRL, 0, 0, 0⟩ v f hid hok hrw

/-- The governor starts: a return to PL0 ends (R503). -/
theorem pwrGovEn_starts (h : WriteReaches s ⟨.PWR_GOV_CTRL, 0, 0, 0⟩ v) (hbad : govCtrlBad v = false) (hen : fv v F.PWR_GOV_CTRL_EN = 1)
    (hreg : s.get F.PWR_VREG_EN = 1) : ∃ t, exec (.pwrGovEn v) s = .next t ∧ t.get F.PWR_GOV_CTRL_EN = 1
      ∧ t.get F.PWR_GOV_CTRL_CEIL = fv v F.PWR_GOV_CTRL_CEIL ∧ t.pwr = { s.pwr with returning := false }
      ∧ t = { s with regs := t.regs, pwr := t.pwr } :=
  ⟨_, pwrGovEn_runs h hbad fun _ => hreg, (State.govCtrlWritten_get _ rfl rfl (by decide)).trans hen,
    State.govCtrlWritten_get _ rfl rfl (by decide), by simp [State.govCtrlWritten, hen], rfl⟩

/-- The governor stops: its plan is dropped and the return to PL0 starts (R503). -/
theorem pwrGovEn_stops (h : WriteReaches s ⟨.PWR_GOV_CTRL, 0, 0, 0⟩ v) (hbad : govCtrlBad v = false) (hen : fv v F.PWR_GOV_CTRL_EN ≠ 1)
    (hwas : s.get F.PWR_GOV_CTRL_EN = 1) : ∃ t, exec (.pwrGovEn v) s = .next t ∧ t.get F.PWR_GOV_CTRL_EN = 0
      ∧ t.pwr = { s.pwr with returning := true, plan := [] } ∧ t = { s with regs := t.regs, pwr := t.pwr } := by
  have hbit : fv v F.PWR_GOV_CTRL_EN < 2 := bits_lt ..
  have hflag : s.flag F.PWR_GOV_CTRL_EN = true := (flag_get _ _ _ rfl).trans (decide_eq_true hwas)
  refine ⟨_, pwrGovEn_runs h hbad fun h1 => absurd h1 hen, ?_, ?_, rfl⟩
  · rw [State.govCtrlWritten_get F.PWR_GOV_CTRL_EN rfl rfl (by decide)]
    omega
  · simp [State.govCtrlWritten, hen, hflag]

theorem watts_zero (h : WriteReaches s ⟨.PWR_BUDGET, 0, 0, 0⟩ v) (hw : fv v F.PWR_BUDGET_WATTS = 0) :
    ∃ t, exec (.watts v) s = .next t ∧ Rejected s t F.PWR_SLEEP_STATUS_ERR 0 .erange :=
  pwr_rejected h (by decide) rfl (by decide) (budget_judged.trans (judge_erange (decide_eq_true hw)))

theorem watts_sets (h : WriteReaches s ⟨.PWR_BUDGET, 0, 0, 0⟩ v) (hw : fv v F.PWR_BUDGET_WATTS ≠ 0) :
    ∃ t, exec (.watts v) s = .next t ∧ t.get F.PWR_BUDGET_WATTS = fv v F.PWR_BUDGET_WATTS
      ∧ t.pwr = { s.pwr with debt := 0 } ∧ t = { s with regs := t.regs, pwr := t.pwr } := by
  refine ⟨_, write_done h (by decide) (budget_judged.trans (judge_ok (decide_eq_false hw) rfl)), ?_, rfl, rfl⟩
  rw [withPwr_get]
  exact get_plain_rw s ⟨.PWR_BUDGET, 0, 0, 0⟩ v F.PWR_BUDGET_WATTS rfl rfl (by decide)

/-- Settles O44: each command of the governor is a movement of VDD_CORE, a step of its own state, or a judged register write. -/
theorem governorCommands : Obligations.GovernorCommands := by
  intro s l ls v
  refine ⟨vddStep_sends, vddStep_idle, vddCoreSettled_settles, vddCoreSettled_idle, throttleStep_adds, throttleStep_idle,
    fun h => ⟨_, ltStep_lowers h, rfl, rfl⟩, fun hhot hcool => ⟨_, ltStep_raises hhot hcool, rfl, rfl⟩, ltStep_stays,
    fun h => ?_, fun h => ⟨watts_zero h, watts_sets h⟩⟩
  rw [← govCtrlBad_iff, Bool.not_eq_true]
  exact ⟨pwrGovEn_erange h, pwrGovEn_estate h, pwrGovEn_starts h, pwrGovEn_stops h⟩

end Sys2Proof.Machine

end

section

/-! The plinth's events (O46). Most of them change the plinth's own state alone, with an event raised; the watchdog's expiry and a mirror
that fails change PLN_STATUS and then write a record, which lies elsewhere in the fault block. -/

namespace Sys2Proof.Machine

variable {s u : State} {v : Word} {frame : List Byte} {byte : Byte} {bus : Nat} {ok : Bool}

/-- Registers do not see the plinth's own state. -/
theorem withPln_get (u : State) (p : Pln) (f : Fld) (i j k : Nat) : ({ u with pln := p } : State).get f i j k = u.get f i j k :=
  get_same rfl rfl f i j k

/-! Events (R536). -/

/-- The plinth's state p with event k raised. -/
def Pln.raised (p : Pln) (k : Nat) : Pln := { p with events := p.events ||| BitVec.ofNat 7 (2 ^ k) }

/-- The log region of flash once the new records have been mirrored (R533). -/
def Pln.mirroredLog (p : Pln) : List LogRec := logRegion p.flashLog (p.log.filter (fun r => p.mirrored ≤ r.seq))

@[simp] theorem Pln.raised_log (p : Pln) (k : Nat) : (p.raised k).log = p.log := (rfl)
@[simp] theorem Pln.raised_logSeq (p : Pln) (k : Nat) : (p.raised k).logSeq = p.logSeq := (rfl)
@[simp] theorem Pln.raised_flashLog (p : Pln) (k : Nat) : (p.raised k).flashLog = p.flashLog := (rfl)
@[simp] theorem Pln.raised_mirroredLog (p : Pln) (k : Nat) : (p.raised k).mirroredLog = p.mirroredLog := (rfl)

section
variable (hup : s.plinthUp = true)
include hup

theorem plinthUp_plinth : s.chip.plinth = true := by
  simp only [State.plinthUp, Bool.and_eq_true] at hup
  exact hup.1.1

theorem plinthEvent_raises (k : Nat) : s.plinthEvent k = { s with pln := s.pln.raised k } := if_pos (plinthUp_plinth hup)

/-- What a running plinth does at a command that asks first whether it runs. -/
theorem plinthUp_runs {x y : Host.Outcome State Fault Refusal} : (if !s.plinthUp then x else y) = y := if_neg (by simp [hup])

theorem plinthTick_counts : exec .plinthTick s = .next { s with pln :=
    { s.pln.raised 2 with wdog := if s.get F.PLN_WDOG_EN = 1 then s.pln.wdog + 1 else 0 } } := by
  have hx : exec .plinthTick s = execPlinthTick s := rfl
  have hflag : State.flag { s with pln := s.pln.raised 2 } F.PLN_WDOG_EN = decide (s.get F.PLN_WDOG_EN = 1) := flag_get s _ _ rfl
  rw [hx, execPlinthTick, plinthUp_runs hup]
  simp only [plinthEvent_raises hup, hflag, decide_eq_true_eq]
  rfl

theorem wake_asks : exec .wake s = .next { s with pln := { s.pln.raised 3 with pwrReq := true } } := by
  have hx : exec .wake s = execWake s := rfl
  rw [hx, execWake, plinthUp_runs hup, plinthEvent_raises hup]

theorem mgmtFrame_received : exec (.mgmtFrame frame) s
    = .next { s with pln := { s.pln.raised 3 with mgmtRx := s.pln.mgmtRx ++ [frame] } } := by
  have hx : exec (.mgmtFrame frame) s = execMgmtFrame frame s := rfl
  rw [hx, execMgmtFrame, plinthUp_runs hup, plinthEvent_raises hup]
  rfl

theorem bmcPowerRestored_clears : exec .bmcPowerRestored s = .next { s with pln := { s.pln.raised 4 with pwrReq := false } } := by
  have hx : exec .bmcPowerRestored s = execBmcPowerRestored s := rfl
  rw [hx, execBmcPowerRestored, plinthUp_runs hup, plinthEvent_raises hup]

theorem bmcWakeRequest_asks : exec .bmcWakeRequest s = .next { s with pln := { s.pln.raised 4 with pwrReq := true } } := by
  have hx : exec .bmcWakeRequest s = execBmcWakeRequest s := rfl
  rw [hx, execBmcWakeRequest, plinthUp_runs hup, plinthEvent_raises hup]

/-! The console (R90). -/

theorem consoleRx_received : exec (.consoleRx byte true) s = .next { s with pln := { s.pln with conRx := s.pln.conRx ++ [byte] } } :=
  (plinthUp_runs hup).trans (if_pos rfl)

theorem consoleRx_framing : exec (.consoleRx byte false) s = .next { s with pln := { s.pln with conErr := s.pln.conErr + 1 } } :=
  (plinthUp_runs hup).trans (if_neg Bool.false_ne_true)

end

/-! The full reset of the board controller (R533, R535). -/

theorem plinthReset_resets (s : State) : s.plinthReset.get F.RST_CAUSE_PLINTH = 1 ∧ s.plinthReset.boot.porDone = false
    ∧ s.plinthReset.dp = (State.powerOn s.chip).dp ∧ s.plinthReset.cmd = (State.powerOn s.chip).cmd
    ∧ s.plinthReset.pending = s.pending ∧ s.plinthReset.chip = s.chip := by
  have hr : s.plinthReset = (s.fresh.2.mirrorLog (Config.freeBool s.free)).fullReset .plinth := rfl
  have hkept : (s.fresh.2.mirrorLog (Config.freeBool s.free)).kept = s.kept := State.mirrorLog_kept s.fresh.2 _
  rw [hr]
  generalize s.fresh.2.mirrorLog (Config.freeBool s.free) = u at hkept
  obtain ⟨hpending, hchip⟩ := Prod.mk.inj hkept
  obtain ⟨⟨hp, hc, hdp, -, -, -, -, hcmd, -, -, -, -, hpor⟩, -⟩ := u.fullReset_fully .plinth
  rw [hchip] at hc hdp hcmd
  refine ⟨?_, hpor, hdp, hcmd, hp.trans hpending, hc⟩
  exact (State.fullReset_get_rstCause F.RST_CAUSE_PLINTH rfl).trans
    ((State.causeMarked_get rfl (by decide)).trans (State.get_set_same _ F.RST_CAUSE_PLINTH 1 0 0 0 rfl))

/-! A record after a change of PLN_STATUS (R529, R534). -/

theorem plnStatus_not_fault : ¬ faultRegs (Reg.offset ⟨.PLN_STATUS, 0, 0, 0⟩) := by
  rintro (h | h | h | h | ⟨c, i, hc, hi, h⟩) <;> simp only [Reg.offset, RegId.desc] at h <;> omega

theorem plnStatus_set {f : Fld} {n : Nat} (hf : f.id = .PLN_STATUS) :
    RegsBut u (u.set f n) (fun o => o = Reg.offset ⟨.PLN_STATUS, 0, 0, 0⟩) := RegsBut.set f n 0 0 0 (by rw [hf])

section
variable {source cause addr : Nat} {who : Who} {access status detail : Nat}

theorem faultWrite_get_plnStatus {f : Fld} (hf : f.id = .PLN_STATUS) :
    (u.faultWrite source cause addr who access status detail).get f = u.get f :=
  (RegsBut.faultWrite _ _ _ _ _ _ _).get (State.faultWrite_chip ..) f 0 0 0 (hf ▸ plnStatus_not_fault)

theorem plnStatus_recorded (h : RegsBut s u (fun o => o = Reg.offset ⟨.PLN_STATUS, 0, 0, 0⟩)) (hchip : u.chip = s.chip) (hflt : u.flt = s.flt) :
    Recorded s (u.faultWrite source cause addr who access status detail) source cause addr who access status detail :=
  (faultWrite_recorded ..).of_same (by rw [hflt]) (h.get hchip F.FLT_RING_NEXTSEQ 0 0 0 (by decide))

theorem logRec_keepsPln (type origin : Nat) (p q : Word) : let t := u.logRec type origin p q
    t.pln.wdog = u.pln.wdog ∧ t.pln.flashLog = u.pln.flashLog := by
  unfold State.logRec
  split <;> exact ⟨rfl, rfl⟩

theorem plinthEvent_keepsPln (k : Nat) : let t := u.plinthEvent k
    t.pln.wdog = u.pln.wdog ∧ t.pln.flashLog = u.pln.flashLog := by
  unfold State.plinthEvent
  split <;> exact ⟨rfl, rfl⟩

/-- A record leaves the watchdog's count and the mirror as they are. -/
theorem faultWrite_keepsPln : let t := u.faultWrite source cause addr who access status detail
    t.pln.wdog = u.pln.wdog ∧ t.pln.flashLog = u.pln.flashLog := by
  unfold State.faultWrite
  dsimp only
  rw [(plinthEvent_keepsPln _).1, (plinthEvent_keepsPln _).2, (logRec_keepsPln ..).1, (logRec_keepsPln ..).2]
  simp

end

/-! The watchdog (R530, R536). -/

/-- The state from which the expiry of the watchdog is recorded: the processor runs the ROM, and the expiry is counted. -/
def State.restarted (s : State) : State :=
  { ((s.set F.PLN_STATUS_STATE 1).set F.PLN_STATUS_FWVER 0).inc F.PLN_STATUS_WDOG 1 with
    plinth := s.plinth.restart, pln := { s.pln with wdog := 0, runSlot := none } }

theorem withPlinth_get (u : State) (e : Engine) (p : Pln) (f : Fld) (i j k : Nat) :
    ({ u with plinth := e, pln := p } : State).get f i j k = u.get f i j k := get_same rfl rfl f i j k

theorem withPlinth_regs {P : Nat → Prop} (u : State) (e : Engine) (p : Pln) : RegsBut u { u with plinth := e, pln := p } P :=
  RegsBut.of_regs rfl

theorem State.restarted_regs : RegsBut s s.restarted (fun o => o = Reg.offset ⟨.PLN_STATUS, 0, 0, 0⟩) := by
  exact ((plnStatus_set rfl).trans (plnStatus_set rfl)).trans ((plnStatus_set (f := F.PLN_STATUS_WDOG) rfl).trans (withPlinth_regs _ _ _))

theorem State.restarted_get (f : Fld) (hid : f.id = .PLN_STATUS) (hlo : 16 ≤ f.lo) :
    s.restarted.get f = ((s.set F.PLN_STATUS_STATE 1).set F.PLN_STATUS_FWVER 0).get f := by
  rw [State.restarted, withPlinth_get]
  exact State.get_set_field _ F.PLN_STATUS_WDOG f _ 0 0 0 rfl hid (Or.inr hlo)

theorem watchdogExpiry_runs (hup : s.plinthUp = true) (hen : s.get F.PLN_WDOG_EN = 1) :
    exec .watchdogExpiry s = .next (s.restarted.faultWrite 0x3A 0x1B 0 .device 0 0 0) := by
  have hx : exec .watchdogExpiry s = execWatchdogExpiry s := rfl
  have hflag : s.flag F.PLN_WDOG_EN = true := (flag_get s _ _ rfl).trans (decide_eq_true hen)
  simp [hx, execWatchdogExpiry, hup, hflag, State.restarted]

theorem watchdogExpiry_restarts (hup : s.plinthUp = true) (hen : s.get F.PLN_WDOG_EN = 1) : ∃ t, exec .watchdogExpiry s = .next t
    ∧ t.get F.PLN_STATUS_STATE = 1 ∧ t.get F.PLN_STATUS_FWVER = 0 ∧ t.plinth = s.plinth.restart ∧ t.pln.wdog = 0
    ∧ Recorded s t 0x3A 0x1B 0 .device 0 0 0 ∧ t.boot = s.boot ∧ t.dp = s.dp ∧ t.cmd = s.cmd ∧ t.map = s.map := by
  refine ⟨_, watchdogExpiry_runs hup hen, ?_, ?_, ?_, ?_, plnStatus_recorded s.restarted_regs ?_ ?_, ?_, ?_, ?_, ?_⟩
  · rw [faultWrite_get_plnStatus rfl, State.restarted_get _ rfl (by decide),
      State.get_set_field _ F.PLN_STATUS_FWVER F.PLN_STATUS_STATE _ _ _ _ rfl rfl (by decide), State.get_set_same _ _ _ _ _ _ rfl]
    rfl
  · rw [faultWrite_get_plnStatus rfl, State.restarted_get _ rfl (by decide), State.get_set_same _ _ _ _ _ _ rfl]
    rfl
  · simp [State.restarted]
  · rw [faultWrite_keepsPln.1]
    rfl
  all_goals simp [State.restarted]

/-! A write of the watchdog's register (R530). -/

/-- What a write of PLN_WDOG with a timeout in range leaves in the register. -/
def State.wdogStored (s : State) (v : Word) : State :=
  (s.plainWrite ⟨.PLN_WDOG, 0, 0, 0⟩ v).set F.PLN_WDOG_TIMEOUT (fv v F.PLN_WDOG_TIMEOUT)

theorem State.wdogStored_only : s.wdogStored v = { s with regs := (s.wdogStored v).regs } := only_regs_set (only_regs_plain ..) ..

theorem State.wdogStored_timeout : (s.wdogStored v).get F.PLN_WDOG_TIMEOUT = fv v F.PLN_WDOG_TIMEOUT :=
  (State.get_set_same _ F.PLN_WDOG_TIMEOUT _ 0 0 0 rfl).trans (Nat.mod_eq_of_lt (bits_lt ..))

theorem kick_runs (hup : s.plinthUp = true) (hlong : 10 ≤ fv v F.PLN_WDOG_TIMEOUT) : exec (.kick v) s = .next
    (if fv v F.PLN_WDOG_KICK = 1 then { s.wdogStored v with pln := { s.pln with wdog := 0 } } else s.wdogStored v) := by
  have hx : exec (.kick v) s = execKick v s := rfl
  have hshort : ¬ fv v F.PLN_WDOG_TIMEOUT < 10 := Nat.not_lt.2 hlong
  rw [hx, execKick, plinthUp_runs hup]
  simp [State.wdogWrite, State.wdogStored, hshort]

theorem kick_sets (hup : s.plinthUp = true) (hlong : 10 ≤ fv v F.PLN_WDOG_TIMEOUT) : ∃ t, exec (.kick v) s = .next t
    ∧ t.get F.PLN_WDOG_TIMEOUT = fv v F.PLN_WDOG_TIMEOUT
    ∧ t.pln = { s.pln with wdog := if fv v F.PLN_WDOG_KICK = 1 then 0 else s.pln.wdog } ∧ t = { s with regs := t.regs, pln := t.pln } := by
  refine ⟨_, kick_runs hup hlong, ?_⟩
  have htimeout := State.wdogStored_timeout (s := s) (v := v)
  have honly := State.wdogStored_only (s := s) (v := v)
  generalize s.wdogStored v = u at htimeout honly
  split
  · exact ⟨(withPln_get ..).trans htimeout, rfl, by rw [honly]⟩
  · rw [honly] at htimeout ⊢
    exact ⟨htimeout, rfl, rfl⟩

/-! The mirror of the log (R533, R534). -/

theorem mirrorLog_mirrors (h : u.chip.plinth = true) :
    u.mirrorLog true = { u with pln := { u.pln with flashLog := u.pln.mirroredLog, mirrored := u.pln.logSeq } } := by
  simp [State.mirrorLog, Pln.mirroredLog, h]

theorem mirrorLog_fails (h : u.chip.plinth = true) :
    u.mirrorLog false = (u.set F.PLN_STATUS_MIRRORFAIL 1).faultWrite 0x3A 0x05 0 .device 2 0 0 := by
  simp [State.mirrorLog, h]

section
variable (hup : s.plinthUp = true)
include hup

theorem logMirror_runs : exec (.logMirror ok) s = .next ({ s with pln := s.pln.raised 6 }.mirrorLog ok) := by
  have hx : exec (.logMirror ok) s = execLogMirror ok s := rfl
  have hopen : ¬ (s.boot.inReset || !s.boot.porDone) = true := by
    simp only [State.plinthUp, Bool.and_eq_true, Bool.not_eq_true'] at hup
    simp [hup]
  rw [hx, execLogMirror, if_neg hopen, plinthEvent_raises hup]

theorem logMirror_mirrors : ∃ t, exec (.logMirror true) s = .next t ∧ t = { s with pln := t.pln } ∧ t.pln.mirrored = s.pln.logSeq
    ∧ t.pln.log = s.pln.log ∧ t.pln.flashLog = s.pln.mirroredLog :=
  ⟨_, (logMirror_runs hup).trans (congrArg Host.Outcome.next (mirrorLog_mirrors (plinthUp_plinth hup))), rfl, by simp, by simp, by simp⟩

theorem logMirror_fails : ∃ t, exec (.logMirror false) s = .next t ∧ t.get F.PLN_STATUS_MIRRORFAIL = 1
    ∧ Recorded s t 0x3A 0x05 0 .device 2 0 0 ∧ t.pln.flashLog = s.pln.flashLog := by
  refine ⟨_, (logMirror_runs hup).trans (congrArg Host.Outcome.next (mirrorLog_fails (plinthUp_plinth hup))), ?_,
    plnStatus_recorded ?_ rfl rfl, ?_⟩
  · rw [faultWrite_get_plnStatus rfl, State.get_set_same _ _ _ _ _ _ rfl]
    rfl
  · exact RegsBut.trans (t := { s with pln := s.pln.raised 6 }) (RegsBut.of_regs rfl) (plnStatus_set rfl)
  · rw [faultWrite_keepsPln.2, State.set_pln, Pln.raised_flashLog]

end

theorem i2cTimeout_ends (hrst : s.boot.inReset = false) (hbus : bus < 4) : ∃ t, exec (.i2cTimeout bus) s = .next t
    ∧ t = { s with pln := t.pln } ∧ sget 0 t.pln.i2c bus = Status.etimeout.code := by
  have hx : exec (.i2cTimeout bus) s = execI2cTimeout bus s := rfl
  exact ⟨_, hx.trans (if_neg (by simp [hrst, hbus])), rfl, by simp⟩

/-- Where the plinth is absent or not up, its commands have no effect. -/
theorem plinthDown_idle (hdown : s.plinthUp = false) : ∀ i ∈ [Instr.plinthTick, .wake, .mgmtFrame frame, .bmcPowerRestored, .bmcWakeRequest,
    .bmcReset, .consoleRx byte ok, .kick v, .watchdogExpiry], exec i s = .next s := by
  have hno : (!s.plinthUp) = true := by rw [hdown]; rfl
  have hexpiry : (!s.plinthUp || !s.flag F.PLN_WDOG_EN) = true := by rw [hno]; rfl
  simp only [List.forall_mem_cons]
  exact ⟨if_pos hno, if_pos hno, if_pos hno, if_pos hno, if_pos hno, if_pos hno, if_pos hno, if_pos hno, if_pos hexpiry, List.forall_mem_nil _⟩

/-- Settles O46: a running plinth counts, raises events and stores what it receives; its watchdog and a failed mirror leave a record;
where it does not run nothing changes. -/
theorem plinthEvents : Obligations.PlinthEvents := by
  intro s v frame byte bus ok
  refine ⟨fun hup => ⟨⟨_, plinthTick_counts hup, rfl, rfl⟩, ⟨_, wake_asks hup, rfl, rfl⟩, ⟨_, mgmtFrame_received hup, rfl, rfl⟩,
    ⟨_, bmcPowerRestored_clears hup, rfl, rfl⟩, ⟨_, bmcWakeRequest_asks hup, rfl, rfl⟩,
    ⟨_, (plinthUp_runs hup), plinthReset_resets s⟩, ⟨_, consoleRx_received hup, rfl, rfl⟩, ⟨_, consoleRx_framing hup, rfl, rfl⟩,
    kick_sets hup, watchdogExpiry_restarts hup, logMirror_mirrors hup, logMirror_fails hup⟩, plinthDown_idle, i2cTimeout_ends⟩

end Sys2Proof.Machine

end

section

/-! Sensors and monitors (O43). Each part of an update changes some fields of the sensors' registers, writes records and may enter the
safe state; what it does not name it leaves, so that a reading, a mark or the throttle is found again at the update's end. -/

namespace Sys2Proof.Machine

variable {s t u : State} {A B : List Fld} {temps : List (Option (BitVec 12))}

/-! A pass over the readings of an update, an index at a time. -/

/-- The readings xs applied in order from index k on. -/
def State.pass (step : State → Nat → Option (BitVec 12) → State) (s : State) : Nat → List (Option (BitVec 12)) → State
  | _, [] => s
  | k, x :: xs => State.pass step (step s k x) (k + 1) xs

section
variable {step : State → Nat → Option (BitVec 12) → State} {k i : Nat} {xs : List (Option (BitVec 12))}

theorem pass_rel {R : State → State → Prop} (hrefl : ∀ s, R s s) (htrans : ∀ s t u, R s t → R t u → R s u)
    (hstep : ∀ s k x, R s (step s k x)) : R s (s.pass step k xs) := by
  induction xs generalizing s k with
  | nil => exact hrefl s
  | cons x xs ih => exact htrans _ _ _ (hstep s k x) ih

/-- What the other indices leave of index i, the pass leaves as index i's own step made it. -/
theorem pass_at {β : Type} {o : State → β} (hother : ∀ s k x, i ≠ k → o (step s k x) = o s) {x : Option (BitVec 12)}
    (hk : k ≤ i) (hx : xs[i - k]? = some x) : ∃ u, o (s.pass step k xs) = o (step u i x) := by
  have hlater (s : State) (k : Nat) (xs : List (Option (BitVec 12))) (hk : i < k) : o (s.pass step k xs) = o s := by
    induction xs generalizing s k with
    | nil => rfl
    | cons y ys ih => exact (ih _ _ (Nat.lt_succ_of_lt hk)).trans (hother _ _ _ (Nat.ne_of_lt hk))
  induction xs generalizing s k with
  | nil => cases hx
  | cons y ys ih =>
    rcases Nat.eq_or_lt_of_le hk with rfl | hlt
    · rw [Nat.sub_self] at hx
      cases hx
      exact ⟨s, hlater _ _ _ (Nat.lt_succ_self _)⟩
    · refine ih hlt ?_
      rwa [show i - k = i - (k + 1) + 1 by omega, List.getElem?_cons_succ] at hx

end

/-! The registers of the sensors (R97). -/

/-- A register of the sensors: THERM_TEMP of one of the 64, or THERM_SUMMARY. -/
def sensorReg (id : RegId) (j : Nat) : Prop := id = .THERM_TEMP ∧ j < 64 ∨ id = .THERM_SUMMARY ∧ j = 0

theorem sensorReg_not_safe {id : RegId} {j : Nat} (h : sensorReg id j) : ¬ safeRegs (Reg.offset ⟨id, j, 0, 0⟩) := by
  rcases h with ⟨rfl, hj⟩ | ⟨rfl, rfl⟩ <;>
    rintro ((h | h | ⟨l, hl, h⟩) | ⟨r, hr, h⟩ | ⟨k, hk, h⟩) <;> simp only [Reg.offset, RegId.desc] at h <;> omega

theorem sensorReg_not_cause {id : RegId} {j : Nat} (h : sensorReg id j) :
    Reg.offset ⟨id, j, 0, 0⟩ ≠ Reg.offset ⟨.PWR_INT_CAUSE, 0, 0, 0⟩ := by
  rcases h with ⟨rfl, hj⟩ | ⟨rfl, rfl⟩ <;> simp only [Reg.offset, RegId.desc] <;> omega

/-- Of the sensors' registers no two share a place. -/
theorem sensorReg_place {id id' : RegId} {i j : Nat} (h : sensorReg id j) (h' : id' = .THERM_TEMP ∨ id' = .THERM_SUMMARY ∧ i = 0)
    (hplace : Reg.offset ⟨id, j, 0, 0⟩ = Reg.offset ⟨id', i, 0, 0⟩) : id = id' ∧ j = i := by
  rcases h with ⟨rfl, hj⟩ | ⟨rfl, rfl⟩ <;> rcases h' with rfl | ⟨rfl, rfl⟩ <;> simp only [Reg.offset, RegId.desc] at hplace <;>
    simp <;> omega

/-- A field shares no bit with the fields of a list. -/
def Fld.clearOf (g : Fld) (A : List Fld) : Bool := A.all (fun f => g.id ≠ f.id || g.hi < f.lo || f.hi < g.lo)

/-- What an update of the sensors leaves: commands, the part, trees, lines and the clocks' domains. -/
def SensorKept (s t : State) : Prop := t.pending = s.pending ∧ t.chip = s.chip ∧ t.tree = s.tree ∧ t.slots = s.slots ∧ t.tim = s.tim

/-- Of the sensors' registers, t holds what s held but for the fields of A. -/
structure SensorStep (A : List Fld) (s t : State) : Prop where
  kept : SensorKept s t
  fields : ∀ (g : Fld) (j : Nat), sensorReg g.id j → g.clearOf A = true → t.get g j = s.get g j

namespace SensorStep

theorem refl : SensorStep A s s := ⟨⟨rfl, rfl, rfl, rfl, rfl⟩, fun _ _ _ _ => rfl⟩

theorem trans (h : SensorStep A s t) (k : SensorStep A t u) : SensorStep A s u := by
  obtain ⟨⟨h1, h2, h3, h4, h5⟩, hf⟩ := h
  obtain ⟨⟨k1, k2, k3, k4, k5⟩, kf⟩ := k
  exact ⟨⟨k1.trans h1, k2.trans h2, k3.trans h3, k4.trans h4, k5.trans h5⟩,
    fun g j hg hc => (kf g j hg hc).trans (hf g j hg hc)⟩

theorem mono (h : SensorStep A s t) (hAB : A ⊆ B) : SensorStep B s t := by
  refine ⟨h.kept, fun g j hg hc => h.fields g j hg ?_⟩
  simp only [Fld.clearOf, List.all_eq_true] at hc ⊢
  exact fun f hf => hc f (hAB hf)

theorem ite {c : Prop} [Decidable c] (h : SensorStep A s t) (k : SensorStep A s u) : SensorStep A s (if c then t else u) := by
  split <;> assumption

theorem foldl {α : Type} {f : State → α → State} (hf : ∀ s a, SensorStep A s (f s a)) (l : List α) : SensorStep A s (l.foldl f s) := by
  induction l generalizing s with
  | nil => exact refl
  | cons a l ih => exact (hf s a).trans ih

theorem of_regs {P : Nat → Prop} (h : RegsBut s t P) (hP : ∀ id j, sensorReg id j → ¬ P (Reg.offset ⟨id, j, 0, 0⟩))
    (hk : SensorKept s t) : SensorStep A s t :=
  ⟨hk, fun g j hg _ => h.get (by obtain ⟨-, hchip, -⟩ := hk; exact hchip) g j 0 0 (hP _ _ hg)⟩

theorem withPwr (u : State) (p : Pwr) : SensorStep A u { u with pwr := p } :=
  ⟨⟨rfl, rfl, rfl, rfl, rfl⟩, fun g j _ _ => get_same rfl rfl g j 0 0⟩

/-- A field of the sensors' registers is set. -/
theorem set {f : Fld} {v i : Nat} (hid : f.id = .THERM_TEMP ∨ f.id = .THERM_SUMMARY ∧ i = 0) (hok : f.ok = true) (hA : f ∈ A) :
    SensorStep A s (s.set f v i) := by
  refine ⟨⟨State.set_pending .., State.set_chip .., State.set_tree .., State.set_slots .., State.set_tim ..⟩, fun g j hg hc => ?_⟩
  apply get_set_other _ _ _ _ _ _ hok
  by_cases hplace : Reg.offset ⟨g.id, j, 0, 0⟩ = Reg.offset ⟨f.id, i, 0, 0⟩
  · obtain ⟨hgid, hj⟩ := sensorReg_place hg hid hplace
    have hclear := List.all_eq_true.1 hc f hA
    simp only [hgid, ne_eq, not_true, decide_false, Bool.false_or, Bool.or_eq_true, decide_eq_true_eq] at hclear
    exact Or.inr ⟨hgid, hj, hclear⟩
  · exact Or.inl hplace

theorem fatal (s : State) (source cause addr : Nat) (who : Who) (access status detail : Nat) :
    SensorStep A s (s.fatal source cause addr who access status detail) := by
  refine of_regs (fatal_regs _ _ _ _ _ _ _ _) (fun _ _ => sensorReg_not_safe) ?_
  have hw := OnlyData.faultWrite s source cause addr who access status detail
  unfold State.fatal
  dsimp only
  split
  · exact ⟨hw.pending, hw.chip, hw.tree, hw.slots, hw.tim⟩
  · obtain ⟨h1, h2, h3, h4, -, h6⟩ := (enterSafe_enters (s.faultWrite source cause addr who access status detail)).kept
    exact ⟨h1.trans hw.pending, h2.trans hw.chip, h3.trans hw.tree, h6.trans hw.slots, h4.trans hw.tim⟩

theorem faultWrite (s : State) (source cause addr : Nat) (who : Who) (access status detail : Nat) :
    SensorStep A s (s.faultWrite source cause addr who access status detail) := by
  have hw := OnlyData.faultWrite s source cause addr who access status detail
  exact of_regs (PacketRegs.faultWrite _ _ _ _ _ _ _ _) (fun _ _ h hp => sensorReg_not_safe h (Or.inl hp))
    ⟨hw.pending, hw.chip, hw.tree, hw.slots, hw.tim⟩

end SensorStep

/-! The parts of an update. -/

/-- One reading taken: none where the conversion failed. -/
def State.takeReading (s : State) (i : Nat) (x : Option (BitVec 12)) : State :=
  match x with
  | some v => if i < 64 then s.set F.THERM_TEMP_TEMP v.toNat i else s
  | none => s

theorem takeReadings_eq_pass (k : Nat) (xs : List (Option (BitVec 12))) : s.takeReadings k xs = s.pass State.takeReading k xs := by
  induction xs generalizing s k with
  | nil => rfl
  | cons x xs ih => exact ih (k + 1)

theorem takeReading_step (s : State) (i : Nat) (x : Option (BitVec 12)) : SensorStep [F.THERM_TEMP_TEMP] s (s.takeReading i x) := by
  unfold State.takeReading
  split
  · exact .ite (.set (Or.inl rfl) rfl (by simp)) .refl
  · exact .refl

theorem takeReadings_step : SensorStep [F.THERM_TEMP_TEMP] s (s.takeReadings 0 temps) := by
  rw [takeReadings_eq_pass]
  exact pass_rel (fun _ => .refl) (fun _ _ _ => .trans) takeReading_step

theorem takeReadings_temp {i : Nat} {v : BitVec 12} (hi : i < 64) (hv : temps[i]? = some (some v)) :
    (s.takeReadings 0 temps).get F.THERM_TEMP_TEMP i = v.toNat := by
  have hother (s : State) (k : Nat) (x : Option (BitVec 12)) (hk : i ≠ k) :
      (s.takeReading k x).get F.THERM_TEMP_TEMP i = s.get F.THERM_TEMP_TEMP i := by
    unfold State.takeReading
    split
    · split
      · exact State.get_set_reg _ _ _ _ _ _ _ _ _ _ (by simp only [Reg.offset, RegId.desc, F.THERM_TEMP_TEMP]; omega)
      · rfl
    · rfl
  obtain ⟨u, hu⟩ := pass_at (o := fun u => u.get F.THERM_TEMP_TEMP i) hother (Nat.zero_le i) hv (s := s)
  rw [takeReadings_eq_pass, hu]
  simp only [State.takeReading, if_pos hi]
  exact (State.get_set_same _ F.THERM_TEMP_TEMP _ _ _ _ rfl).trans (Nat.mod_eq_of_lt v.isLt)

theorem sensorFailed_step (s : State) (i : Nat) : SensorStep [F.THERM_TEMP_FAILED, F.THERM_SUMMARY_SFAIL] s (s.sensorFailed i) :=
  (SensorStep.trans (.set (Or.inl rfl) rfl (by simp)) (.set (Or.inr ⟨rfl, rfl⟩) rfl (by simp))).trans (.faultWrite ..)

theorem judgeSensors_step : SensorStep [F.THERM_TEMP_FAILED, F.THERM_SUMMARY_SFAIL] s (s.judgeSensors temps) := by
  unfold State.judgeSensors
  dsimp only
  exact ((SensorStep.withPwr _ _).trans (.foldl sensorFailed_step _)).trans (.foldl (fun _ _ => .ite (.fatal ..) .refl) _)

theorem showHottest_step : SensorStep [F.THERM_SUMMARY_HOTTEST, F.THERM_SUMMARY_TEMP] s s.showHottest := by
  unfold State.showHottest
  split
  · exact .trans (.set (Or.inr ⟨rfl, rfl⟩) rfl (by simp)) (.set (Or.inr ⟨rfl, rfl⟩) rfl (by simp))
  · exact .refl

theorem trip_step (before : State) : SensorStep [F.THERM_SUMMARY_TRIP] s (s.trip before) := by
  unfold State.trip
  dsimp only
  exact .trans (.ite .refl (.set (Or.inr ⟨rfl, rfl⟩) rfl (by simp))) (.foldl (fun _ _ => .fatal ..) _)

theorem throttleDown_step : SensorStep A s s.throttleDown := .ite .refl (.withPwr ..)

theorem raise_step (m src : Nat) : SensorStep A s (s.raise ⟨.PWR_INT_CAUSE, 3, 0⟩ ⟨.PWR_INT_EN, 3, 0⟩ m src) :=
  .of_regs (RegsBut.raise _ _ _ _ _ (P := fun o => o = Reg.offset ⟨.PWR_INT_CAUSE, 0, 0, 0⟩) rfl)
    (fun _ _ => sensorReg_not_cause) (by simp [SensorKept])

theorem throttle_step (tripped : Bool) : SensorStep [F.THERM_SUMMARY_THROTTLE] s (s.throttle tripped) := by
  have hset (u : State) (n : Nat) : SensorStep [F.THERM_SUMMARY_THROTTLE] u (u.set F.THERM_SUMMARY_THROTTLE n) :=
    .set (Or.inr ⟨rfl, rfl⟩) rfl (by simp)
  unfold State.throttle
  exact .ite (.ite ((SensorStep.withPwr ..).trans (hset ..)) (.withPwr ..))
    (.ite (((SensorStep.withPwr ..).trans (hset ..)).trans ((raise_step ..).trans throttleDown_step)) (.withPwr ..))

theorem ceiling_step : SensorStep [] s s.ceiling := by
  unfold State.ceiling
  exact .trans (.ite (.withPwr ..) (.ite (.withPwr ..) .refl)) (.withPwr ..)

theorem hotRefresh_step (k : Nat) : SensorStep [] s (s.hotRefresh k) := by
  unfold State.hotRefresh
  exact .ite (.withPwr ..) (.ite (.trans (.faultWrite ..) (.withPwr ..)) (.ite (.withPwr ..) .refl))

/-! What an update shows (R94, R95). -/

/-- Sensor i is one of 0 to 55, works, and reads d degrees or more. -/
def State.hot (s : State) (d i : Nat) : Prop := i < 56 ∧ s.works i = true ∧ 8 * (d : Int) ≤ s.temp i

theorem SensorStep.works (h : SensorStep A s t) (hA : F.THERM_TEMP_FAILED.clearOf A = true) {i : Nat} (hi : i < 64) : t.works i = s.works i := by
  unfold State.works State.flag
  rw [h.fields _ _ (Or.inl ⟨rfl, hi⟩) hA]

theorem SensorStep.temp (h : SensorStep A s t) (hA : F.THERM_TEMP_TEMP.clearOf A = true) {i : Nat} (hi : i < 64) : t.temp i = s.temp i := by
  unfold State.temp
  rw [h.fields _ _ (Or.inl ⟨rfl, hi⟩) hA]

theorem SensorStep.hot_iff (h : SensorStep A s t) (hT : F.THERM_TEMP_TEMP.clearOf A = true) (hF : F.THERM_TEMP_FAILED.clearOf A = true)
    {d i : Nat} : t.hot d i ↔ s.hot d i := by
  refine and_congr_right fun hi => ?_
  rw [h.works hF (Nat.lt_trans hi (by decide)), h.temp hT (Nat.lt_trans hi (by decide))]

theorem SensorStep.summary (h : SensorStep A s t) {g : Fld} (hg : g.id = .THERM_SUMMARY) (hA : g.clearOf A = true) : t.get g = s.get g :=
  h.fields g 0 (Or.inr ⟨hg, rfl⟩) hA

theorem mem_working {i : Nat} : i ∈ (range' 0 56).filter s.works ↔ i < 56 ∧ s.works i = true := by
  simp [mem_range']

theorem any_hot {d : Nat} : ((range' 0 56).filter s.works).any (fun i => degrees d ≤ s.temp i) = true ↔ ∃ i, s.hot d i := by
  simp only [List.any_eq_true, mem_working, decide_eq_true_eq]
  simp only [State.hot, degrees, and_assoc]

theorem throttle_enters (hoff : s.get F.THERM_SUMMARY_THROTTLE = 0) (hhot : ∃ i, s.hot 100 i) :
    (s.throttle false).get F.THERM_SUMMARY_THROTTLE = 1 := by
  have hflag : s.flag F.THERM_SUMMARY_THROTTLE = false := (flag_get _ _ _ rfl).trans (by simp [hoff])
  unfold State.throttle
  simp only [hflag, any_hot.2 hhot, Bool.false_eq_true, if_false, Bool.not_false, Bool.and_self, if_true]
  rw [throttleDown_step.summary (A := []) rfl rfl, (raise_step ..).summary (A := []) rfl rfl, State.get_set_same _ _ _ _ _ _ rfl]
  rfl

theorem throttle_stays_off {tripped : Bool} (hoff : s.get F.THERM_SUMMARY_THROTTLE = 0) (hcool : ∀ i, ¬ s.hot 100 i) :
    (s.throttle tripped).get F.THERM_SUMMARY_THROTTLE = 0 := by
  have hflag : s.flag F.THERM_SUMMARY_THROTTLE = false := (flag_get _ _ _ rfl).trans (by simp [hoff])
  have habove : ((range' 0 56).filter s.works).any (fun i => degrees 100 ≤ s.temp i) = false := by
    rw [← Bool.not_eq_true, any_hot]
    exact fun ⟨i, hi⟩ => hcool i hi
  unfold State.throttle
  simp only [hflag, habove, Bool.false_eq_true, if_false, Bool.false_and]
  exact ((SensorStep.withPwr s _).summary (A := []) rfl rfl).trans hoff

theorem throttle_leaves {tripped : Bool} (hon : s.get F.THERM_SUMMARY_THROTTLE = 1)
    (hcool : ∀ i, i < 56 → s.works i = true → s.temp i ≤ 8 * 97) : (s.throttle tripped).get F.THERM_SUMMARY_THROTTLE = 0 := by
  have hflag : s.flag F.THERM_SUMMARY_THROTTLE = true := (flag_get _ _ _ rfl).trans (by simp [hon])
  have hall : ((range' 0 56).filter s.works).all (fun i => s.temp i ≤ degrees 97) = true := by
    simp only [List.all_eq_true, mem_working, decide_eq_true_eq]
    exact fun i hi => hcool i hi.1 hi.2
  unfold State.throttle
  simp only [hflag, hall, if_true]
  exact State.get_set_same _ F.THERM_SUMMARY_THROTTLE 0 0 0 0 rfl

/-! The shutdown at 115 °C (R95). -/

/-- The sensors that reach 115 °C. -/
def State.above115 (s : State) : List Nat := (range' 0 56).filter (fun i => s.works i && degrees 115 ≤ s.temp i)

theorem mem_above115 {i : Nat} : i ∈ s.above115 ↔ s.hot 115 i := by
  simp only [State.above115, List.mem_filter, mem_range', Bool.and_eq_true, decide_eq_true_eq]
  simp [State.hot, degrees]

theorem trip_eq (before : State) : s.trip before = (s.above115.filter (fun i => before.temp i < degrees 115)).foldl
    (fun s i => s.fatal 0x30 0x22 i) (if s.above115 = [] then s else s.set F.THERM_SUMMARY_TRIP 1) := rfl

theorem trip_marks {before : State} {i : Nat} (hi : s.hot 115 i) : (s.trip before).get F.THERM_SUMMARY_TRIP = 1 := by
  rw [trip_eq, if_neg (List.ne_nil_of_mem (mem_above115.2 hi)),
    (SensorStep.foldl (A := []) (fun _ _ => .fatal ..) _).summary rfl rfl, State.get_set_same _ _ _ _ _ _ rfl]
  rfl

theorem fatal_safe (source cause addr : Nat) (who : Who) (access status detail : Nat) :
    (s.fatal source cause addr who access status detail).safe = true := by
  unfold State.fatal
  dsimp only
  split
  · assumption
  · exact (enterSafe_enters _).safe

/-- A fatal record for each number of a list ends in the safe state, unless the list is empty. -/
theorem foldl_fatal_safe {source cause : Nat} (l : List Nat) (h : s.safe = true ∨ l ≠ []) :
    (l.foldl (fun s i => s.fatal source cause i) s).safe = true := by
  induction l generalizing s with
  | nil => exact h.resolve_right (fun hne => hne rfl)
  | cons i l ih => exact ih (Or.inl (fatal_safe ..))

theorem trip_safe {before : State} {i : Nat} (hi : s.hot 115 i) (hnew : before.temp i < 8 * 115) : (s.trip before).safe = true := by
  rw [trip_eq]
  apply foldl_fatal_safe
  exact Or.inr (List.ne_nil_of_mem (List.mem_filter.2 ⟨mem_above115.2 hi, decide_eq_true hnew⟩))

theorem SafeSame.safe (h : SafeSame s t) : t.safe = s.safe := by
  unfold State.safe State.flag
  rw [h]

theorem SafeSame.withPwr (u : State) (p : Pwr) : SafeSame u { u with pwr := p } := .of_regs rfl rfl

theorem throttle_safe (tripped : Bool) : SafeSame s (s.throttle tripped) := by
  have hset (u : State) (n : Nat) : SafeSame u (u.set F.THERM_SUMMARY_THROTTLE n) := .set _ _ _ _ _ (by decide)
  have hdown (u : State) : SafeSame u u.throttleDown := .ite (.refl u) (.withPwr ..)
  unfold State.throttle
  exact .ite (.ite ((SafeSame.withPwr ..).trans (hset ..)) (.withPwr ..))
    (.ite (((SafeSame.withPwr ..).trans (hset ..)).trans ((SafeSame.raise _ _ _ _ _ (by decide)).trans (hdown _))) (.withPwr ..))

theorem ceiling_safe : SafeSame s s.ceiling := by
  unfold State.ceiling
  exact .trans (.ite (.withPwr ..) (.ite (.withPwr ..) (.refl _))) (.withPwr ..)

theorem hotRefresh_safe (k : Nat) : SafeSame s (s.hotRefresh k) := by
  unfold State.hotRefresh
  exact .ite (.withPwr ..) (.ite ((SafeSame.faultWrite ..).trans (.withPwr ..)) (.ite (.withPwr ..) (.refl _)))

/-! The whole update. -/

/-- The state in which the readings are taken and judged, and THERM_SUMMARY shows the hottest. -/
def State.sensed (s : State) (temps : List (Option (BitVec 12))) : State := ((s.takeReadings 0 temps).judgeSensors temps).showHottest

/-- A sensor of 0 to 55 reads 115 °C or more. -/
def State.tripped (s : State) : Bool := (range' 0 56).any (fun i => s.works i && degrees 115 ≤ s.temp i)

/-- The throttle, the thermal level and the refresh of the memory stacks follow the readings. -/
def State.settled (s : State) : State := (((s.throttle s.tripped).ceiling).hotRefresh 0).hotRefresh 1

theorem sensorUpdate_runs (hrst : s.boot.inReset = false) (hpor : s.boot.porDone = true) :
    exec (.sensorUpdate temps) s = .next ((s.sensed temps).trip s).settled := by
  have hx : exec (.sensorUpdate temps) s = execSensorUpdate temps s := rfl
  exact hx.trans (if_neg (by simp [hrst, hpor]))

theorem tripped_eq_false (h : ∀ i, ¬ s.hot 115 i) : s.tripped = false := by
  simp only [State.tripped, List.any_eq_false, mem_range', Bool.and_eq_true, decide_eq_true_eq]
  exact fun i hi hhot => h i ⟨by omega, hhot⟩

theorem settled_step : SensorStep [F.THERM_SUMMARY_THROTTLE] s s.settled :=
  (throttle_step _).trans ((ceiling_step.trans ((hotRefresh_step 0).trans (hotRefresh_step 1))).mono (List.nil_subset _))

theorem settled_throttle : s.settled.get F.THERM_SUMMARY_THROTTLE = (s.throttle s.tripped).get F.THERM_SUMMARY_THROTTLE :=
  (ceiling_step.trans ((hotRefresh_step 0).trans (hotRefresh_step 1))).summary rfl rfl

theorem settled_safe : SafeSame s s.settled :=
  (throttle_safe _).trans (ceiling_safe.trans ((hotRefresh_safe 0).trans (hotRefresh_safe 1)))

/-- What follows the readings leaves them. -/
theorem judged_step (before : State) : SensorStep [F.THERM_TEMP_FAILED, F.THERM_SUMMARY_SFAIL, F.THERM_SUMMARY_HOTTEST, F.THERM_SUMMARY_TEMP,
    F.THERM_SUMMARY_TRIP, F.THERM_SUMMARY_THROTTLE] s (((s.judgeSensors temps).showHottest).trip before).settled :=
  (((judgeSensors_step.mono (by simp)).trans (showHottest_step.mono (by simp))).trans ((trip_step _).mono (by simp))).trans
    (settled_step.mono (by simp))

/-- Before the throttle is judged an update leaves it. -/
theorem sensed_throttle (before : State) : ((s.sensed temps).trip before).get F.THERM_SUMMARY_THROTTLE = s.get F.THERM_SUMMARY_THROTTLE :=
  calc ((s.sensed temps).trip before).get F.THERM_SUMMARY_THROTTLE
      = (s.sensed temps).get F.THERM_SUMMARY_THROTTLE := (trip_step _).summary rfl rfl
    _ = ((s.takeReadings 0 temps).judgeSensors temps).get F.THERM_SUMMARY_THROTTLE := showHottest_step.summary rfl rfl
    _ = (s.takeReadings 0 temps).get F.THERM_SUMMARY_THROTTLE := judgeSensors_step.summary rfl rfl
    _ = s.get F.THERM_SUMMARY_THROTTLE := takeReadings_step.summary rfl rfl

theorem sensorUpdate_shows (hrst : s.boot.inReset = false) (hpor : s.boot.porDone = true) : ∃ t, exec (.sensorUpdate temps) s = .next t
    ∧ (∀ (i : Nat) (v : BitVec 12), i < 64 → temps[i]? = some (some v) → t.get F.THERM_TEMP_TEMP i = v.toNat)
    ∧ ((∃ i, t.hot 115 i) → t.get F.THERM_SUMMARY_TRIP = 1)
    ∧ ((∃ i, t.hot 115 i ∧ s.temp i < 8 * 115) → t.safe = true)
    ∧ (s.get F.THERM_SUMMARY_THROTTLE = 0 → (∃ i, t.hot 100 i) → (∀ i, ¬ t.hot 115 i) → t.get F.THERM_SUMMARY_THROTTLE = 1)
    ∧ (s.get F.THERM_SUMMARY_THROTTLE = 0 → (∀ i, ¬ t.hot 100 i) → t.get F.THERM_SUMMARY_THROTTLE = 0)
    ∧ (s.get F.THERM_SUMMARY_THROTTLE = 1 → (∀ i, i < 56 → t.works i = true → t.temp i ≤ 8 * 97) → t.get F.THERM_SUMMARY_THROTTLE = 0)
    ∧ t.pending = s.pending ∧ t.tree = s.tree ∧ t.slots = s.slots ∧ t.tim = s.tim := by
  have htrip := trip_step (s := s.sensed temps) s
  have hthrottle := sensed_throttle (s := s) (temps := temps) s
  refine ⟨_, sensorUpdate_runs hrst hpor, fun i v hi hv => ?_, ?_, ?_, ?_, ?_, ?_, ?_⟩
  · exact ((judged_step s).fields _ _ (Or.inl ⟨rfl, hi⟩) rfl).trans (takeReadings_temp hi hv)
  · rintro ⟨i, hi⟩
    rw [settled_step.hot_iff rfl rfl, htrip.hot_iff rfl rfl] at hi
    exact (settled_step.summary rfl rfl).trans (trip_marks hi)
  · rintro ⟨i, hi, hnew⟩
    rw [settled_step.hot_iff rfl rfl, htrip.hot_iff rfl rfl] at hi
    rw [settled_safe.safe]
    exact trip_safe hi hnew
  · intro hoff hhot hno
    simp only [settled_step.hot_iff rfl rfl] at hhot hno
    rw [settled_throttle, tripped_eq_false hno]
    exact throttle_enters (hthrottle.trans hoff) hhot
  · intro hoff hcool
    simp only [settled_step.hot_iff rfl rfl] at hcool
    rw [settled_throttle]
    exact throttle_stays_off (hthrottle.trans hoff) hcool
  · intro hon hcool
    rw [settled_throttle]
    refine throttle_leaves (hthrottle.trans hon) fun i hi hw => ?_
    have hi64 : i < 64 := Nat.lt_trans hi (by decide)
    rw [← settled_step.temp rfl hi64]
    exact hcool i hi ((settled_step.works rfl hi64).trans hw)
  · obtain ⟨h1, -, h3, h4, h5⟩ := ((takeReadings_step.mono (List.subset_append_left _ _)).trans
      ((judged_step (temps := temps) s).mono (List.subset_append_right _ _))).kept
    exact ⟨h1, h3, h4, h5⟩

/-! Voltage monitors (R531). -/

theorem vmon_not_fault {i : Nat} : ¬ faultRegs (Reg.offset ⟨.FLT_VMON, i, 0, 0⟩) := by
  rintro (h | h | h | h | ⟨c, k, hc, hk, h⟩) <;> simp only [Reg.offset, RegId.desc] at h <;> omega

/-- What the monitors leave: commands, the part, trees, packets, the governor and the engines. -/
def MonitorKept (s t : State) : Prop :=
  t.pending = s.pending ∧ t.chip = s.chip ∧ t.tree = s.tree ∧ t.dp = s.dp ∧ t.pwr = s.pwr ∧ t.cmd = s.cmd ∧ t.map = s.map

theorem MonitorKept.refl (s : State) : MonitorKept s s := ⟨rfl, rfl, rfl, rfl, rfl, rfl, rfl⟩

theorem MonitorKept.trans (s t u : State) (h : MonitorKept s t) (k : MonitorKept t u) : MonitorKept s u := by
  obtain ⟨h1, h2, h3, h4, h5, h6, h7⟩ := h
  obtain ⟨k1, k2, k3, k4, k5, k6, k7⟩ := k
  exact ⟨k1.trans h1, k2.trans h2, k3.trans h3, k4.trans h4, k5.trans h5, k6.trans h6, k7.trans h7⟩

/-- Monitor i's part of an update: beside the fault registers it changes FLT_VMON of i alone. -/
structure MonitorStep (i : Nat) (s t : State) : Prop where
  kept : MonitorKept s t
  regs : RegsBut s t (fun o => faultRegs o ∨ o = Reg.offset ⟨.FLT_VMON, i, 0, 0⟩)

namespace MonitorStep

variable {i : Nat}

theorem refl : MonitorStep i s s := ⟨.refl s, .rfl⟩

theorem trans (h : MonitorStep i s t) (k : MonitorStep i t u) : MonitorStep i s u := ⟨.trans _ _ _ h.kept k.kept, RegsBut.trans h.regs k.regs⟩

theorem ite {c : Prop} [Decidable c] (h : MonitorStep i s t) (k : MonitorStep i s u) : MonitorStep i s (if c then t else u) := by
  split <;> assumption

theorem set {f : Fld} {v : Nat} (hf : f.id = .FLT_VMON) : MonitorStep i s (s.set f v i) :=
  ⟨by simp [MonitorKept], RegsBut.set _ _ _ _ _ (Or.inr (by rw [hf]))⟩

theorem withFlt (u : State) (x : Flt) : MonitorStep i u { u with flt := x } :=
  ⟨.refl u, RegsBut.of_regs rfl⟩

theorem faultWrite (u : State) (source cause addr : Nat) (who : Who) (access status detail : Nat) :
    MonitorStep i u (u.faultWrite source cause addr who access status detail) :=
  ⟨by simp [MonitorKept], (RegsBut.faultWrite _ _ _ _ _ _ _).mono fun _ => Or.inl⟩

theorem get_other (h : MonitorStep i s t) {f : Fld} {k : Nat} (hf : f.id = .FLT_VMON) (hk : k ≠ i) : t.get f k = s.get f k := by
  refine h.regs.get h.kept.2.1 f k 0 0 ?_
  rw [hf]
  rintro (hfault | heq)
  · exact vmon_not_fault hfault
  · simp only [Reg.offset, RegId.desc] at heq
    omega

end MonitorStep

theorem vmon_step (i : Nat) (x : Option (BitVec 12)) : MonitorStep i s (s.vmon i x) := by
  unfold State.vmon
  split
  · exact .trans (.set rfl) (.withFlt ..)
  · have hread (mv : Nat) (y : Flt) : MonitorStep i s { (s.set F.FLT_VMON_OFF 0 i).set F.FLT_VMON_MV mv i with flt := y } :=
      (MonitorStep.trans (.set rfl) (.set rfl)).trans (.withFlt ..)
    have halarm {c : Prop} [Decidable c] {u : State} (h : MonitorStep i s u) : MonitorStep i s (if c then u.set F.FLT_VMON_ALARM 1 i else u) :=
      .ite (h.trans (.set rfl)) h
    exact .ite ((halarm (hread ..)).trans (.faultWrite ..)) (halarm (hread ..))

theorem withFlt_get (u : State) (x : Flt) (f : Fld) (i j k : Nat) : ({ u with flt := x } : State).get f i j k = u.get f i j k :=
  get_same rfl rfl f i j k

theorem ite_get {c : Prop} [Decidable c] (f : Fld) (i j k : Nat) :
    (if c then s else t).get f i j k = if c then s.get f i j k else t.get f i j k := apply_ite (fun u => u.get f i j k) c s t

theorem vmon_off (i : Nat) : (s.vmon i none).get F.FLT_VMON_OFF i = 1 := by
  simp only [State.vmon, withFlt_get]
  exact State.get_set_same _ _ _ _ _ _ rfl

/-- The alarm and the record of a monitor leave its reading. -/
theorem vmon_get {i : Nat} (mv : BitVec 12) {f : Fld} (hf : f.id = .FLT_VMON) (hlow : f.hi < 35) :
    (s.vmon i (some mv)).get f i = ((s.set F.FLT_VMON_OFF 0 i).set F.FLT_VMON_MV mv.toNat i).get f i := by
  have hrecord (u : State) : (u.faultWrite 0x31 0x04 i .device 0 0 0).get f i = u.get f i :=
    (RegsBut.faultWrite _ _ _ _ _ _ _).get (State.faultWrite_chip ..) f i 0 0 (hf ▸ vmon_not_fault)
  have halarm (u : State) : (u.set F.FLT_VMON_ALARM 1 i).get f i = u.get f i :=
    State.get_set_field _ F.FLT_VMON_ALARM f _ _ _ _ rfl hf (Or.inl hlow)
  simp only [State.vmon, ite_get, hrecord, halarm, withFlt_get, ite_self]

/-- One monitor's update, which the indices above 23 do not have. -/
def State.vmonAt (s : State) (i : Nat) (x : Option (BitVec 12)) : State := if i < 24 then s.vmon i x else s

theorem vmonAt_step (s : State) (i : Nat) (x : Option (BitVec 12)) : MonitorStep i s (s.vmonAt i x) := .ite (vmon_step ..) .refl

theorem vmons_eq_pass (k : Nat) (xs : List (Option (BitVec 12))) : s.vmons k xs = s.pass State.vmonAt k xs := by
  induction xs generalizing s k with
  | nil => rfl
  | cons x xs ih => exact ih (k + 1)

section
variable {mvs : List (Option (BitVec 12))} {i : Nat}

/-- A field of a monitor's register shows what the monitor's own update makes of it. -/
theorem vmons_get {f : Fld} {x : Option (BitVec 12)} (hf : f.id = .FLT_VMON) (hi : i < 24) (hx : mvs[i]? = some x) :
    ∃ u : State, (s.vmons 0 mvs).get f i = (u.vmon i x).get f i := by
  obtain ⟨u, hu⟩ := pass_at (o := fun u => u.get f i) (fun s k x hk => (vmonAt_step s k x).get_other hf hk) (Nat.zero_le i) hx (s := s)
  exact ⟨u, by rw [vmons_eq_pass, hu, State.vmonAt, if_pos hi]⟩

theorem vmons_reading {v : BitVec 12} (hi : i < 24) (hv : mvs[i]? = some (some v)) :
    (s.vmons 0 mvs).get F.FLT_VMON_MV i = v.toNat ∧ (s.vmons 0 mvs).get F.FLT_VMON_OFF i = 0 := by
  obtain ⟨u, hu⟩ := vmons_get (s := s) (f := F.FLT_VMON_MV) rfl hi hv
  obtain ⟨w, hw⟩ := vmons_get (s := s) (f := F.FLT_VMON_OFF) rfl hi hv
  rw [hu, hw, vmon_get v rfl (by decide), vmon_get v rfl (by decide)]
  exact ⟨(State.get_set_same _ F.FLT_VMON_MV _ _ _ _ rfl).trans (Nat.mod_eq_of_lt v.isLt),
    (State.get_set_field _ F.FLT_VMON_MV F.FLT_VMON_OFF _ _ _ _ rfl rfl (by decide)).trans (State.get_set_same _ F.FLT_VMON_OFF 0 _ _ _ rfl)⟩

theorem vmons_off (hi : i < 24) (hv : mvs[i]? = some none) : (s.vmons 0 mvs).get F.FLT_VMON_OFF i = 1 := by
  obtain ⟨u, hu⟩ := vmons_get (s := s) (f := F.FLT_VMON_OFF) rfl hi hv
  rw [hu, vmon_off]

theorem vmons_kept : MonitorKept s (s.vmons 0 mvs) := by
  rw [vmons_eq_pass]
  exact pass_rel MonitorKept.refl MonitorKept.trans fun s k x => (vmonAt_step s k x).kept

theorem vmonUpdate_runs (hrst : s.boot.inReset = false) (hpor : s.boot.porDone = true) : exec (.vmonUpdate mvs) s = .next (s.vmons 0 mvs) := by
  have hx : exec (.vmonUpdate mvs) s = execVmonUpdate mvs s := rfl
  exact hx.trans (if_neg (by simp [hrst, hpor]))

end

/-- Settles O43: an update of the sensors is a chain of parts of which each names the fields it changes, one of the monitors a pass that
changes one monitor at a time; before POR_DONE neither runs. -/
theorem sensorsAndMonitors : Obligations.SensorsAndMonitors := by
  intro s temps mvs
  refine ⟨fun ⟨hrst, hpor⟩ => sensorUpdate_shows hrst hpor,
    fun ⟨hrst, hpor⟩ => ⟨_, vmonUpdate_runs hrst hpor, fun i v => vmons_reading, fun i => vmons_off, ?_⟩, fun hdown => ?_⟩
  · obtain ⟨h1, -, h3⟩ : MonitorKept s (s.vmons 0 mvs) := vmons_kept
    exact ⟨h1, h3⟩
  · have hshut : (s.boot.inReset || !s.boot.porDone) = true := by
      simpa [Decidable.not_and_iff_or_not, or_iff_not_imp_left] using hdown
    exact ⟨if_pos hshut, if_pos hshut⟩

end Sys2Proof.Machine

end

section

/-! Units under UNIT's control (O24): what an operand names, when UNIT comes to the unit named, and what it then does. -/

namespace Sys2Proof.Machine

variable {s : State} {e : Eng} {a b : Word}

/-! What an operand of UNIT names (R202). -/

theorem unit_names {k n : Nat} (h : a.toNat = 256 * k + n) (hn : n < 256) : unitKind a = k ∧ unitNo a = n := by
  unfold unitKind unitNo
  rw [h, Nat.mul_add_div (by decide), Nat.mul_add_mod, Nat.div_eq_of_lt hn, Nat.mod_eq_of_lt hn]
  exact ⟨rfl, rfl⟩

theorem unit_names_tree (n : Fin 64) (h : a.toNat = n.val) : unitKind a = 0 ∧ unitNo a = n :=
  unit_names (h.trans (Nat.zero_add _).symm) (n.isLt.trans (by decide))

theorem unit_names_port (l : Fin 40) (h : a.toNat = 256 + l.val) : unitKind a = 1 ∧ unitNo a = l :=
  unit_names h (l.isLt.trans (by decide))

theorem unit_names_bond (k : Fin 16) (h : a.toNat = 512 + k.val) : unitKind a = 2 ∧ unitNo a = k :=
  unit_names h (k.isLt.trans (by decide))

theorem unitKind_large (h : 768 ≤ a.toNat) : 3 ≤ unitKind a := (Nat.le_div_iff_mul_le (by decide)).2 h

theorem unitLimit_zero {k : Nat} (h : 3 ≤ k) : unitLimit k = 0 := by
  unfold unitLimit
  rw [if_neg (Nat.ne_of_gt (Nat.lt_of_lt_of_le (by decide) h)), if_neg (Nat.ne_of_gt (Nat.lt_of_lt_of_le (by decide) h)),
    if_neg (Nat.ne_of_gt h)]

/-! UNIT's checks in their order (R172, R202; log 140). -/

/-- The unit that a names is present, its quoins are ready, and a port has its configuration (R11, R119, R478). -/
structure State.UnitReady (s : State) (a : Word) : Prop where
  present : s.chip.unitAbsent a = false
  number : unitNo a < unitLimit (unitKind a)
  quoins : ∀ q ∈ unitQuoins a, s.domainState q = 3
  configured : unitKind a = 1 → s.flag F.UPL_PORT_CTRL_CONF (unitNo a) = true

/-- UNIT comes to a ready unit: it is refused, or carried out. -/
theorem State.UnitReady.unit (h : s.UnitReady a) (hb : b.toNat < 2) :
    s.unit e a b = if s.unitRefused a (decide (b = 1)) = true then .fail .estate s else .ok (s.unitSet a (decide (b = 1))) := by
  have hawake : (unitQuoins a).any (fun q => s.domainState q = domOFF || s.domainState q = domDOZE) = false := by
    rw [List.any_eq_false]
    intro q hq
    simp [h.quoins q hq, domOFF, domDOZE]
  have hconf : (decide (unitKind a = 1) && !s.flag F.UPL_PORT_CTRL_CONF (unitNo a)) = false := by
    by_cases hk : unitKind a = 1
    · simp [h.configured hk]
    · simp [hk]
  unfold State.unit
  dsimp only
  rw [h.present, hawake, touch_ready (fun q hq => .inl (h.quoins q hq)), hconf]
  simp [Nat.not_le.2 hb, Nat.not_le.2 h.number]

theorem State.UnitReady.unit_on (h : s.UnitReady a) (hr : s.unitRefused a true = false) : s.unit e a 1 = .ok (s.unitSet a true) := by
  rw [h.unit (by decide)]
  simp [hr]

theorem State.UnitReady.unit_off (h : s.UnitReady a) (hr : s.unitRefused a false = false) : s.unit e a 0 = .ok (s.unitSet a false) := by
  rw [h.unit (by decide)]
  simp [hr]

theorem State.UnitReady.unit_refused (h : s.UnitReady a) (hr : s.unitRefused a true = true) : s.unit e a 1 = .fail .estate s := by
  rw [h.unit (by decide)]
  simp [hr]

theorem State.unit_absent (h : s.chip.unitAbsent a = true) : s.unit e a b = .fail .eabsent s := by
  unfold State.unit
  rw [h]
  rfl

theorem State.unit_outOfRange (hp : s.chip.unitAbsent a = false) (h : 2 ≤ b.toNat ∨ unitLimit (unitKind a) ≤ unitNo a) :
    s.unit e a b = .fail .erange s := by
  unfold State.unit
  rw [hp]
  rcases h with h | h <;> simp [h]

/-- A unit of a quoin that is OFF is disabled already (R478). -/
theorem State.unit_asleep {q : Nat} (hp : s.chip.unitAbsent a = false) (hn : unitNo a < unitLimit (unitKind a)) (hq : q ∈ unitQuoins a)
    (hoff : s.domainState q = 1) : s.unit e a 0 = .fail .estate s := by
  have hany : (unitQuoins a).any (fun q => s.domainState q = domOFF || s.domainState q = domDOZE) = true :=
    List.any_eq_true.mpr ⟨q, hq, by simp [hoff, domOFF]⟩
  unfold State.unit
  rw [hp, hany]
  simp [Nat.not_le.2 hn]

/-- An enable comes to the quoins of a present unit (R119). -/
theorem State.unit_touches (hp : s.chip.unitAbsent a = false) (hn : unitNo a < unitLimit (unitKind a)) :
    ∃ k, s.unit e a 1 = s.touch e (unitQuoins a) k := by
  unfold State.unit
  rw [hp]
  simp [Nat.not_le.2 hn]

theorem touch_failed {q : Nat} {qs : List Nat} {k : State → Res} (hq : q ∈ qs) (h : s.domainState q = 5) : s.touch e qs k = .fail .ewake s := by
  unfold State.touch State.reach
  rw [if_pos (List.any_eq_true.mpr ⟨q, hq, by simp [h, domFAILED]⟩)]

theorem touch_wakes {q : Nat} {k : State → Res} (h1 : 1 ≤ q) (h : s.domainState q = 1) :
    s.touch e [q] k = .wait ((s.startWake q (engWho e)).setEng e { (s.startWake q (engWho e)).eng e with stall := .wake [q] }) := by
  unfold State.touch
  rw [reach_wakes h1 (.inl h)]

/-! Trees (R255). -/

section
variable (n : Fin 64) (ha : a.toNat = n.val)
include ha

theorem tree_absent : s.chip.unitAbsent a = decide (s.chip.trees ≤ n.val) := by
  obtain ⟨hk, hn⟩ := unit_names_tree n ha
  simp [Chip.unitAbsent, hk, hn, unitLimit]

theorem tree_quoins : unitQuoins a = [1 + n.val / 8, 9 + n.val / 8] := by
  obtain ⟨hk, hn⟩ := unit_names_tree n ha
  simp [unitQuoins, hk, hn, framerQuoin, receiverQuoin]

theorem tree_number : unitNo a < unitLimit (unitKind a) := by
  obtain ⟨hk, hn⟩ := unit_names_tree n ha
  rw [hk, hn]
  exact n.isLt

theorem tree_ready (hp : n.val < s.chip.trees) (hf : s.domainState (1 + n.val / 8) = 3) (hr : s.domainState (9 + n.val / 8) = 3) :
    s.UnitReady a where
  present := by rw [tree_absent n ha]; simp [hp]
  number := tree_number n ha
  quoins q hq := by
    rw [tree_quoins n ha] at hq
    simp only [List.mem_cons, List.not_mem_nil, or_false] at hq
    rcases hq with rfl | rfl
    · exact hf
    · exact hr
  configured hk := by rw [(unit_names_tree n ha).1] at hk; cases hk

theorem tree_refused (on : Bool) : s.unitRefused a on
    = (decide (s.flag F.PON_TREE_STATUS_ENABLED n = on) || (s.inSwitch n || (on && (s.isPeer n || s.laneProbed (s.portOf n))))) := by
  obtain ⟨hk, hn⟩ := unit_names_tree n ha
  simp [State.unitRefused, State.unitOn, hk, hn]

theorem tree_set (on : Bool) : s.unitSet a on = if on = true then s.treeEnable n else s.treeDisable n := by
  obtain ⟨hk, hn⟩ := unit_names_tree n ha
  simp [State.unitSet, hk, hn]

end

/-! Uplink ports (R478). -/

section
variable (l : Fin 40) (ha : a.toNat = 256 + l.val)
include ha

theorem port_present (hp : l.val < s.chip.uplanes) : s.chip.unitAbsent a = false := by
  obtain ⟨hk, hn⟩ := unit_names_port l ha
  simp [Chip.unitAbsent, hk, hn, hp]

theorem port_quoins : unitQuoins a = [17 + l.val / 10] := by
  obtain ⟨hk, hn⟩ := unit_names_port l ha
  simp [unitQuoins, hk, hn, macQuoin]

theorem port_number : unitNo a < unitLimit (unitKind a) := by
  obtain ⟨hk, hn⟩ := unit_names_port l ha
  rw [hk, hn]
  exact l.isLt

theorem port_ready (hp : l.val < s.chip.uplanes) (hq : s.domainState (17 + l.val / 10) = 3) (hc : s.flag F.UPL_PORT_CTRL_CONF l = true) :
    s.UnitReady a where
  present := port_present l ha hp
  number := port_number l ha
  quoins q h := by
    rw [port_quoins l ha, List.mem_singleton] at h
    rw [h, hq]
  configured _ := by rw [(unit_names_port l ha).2, hc]

theorem port_refused (on : Bool) : s.unitRefused a on
    = (decide (s.dp.lanesOn.getLsbD l = on) || (on && (List.range' l.val (s.portLanes l)).any (fun x => s.laneProbed (64 + x)))) := by
  obtain ⟨hk, hn⟩ := unit_names_port l ha
  simp [State.unitRefused, State.unitOn, hk, hn, range'_eq]

theorem port_set (on : Bool) : s.unitSet a on = if on = true then s.portEnable l else s.portDisable l := by
  obtain ⟨hk, hn⟩ := unit_names_port l ha
  simp [State.unitSet, hk, hn]

end

/-- The quoins of the ports stand from quoin 17 on, with their status registers one lower. -/
theorem portQuoin_pred (x : Nat) : 1 ≤ 17 + x ∧ 17 + x - 1 = 16 + x := by
  rw [Nat.add_comm 17, Nat.add_comm 16]
  exact ⟨Nat.succ_le_succ (Nat.zero_le _), rfl⟩

/-! Bond bundles (R490). -/

/-- One of the five lanes of the bundle of link k is probed (R474). -/
def State.bundleProbed (s : State) (k : Nat) : Bool :=
  s.laneProbed (128 + k / 4 * 4) || s.laneProbed (129 + k / 4 * 4) || s.laneProbed (130 + k / 4 * 4) || s.laneProbed (131 + k / 4 * 4)
    || s.laneProbed (144 + k / 4)

section
variable (k : Fin 16) (ha : a.toNat = 512 + k.val)
include ha

theorem bond_ready (hp : s.chip.bond = true) (hq : s.domainState 21 = 3) : s.UnitReady a := by
  obtain ⟨hk, hn⟩ := unit_names_bond k ha
  refine ⟨?_, ?_, ?_, ?_⟩
  · simp [Chip.unitAbsent, hk, hp]
  · rw [hk, hn]
    exact k.isLt
  · simp [unitQuoins, hk, bondQuoin, hq]
  · intro h
    rw [hk] at h
    cases h

theorem bond_refused (on : Bool) : s.unitRefused a on
    = (decide (s.dp.bondOn.getLsbD (k.val / 4) = on) || (on && (!s.flag F.SYS_ID_SET || s.bundleProbed k))) := by
  obtain ⟨hk, hn⟩ := unit_names_bond k ha
  simp [State.unitRefused, State.unitOn, State.bundleProbed, hk, hn, range', Nat.add_right_comm, Bool.or_assoc]

theorem bond_set (on : Bool) : s.unitSet a on = if on = true then s.bondEnable (k.val / 4) else s.bondDisable (k.val / 4) := by
  obtain ⟨hk, hn⟩ := unit_names_bond k ha
  simp [State.unitSet, hk, hn]

end

/-! What enabling a tree leaves (R255). -/

/-- A register lies at or past its base. -/
theorem offset_ge {id : RegId} (i : Nat) {n : Nat} (h : n ≤ id.desc.base) : n ≤ Reg.offset ⟨id, i, 0, 0⟩ :=
  Nat.le_add_right_of_le (Nat.le_add_right_of_le (Nat.le_add_right_of_le h))

/-- A field outside the lanes' block. -/
theorem laneSettle_get_below (k : Nat) {g : Fld} {j : Nat} (h : Reg.offset ⟨g.id, j, 0, 0⟩ < 0xB00000) :
    (s.laneSettle k).get g j = s.get g j := by
  unfold State.laneSettle
  dsimp only
  split
  · rfl
  · have hstat : Reg.offset ⟨g.id, j, 0, 0⟩ ≠ Reg.offset ⟨.SER_LANE_STATUS, k, 0, 0⟩ :=
      Nat.ne_of_lt (Nat.lt_of_lt_of_le h (offset_ge k (by decide)))
    have hprbs : Reg.offset ⟨g.id, j, 0, 0⟩ ≠ Reg.offset ⟨.SER_PRBS_CTRL, k, 0, 0⟩ :=
      Nat.ne_of_lt (Nat.lt_of_lt_of_le h (offset_ge k (by decide)))
    rw [State.get_set_reg _ _ _ _ _ _ _ _ _ _ hprbs, State.get_set_reg _ _ _ _ _ _ _ _ _ _ hstat,
      State.get_set_reg _ _ _ _ _ _ _ _ _ _ hstat]

theorem bondDegClear_fields (t : Nat) : (s.bondDegClear t).map = s.map ∧ (s.bondDegClear t).tree = s.tree ∧ (s.bondDegClear t).dp = s.dp := by
  unfold State.bondDegClear
  dsimp only
  split
  · exact ⟨foldl_fld (fun u k => State.set u F.PON_TREE_STATUS_BONDDEG 0 k) State.map (fun _ _ => State.set_map ..) _ _,
      foldl_fld (fun u k => State.set u F.PON_TREE_STATUS_BONDDEG 0 k) State.tree (fun _ _ => State.set_tree ..) _ _,
      foldl_fld (fun u k => State.set u F.PON_TREE_STATUS_BONDDEG 0 k) State.dp (fun _ _ => State.set_dp ..) _ _⟩
  · exact ⟨rfl, rfl, rfl⟩

/-- BONDDEG lies apart from the other fields of PON_TREE_STATUS. -/
theorem bondDeg_get {g : Fld} (hid : g.id = .PON_TREE_STATUS) (hd : g.hi < F.PON_TREE_STATUS_BONDDEG.lo ∨ F.PON_TREE_STATUS_BONDDEG.hi < g.lo)
    (k j v : Nat) : (s.set F.PON_TREE_STATUS_BONDDEG v k).get g j = s.get g j := by
  apply get_set_other _ _ _ _ _ _ rfl
  by_cases h : j = k
  · exact .inr ⟨hid, h, hd⟩
  · refine .inl ?_
    rw [hid]
    simp only [Reg.offset, RegId.desc, F.PON_TREE_STATUS_BONDDEG]
    omega

theorem bondDegClear_get (t : Nat) {g : Fld} (hid : g.id = .PON_TREE_STATUS)
    (hd : g.hi < F.PON_TREE_STATUS_BONDDEG.lo ∨ F.PON_TREE_STATUS_BONDDEG.hi < g.lo) (j : Nat) : (s.bondDegClear t).get g j = s.get g j := by
  unfold State.bondDegClear
  dsimp only
  split
  · exact foldl_get _ _ _ (fun _ k => bondDeg_get hid hd k j 0) _ _
  · rfl

theorem treeStatus_below : ∀ n : Fin 64, Reg.offset ⟨.PON_TREE_STATUS, n, 0, 0⟩ < 0xB00000 := by decide

theorem treeEnable_enables (n : Fin 64) : (s.treeEnable n).flag F.PON_TREE_STATUS_ENABLED n = true
    ∧ (s.treeEnable n).flag F.PON_TREE_STATUS_TXON n = !s.safe
    ∧ (s.treeEnable n).map = s.map ∧ (s.treeEnable n).tree = s.tree ∧ (s.treeEnable n).dp = s.dp := by
  have hbelow := treeStatus_below n
  have hget : ∀ g : Fld, g.id = .PON_TREE_STATUS → g.hi < F.PON_TREE_STATUS_BONDDEG.lo ∨ F.PON_TREE_STATUS_BONDDEG.hi < g.lo →
      (s.treeEnable n).get g n = ((s.set F.PON_TREE_STATUS_ENABLED 1 n).set F.PON_TREE_STATUS_TXON (b2n (!s.safe)) n).get g n := by
    intro g hid hd
    unfold State.treeEnable
    rw [bondDegClear_get _ hid hd, laneSettle_get_below _ (by rw [hid]; exact hbelow)]
  refine ⟨?_, ?_, ?_⟩
  · rw [flag_get _ _ _ rfl, hget _ rfl (by decide),
      State.get_set_field _ F.PON_TREE_STATUS_TXON F.PON_TREE_STATUS_ENABLED _ _ _ _ rfl rfl (by decide), State.get_set_same _ _ _ _ _ _ rfl]
    rfl
  · rw [flag_get _ _ _ rfl, hget _ rfl (by decide), State.get_set_same _ _ _ _ _ _ rfl]
    cases s.safe <;> rfl
  · unfold State.treeEnable
    obtain ⟨h1, h2, h3⟩ := bondDegClear_fields (s := (((s.set F.PON_TREE_STATUS_ENABLED 1 n).set F.PON_TREE_STATUS_TXON (b2n (!s.safe)) n).laneSettle
      (((s.set F.PON_TREE_STATUS_ENABLED 1 n).set F.PON_TREE_STATUS_TXON (b2n (!s.safe)) n).portOf n))) n
    obtain ⟨k1, k2, k3⟩ := laneSettle_fr ((s.set F.PON_TREE_STATUS_ENABLED 1 n).set F.PON_TREE_STATUS_TXON (b2n (!s.safe)) n)
      (((s.set F.PON_TREE_STATUS_ENABLED 1 n).set F.PON_TREE_STATUS_TXON (b2n (!s.safe)) n).portOf n)
    exact ⟨h1.trans (k1.trans (by simp)), h2.trans (k2.trans (by simp)), h3.trans (k3.trans (by simp))⟩

/-! What disabling a tree leaves (R255, R391, R463). -/

theorem treeMark_engines (t n : Nat) : (s.treeMark t n).map = s.map ∧ (s.treeMark t n).tree = s.tree := ⟨rfl, rfl⟩

theorem bondDegSet_engines (t : Nat) : (s.bondDegSet t).map = s.map ∧ (s.bondDegSet t).tree = s.tree := by
  unfold State.bondDegSet
  dsimp only
  split
  · exact ⟨foldl_fld (fun u k => State.treeMark (State.set u F.PON_TREE_STATUS_BONDDEG 1 k) k 4) State.map
        (fun _ _ => (treeMark_engines _ _).1.trans (State.set_map ..)) _ _,
      foldl_fld (fun u k => State.treeMark (State.set u F.PON_TREE_STATUS_BONDDEG 1 k) k 4) State.tree
        (fun _ _ => (treeMark_engines _ _).2.trans (State.set_tree ..)) _ _⟩
  · exact ⟨rfl, rfl⟩

theorem snapLost_engines (t : Nat) : (s.snapLost t).map = s.map ∧ (s.snapLost t).tree = s.tree := by
  unfold State.snapLost
  split <;> simp

/-- The tree as a disable leaves it: no map, window, burst, report or held structure is left. -/
def Tree.cleared (x : Tree) : Tree :=
  { x with build := [], committed := none, window := none, arm := none, held := none, expects := [], reports := [], nextReports := [] }

/-- A map program stops. -/
def Engine.halted (en : Engine) : Engine := { en with run := false, stall := .none }

theorem mapHalt_engines (n : Fin 64) (u : State) (hm : u.map = s.map) (ht : u.tree = s.tree) :
    let v := (u.modTree n Tree.cleared).setEng (.map n) ((u.modTree n Tree.cleared).map.get n).halted
    v.map = s.map.set n (s.map.get n).halted ∧ v.tree = s.tree.set n (s.tr n).cleared := by
  simp only [State.modTree, State.setEng, State.tr, hm, ht, and_self]

/-- What a disable of a tree does after its map program has stopped. -/
theorem treeFlush_engines (n : Fin 64) (u : State) : (((if u.inGroup n then u.bondDegSet n else u).snapLost n).portFlush (64 + n.val)).map = u.map
    ∧ (((if u.inGroup n then u.bondDegSet n else u).snapLost n).portFlush (64 + n.val)).tree = u.tree := by
  have hgroup : (if u.inGroup n then u.bondDegSet n else u).map = u.map ∧ (if u.inGroup n then u.bondDegSet n else u).tree = u.tree := by
    split
    · exact bondDegSet_engines n
    · exact ⟨rfl, rfl⟩
  generalize (if u.inGroup n then u.bondDegSet n else u) = v at hgroup
  have hflush := OnlyData.portFlush (v.snapLost n) (64 + n.val)
  exact ⟨hflush.map.trans ((snapLost_engines n).1.trans hgroup.1), hflush.tree.trans ((snapLost_engines n).2.trans hgroup.2)⟩

theorem treeDisable_engines (n : Fin 64) : (s.treeDisable n).map = s.map.set n (s.map.get n).halted
    ∧ (s.treeDisable n).tree = s.tree.set n (s.tr n).cleared := by
  unfold State.treeDisable
  dsimp only
  rw [(treeFlush_engines n _).1, (treeFlush_engines n _).2, (laneSettle_fr _ _).1, (laneSettle_fr _ _).2.1]
  apply mapHalt_engines
  · split <;> simp
  · split <;> simp

/-! What enabling and disabling lanes and bundles leaves (R478, R490). -/

theorem lanesSettle_dp : s.lanesSettle.dp = s.dp := foldl_fld _ State.dp (fun u k => (laneSettle_fr u k).2.2) _ _

/-- The lanes of a port in the mask of enabled lanes. -/
theorem laneMask_getLsbD (l n x : Nat) (hx : x < 40) :
    (BitVec.ofNat 40 ((2 ^ n - 1) * 2 ^ l)).getLsbD x = decide (l ≤ x ∧ x < l + n) := by
  rw [BitVec.getLsbD_ofNat, Nat.testBit_mul_two_pow, Nat.testBit_two_pow_sub_one, ← Bool.decide_and, ← Bool.decide_and]
  refine decide_eq_decide.mpr ⟨fun ⟨_, hl, hn⟩ => ⟨hl, ?_⟩, fun ⟨hl, hn⟩ => ⟨hx, hl, ?_⟩⟩
  · rwa [Nat.sub_lt_iff_lt_add' hl] at hn
  · rwa [Nat.sub_lt_iff_lt_add' hl]

theorem setLanes_getLsbD (l n x : Nat) (on : Bool) (hx : x < 40) : (s.setLanes l n on).dp.lanesOn.getLsbD x
    = if l ≤ x ∧ x < l + n then on else s.dp.lanesOn.getLsbD x := by
  unfold State.setLanes
  dsimp only
  by_cases h : l ≤ x ∧ x < l + n
  · cases on
    · simp only [Bool.false_eq_true, if_false, BitVec.getLsbD_and, BitVec.getLsbD_not, laneMask_getLsbD _ _ _ hx, h]
      simp
    · simp only [if_true, BitVec.getLsbD_or, laneMask_getLsbD _ _ _ hx, h]
      simp
  · cases on
    · simp only [Bool.false_eq_true, if_false, BitVec.getLsbD_and, BitVec.getLsbD_not, laneMask_getLsbD _ _ _ hx, h]
      simp [hx]
    · simp only [if_true, BitVec.getLsbD_or, laneMask_getLsbD _ _ _ hx, h]
      simp

theorem portEnable_lanes (l x : Nat) (hx : x < 40) : (s.portEnable l).dp.lanesOn.getLsbD x
    = (s.dp.lanesOn.getLsbD x || decide (l ≤ x ∧ x < l + s.portLanes l)) := by
  unfold State.portEnable
  rw [lanesSettle_dp, setLanes_getLsbD _ _ _ _ hx]
  by_cases h : l ≤ x ∧ x < l + s.portLanes l <;> simp [h]

theorem portDisable_lane (l : Fin 40) : (s.portDisable l).dp.lanesOn.getLsbD l = false := by
  unfold State.portDisable
  rw [lanesSettle_dp, setLanes_getLsbD _ _ _ _ l.isLt, if_pos ⟨Nat.le_refl _, Nat.lt_add_of_pos_right (Nat.two_pow_pos _)⟩]

theorem bundleMask_getLsbD {b : Nat} (hb : b < 4) : (BitVec.ofNat 4 (2 ^ b)).getLsbD b = true := by
  rw [BitVec.getLsbD_ofNat]
  simp [hb]

theorem bondEnable_on {b : Nat} (hb : b < 4) : (s.bondEnable b).dp.bondOn.getLsbD b = true := by
  unfold State.bondEnable
  rw [lanesSettle_dp, BitVec.getLsbD_or, bundleMask_getLsbD hb, Bool.or_true]

theorem bondDisable_off {b : Nat} (hb : b < 4) : (s.bondDisable b).dp.bondOn.getLsbD b = false := by
  unfold State.bondDisable
  dsimp only
  rw [lanesSettle_dp, BitVec.getLsbD_and, BitVec.getLsbD_not, bundleMask_getLsbD hb, Bool.not_true, Bool.and_false, Bool.and_false]

/-- Settles O24: UNIT by what its operand names, clause by clause in the order of its checks. -/
theorem unitEnablesAndDisables : Obligations.UnitEnablesAndDisables := by
  unfold Obligations.UnitEnablesAndDisables
  intro e d a b i n l k hi
  have hexec : ∀ s, exec i s = instr e i [a, b] 6 (fun s => s.unit e (s.reg e a) (s.reg e b)) s := by
    rcases hi with rfl | rfl <;> exact fun _ => rfl
  refine ⟨does_of hexec ?_, does_of hexec ?_, does_of hexec ?_, does_of hexec ?_, does_of hexec ?_, does_of hexec ?_, failsIf hexec ?_,
    failsIf hexec ?_, failsIf hexec ?_, failsIf hexec ?_, failsIf hexec ?_, ?_, fun s => treeEnable_enables n, ?_, fun s => ?_⟩
  · rintro s ⟨⟨ha, hb⟩, ⟨hp, hf, hr⟩, hoff, hsw, hpeer, hprobe⟩
    rw [hb, (tree_ready n ha hp hf hr).unit_on (by simp [tree_refused n ha, hoff, hsw, hpeer, hprobe]), tree_set n ha]
    rfl
  · rintro s ⟨⟨ha, hb⟩, ⟨hp, hf, hr⟩, hon, hsw⟩
    rw [hb, (tree_ready n ha hp hf hr).unit_off (by simp [tree_refused n ha, hon, hsw]), tree_set n ha]
    rfl
  · rintro s ⟨⟨ha, hb⟩, ⟨hp, hq, hc⟩, hoff, hprobe⟩
    rw [hb, (port_ready l ha hp hq hc).unit_on (by dsimp only at hprobe; rw [port_refused l ha, hprobe, hoff]; rfl), port_set l ha]
    rfl
  · rintro s ⟨⟨ha, hb⟩, ⟨hp, hq, hc⟩, hon⟩
    rw [hb, (port_ready l ha hp hq hc).unit_off (by rw [port_refused l ha, hon]; rfl), port_set l ha]
    rfl
  · rintro s ⟨⟨ha, hb⟩, ⟨hp, hq⟩, hoff, hid, hprobe⟩
    rw [hb, (bond_ready k ha hp hq).unit_on (by dsimp only at hprobe; rw [bond_refused k ha, hoff, hid, State.bundleProbed, hprobe]; rfl), bond_set k ha]
    rfl
  · rintro s ⟨⟨ha, hb⟩, ⟨hp, hq⟩, hon⟩
    rw [hb, (bond_ready k ha hp hq).unit_off (by rw [bond_refused k ha, hon]; rfl), bond_set k ha]
    rfl
  · rintro s ⟨ha, hp⟩
    exact State.unit_absent (by rw [tree_absent n ha]; simpa using hp)
  · rintro s (⟨ha, hp, hb⟩ | ha)
    · exact State.unit_outOfRange (by rw [tree_absent n ha]; simpa using hp) (.inl hb)
    · have hkind : 3 ≤ unitKind (s.reg e a) := unitKind_large ha
      exact State.unit_outOfRange (by simp [Chip.unitAbsent, unitLimit_zero hkind]) (.inr (by rw [unitLimit_zero hkind]; exact Nat.zero_le _))
  · rintro s ⟨⟨ha, hb⟩, ⟨hp, hf, hr⟩, h⟩
    rw [hb, (tree_ready n ha hp hf hr).unit_refused]
    rw [tree_refused n ha]
    rcases h with h | h | h <;> simp [h]
  · rintro s ⟨⟨ha, hb⟩, hp, hoff⟩
    rw [hb, State.unit_asleep (by rw [tree_absent n ha]; simpa using hp) (tree_number n ha) (by rw [tree_quoins n ha]; simp) hoff]
  · rintro s ⟨⟨ha, hb⟩, hp, hfailed⟩
    obtain ⟨work, h⟩ := State.unit_touches (e := e) (port_present l ha hp) (port_number l ha)
    rw [hb, h, port_quoins l ha, touch_failed (List.mem_singleton.mpr rfl) hfailed]
  · rintro s htakes ⟨ha, hb⟩ hp hoff
    obtain ⟨work, h⟩ := State.unit_touches (e := e) (port_present l ha hp) (port_number l ha)
    refine ⟨_, (hexec s).trans (instr_wait htakes (by rw [hb, h, port_quoins l ha, touch_wakes (portQuoin_pred _).1 hoff])), ?_⟩
    obtain ⟨h1, h2, h3, h4, h5, h6⟩ := wake_wait s e (17 + l.val / 10) (portQuoin_pred _).1
    exact ⟨h1, h2, h3, h4, h5, by rwa [(portQuoin_pred _).2] at h6⟩
  · intro s
    obtain ⟨hmap, htree⟩ := treeDisable_engines (s := s) n
    refine ⟨by rw [hmap, vget_set_same]; rfl, by rw [State.tr_eq, htree, vget_set_same]; rfl, fun m hm => ⟨?_, ?_⟩⟩
    · rw [State.tr_eq, htree, vget_set_ne _ _ _ _ hm]; rfl
    · rw [hmap, vget_set_ne _ _ _ _ hm]
  · exact ⟨fun x hx => portEnable_lanes l x hx, portDisable_lane l, bondEnable_on (Nat.div_lt_of_lt_mul k.isLt), bondDisable_off (Nat.div_lt_of_lt_mul k.isLt)⟩

end Sys2Proof.Machine

end

section

/-! The registers of the rings and of negotiation (O29): a ring's four registers lie apart, an enable is applied or refused, and
negotiation activates a version or none. -/

namespace Sys2Proof.Machine

variable {s u : State} {v : Word}

/-! The registers of a ring (R139 to R146). -/

/-- The registers that operations on a ring write. -/
def ringRegs : List RegId := [.HCI_RING_CTRL, .HCI_RING_TAIL, .HCI_RING_HEAD, .HCI_RING_STATUS]

theorem ringRegs_apart : ∀ r : Fin 16, ∀ id ∈ ringRegs, ∀ id' ∈ ringRegs, id ≠ id' → Reg.offset ⟨id, r, 0, 0⟩ ≠ Reg.offset ⟨id', r, 0, 0⟩ := by
  decide

theorem ringRegs_not_negotiate : ∀ r : Fin 16, ∀ id ∈ ringRegs, Reg.offset ⟨.HCI_NEGOTIATE, 0, 0, 0⟩ ≠ Reg.offset ⟨id, r, 0, 0⟩ := by
  decide

theorem ringRegs_plain : ∀ r : Fin 16, ∀ id ∈ ringRegs, Reg.plain ⟨id, r, 0, 0⟩ = true ∧ Reg.block ⟨id, r, 0, 0⟩ = 1 := by
  decide

theorem ringRegs_range : ∀ r : Fin 16, ∀ id ∈ ringRegs, 0x101000 ≤ Reg.offset ⟨id, r, 0, 0⟩ ∧ Reg.offset ⟨id, r, 0, 0⟩ < 0xE00000 := by
  decide

theorem rejectEntry_range : ∀ n : Fin 16, 0x100020 ≤ Reg.offset ⟨.HCI_REJECT, n, 0, 0⟩ ∧ Reg.offset ⟨.HCI_REJECT, n, 0, 0⟩ < 0x101000 := by
  decide

/-- Where the registers that keep a rejection lie: between negotiation and the rings, or past the power block. -/
theorem rejectRegs_range {o : Nat} (h : rejectRegs o) : (0x100020 ≤ o ∧ o < 0x101000) ∨ 0xE00000 ≤ o := by
  rcases h with ⟨n, hn, rfl⟩ | rfl | rfl
  · exact .inl (rejectEntry_range ⟨n, hn⟩)
  · decide
  · decide

theorem ringRegs_not_reject (r : Fin 16) {id : RegId} (h : id ∈ ringRegs) : ¬ rejectRegs (Reg.offset ⟨id, r, 0, 0⟩) := by
  obtain ⟨hlow, hhigh⟩ := ringRegs_range r id h
  intro hr
  rcases rejectRegs_range hr with ⟨-, hr⟩ | hr
  · exact absurd hr (Nat.not_lt.2 hlow)
  · exact absurd hr (Nat.not_le.2 hhigh)

/-- A field of a ring through a write to another of its fields. -/
theorem ring_get_set (r : Fin 16) {f g : Fld} (hok : f.ok = true) (hf : f.id ∈ ringRegs) (hg : g.id ∈ ringRegs) (h : g.clearOf [f] = true)
    (n : Nat) : (s.set f n r).get g r = s.get g r := by
  apply get_set_other _ _ _ _ _ _ hok
  by_cases hid : g.id = f.id
  · exact .inr ⟨hid, rfl, by simpa [Fld.clearOf, hid] using h⟩
  · exact .inl (ringRegs_apart r _ hg _ hf hid)

/-- A field of a ring's other registers through a plain write. -/
theorem ring_get_plain (r : Fin 16) {id : RegId} {g : Fld} (hid : id ∈ ringRegs) (hg : g.id ∈ ringRegs) (h : g.id ≠ id) :
    (s.plainWrite ⟨id, r, 0, 0⟩ v).get g r = s.get g r :=
  get_plain_ne _ _ _ _ _ _ _ (ringRegs_apart r _ hg _ hid h)

/-- Only registers and the unregistered parts of rings differ. -/
def RingsOnly (s t : State) : Prop := t = { s with regs := t.regs, host := { s.host with rings := t.host.rings } }

theorem RingsOnly.of_regs (h : u = { s with regs := u.regs }) : RingsOnly s u := by
  unfold RingsOnly
  rw [h]

theorem RingsOnly.set (h : RingsOnly s u) (f : Fld) (n i : Nat) : RingsOnly s (u.set f n i) := by
  obtain ⟨rg, rs, h⟩ : ∃ rg rs, u = { s with regs := rg, host := { s.host with rings := rs } } := ⟨_, _, h⟩
  subst h
  rfl

theorem RingsOnly.modRing (h : RingsOnly s u) (r : Nat) (f : RingSt → RingSt) : RingsOnly s (u.modRing r f) := by
  unfold RingsOnly at h ⊢
  rw [State.modRing_eq u r f, h]

/-! What a write of HCI_RING_CTRL stores (R141, R161). -/

/-- ICOUNT and ITIME apart, a ring's control word is the written one. -/
theorem ringCtrlWord_field (r : Reg) {f : Fld} (hc : 7 < f.lo) (ht : f.hi < 10 ∨ 19 < f.lo) : fv (s.ringCtrlWord r v) f = fv v f := by
  have hcount : ∀ w : Word, fv (wput w 7 0 1) f = fv w f := fun w => wbits_wput_ne _ _ _ _ _ _ (by decide) (by decide) (.inr hc)
  have htime : ∀ (w : Word) n, fv (wput w 19 10 n) f = fv w f := fun w n => wbits_wput_ne _ _ _ _ _ _ (by decide) (by decide) ht
  unfold State.ringCtrlWord
  dsimp only
  split <;> split <;> simp only [hcount, htime]

/-- HCI_RING_CTRL of ring r as a write of v stores it. -/
def State.ringStored (s : State) (r : Fin 16) (v : Word) : State :=
  s.plainWrite ⟨.HCI_RING_CTRL, r, 0, 0⟩ (s.ringCtrlWord ⟨.HCI_RING_CTRL, r, 0, 0⟩ v)

theorem ringStored_field (r : Fin 16) {f : Fld} (hid : f.id = .HCI_RING_CTRL) (hok : f.ok = true)
    (hrw : f.within (RegId.desc .HCI_RING_CTRL).rw = true) (hlo : 19 < f.lo) : (s.ringStored r v).get f r = fv v f := by
  unfold State.ringStored
  exact (get_plain_rw _ ⟨.HCI_RING_CTRL, r, 0, 0⟩ _ f hid hok hrw).trans (ringCtrlWord_field _ (by omega) (.inr hlo))

theorem ringStored_size (r : Fin 16) : (s.ringStored r v).get F.HCI_RING_CTRL_SIZE r = fv v F.HCI_RING_CTRL_SIZE :=
  ringStored_field r rfl rfl (by decide) (by decide)

theorem ringStored_en (r : Fin 16) : (s.ringStored r v).get F.HCI_RING_CTRL_EN r = fv v F.HCI_RING_CTRL_EN :=
  ringStored_field r rfl rfl (by decide) (by decide)

theorem ringStored_status (r : Fin 16) {f : Fld} (hid : f.id = .HCI_RING_STATUS) : (s.ringStored r v).get f r = s.get f r :=
  ring_get_plain r (by decide) (by rw [hid]; decide) (by rw [hid]; decide)

theorem ringStored_negotiated (r : Fin 16) : (s.ringStored r v).negotiated = s.negotiated := by
  unfold State.negotiated State.ringStored
  rw [get_plain_ne _ _ _ F.HCI_NEGOTIATE_MAJOR _ _ _ (ringRegs_not_negotiate r _ (by decide))]

theorem ringStored_only (r : Fin 16) : RingsOnly s (s.ringStored r v) := .of_regs (only_regs_plain ..)

/-! An enable (R144). -/

theorem applyEnable_starts (r : Fin 16) (hn : u.negotiated = true) (hlo : 6 ≤ u.get F.HCI_RING_CTRL_SIZE r)
    (hhi : u.get F.HCI_RING_CTRL_SIZE r ≤ 12) : let t := u.applyEnable r
    t.get F.HCI_RING_CTRL_EN r = 1 ∧ t.get F.HCI_RING_CTRL_SIZE r = u.get F.HCI_RING_CTRL_SIZE r ∧ t.get F.HCI_RING_STATUS_ENABLED r = 1
      ∧ t.get F.HCI_RING_STATUS_HALTED r = 0 ∧ t.get F.HCI_RING_HEAD_HEAD r = 0 ∧ t.get F.HCI_RING_TAIL_TAIL r = 0 ∧ t.ring r = {} := by
  have ht : u.applyEnable r = (((((u.set F.HCI_RING_CTRL_EN 1 r).set F.HCI_RING_TAIL_TAIL 0 r).set F.HCI_RING_HEAD_HEAD 0 r).set
      F.HCI_RING_STATUS_HALTED 0 r).set F.HCI_RING_STATUS_ENABLED 1 r).modRing r (fun _ => {}) := by
    unfold State.applyEnable
    rw [hn]
    simp [Nat.not_lt.2 hlo, Nat.not_lt.2 hhi]
  intro t
  rw [show t = _ from ht, State.ring_modRing _ _ _ r.isLt]
  simp (disch := decide) only [State.modRing_get, ring_get_set, State.get_set_same]
  decide

/-- A refused enable clears EN, leaves ENABLED, and ERR names the status (R143, R144). -/
theorem enableRefused_leaves (r : Fin 16) (st : Status) (f : RingSt → RingSt) :
    let t := ((u.set F.HCI_RING_CTRL_EN 0 r).modRing r f).rejectRing r st
    t.get F.HCI_RING_CTRL_EN r = 0 ∧ t.get F.HCI_RING_STATUS_ENABLED r = u.get F.HCI_RING_STATUS_ENABLED r
      ∧ t.get F.HCI_RING_STATUS_ERR r = st.code := by
  refine ⟨?_, ?_, State.rejectRing_err ..⟩
  · rw [State.rejectRing_get _ _ _ _ _ (ringRegs_apart r _ (by decide) _ (by decide) (by decide)) (ringRegs_not_reject r (by decide)),
      State.modRing_get, State.get_set_same _ _ _ _ _ _ rfl]
    rfl
  · rw [State.rejectRing_enabled, State.modRing_get, ring_get_set r rfl (by decide) (by decide) (by decide)]

theorem applyEnable_unversioned (r : Nat) (hn : u.negotiated = false) : ∃ f,
    u.applyEnable r = ((u.set F.HCI_RING_CTRL_EN 0 r).modRing r f).rejectRing r .estate := by
  unfold State.applyEnable
  dsimp only
  rw [if_pos (by rw [hn]; decide)]
  exact ⟨_, rfl⟩

theorem applyEnable_missized (r : Nat) (hn : u.negotiated = true)
    (h : u.get F.HCI_RING_CTRL_SIZE r < 6 ∨ 12 < u.get F.HCI_RING_CTRL_SIZE r) : ∃ f,
    u.applyEnable r = ((u.set F.HCI_RING_CTRL_EN 0 r).modRing r f).rejectRing r .erange := by
  unfold State.applyEnable
  dsimp only
  rw [if_neg (by rw [hn]; decide), if_pos (by simpa using h)]
  exact ⟨_, rfl⟩

theorem applyEnable_fields (r : Nat) : (u.applyEnable r).cmd = u.cmd ∧ (u.applyEnable r).dp = u.dp := by
  unfold State.applyEnable
  dsimp only
  split
  · simp
  · split <;> simp

/-! Writes of HCI_RING_CTRL and HCI_RING_TAIL (R144, R146). -/

theorem ringCtrl_writes (r : Fin 16) (h : WriteReaches s ⟨.HCI_RING_CTRL, r, 0, 0⟩ v) :
    s.writeOf .HCI_RING_CTRL r 0 v = .next (s.ringCtrlWrite ⟨.HCI_RING_CTRL, r, 0, 0⟩ v) := by
  obtain ⟨hplain, hblock⟩ := ringRegs_plain r .HCI_RING_CTRL (by decide)
  exact write_done h hplain (State.blockWrite_1 _ _ _ _ hblock)

theorem doorbell_writes (r : Fin 16) (h : WriteReaches s ⟨.HCI_RING_TAIL, r, 0, 0⟩ v) :
    exec (.doorbell r v) s = .next (s.tailWrite ⟨.HCI_RING_TAIL, r, 0, 0⟩ v) := by
  obtain ⟨hplain, hblock⟩ := ringRegs_plain r .HCI_RING_TAIL (by decide)
  exact write_done h hplain (State.blockWrite_1 _ _ _ _ hblock)

theorem ringEnable_applies (r : Fin 16) (h : WriteReaches s ⟨.HCI_RING_CTRL, r, 0, 0⟩ v) (hen : fv v F.HCI_RING_CTRL_EN = 1)
    (hoff : s.get F.HCI_RING_STATUS_ENABLED r = 0) : exec (.ringEnable r v) s = .next ((s.ringStored r v).applyEnable r) := by
  refine (ringCtrl_writes r h).trans ?_
  have hflag : s.flag F.HCI_RING_STATUS_ENABLED r = false := by rw [flag_get _ _ _ rfl, hoff]; decide
  unfold State.ringCtrlWrite
  dsimp only
  rw [hflag, hen, if_neg (by simp), if_pos rfl, if_pos (by decide)]
  exact (rfl)

/-- A disable of an enabled ring: it goes off at once unless a fragment of it runs. -/
theorem ringDisable_clears (r : Fin 16) (h : WriteReaches s ⟨.HCI_RING_CTRL, r, 0, 0⟩ v) (hen : fv v F.HCI_RING_CTRL_EN = 0)
    (hon : s.get F.HCI_RING_STATUS_ENABLED r = 1) (hsize : fv v F.HCI_RING_CTRL_SIZE = s.get F.HCI_RING_CTRL_SIZE r) :
    let w := (s.ringStored r v).modRing r (fun x => { x with heldEnable := false })
    exec (.ringDisable r v) s = .next (if s.flag F.HCI_RING_STATUS_ACTIVE r = true then w else w.ringOff r) := by
  intro w
  refine (ringCtrl_writes r h).trans ?_
  unfold State.ringCtrlWrite
  rw [flag_get s F.HCI_RING_STATUS_ENABLED _ rfl, hon, hen, hsize]
  dsimp only
  rw [if_neg (by simp), if_neg (by decide)]
  cases s.flag F.HCI_RING_STATUS_ACTIVE r <;> rfl

theorem ringEnable_starts (r : Fin 16) (h : WriteReaches s ⟨.HCI_RING_CTRL, r, 0, 0⟩ v) (hen : fv v F.HCI_RING_CTRL_EN = 1)
    (hoff : s.get F.HCI_RING_STATUS_ENABLED r = 0) : ∃ t, exec (.ringEnable r v) s = .next t ∧ t.cmd = s.cmd ∧ t.dp = s.dp
      ∧ (s.get F.HCI_NEGOTIATE_MAJOR ≠ 0 → 6 ≤ fv v F.HCI_RING_CTRL_SIZE → fv v F.HCI_RING_CTRL_SIZE ≤ 12 →
          t.get F.HCI_RING_CTRL_EN r = 1 ∧ t.get F.HCI_RING_CTRL_SIZE r = fv v F.HCI_RING_CTRL_SIZE
          ∧ t.get F.HCI_RING_STATUS_ENABLED r = 1 ∧ t.get F.HCI_RING_STATUS_HALTED r = 0
          ∧ t.get F.HCI_RING_HEAD_HEAD r = 0 ∧ t.get F.HCI_RING_TAIL_TAIL r = 0 ∧ t.ring r = {})
      ∧ (s.get F.HCI_NEGOTIATE_MAJOR = 0 → t.get F.HCI_RING_CTRL_EN r = 0 ∧ t.get F.HCI_RING_STATUS_ENABLED r = 0
          ∧ t.get F.HCI_RING_STATUS_ERR r = Status.estate.code)
      ∧ (s.get F.HCI_NEGOTIATE_MAJOR ≠ 0 → (fv v F.HCI_RING_CTRL_SIZE < 6 ∨ 12 < fv v F.HCI_RING_CTRL_SIZE) →
          t.get F.HCI_RING_CTRL_EN r = 0 ∧ t.get F.HCI_RING_STATUS_ENABLED r = 0 ∧ t.get F.HCI_RING_STATUS_ERR r = Status.erange.code) := by
  have hver : (s.ringStored r v).negotiated = decide (s.get F.HCI_NEGOTIATE_MAJOR ≠ 0) := ringStored_negotiated r
  have hsize := ringStored_size (s := s) (v := v) r
  have hstatus : (s.ringStored r v).get F.HCI_RING_STATUS_ENABLED r = 0 := (ringStored_status r rfl).trans hoff
  refine ⟨_, ringEnable_applies r h hen hoff, (applyEnable_fields _).1, (applyEnable_fields _).2, fun hn hlo hhi => ?_, fun hn => ?_,
    fun hn hs => ?_⟩
  · have := applyEnable_starts (u := s.ringStored r v) r (by rw [hver]; simpa using hn) (by rwa [hsize]) (by rwa [hsize])
    rwa [hsize] at this
  · obtain ⟨f, ht⟩ := applyEnable_unversioned (u := s.ringStored r v) r (by rw [hver]; simpa using hn)
    have := enableRefused_leaves (u := s.ringStored r v) r .estate f
    rwa [hstatus, ← ht] at this
  · obtain ⟨f, ht⟩ := applyEnable_missized (u := s.ringStored r v) r (by rw [hver]; simpa using hn) (by rwa [hsize])
    have := enableRefused_leaves (u := s.ringStored r v) r .erange f
    rwa [hstatus, ← ht] at this

theorem ringDisable_disables (r : Fin 16) (h : WriteReaches s ⟨.HCI_RING_CTRL, r, 0, 0⟩ v) (hen : fv v F.HCI_RING_CTRL_EN = 0)
    (hon : s.get F.HCI_RING_STATUS_ENABLED r = 1) (hsize : fv v F.HCI_RING_CTRL_SIZE = s.get F.HCI_RING_CTRL_SIZE r) :
    ∃ t, exec (.ringDisable r v) s = .next t ∧ t.get F.HCI_RING_CTRL_EN r = 0
      ∧ t.get F.HCI_RING_STATUS_ENABLED r = s.get F.HCI_RING_STATUS_ACTIVE r ∧ RingsOnly s t := by
  refine ⟨_, ringDisable_clears r h hen hon hsize, ?_⟩
  have hbit : s.get F.HCI_RING_STATUS_ACTIVE r < 2 := State.get_lt ..
  have hen' := (ringStored_en (s := s) (v := v) r).trans hen
  rw [flag_get _ _ _ rfl]
  by_cases hact : s.get F.HCI_RING_STATUS_ACTIVE r = 1
  · rw [if_pos (by simpa using hact), State.modRing_get, State.modRing_get, hen', ringStored_status r rfl, hon, hact]
    exact ⟨rfl, rfl, (ringStored_only r).modRing _ _⟩
  · rw [if_neg (by simpa using hact), (Nat.lt_succ_iff_lt_or_eq.1 hbit).elim Nat.lt_one_iff.1 (fun h => absurd h hact)]
    unfold State.ringOff
    refine ⟨?_, ?_, (((ringStored_only r).modRing _ _).set _ _ _).modRing _ _⟩
    · rw [State.modRing_get, ring_get_set r rfl (by decide) (by decide) (by decide), State.modRing_get, hen']
    · rw [State.modRing_get, State.get_set_same _ _ _ _ _ _ rfl]
      rfl

theorem doorbell_posts (r : Fin 16) (h : WriteReaches s ⟨.HCI_RING_TAIL, r, 0, 0⟩ v)
    (hfits : (fv v F.HCI_RING_TAIL_TAIL + 8192 - s.get F.HCI_RING_HEAD_HEAD r) % 8192 ≤ 2 ^ s.get F.HCI_RING_CTRL_SIZE r) :
    ∃ t, exec (.doorbell r v) s = .next t ∧ t = { s with regs := t.regs } ∧ t.get F.HCI_RING_TAIL_TAIL r = fv v F.HCI_RING_TAIL_TAIL
      ∧ RegsBut s t (fun o => o = Reg.offset ⟨.HCI_RING_TAIL, r, 0, 0⟩) := by
  have ht : s.tailWrite ⟨.HCI_RING_TAIL, r, 0, 0⟩ v = s.set F.HCI_RING_TAIL_TAIL (fv v F.HCI_RING_TAIL_TAIL) r := if_neg (Nat.not_lt.2 hfits)
  refine ⟨_, doorbell_writes r h, ?_⟩
  rw [ht]
  refine ⟨rfl, ?_, RegsBut.set _ _ _ _ _ rfl⟩
  rw [State.get_set_same _ _ _ _ _ _ rfl]
  exact Nat.mod_eq_of_lt (bits_lt ..)

theorem doorbell_overfills (r : Fin 16) (h : WriteReaches s ⟨.HCI_RING_TAIL, r, 0, 0⟩ v)
    (hover : 2 ^ s.get F.HCI_RING_CTRL_SIZE r < (fv v F.HCI_RING_TAIL_TAIL + 8192 - s.get F.HCI_RING_HEAD_HEAD r) % 8192) :
    ∃ t, exec (.doorbell r v) s = .next t ∧ t.get F.HCI_RING_TAIL_TAIL r = s.get F.HCI_RING_TAIL_TAIL r
      ∧ t.get F.HCI_RING_STATUS_ERR r = Status.erange.code ∧ t.dp = s.dp ∧ t.cmd = s.cmd := by
  have ht : s.tailWrite ⟨.HCI_RING_TAIL, r, 0, 0⟩ v = s.rejectRing r .erange := if_pos hover
  refine ⟨_, doorbell_writes r h, ?_⟩
  rw [ht]
  exact ⟨State.rejectRing_get _ _ _ _ _ (ringRegs_apart r _ (by decide) _ (by decide) (by decide)) (ringRegs_not_reject r (by decide)),
    State.rejectRing_err .., State.rejectRing_dp .., State.rejectRing_cmd ..⟩

/-! Negotiation (R127). -/

/-- HCI_NEGOTIATE as a write of v stores it, before the request is carried out. -/
def State.offered (s : State) (v : Word) : State := s.plainWrite ⟨.HCI_NEGOTIATE, 0, 0, 0⟩ v

theorem offered_offer : (s.offered v).get F.HCI_NEGOTIATE_OFFER = fv v F.HCI_NEGOTIATE_OFFER :=
  get_plain_rw s ⟨.HCI_NEGOTIATE, 0, 0, 0⟩ v F.HCI_NEGOTIATE_OFFER rfl rfl (by decide)

theorem offered_other (g : Fld) (i : Nat) (h : Reg.offset ⟨g.id, i, 0, 0⟩ ≠ Reg.offset ⟨.HCI_NEGOTIATE, 0, 0, 0⟩) :
    (s.offered v).get g i = s.get g i := get_plain_ne _ _ _ _ _ _ _ h

/-- The device is READY, no ring is enabled and no fragment runs (R127). -/
structure State.Idle (s : State) : Prop where
  ready : s.get F.BOOT_STATUS_READY = 1
  rings : ∀ k : Fin 16, s.get F.HCI_RING_STATUS_ENABLED k = 0
  frag0 : (s.cmd.get 0).frag = none
  frag1 : (s.cmd.get 1).frag = none

/-- The versions that an offer and the device have in common. -/
def State.commonVersions (s : State) (v : Word) : Nat := fv v F.HCI_NEGOTIATE_OFFER &&& s.get F.HCI_VER_SUPPORTED_VERSIONS

theorem State.Idle.offered (h : s.Idle) : (s.offered v).Idle where
  ready := (offered_other _ _ (by decide)).trans h.ready
  rings k := (offered_other _ _ (ringRegs_not_negotiate k _ (by decide)).symm).trans (h.rings k)
  frag0 := h.frag0
  frag1 := h.frag1

theorem State.Idle.negotiate (h : u.Idle) : u.negotiate =
    if u.get F.HCI_NEGOTIATE_OFFER &&& u.get F.HCI_VER_SUPPORTED_VERSIONS = 0 then
      ((u.set F.HCI_NEGOTIATE_MAJOR 0).set F.HCI_NEGOTIATE_MINOR 0).negotiateFails .erange
    else ((u.set F.HCI_NEGOTIATE_MAJOR 1).set F.HCI_NEGOTIATE_MINOR
      (if bit (u.get F.HCI_NEGOTIATE_OFFER &&& u.get F.HCI_VER_SUPPORTED_VERSIONS) 1 then 1 else 0)).set F.HCI_NEGOTIATE_STATUS 0 := by
  have hready : u.flag F.BOOT_STATUS_READY = true := by rw [flag_get _ _ _ rfl, h.ready]; rfl
  have hoff : (range' 0 16).any (fun r => u.flag F.HCI_RING_STATUS_ENABLED r) = false := by
    rw [List.any_eq_false]
    intro r hr
    rw [mem_range'] at hr
    rw [flag_get _ _ _ rfl, h.rings ⟨r, by omega⟩]
    decide
  have hidle : u.fragmentRuns = false := by simp [State.fragmentRuns, h.frag0, h.frag1]
  unfold State.negotiate
  rw [hready, hoff, hidle]
  rfl

theorem negotiate_writes (h : WriteReaches s ⟨.HCI_NEGOTIATE, 0, 0, 0⟩ v) (hreq : fv v F.HCI_NEGOTIATE_REQ = 1) :
    exec (.negotiate v) s = .next (s.offered v).negotiate := by
  have hw : s.negotiateWrite ⟨.HCI_NEGOTIATE, 0, 0, 0⟩ v = (s.offered v).negotiate := if_pos hreq
  rw [← hw]
  exact write_done h (by decide) (State.blockWrite_1 _ _ _ _ (by decide))

theorem offered_common : (s.offered v).get F.HCI_NEGOTIATE_OFFER &&& (s.offered v).get F.HCI_VER_SUPPORTED_VERSIONS = s.commonVersions v := by
  rw [offered_offer, offered_other _ _ (by decide)]
  rfl

theorem negotiate_activates (h : WriteReaches s ⟨.HCI_NEGOTIATE, 0, 0, 0⟩ v) (hreq : fv v F.HCI_NEGOTIATE_REQ = 1) (hidle : s.Idle)
    (hc : s.commonVersions v ≠ 0) : ∃ t, exec (.negotiate v) s = .next t ∧ t = { s with regs := t.regs } ∧ t.get F.HCI_NEGOTIATE_MAJOR = 1
      ∧ t.get F.HCI_NEGOTIATE_MINOR = (if bit (s.commonVersions v) 1 then 1 else 0) ∧ t.get F.HCI_NEGOTIATE_STATUS = 0
      ∧ t.get F.HCI_NEGOTIATE_OFFER = fv v F.HCI_NEGOTIATE_OFFER ∧ RegsBut s t (fun o => o = Reg.offset ⟨.HCI_NEGOTIATE, 0, 0, 0⟩) := by
  refine ⟨_, negotiate_writes h hreq, ?_⟩
  rw [hidle.offered.negotiate, offered_common, if_neg hc]
  refine ⟨only_regs_set (only_regs_set (only_regs_set (only_regs_plain ..) ..) ..) .., ?_, ?_, ?_, ?_, ?_⟩
  · rw [get_set_other _ F.HCI_NEGOTIATE_STATUS _ _ _ _ rfl (.inr (by decide)), get_set_other _ F.HCI_NEGOTIATE_MINOR _ _ _ _ rfl (.inr (by decide)),
      State.get_set_same _ _ _ _ _ _ rfl]
    rfl
  · rw [get_set_other _ F.HCI_NEGOTIATE_STATUS _ _ _ _ rfl (.inr (by decide)), State.get_set_same _ _ _ _ _ _ rfl]
    split <;> rfl
  · rw [State.get_set_same _ _ _ _ _ _ rfl]
    rfl
  · rw [get_set_other _ F.HCI_NEGOTIATE_STATUS _ _ _ _ rfl (.inr (by decide)), get_set_other _ F.HCI_NEGOTIATE_MINOR _ _ _ _ rfl (.inr (by decide)),
      get_set_other _ F.HCI_NEGOTIATE_MAJOR _ _ _ _ rfl (.inr (by decide)), offered_offer]
  · exact RegsBut.trans (RegsBut.trans (RegsBut.trans (RegsBut.plainWrite _ _ _) (.set _ _ _ _ _ rfl)) (.set _ _ _ _ _ rfl)) (.set _ _ _ _ _ rfl)

theorem negotiate_not_reject : ¬ rejectRegs (Reg.offset ⟨.HCI_NEGOTIATE, 0, 0, 0⟩) := by
  exact fun h => absurd (rejectRegs_range h) (by decide)

theorem negotiate_finds_none (h : WriteReaches s ⟨.HCI_NEGOTIATE, 0, 0, 0⟩ v) (hreq : fv v F.HCI_NEGOTIATE_REQ = 1) (hidle : s.Idle)
    (hc : s.commonVersions v = 0) : ∃ t, exec (.negotiate v) s = .next t ∧ t.get F.HCI_NEGOTIATE_MAJOR = 0 ∧ t.get F.HCI_NEGOTIATE_MINOR = 0
      ∧ t.get F.HCI_NEGOTIATE_STATUS = Status.erange.code := by
  have hget : ∀ (w : State) (r : Rejection) (g : Fld), g.id = .HCI_NEGOTIATE → (w.reject r).get g = w.get g := by
    intro w r g hg
    exact (RegsBut.reject r).get (State.reject_chip ..) _ _ _ _ (by rw [hg]; exact negotiate_not_reject)
  refine ⟨_, negotiate_writes h hreq, ?_⟩
  rw [hidle.offered.negotiate, offered_common, if_pos hc]
  unfold State.negotiateFails
  rw [hget _ _ _ rfl, hget _ _ _ rfl, hget _ _ _ rfl]
  refine ⟨?_, ?_, State.get_set_same _ _ _ _ _ _ rfl⟩
  · rw [get_set_other _ F.HCI_NEGOTIATE_STATUS _ _ _ _ rfl (.inr (by decide)), get_set_other _ F.HCI_NEGOTIATE_MINOR _ _ _ _ rfl (.inr (by decide)),
      State.get_set_same _ _ _ _ _ _ rfl]
    rfl
  · rw [get_set_other _ F.HCI_NEGOTIATE_STATUS _ _ _ _ rfl (.inr (by decide)), State.get_set_same _ _ _ _ _ _ rfl]
    rfl

/-- Settles O29: enable and disable, the doorbell, and negotiation with and without a common version. -/
theorem ringRegisters : Obligations.RingRegisters := by
  unfold Obligations.RingRegisters
  intro r v s
  refine ⟨ringEnable_starts r, ringDisable_disables r, fun h => ⟨doorbell_posts r h, doorbell_overfills r h⟩, ?_, ?_⟩
  · rintro h hreq ⟨hready, hrings, h0, h1⟩ hc
    exact negotiate_activates h hreq ⟨hready, hrings, h0, h1⟩ hc
  · rintro h hreq ⟨hready, hrings, h0, h1⟩ hc
    exact negotiate_finds_none h hreq ⟨hready, hrings, h0, h1⟩ hc

end Sys2Proof.Machine

end

section

/-! The link and the function (O32). A reset of the function clears one ring after another, then the version, and then what the function
held, masked and awaited; the registers it writes are those of the rings and of negotiation. -/

namespace Sys2Proof.Machine

variable {s u : State}

/-! The rings' reset (R107). -/

/-- A ring's registers tell which ring's they are. -/
theorem ringRegs_index : ∀ r : Fin 16, ∀ id ∈ ringRegs, (Reg.offset ⟨id, r, 0, 0⟩ - 0x101020) / 0x80 = r := by decide

theorem ringRegs_ne {k r : Fin 16} {id id' : RegId} (hid : id ∈ ringRegs) (hid' : id' ∈ ringRegs) (hne : k ≠ r) :
    Reg.offset ⟨id, k, 0, 0⟩ ≠ Reg.offset ⟨id', r, 0, 0⟩ := fun h =>
  hne (Fin.ext (by rw [← ringRegs_index k id hid, h, ringRegs_index r id' hid']))

/-- The registers that a reset of the function writes. -/
def functionRegs (o : Nat) : Prop :=
  (∃ r, r < 16 ∧ (o = Reg.offset ⟨.HCI_RING_CTRL, r, 0, 0⟩ ∨ o = Reg.offset ⟨.HCI_RING_STATUS, r, 0, 0⟩))
    ∨ o = Reg.offset ⟨.HCI_NEGOTIATE, 0, 0, 0⟩

/-- One ring is disabled and its EN cleared. -/
def State.ringReset (s : State) (r : Nat) : State := (s.set F.HCI_RING_CTRL_EN 0 r).ringOff r

/-- Ring k is disabled, its EN is clear, and nothing of it is counted or held. -/
def State.RingCleared (s : State) (k : Nat) : Prop :=
  s.get F.HCI_RING_CTRL_EN k = 0 ∧ s.get F.HCI_RING_STATUS_ENABLED k = 0 ∧ s.ring k = {}

theorem ringReset_regs {r : Nat} (hr : r < 16) : RegsBut s (s.ringReset r) functionRegs := by
  unfold State.ringReset State.ringOff
  exact RegsBut.trans (RegsBut.trans (RegsBut.set _ _ _ _ _ (.inl ⟨r, hr, .inl rfl⟩)) (RegsBut.set _ _ _ _ _ (.inl ⟨r, hr, .inr rfl⟩)))
    (RegsBut.of_regs (State.modRing_regs ..))

theorem RingsOnly.ringReset (h : RingsOnly s u) (r : Nat) : RingsOnly s (u.ringReset r) := by
  unfold State.ringReset State.ringOff
  exact ((h.set ..).set ..).modRing ..

theorem ringReset_clears (r : Fin 16) : (s.ringReset r).RingCleared r := by
  unfold State.RingCleared State.ringReset State.ringOff
  refine ⟨?_, ?_, State.ring_modRing _ _ _ r.isLt⟩
  · rw [State.modRing_get, ring_get_set r rfl (by decide) (by decide) (by decide), State.get_set_same _ _ _ _ _ _ rfl]
    rfl
  · rw [State.modRing_get, State.get_set_same _ _ _ _ _ _ rfl]
    rfl

/-- The registers of another ring. -/
theorem ringReset_get_ne {r k : Fin 16} (hne : k ≠ r) {g : Fld} (hg : g.id ∈ ringRegs) : (s.ringReset r).get g k = s.get g k := by
  unfold State.ringReset State.ringOff
  rw [State.modRing_get, get_set_other _ F.HCI_RING_STATUS_ENABLED _ _ _ _ rfl (.inl (ringRegs_ne hg (by decide) hne)),
    get_set_other _ F.HCI_RING_CTRL_EN _ _ _ _ rfl (.inl (ringRegs_ne hg (by decide) hne))]

theorem ringReset_keeps_cleared {r k : Fin 16} (hne : k ≠ r) (h : s.RingCleared k) : (s.ringReset r).RingCleared k := by
  obtain ⟨hen, hon, hring⟩ := h
  refine ⟨(ringReset_get_ne hne (by decide)).trans hen, (ringReset_get_ne hne (by decide)).trans hon, ?_⟩
  unfold State.ringReset State.ringOff
  rw [State.modRing_ring, if_neg (fun h => hne (Fin.ext h.1)), State.set_ring, State.set_ring, hring]

theorem foldl_ringReset_keeps (l : List Nat) (hl : ∀ a ∈ l, a < 16) :
    RegsBut s (l.foldl State.ringReset s) functionRegs ∧ RingsOnly s (l.foldl State.ringReset s) := by
  induction l generalizing s with
  | nil => exact ⟨.rfl, rfl⟩
  | cons a l ih =>
    obtain ⟨hregs, honly⟩ := ih (s := s.ringReset a) (fun b hb => hl b (List.mem_cons_of_mem _ hb))
    refine ⟨RegsBut.trans (ringReset_regs (hl a List.mem_cons_self)) hregs, ?_⟩
    have hfirst : RingsOnly s (s.ringReset a) := RingsOnly.ringReset (rfl : RingsOnly s s) a
    unfold RingsOnly at honly hfirst ⊢
    rw [List.foldl_cons, honly, hfirst]

theorem foldl_ringReset_clears (k : Fin 16) (l : List Nat) (hl : ∀ a ∈ l, a < 16) (h : k.val ∈ l ∨ s.RingCleared k) :
    (l.foldl State.ringReset s).RingCleared k := by
  induction l generalizing s with
  | nil => exact h.resolve_left List.not_mem_nil
  | cons a l ih =>
    refine ih (fun b hb => hl b (List.mem_cons_of_mem _ hb)) ?_
    by_cases hka : k.val = a
    · subst hka
      exact .inr (ringReset_clears k)
    · rcases h with h | h
      · exact .inl ((List.mem_cons.1 h).resolve_left hka)
      · exact .inr (ringReset_keeps_cleared (r := ⟨a, hl a List.mem_cons_self⟩) (fun hk => hka (Fin.val_eq_of_eq hk)) h)

theorem mem_ringNos {a : Nat} : a ∈ range' 0 16 ↔ a < 16 := by
  rw [mem_range']
  exact ⟨And.right, fun h => ⟨Nat.zero_le a, h⟩⟩

/-! The function's reset (R104, R107, R132; log 111). -/

/-- What a reset of the function leaves: no ring enabled, no version, no vector unmasked or pending, nothing held, every fragment
aborted, and the switch core as it was. -/
def FunctionReset (s t : State) : Prop :=
  (∀ r : Fin 16, t.get F.HCI_RING_CTRL_EN r = 0 ∧ t.get F.HCI_RING_STATUS_ENABLED r = 0 ∧ t.ring r = {})
    ∧ t.get F.HCI_NEGOTIATE_MAJOR = 0 ∧ t.get F.HCI_NEGOTIATE_MINOR = 0 ∧ t.host.msix = [] ∧ t.host.pba = 0 ∧ t.host.held = []
    ∧ (∀ c f, (t.cmd.get c).frag = some f → f.aborted = true) ∧ (∀ w, w ∈ t.host.waiting → w.hostRead = false)
    ∧ t.dp = s.dp ∧ t.tree = s.tree ∧ t.map = s.map ∧ t.tel = s.tel ∧ t.outs = s.outs ∧ RegsBut s t functionRegs

/-- The rings are off and no version is active: functionReset before what the function held goes. -/
def State.unversioned (s : State) : State := (s.ringsReset.set F.HCI_NEGOTIATE_MAJOR 0).set F.HCI_NEGOTIATE_MINOR 0

theorem unversioned_cleared (r : Fin 16) : s.unversioned.RingCleared r := by
  obtain ⟨hen, hon, hring⟩ := foldl_ringReset_clears (s := s) r (range' 0 16) (fun _ => mem_ringNos.1) (.inl (mem_ringNos.2 r.isLt))
  have hget : ∀ g : Fld, g.id ∈ ringRegs → s.unversioned.get g r = s.ringsReset.get g r := by
    intro g hg
    unfold State.unversioned
    have hne := (ringRegs_not_negotiate r _ hg).symm
    rw [get_set_other _ F.HCI_NEGOTIATE_MINOR _ _ _ _ rfl (.inl hne), get_set_other _ F.HCI_NEGOTIATE_MAJOR _ _ _ _ rfl (.inl hne)]
  refine ⟨(hget _ (by decide)).trans hen, (hget _ (by decide)).trans hon, ?_⟩
  unfold State.unversioned
  rw [State.set_ring, State.set_ring]
  exact hring

theorem unversioned_only : RingsOnly s s.unversioned := by
  obtain ⟨-, honly⟩ := foldl_ringReset_keeps (s := s) (range' 0 16) (fun _ => mem_ringNos.1)
  exact (honly.set ..).set ..

theorem unversioned_regs : RegsBut s s.unversioned functionRegs := by
  obtain ⟨hregs, -⟩ := foldl_ringReset_keeps (s := s) (range' 0 16) (fun _ => mem_ringNos.1)
  exact RegsBut.trans (RegsBut.trans hregs (RegsBut.set _ _ _ _ _ (.inr rfl))) (RegsBut.set _ _ _ _ _ (.inr rfl))

theorem unversioned_version : s.unversioned.get F.HCI_NEGOTIATE_MAJOR = 0 ∧ s.unversioned.get F.HCI_NEGOTIATE_MINOR = 0 := by
  unfold State.unversioned
  rw [get_set_other _ F.HCI_NEGOTIATE_MINOR F.HCI_NEGOTIATE_MAJOR _ _ _ rfl (.inr (by decide)), State.get_set_same _ _ _ _ _ _ rfl,
    State.get_set_same _ _ _ _ _ _ rfl]
  exact ⟨rfl, rfl⟩

/-- The switch core is no part of a ring. -/
theorem RingsOnly.core (h : RingsOnly s u) : u.dp = s.dp ∧ u.tree = s.tree ∧ u.map = s.map ∧ u.tel = s.tel ∧ u.outs = s.outs
    ∧ u.boot = s.boot := by
  unfold RingsOnly at h
  rw [h]
  exact ⟨rfl, rfl, rfl, rfl, rfl, rfl⟩

theorem functionClear_frag (c : Fin 2) : (u.functionClear.cmd.get c).frag = (u.cmd.get c).frag.map (fun f => { f with aborted := true }) := by
  unfold State.functionClear
  rw [Vector.get_eq_getElem, Vector.getElem_map]
  exact (rfl)

theorem functionClear_resets (hrings : ∀ r : Fin 16, u.RingCleared r) (hmajor : u.get F.HCI_NEGOTIATE_MAJOR = 0)
    (hminor : u.get F.HCI_NEGOTIATE_MINOR = 0) (honly : RingsOnly s u) (hregs : RegsBut s u functionRegs) :
    FunctionReset s u.functionClear ∧ u.functionClear.boot = s.boot := by
  obtain ⟨hdp, htree, hmap, htel, houts, hboot⟩ := honly.core
  refine ⟨⟨hrings, hmajor, hminor, rfl, rfl, rfl, fun c f hf => ?_, fun w hw => ?_, hdp, htree, hmap, htel, houts, hregs⟩, hboot⟩
  · rw [functionClear_frag, Option.map_eq_some_iff] at hf
    obtain ⟨g, -, rfl⟩ := hf
    rfl
  · simpa using (List.mem_filter.1 hw).2

theorem functionReset_resets : FunctionReset s s.functionReset ∧ s.functionReset.boot = s.boot := by
  unfold State.functionReset
  exact functionClear_resets unversioned_cleared unversioned_version.1 unversioned_version.2 unversioned_only unversioned_regs

/-- The reset as the link's own reset and a Function Level Reset give it, whatever becomes of the pins. -/
theorem FunctionReset.withBoot {t : State} (h : FunctionReset s t) (b : Boot) : FunctionReset s { t with boot := b } := h

theorem pciePerstN_resets : ∃ t, exec .pciePerstN s = .next t ∧ FunctionReset s t ∧ t.boot.perst = true ∧ t.barOpen = false :=
  ⟨_, rfl, functionReset_resets.1.withBoot _, rfl, by simp [State.barOpen]⟩

/-! The function's right to write, and the link (R115, R133). -/

theorem busMasterDisable_stops (d3hot : Bool) : ∃ t, exec (.busMasterDisable d3hot) s = .next t ∧ t.canWrite = false
    ∧ t = { s with host := { s.host with busMaster := t.host.busMaster, d3hot := t.host.d3hot } } := by
  refine ⟨_, rfl, ?_⟩
  cases d3hot
  · exact ⟨by simp [State.canWrite], rfl⟩
  · exact ⟨by simp [State.canWrite], rfl⟩

theorem pciePerstNRelease_trains (h : s.boot.perst = true) : ∃ t, exec .pciePerstNRelease s = .next t ∧ t.boot.perst = false
    ∧ t.boot.linkTraining = s.boot.porDone ∧ t = { s with boot := t.boot } :=
  ⟨_, if_neg (by simp [h]), rfl, rfl, rfl⟩

/-- Settles O32: Bus Master Enable, the two resets of the function, and the release of PCIE_PERST_N. -/
theorem linkAndFunction : Obligations.LinkAndFunction := by
  unfold Obligations.LinkAndFunction
  intro s d3hot
  exact ⟨busMasterDisable_stops d3hot, ⟨_, rfl, rfl, rfl, rfl, rfl⟩, ⟨_, rfl, functionReset_resets⟩, pciePerstN_resets,
    pciePerstNRelease_trains⟩

end Sys2Proof.Machine

end

section

/-! Domains that wake or fail (O40). Both ends of a wake write the domain's status first; what follows (the lanes, the engines that
waited, the accesses that waited) is `WakeKeeps` of it. Nothing on the way to the safe state touches what waits for a domain. -/

namespace Sys2Proof.Machine

variable {s t u : State}

/-! What waits for a domain, through a fault and the entry to the safe state (R124, R526). -/

/-- Who started each wake, and the accesses that wait, are as before. -/
def WaitsSame (s t : State) : Prop := t.host.waker = s.host.waker ∧ t.host.waiting = s.host.waiting

namespace WaitsSame

theorem refl (s : State) : WaitsSame s s := ⟨rfl, rfl⟩

theorem trans (h : WaitsSame s t) (k : WaitsSame t u) : WaitsSame s u := ⟨k.1.trans h.1, k.2.trans h.2⟩

theorem of_host (h : t.host = s.host) : WaitsSame s t := ⟨by rw [h], by rw [h]⟩

theorem ite {c : Prop} [Decidable c] (h : WaitsSame s t) (k : WaitsSame s u) : WaitsSame s (if c then t else u) := by
  split <;> assumption

theorem foldl {α : Type} {f : State → α → State} (hf : ∀ s a, WaitsSame s (f s a)) (l : List α) (s : State) : WaitsSame s (l.foldl f s) := by
  induction l generalizing s with
  | nil => exact refl s
  | cons a l ih => exact (hf s a).trans (ih _)

theorem raise (s : State) (c en : Fld) (m src i : Nat) : WaitsSame s (s.raise c en m src i) := raise_waker ..

theorem faultWrite (source cause addr : Nat) (who : Who) (access status detail : Nat) :
    WaitsSame s (s.faultWrite source cause addr who access status detail) := by
  unfold State.faultWrite
  dsimp only
  refine trans ?_ (of_host (State.plinthEvent_host _ _))
  refine trans ?_ (of_host (State.logRec_host _ _ _ _ _))
  refine trans ?_ (raise _ _ _ _ _ _)
  apply of_host
  rw [State.faultFirst_host, State.faultOverflow_host, State.faultTally_host, State.faultPush_host]

theorem wr (s : State) (id : RegId) (v : Word) (i j k : Nat) : WaitsSame s (s.wr id v i j k) := of_host (State.wr_host ..)
theorem set (s : State) (f : Fld) (v i j k : Nat) : WaitsSame s (s.set f v i j k) := of_host (State.set_host ..)
theorem inc (s : State) (f : Fld) (v i j k : Nat) : WaitsSame s (s.inc f v i j k) := of_host (State.inc_host ..)
theorem emit (s : State) (o : Out) : WaitsSame s (s.emit o) := of_host (State.emit_host ..)
theorem modPort (s : State) (p : Nat) (f : PAcc → PAcc) : WaitsSame s (s.modPort p f) := of_host rfl
theorem setBuf (s : State) (p i : Nat) (b : Buf) : WaitsSame s (s.setBuf p i b) := of_host rfl
theorem setHdl (s : State) (h : Nat) (x : Option Hdl) : WaitsSame s (s.setHdl h x) := of_host rfl
theorem dp (s : State) (d : Dp) : WaitsSame s { s with dp := d } := of_host rfl
theorem fences (s : State) (c : Vector Engine 2) (p : Engine) (d : Dp) : WaitsSame s { s with cmd := c, plinth := p, dp := d } := of_host rfl

theorem sendPause (s : State) (l : Nat) (b : Bool) (c : Nat) : WaitsSame s (s.sendPause l b c) := by
  unfold State.sendPause
  exact ite (refl s) ((emit _ _).trans (of_host (State.count_host _ _ _ _ _)))

theorem pausePort (s : State) (l : Nat) : WaitsSame s (s.pausePort l) := by
  unfold State.pausePort
  dsimp only
  exact ite (refl s) (((set _ _ _ _ _ _).trans (modPort _ _ _)).trans (sendPause _ _ _ _))

theorem setBnd (s : State) (b : Nat) (x : Bond) : WaitsSame s (s.setBnd b x) := by
  unfold State.setBnd
  split
  · exact dp _ _
  · exact refl s

theorem stopBond (s : State) (b : Nat) : WaitsSame s (s.stopBond b) := by
  unfold State.stopBond
  dsimp only
  split
  · exact refl s
  · exact trans (trans (setBnd _ _ _) (ite (refl _) (emit _ _))) (ite (refl _) (emit _ _))

theorem flow (s : State) : WaitsSame s s.flow := by
  unfold State.flow
  exact (foldl (f := State.pausePort) pausePort _ _).trans (foldl (f := State.stopBond) stopBond _ _)

theorem setInuse (s : State) (p n : Nat) : WaitsSame s (s.setInuse p n) := by
  unfold State.setInuse
  dsimp only
  split
  · exact refl s
  · have h : WaitsSame s ((s.set F.BUF_POOL_STATUS_INUSE n p).thresholds p) := by
      unfold State.thresholds
      exact (set _ _ _ _ _ _).trans (set _ _ _ _ _ _)
    exact ite h (h.trans (flow _))

theorem dropRef (s : State) (p i a : Nat) : WaitsSame s (s.dropRef p i a) := by
  unfold State.dropRef
  dsimp only
  split
  · refine (((inc s F.BUF_EVT_CNT_DFREE 1 0 0 0).trans (set _ F.BUF_STATUS_DFREE 1 0 0 0)).trans (faultWrite 0x20 0x11 i .device 5 0 p)).trans ?_
    unfold State.dfreeCapture
    exact ite (refl _) (wr _ .BUF_DFREE _ 0 0 0)
  · exact ite ((setBuf _ _ _ _).trans (setInuse _ _ _)) (setBuf _ _ _ _)

theorem release (s : State) (h a : Nat) : WaitsSame s (s.release h a) := by
  unfold State.release
  split
  · exact refl s
  · have hcount : ∀ n, WaitsSame s ((s.setHdl h none).setInuse 4 n) := fun n => (setHdl s h none).trans (setInuse _ _ _)
    exact ((hcount _).trans (fences _ _ _ _)).trans (dropRef _ _ _ _)

theorem discardPackets (s : State) : WaitsSame s s.discardPackets := by
  have h : WaitsSame s (s.live.foldl (fun s (e : Nat × Hdl) => s.release e.1 0) s) :=
    foldl (f := fun s (e : Nat × Hdl) => s.release e.1 0) (fun s e => release s e.1 0) _ _
  unfold State.discardPackets
  dsimp only
  generalize s.live.foldl (fun s (e : Nat × Hdl) => s.release e.1 0) s = u at h
  exact h.trans (dp _ _)

theorem ringsLasersOff (s : State) : WaitsSame s s.ringsLasersOff := by
  unfold State.ringsLasersOff
  exact trans (foldl (f := fun s r => State.set s F.HCI_RING_STATUS_ENABLED 0 r) (fun s _ => set s _ _ _ _ _) _ _)
    (foldl (f := fun s r => State.set s F.PON_TREE_STATUS_TXON 0 r) (fun s _ => set s _ _ _ _ _) _ _)

theorem stopWork (s : State) : WaitsSame s s.stopWork := of_host rfl

theorem enterSafe (s : State) : WaitsSame s s.enterSafe := by
  unfold State.enterSafe
  exact ((((set _ _ _ _ _ _).trans (discardPackets _)).trans (ringsLasersOff _)).trans (stopWork _)).trans (of_host (State.plinthEvent_host _ _))

theorem fatal (source cause addr : Nat) (who : Who) (access status detail : Nat) :
    WaitsSame s (s.fatal source cause addr who access status detail) := by
  unfold State.fatal
  exact ite (faultWrite ..) ((faultWrite ..).trans (enterSafe _))

end WaitsSame

/-- Where only registers differ, the rest is as it was. -/
theorem only_regs_rest (h : u = { s with regs := u.regs }) : u.chip = s.chip ∧ u.host = s.host ∧ u.pwr = s.pwr ∧ u.flt = s.flt ∧ u.dp = s.dp
    ∧ u.boot = s.boot ∧ u.tree = s.tree ∧ u.pending = s.pending := by
  rw [h]
  exact ⟨rfl, rfl, rfl, rfl, rfl, rfl, rfl, rfl⟩

/-! A domain's status (R118, R122). -/

section
variable (n : Nat)

/-- WAKESTAT and FAILCAUSE of a domain. -/
def State.wakestat (s : State) : Nat := if n = 0 then s.get F.PWR_CORE_STATUS_WAKESTAT else s.get F.QUOIN_STATUS_WAKESTAT (n - 1)
def State.failcause (s : State) : Nat := if n = 0 then s.get F.PWR_CORE_STATUS_FAILCAUSE else s.get F.QUOIN_STATUS_FAILCAUSE (n - 1)

/-- A domain's WAKESTAT is written. -/
def State.setWakestat (s : State) (st : Status) : State :=
  if n = 0 then s.set F.PWR_CORE_STATUS_WAKESTAT st.code else s.set F.QUOIN_STATUS_WAKESTAT st.code (n - 1)

variable {n}

/-- Where the status registers of the domains lie. -/
theorem statusReg_range (hn : n ≤ 25) :
    (statusReg n).offset = 0xD00020 ∨ (0xD00400 ≤ (statusReg n).offset ∧ (statusReg n).offset < 0xD00500) := by
  have hall : ∀ n : Fin 26, (statusReg n).offset = 0xD00020 ∨ (0xD00400 ≤ (statusReg n).offset ∧ (statusReg n).offset < 0xD00500) := by decide
  exact hall ⟨n, Nat.lt_succ_of_le hn⟩

/-- What a domain's status shows is as it was where its register is. -/
theorem RegsBut.status {P : Nat → Prop} (h : RegsBut s t P) (hc : t.chip = s.chip) (hP : ¬ P (statusReg n).offset) :
    t.domainState n = s.domainState n ∧ t.wakestat n = s.wakestat n ∧ t.failcause n = s.failcause n := by
  unfold State.domainState State.wakestat State.failcause
  unfold statusReg at hP
  by_cases h0 : n = 0
  · simp only [if_pos h0] at hP ⊢
    exact ⟨h.get hc _ _ _ _ hP, h.get hc _ _ _ _ hP, h.get hc _ _ _ _ hP⟩
  · simp only [if_neg h0] at hP ⊢
    exact ⟨h.get hc _ _ _ _ hP, h.get hc _ _ _ _ hP, h.get hc _ _ _ _ hP⟩

theorem setWakestat_only (st : Status) : s.setWakestat n st = { s with regs := (s.setWakestat n st).regs } := by
  unfold State.setWakestat
  split <;> exact only_regs_set (Eq.refl s) ..

theorem setWakestat_regs (st : Status) : RegsBut s (s.setWakestat n st) (fun o => o = (statusReg n).offset) := by
  unfold State.setWakestat statusReg
  by_cases h : n = 0
  · simp only [if_pos h]
    exact RegsBut.set F.PWR_CORE_STATUS_WAKESTAT _ _ _ _ rfl
  · simp only [if_neg h]
    exact RegsBut.set F.QUOIN_STATUS_WAKESTAT _ _ _ _ rfl

theorem setWakestat_fields (st : Status) : (s.setWakestat n st).wakestat n = st.code ∧ (s.setWakestat n st).failcause n = s.failcause n
    ∧ (s.setWakestat n st).domainState n = s.domainState n := by
  have hcode : st.code % 2 ^ 8 = st.code := by cases st <;> rfl
  cases n with
  | zero =>
    exact ⟨(State.get_set_same _ _ _ _ _ _ rfl).trans hcode,
      State.get_set_field _ F.PWR_CORE_STATUS_WAKESTAT F.PWR_CORE_STATUS_FAILCAUSE _ _ _ _ rfl rfl (by decide),
      State.get_set_field _ F.PWR_CORE_STATUS_WAKESTAT F.PWR_CORE_STATUS_STATE _ _ _ _ rfl rfl (by decide)⟩
  | succ n =>
    exact ⟨(State.get_set_same _ F.QUOIN_STATUS_WAKESTAT _ n 0 0 rfl).trans hcode,
      State.get_set_field _ F.QUOIN_STATUS_WAKESTAT F.QUOIN_STATUS_FAILCAUSE _ n 0 0 rfl rfl (by decide),
      State.get_set_field _ F.QUOIN_STATUS_WAKESTAT F.QUOIN_STATUS_STATE _ n 0 0 rfl rfl (by decide)⟩

theorem domainFailed_fields {cause : Nat} (hc : cause < 8) : (s.domainFailed n cause).domainState n = 5
    ∧ (s.domainFailed n cause).failcause n = cause := by
  cases n with
  | zero =>
    exact ⟨(State.get_set_field _ F.PWR_CORE_STATUS_FAILCAUSE F.PWR_CORE_STATUS_STATE _ _ _ _ rfl rfl (by decide)).trans
      (State.get_set_same _ F.PWR_CORE_STATUS_STATE domFAILED 0 0 0 rfl),
      (State.get_set_same _ F.PWR_CORE_STATUS_FAILCAUSE _ 0 0 0 rfl).trans (Nat.mod_eq_of_lt hc)⟩
  | succ n =>
    exact ⟨(State.get_set_field _ F.QUOIN_STATUS_FAILCAUSE F.QUOIN_STATUS_STATE _ n 0 0 rfl rfl (by decide)).trans
      (State.get_set_same _ F.QUOIN_STATUS_STATE domFAILED n 0 0 rfl),
      (State.get_set_same _ F.QUOIN_STATUS_FAILCAUSE _ n 0 0 rfl).trans (Nat.mod_eq_of_lt hc)⟩

theorem WakeKeeps.status (h : WakeKeeps s t) (hn : n ≤ 25) : t.domainState n = s.domainState n ∧ t.wakestat n = s.wakestat n
    ∧ t.failcause n = s.failcause n := h.dom n (Nat.lt_succ_of_le hn)

end

/-! The end of a wake that failed (R122, R123). -/

section
variable {n cause : Nat}

/-- A failed domain as its status shows it. -/
def State.wakeFailed (s : State) (n cause : Nat) : State := (s.domainFailed n cause).setWakestat n .ewake

/-- The wake is over: no one waits for it. -/
def State.wakeStruck (s : State) (n : Nat) : State := { s with host := { s.host with waker := serase s.host.waker n } }

/-- The interrupt of a failed wake. -/
def State.raiseFailed (s : State) : State := s.raise ⟨.PWR_INT_CAUSE, 3, 0⟩ ⟨.PWR_INT_EN, 3, 0⟩ 8 20

theorem wakeEnds_eq : s.wakeEnds n cause
    = (allEngines.foldl (State.endWait n) (((s.wakeFailed n cause).wakeStruck n).raiseFailed).lanesSettle).drain := (rfl)

theorem wakeFailed_only : s.wakeFailed n cause = { s with regs := (s.wakeFailed n cause).regs } := by
  unfold State.wakeFailed
  rw [setWakestat_only, domainFailed_only]

theorem foldl_drain_keeps {f : State → Eng → State} (hf : ∀ s e, WakeKeeps s (f s e)) (h : u.host.waiting = []) :
    WakeKeeps u (allEngines.foldl f u.lanesSettle).drain := by
  have hfold := (lanesSettle_keeps u).trans (WakeKeeps.foldl f hf allEngines u.lanesSettle)
  exact hfold.trans (drain_wk _ (hfold.waiting.trans h)).1

theorem wakeEnds_keeps (h : s.host.waiting = []) : WakeKeeps ((s.wakeFailed n cause).wakeStruck n).raiseFailed (s.wakeEnds n cause) := by
  rw [wakeEnds_eq]
  refine foldl_drain_keeps (endWait_keeps n) ((raise_waker ..).2.trans ?_)
  obtain ⟨-, hhost, -⟩ := only_regs_rest (wakeFailed_only (s := s) (n := n) (cause := cause))
  exact (congrArg HostIf.waiting hhost).trans h

theorem wakeFailed_get (f : Fld) (hstat : Reg.offset ⟨f.id, 0, 0, 0⟩ ≠ (statusReg n).offset) :
    (s.wakeFailed n cause).get f = s.get f :=
  RegsBut.get (RegsBut.trans (domainFailed_regs n cause) (setWakestat_regs .ewake)) (only_regs_rest wakeFailed_only).1 f 0 0 0 hstat

theorem raiseFailed_regs : RegsBut s s.raiseFailed (fun o => o = Reg.offset ⟨.PWR_INT_CAUSE, 0, 0, 0⟩) :=
  RegsBut.raise _ _ _ _ _ rfl

/-- Registers that a failed wake leaves alone: those of the fault records, of SAFE, and of SAVEBAD. -/
def wakeOther : List RegId := [.FLT_RING, .FLT_STATUS, .PWR_SLEEP_STATUS]

theorem wakeOther_apart : ∀ id ∈ wakeOther, Reg.offset ⟨id, 0, 0, 0⟩ ≠ Reg.offset ⟨.PWR_INT_CAUSE, 0, 0, 0⟩
    ∧ (Reg.offset ⟨id, 0, 0, 0⟩ / 2 ^ 20 = 13 ∨ id = .FLT_RING ∨ id = .FLT_STATUS)
    ∧ ¬ (Reg.offset ⟨id, 0, 0, 0⟩ = 0xD00020 ∨ (0xD00400 ≤ Reg.offset ⟨id, 0, 0, 0⟩ ∧ Reg.offset ⟨id, 0, 0, 0⟩ < 0xD00500)) := by
  decide

/-- What a wake that failed leaves: FAILED, its cause, WAKESTAT EWAKE, and no one who waits for it. -/
structure WakeFailed (s t : State) (n cause : Nat) : Prop where
  state : t.domainState n = 5
  cause : t.failcause n = cause
  wakestat : t.wakestat n = Status.ewake.code
  waker : t.host.waker = serase s.host.waker n
  other : ∀ f : Fld, f.id ∈ wakeOther → t.get f = s.get f
  flt : t.flt = s.flt
  dp : t.dp = s.dp
  boot : t.boot = s.boot

theorem status_raiseFailed (hn : n ≤ 25) : s.raiseFailed.domainState n = s.domainState n ∧ s.raiseFailed.wakestat n = s.wakestat n
    ∧ s.raiseFailed.failcause n = s.failcause n :=
  raiseFailed_regs.status (State.raise_chip ..) (fun h => absurd (statusReg_range hn) (by rw [h]; decide))

theorem wakeEnds_get (hn : n ≤ 25) (h : s.host.waiting = []) (f : Fld) (hf : f.id ∈ wakeOther) : (s.wakeEnds n cause).get f = s.get f := by
  obtain ⟨hint, hkept, hstat⟩ := wakeOther_apart f.id hf
  rw [(wakeEnds_keeps h).reg f 0 hkept, raiseFailed_regs.get (State.raise_chip ..) f 0 0 0 hint]
  exact wakeFailed_get f (fun h => absurd (statusReg_range hn) (h ▸ hstat))

theorem wakeEnds_fails (hn : n ≤ 25) (hcause : cause < 8) (h : s.host.waiting = []) : WakeFailed s (s.wakeEnds n cause) n cause := by
  have hk := wakeEnds_keeps (n := n) (cause := cause) h
  obtain ⟨-, hhost, -, hflt, hdp, hboot, -⟩ := only_regs_rest (wakeFailed_only (s := s) (n := n) (cause := cause))
  obtain ⟨hstate, hstat, hfail⟩ := hk.status hn
  obtain ⟨rstate, rstat, rfail⟩ := status_raiseFailed (s := (s.wakeFailed n cause).wakeStruck n) hn
  obtain ⟨wstat, wfail, wstate⟩ := setWakestat_fields (s := s.domainFailed n cause) (n := n) .ewake
  obtain ⟨dstate, dfail⟩ := domainFailed_fields (s := s) (n := n) hcause
  exact {
    state := hstate.trans (rstate.trans (wstate.trans dstate))
    cause := hfail.trans (rfail.trans (wfail.trans dfail))
    wakestat := hstat.trans (rstat.trans wstat)
    waker := hk.waker.trans ((raise_waker ..).1.trans (congrArg (fun h : HostIf => serase h.waker n) hhost))
    other := wakeEnds_get hn h
    flt := hk.flt.trans ((State.raise_flt ..).trans hflt)
    dp := hk.dp.trans ((State.raise_dp ..).trans hdp)
    boot := hk.boot.trans ((State.raise_boot ..).trans hboot) }

end

/-! The end of a wake (R119, R122, R518). -/

section
variable {n : Nat}

/-- A domain as its status shows it once it has woken. -/
def State.wakeReady (s : State) (n : Nat) : State := (s.setDomain n domREADY).setWakestat n .ok

/-- The wake is over, and the domain's rest with it. -/
def State.wakeDone (s : State) (n : Nat) : State :=
  { s with
    pwr := { s.pwr with rested := s.pwr.rested.filter (fun x => x ≠ n) }
    host := { s.host with waker := serase s.host.waker n } }

theorem wakeDone_waker : (s.wakeDone n).host.waker = serase s.host.waker n := rfl

theorem wakeDone_rested : n ∉ (s.wakeDone n).pwr.rested := fun h => absurd rfl (of_decide_eq_true (List.mem_filter.1 h).2)

theorem woken_eq : s.woken n = (allEngines.foldl (State.unstall n) (((s.wakeReady n).restoreGroup n).wakeDone n).lanesSettle).drain := (rfl)

theorem wakeReady_only : s.wakeReady n = { s with regs := (s.wakeReady n).regs } := by
  unfold State.wakeReady
  rw [setWakestat_only, setDomain_only]

/-- A tree of the device is restored. -/
def State.restoreTree (s : State) (k : Nat) : State := if k < s.chip.trees then s.restoredTree k else s

/-- The trees of a group are restored. -/
def State.restoreTrees (s : State) (n : Nat) : State :=
  if 1 ≤ n ∧ n ≤ 8 then (range' (8 * (n - 1)) 8).foldl State.restoreTree s else s

/-- Nothing of a group is saved any longer. -/
def State.unsaved (s : State) (n : Nat) : State :=
  { s with pwr := { s.pwr with saved := serase s.pwr.saved n, savedBad := s.pwr.savedBad.filter (fun x => x ≠ n) } }

theorem restoreGroup_empty (hbad : n ∉ s.pwr.savedBad) (hsaved : sget [] s.pwr.saved n = []) :
    s.restoreGroup n = (s.unsaved n).restoreTrees n := by
  unfold State.restoreGroup
  dsimp only
  rw [if_neg (by simpa using hbad), hsaved, List.foldl_nil]
  exact (rfl)

theorem restoreTree_keeps {k : Nat} (hk : k < 64) : WakeKeeps s (s.restoreTree k) ∧ (s.restoreTree k).tree = s.tree := by
  unfold State.restoreTree
  split
  · exact restoredTree_keeps s k hk
  · exact ⟨.rfl' _, rfl⟩

theorem foldl_restoreTree_keeps (l : List Nat) (hl : ∀ k, k ∈ l → k < 64) :
    WakeKeeps s (l.foldl State.restoreTree s) ∧ (l.foldl State.restoreTree s).tree = s.tree := by
  induction l generalizing s with
  | nil => exact ⟨.rfl' _, rfl⟩
  | cons k l ih =>
    obtain ⟨hfirst, ht⟩ := restoreTree_keeps (s := s) (hl k List.mem_cons_self)
    obtain ⟨hrest, ht'⟩ := ih (s := s.restoreTree k) (fun j hj => hl j (List.mem_cons_of_mem _ hj))
    exact ⟨hfirst.trans hrest, ht'.trans ht⟩

theorem restoreTrees_keeps : WakeKeeps s (s.restoreTrees n) ∧ (s.restoreTrees n).tree = s.tree := by
  unfold State.restoreTrees
  split
  · next hn =>
    have hlast : 8 * (n - 1) + 8 ≤ 64 := Nat.add_le_add_right (Nat.mul_le_mul_left 8 (Nat.sub_le_sub_right hn.2 1)) 8
    exact foldl_restoreTree_keeps _ (fun k hk => Nat.lt_of_lt_of_le (mem_range'.1 hk).2 hlast)
  · exact ⟨.rfl' _, rfl⟩

/-- Where nothing of a group was saved, its restoration derives its trees' limits and protection states and no more. -/
theorem restoreGroup_keeps (hbad : n ∉ s.pwr.savedBad) (hsaved : sget [] s.pwr.saved n = []) :
    WakeKeeps s (s.restoreGroup n) ∧ (s.restoreGroup n).tree = s.tree := by
  rw [restoreGroup_empty hbad hsaved]
  have hunsaved : WakeKeeps s (s.unsaved n) := .of_regsBut (.of_regs rfl) rfl rfl rfl rfl rfl rfl rfl rfl
  obtain ⟨hk, ht⟩ := restoreTrees_keeps (s := s.unsaved n) (n := n)
  exact ⟨hunsaved.trans hk, ht⟩

theorem woken_wakes (hn : n ≤ 25) (hw : s.host.waiting = []) (hbad : n ∉ s.pwr.savedBad) (hsaved : sget [] s.pwr.saved n = []) :
    let t := s.woken n
    t.domainState n = 3 ∧ t.wakestat n = Status.ok.code ∧ (∀ e, (t.eng e).wakesOn n = false) ∧ t.host.waker = serase s.host.waker n
      ∧ n ∉ t.pwr.rested ∧ t.dp = s.dp ∧ t.tree = s.tree ∧ t.boot = s.boot ∧ t.flt = s.flt ∧ t.pending = s.pending := by
  obtain ⟨-, hhost, hpwr, hflt, hdp, hboot, htr, hpending⟩ := only_regs_rest (wakeReady_only (s := s) (n := n))
  obtain ⟨wstat, -, wstate⟩ := setWakestat_fields (s := s.setDomain n domREADY) (n := n) .ok
  have hready : (s.wakeReady n).domainState n = 3 :=
    wstate.trans ((setDomain_domain s n domREADY n (Nat.lt_succ_of_le hn) (Nat.lt_succ_of_le hn) (by decide)).trans (if_pos rfl))
  obtain ⟨hr, htree⟩ := restoreGroup_keeps (s := s.wakeReady n) (n := n) (by rw [hpwr]; exact hbad) (by rw [hpwr]; exact hsaved)
  obtain ⟨rstate, rstat, -⟩ := hr.status hn
  have hwait : ((s.wakeReady n).restoreGroup n).host.waiting = [] := hr.waiting.trans ((congrArg HostIf.waiting hhost).trans hw)
  have hmid : (allEngines.foldl (State.unstall n) (((s.wakeReady n).restoreGroup n).wakeDone n).lanesSettle).host.waiting = [] :=
    ((lanesSettle_keeps _).trans (WakeKeeps.foldl _ (unstall_keeps n) _ _)).waiting.trans hwait
  have hk : WakeKeeps (((s.wakeReady n).restoreGroup n).wakeDone n) (s.woken n) := by
    rw [woken_eq]
    exact foldl_drain_keeps (unstall_keeps n) hwait
  obtain ⟨hstate, hstat, -⟩ := hk.status hn
  refine ⟨hstate.trans (rstate.trans hready), hstat.trans (rstat.trans wstat), fun e => ?_, ?_, ?_, ?_, ?_, ?_, ?_, ?_⟩
  · rw [woken_eq, (drain_wk _ hmid).2.1]
    exact unstall_all n _ e
  · rw [hk.waker, wakeDone_waker, hr.waker, hhost]
  · rw [hk.pwr]
    exact wakeDone_rested
  · exact hk.dp.trans (hr.dp.trans hdp)
  · rw [woken_eq, (drain_wk _ hmid).2.2, foldl_fld (State.unstall n) State.tree (fun s e => unstall_tree n s e), (lanesSettle_engs _).2.2.2]
    exact Eq.trans htree htr
  · exact hk.boot.trans (hr.boot.trans hboot)
  · exact hk.flt.trans (hr.flt.trans hflt)
  · exact hk.pending.trans (hr.pending.trans hpending)

end

/-! The commands. -/

section
variable {q : Dom} {who : Who} {cause : FailCause}

theorem wakes_some (hstate : s.domainState n = 2) (hwaker : (s.host.waker.find? (fun e => e.1 = n)).map (fun e => e.2) = some who) :
    s.wakes n = some who := (if_pos hstate).trans hwaker

theorem wakes_none (h : s.domainState n ≠ 2 ∨ s.host.waker.find? (fun e => e.1 = n) = none) : s.wakes n = none := by
  unfold State.wakes
  rcases h with h | h
  · exact if_neg h
  · rw [h, Option.map_none, ite_self]

/-- A group found bad: SAVEBAD and a record, and the wait for it as before (R518). -/
theorem restoreGroup_bad (hbad : n ∈ s.pwr.savedBad) : WaitsSame s (s.restoreGroup n)
    ∧ (s.restoreGroup n).get F.PWR_SLEEP_STATUS_SAVEBAD = 1 := by
  unfold State.restoreGroup
  dsimp only
  rw [if_pos (by simpa using hbad)]
  constructor
  · refine WaitsSame.trans ?_ (WaitsSame.faultWrite ..)
    exact .of_host (State.set_host ..)
  · rw [faultWrite_get_below (by decide), State.get_set_same _ _ _ _ _ _ rfl]
    rfl

theorem wakeComplete_wakes (hw : s.wakes (domNo q) = some who) (hbad : domNo q ∉ s.pwr.savedBad) :
    exec (.wakeComplete q) s = .next (s.woken (domNo q)) := by
  have hx : exec (.wakeComplete q) s = execWakeComplete q s := rfl
  rw [hx]
  unfold execWakeComplete
  simp only [hw]
  exact if_neg (by simpa using hbad)

theorem wakeComplete_bad (hw : s.wakes (domNo q) = some who) (hbad : domNo q ∈ s.pwr.savedBad) :
    exec (.wakeComplete q) s = .next ((s.restoreGroup (domNo q)).wakeEnds (domNo q) 3) := by
  have hx : exec (.wakeComplete q) s = execWakeComplete q s := rfl
  rw [hx]
  unfold execWakeComplete
  simp only [hw]
  exact if_pos (by simpa using hbad)

/-- A group's saved registers are found bad. -/
def State.markBad (s : State) (n : Nat) : State := { s with pwr := { s.pwr with savedBad := n :: s.pwr.savedBad } }

theorem wakeFail_saved (hw : s.wakes (domNo q) = some who) : exec (.wakeFail q .saved) s
    = .next (((s.markBad (domNo q)).restoreGroup (domNo q)).wakeEnds (domNo q) 3) := by
  have hx : exec (.wakeFail q .saved) s = execWakeFail q .saved s := rfl
  rw [hx]
  unfold execWakeFail
  simp only [hw]
  exact if_pos trivial

theorem wakeFail_timeout (hw : s.wakes (domNo q) = some who) (hc : cause ≠ .saved) : exec (.wakeFail q cause) s
    = .next ((s.wakeRecord (domNo q) who (failCode cause)).wakeEnds (domNo q) (failCode cause)) := by
  have hx : exec (.wakeFail q cause) s = execWakeFail q cause s := rfl
  rw [hx]
  unfold execWakeFail
  simp only [hw]
  exact if_neg hc

theorem wake_idle (hw : s.wakes (domNo q) = none) : exec (.wakeComplete q) s = .next s ∧ exec (.wakeFail q cause) s = .next s := by
  have hx : exec (.wakeComplete q) s = execWakeComplete q s := rfl
  have hy : exec (.wakeFail q cause) s = execWakeFail q cause s := rfl
  rw [hx, hy]
  unfold execWakeComplete execWakeFail
  simp only [hw, and_self]

/-- A group found bad as its wake ends: FAILED with cause 3, SAVEBAD set. -/
theorem badGroup_fails (hbad : domNo q ∈ s.pwr.savedBad) (hw : s.host.waiting = []) :
    let t := (s.restoreGroup (domNo q)).wakeEnds (domNo q) 3
    t.domainState (domNo q) = 5 ∧ t.failcause (domNo q) = 3 ∧ t.wakestat (domNo q) = Status.ewake.code
      ∧ t.host.waker = serase s.host.waker (domNo q) ∧ t.get F.PWR_SLEEP_STATUS_SAVEBAD = 1 := by
  obtain ⟨⟨hwaker, hwaiting⟩, hsave⟩ := restoreGroup_bad hbad
  have h := wakeEnds_fails (cause := 3) (domNo_le q) (by decide) (hwaiting.trans hw)
  exact ⟨h.state, h.cause, h.wakestat, h.waker.trans (by rw [hwaker]), (h.other _ (by decide)).trans hsave⟩

/-- The DETAIL of a failed wake's record: the port of the packet that started it, or the cause (R523; log 118). -/
def wakeDetail (who : Who) (code : Nat) : Nat :=
  match who with
  | .packet p => p
  | _ => code

theorem wakeRecord_contained {n code : Nat} (hc : ¬ (n = 0 ∨ n = 24)) :
    s.wakeRecord n who code = s.faultWrite n 0x15 n who 4 Status.ewake.code (wakeDetail who code) := by
  unfold State.wakeRecord
  exact if_neg (by simpa using hc)

theorem wakeRecord_fatal {n code : Nat} (hc : n = 0 ∨ n = 24) :
    s.wakeRecord n who code = s.fatal n 0x20 n who 4 Status.ewake.code (wakeDetail who code) := by
  unfold State.wakeRecord
  exact if_pos (by simpa using hc)

theorem wakeRecord_waits (n code : Nat) : WaitsSame s (s.wakeRecord n who code) := by
  by_cases hc : n = 0 ∨ n = 24
  · rw [wakeRecord_fatal hc]
    exact .fatal ..
  · rw [wakeRecord_contained hc]
    exact .faultWrite ..

theorem wakeRecord_fails {code : Nat} (hcode : code < 8) (hw : s.host.waiting = []) :
    let n := domNo q
    let t := (s.wakeRecord n who code).wakeEnds n code
    t.domainState n = 5 ∧ t.failcause n = code ∧ t.wakestat n = Status.ewake.code ∧ t.host.waker = serase s.host.waker n
      ∧ (¬ (n = 0 ∨ n = 24) → Recorded s t n 0x15 n who 4 Status.ewake.code (wakeDetail who code) ∧ t.dp = s.dp ∧ t.boot = s.boot)
      ∧ (n = 0 ∨ n = 24 → t.safe = true) := by
  dsimp only
  obtain ⟨hwaker, hwaiting⟩ := wakeRecord_waits (s := s) (who := who) (domNo q) code
  have h := wakeEnds_fails (domNo_le q) hcode (hwaiting.trans hw)
  refine ⟨h.state, h.cause, h.wakestat, h.waker.trans (by rw [hwaker]), fun hc => ?_, fun hc => ?_⟩
  · rw [wakeRecord_contained hc] at h ⊢
    obtain ⟨hnew, hseq, hcount⟩ := faultWrite_recorded s (domNo q) 0x15 (domNo q) who 4 Status.ewake.code (wakeDetail who code)
    exact ⟨⟨by rw [h.flt]; exact hnew, (h.other _ (by decide)).trans hseq, (h.other _ (by decide)).trans hcount⟩,
      h.dp.trans (State.faultWrite_dp ..), h.boot.trans (State.faultWrite_boot ..)⟩
  · rw [wakeRecord_fatal hc] at h ⊢
    have hsafe := fatal_safe (s := s) (domNo q) 0x20 (domNo q) who 4 Status.ewake.code (wakeDetail who code)
    unfold State.safe State.flag at hsafe ⊢
    rw [h.other _ (by decide)]
    exact hsafe

end

/-- Settles O40: the ends of a wake, by what `WakeKeeps` of the domain's status as it is written first. -/
theorem domainsWakeOrFail : Obligations.DomainsWakeOrFail := by
  unfold Obligations.DomainsWakeOrFail
  intro s q cause who
  refine ⟨fun ⟨hstate, hwaker, hw⟩ hbad hsaved => ?_, fun ⟨hstate, hwaker, hw⟩ hbad => ?_, fun ⟨hstate, hwaker, hw⟩ hc => ?_,
    fun ⟨hstate, hwaker, hw⟩ hc => ?_, fun h => wake_idle (wakes_none h)⟩
  · obtain ⟨h1, h2, hwaits, hrest⟩ := woken_wakes (domNo_le q) hw hbad hsaved
    refine ⟨_, wakeComplete_wakes (wakes_some hstate hwaker) hbad, h1, h2, fun e he => ?_, hrest⟩
    exact absurd ((wakesOn_iff _ _).2 he) (by rw [hwaits e]; decide)
  · obtain ⟨h1, h2, h3, h4, -⟩ := badGroup_fails hbad hw
    exact ⟨_, wakeComplete_bad (wakes_some hstate hwaker) hbad, h1, h2, h3, h4⟩
  · have hcode : failCode cause < 8 := by cases cause <;> decide
    exact ⟨_, wakeFail_timeout (wakes_some hstate hwaker) hc, wakeRecord_fails hcode hw⟩
  · subst hc
    obtain ⟨h1, h2, h3, -, h5⟩ := badGroup_fails (s := s.markBad (domNo q)) List.mem_cons_self hw
    exact ⟨_, wakeFail_saved (wakes_some hstate hwaker), h1, h2, h3, h5⟩

end Sys2Proof.Machine

end

section

/-! The start-up phases (O33). A phase that ends writes BOOT_STATUS and at most a domain's status; only the firmware's and the
microcode's phases do more, and the safe state ends a fatal one. -/

namespace Sys2Proof.Machine

variable {s t u : State}

/-! The registers of the sequence. -/

/-- The registers that the sequence itself writes. -/
def bootRegs (o : Nat) : Prop := o = Reg.offset ⟨.BOOT_STATUS, 0, 0, 0⟩ ∨ o = Reg.offset ⟨.PLN_MBOX_CTRL, 0, 0, 0⟩

/-- The part, the clock, packets, trees and the plinth's processor are as they were. -/
structure BootKeeps (s t : State) : Prop where
  chip : t.chip = s.chip
  clk : t.clk = s.clk
  dp : t.dp = s.dp
  tree : t.tree = s.tree
  plinth : t.plinth = s.plinth

namespace BootKeeps

theorem refl (s : State) : BootKeeps s s := ⟨rfl, rfl, rfl, rfl, rfl⟩

theorem trans (h : BootKeeps s t) (k : BootKeeps t u) : BootKeeps s u :=
  ⟨k.chip.trans h.chip, k.clk.trans h.clk, k.dp.trans h.dp, k.tree.trans h.tree, k.plinth.trans h.plinth⟩

theorem of_regs (h : t = { s with regs := t.regs }) : BootKeeps s t := by
  rw [h]
  exact ⟨rfl, rfl, rfl, rfl, rfl⟩

theorem set (s : State) (f : Fld) (v i j k : Nat) : BootKeeps s (s.set f v i j k) := ⟨rfl, rfl, rfl, rfl, rfl⟩

theorem logRec (s : State) (type origin : Nat) (p q : Word) : BootKeeps s (s.logRec type origin p q) :=
  ⟨State.logRec_chip .., State.logRec_clk .., State.logRec_dp .., State.logRec_tree .., State.logRec_plinth ..⟩

end BootKeeps

/-- No domain's status is a register of the sequence. -/
theorem RegsBut.domainState_of_boot (h : RegsBut s t bootRegs) (hc : t.chip = s.chip) {n : Nat} (hn : n ≤ 25) :
    t.domainState n = s.domainState n := by
  refine (h.status hc fun hb => absurd (statusReg_range hn) ?_).1
  rcases hb with hb | hb <;> rw [hb] <;> decide

/-- With no Deep wake in progress and no reset, a phase runs where BOOT_STATUS says so. -/
theorem inPhase_eq (hpor : s.boot.porDone = true) (hrst : s.boot.inReset = false) (hdeep : s.pwr.deep = 0) (p : Nat) :
    s.inPhase p = decide (s.get F.BOOT_STATUS_PHASE = p) := by
  simp [State.inPhase, hpor, hrst, hdeep]

section
variable (hpor : s.boot.porDone = true) (hrst : s.boot.inReset = false) (hdeep : s.pwr.deep = 0) {p : Nat}
include hpor hrst hdeep

theorem inPhase_runs (h : s.get F.BOOT_STATUS_PHASE = p) : ¬ (!s.inPhase p) = true := by simp [inPhase_eq hpor hrst hdeep, h]

theorem inPhase_idle (h : s.get F.BOOT_STATUS_PHASE ≠ p) : (!s.inPhase p) = true := by simp [inPhase_eq hpor hrst hdeep, h]

end

/-! The status of a failed phase (R114). -/

/-- BOOT_STATUS changes, and nothing else but how many free values were drawn. -/
structure StatusStep (s t : State) : Prop where
  rest : t = { s with regs := t.regs, free := t.free }
  regs : RegsBut s t (fun o => o = Reg.offset ⟨.BOOT_STATUS, 0, 0, 0⟩)

namespace StatusStep

theorem refl (s : State) : StatusStep s s := ⟨rfl, .rfl⟩

theorem trans (h : StatusStep s t) (k : StatusStep t u) : StatusStep s u :=
  ⟨by rw [k.rest, h.rest], h.regs.trans k.regs⟩

theorem set (s : State) (f : Fld) (v : Nat) (hf : f.id = .BOOT_STATUS) : StatusStep s (s.set f v) :=
  ⟨rfl, RegsBut.set f v 0 0 0 (by rw [hf])⟩

theorem fresh (s : State) : StatusStep s s.fresh.2 := ⟨rfl, RegsBut.of_regs rfl⟩

theorem phaseStatus (s : State) (st : Nat) : StatusStep s (s.phaseStatus st) := by
  unfold State.phaseStatus
  split
  · exact set s _ _ rfl
  · exact refl s

theorem phaseOpen (s : State) : StatusStep s s.phaseOpen := (fresh s).trans (phaseStatus s.fresh.2 _)

theorem degrade (s : State) (st : Status) : StatusStep s (s.degrade st) := (phaseStatus s st.code).trans (set _ _ _ rfl)

theorem keeps (h : StatusStep s t) : BootKeeps s t := by
  rw [h.rest]
  exact ⟨rfl, rfl, rfl, rfl, rfl⟩

theorem entered (h : StatusStep s t) : t.pending = s.pending ∧ t.chip = s.chip ∧ t.tree = s.tree ∧ t.tim = s.tim ∧ t.clk = s.clk
    ∧ t.slots = s.slots := by
  rw [h.rest]
  exact ⟨rfl, rfl, rfl, rfl, rfl, rfl⟩

theorem bootRegs (h : StatusStep s t) : RegsBut s t bootRegs := h.regs.mono fun _ => Or.inl

theorem domainState (h : StatusStep s t) {n : Nat} (hn : n ≤ 25) : t.domainState n = s.domainState n :=
  h.bootRegs.domainState_of_boot h.keeps.chip hn

theorem safe (h : StatusStep s t) : t.safe = s.safe := h.regs.safe (fun o ho => ho ▸ by decide) h.keeps.chip

end StatusStep

/-- A field of BOOT_STATUS is as it was written where other fields are written after it. -/
theorem bootStatus_set_other (f g : Fld) (v : Nat) (hf : f.ok = true) (hg : g.id = f.id) (hd : g.hi < f.lo ∨ f.hi < g.lo) :
    (s.set f v).get g = s.get g := State.get_set_field _ _ _ _ _ _ _ hf hg hd

theorem degrade_degraded (st : Status) : (s.degrade st).get F.BOOT_STATUS_DEGRADED = 1 := State.get_set_same _ F.BOOT_STATUS_DEGRADED 1 0 0 0 rfl

/-- The registers of ports, rings and trees that entry to the safe state writes lie below the power block. -/
theorem safeWritten_below : (∀ l : Fin 40, Reg.offset ⟨.UPL_FC_STATUS, l, 0, 0⟩ < 0xD00000)
    ∧ (∀ r : Fin 16, Reg.offset ⟨.HCI_RING_STATUS, r, 0, 0⟩ < 0xD00000) ∧ ∀ k : Fin 64, Reg.offset ⟨.PON_TREE_STATUS, k, 0, 0⟩ < 0xD00000 := by
  decide

/-- Entry to the safe state leaves the power block alone. -/
theorem safeRegs_range {o : Nat} (h : safeRegs o) : o < 0xD00000 ∨ 0xE00000 ≤ o := by
  obtain ⟨hports, hrings, htrees⟩ := safeWritten_below
  rcases h with (h | h | ⟨l, hl, rfl⟩) | ⟨r, hr, rfl⟩ | ⟨k, hk, rfl⟩
  · exact .inl (Nat.lt_of_div_lt_div (c := 2 ^ 20) (Nat.lt_of_le_of_lt (Nat.le_of_eq h) (by decide)))
  · exact .inr ((Nat.le_div_iff_mul_le (k := 2 ^ 20) (by decide)).1 (Nat.le_of_eq h.symm))
  · exact .inl (hports ⟨l, hl⟩)
  · exact .inl (hrings ⟨r, hr⟩)
  · exact .inl (htrees ⟨k, hk⟩)

theorem statusReg_not_safe {n : Nat} (hn : n ≤ 25) : ¬ safeRegs (statusReg n).offset := fun h => by
  rcases statusReg_range hn with hr | ⟨hlow, hhigh⟩
  · exact absurd (safeRegs_range h) (by rw [hr]; decide)
  · exact (safeRegs_range h).elim (fun hs => absurd (Nat.le_trans (by decide) hlow) (Nat.not_le.2 hs))
      (fun hs => absurd (Nat.lt_of_lt_of_le hhigh (by decide)) (Nat.not_lt.2 hs))

/-- A fatal phase that fails: the safe state, PHASE FAILED, and every domain as it was (R111). -/
theorem phaseFatal_fails (source : Nat) (h : s.safe = false) : EntersSafe s (s.phaseFatal source)
    ∧ (s.phaseFatal source).get F.BOOT_STATUS_PHASE = 0xF ∧ ∀ n, n ≤ 25 → (s.phaseFatal source).domainState n = s.domainState n := by
  have hstep := (StatusStep.phaseOpen s).trans (.set _ F.BOOT_STATUS_PHASE 0xF rfl)
  have hphase : (s.phaseOpen.set F.BOOT_STATUS_PHASE 0xF).get F.BOOT_STATUS_PHASE = 0xF := State.get_set_same _ _ _ _ _ _ rfl
  unfold State.phaseFatal
  generalize s.phaseOpen.set F.BOOT_STATUS_PHASE 0xF = u at hstep hphase
  have hregs := fatal_regs u source 0x27 0 .device 0 0 0
  have hchip := fatal_chip u source 0x27 0 .device 0 0 0
  refine ⟨(fatal_enters u source 0x27 0 .device 0 0 0 (hstep.safe.trans h)).of_kept hstep.entered,
    (hregs.get hchip _ _ _ _ fun hs => absurd (safeRegs_range hs) (by decide)).trans hphase,
    fun n hn => (hregs.status hchip (statusReg_not_safe hn)).1.trans (hstep.domainState hn)⟩

/-- A domain's failure ends a fatal phase (R111, R118). -/
theorem failedPhase_fails {n : Nat} (source : Nat) (hn : n ≤ 25) (h : s.safe = false) :
    let t := (s.domainFailed n 2).phaseFatal source
    t.safe = true ∧ t.domainState n = domFAILED ∧ t.get F.BOOT_STATUS_PHASE = 0xF := by
  have hsafe : (s.domainFailed n 2).safe = s.safe :=
    (domainFailed_regs n 2).safe (fun o ho => ho ▸ statusReg_below hn) (by rw [domainFailed_only])
  obtain ⟨henters, hphase, hdom⟩ := phaseFatal_fails source (hsafe.trans h)
  exact ⟨henters.safe, (hdom n hn).trans (domainFailed_fields (by decide)).1, hphase⟩

/-! The end of the sequence, and the phase after the memories (R111). -/

/-- READY is set in phase DONE: bootDone before the plinth is told. -/
def State.readied (s : State) : State := (s.set F.BOOT_STATUS_PHASE 8).set F.BOOT_STATUS_READY 1

theorem readied_step : StatusStep s s.readied := (StatusStep.set s F.BOOT_STATUS_PHASE 8 rfl).trans (.set _ F.BOOT_STATUS_READY 1 rfl)

theorem readied_fields : s.readied.get F.BOOT_STATUS_PHASE = 8 ∧ s.readied.get F.BOOT_STATUS_READY = 1
    ∧ s.readied.get F.BOOT_STATUS_DEGRADED = s.get F.BOOT_STATUS_DEGRADED := by
  unfold State.readied
  refine ⟨?_, State.get_set_same _ _ _ _ _ _ rfl, ?_⟩
  · rw [bootStatus_set_other F.BOOT_STATUS_READY F.BOOT_STATUS_PHASE 1 rfl rfl (by decide), State.get_set_same _ _ _ _ _ _ rfl]
    rfl
  · rw [bootStatus_set_other F.BOOT_STATUS_READY F.BOOT_STATUS_DEGRADED 1 rfl rfl (by decide),
      bootStatus_set_other F.BOOT_STATUS_PHASE F.BOOT_STATUS_DEGRADED 8 rfl rfl (by decide)]

/-- The firmware is told that the device is ready. -/
def State.mboxReady (s : State) : State := if s.chip.plinth then s.set F.PLN_MBOX_CTRL_READY 1 else s

theorem mboxReady_keeps : BootKeeps s s.mboxReady ∧ RegsBut s s.mboxReady bootRegs
    ∧ ∀ f : Fld, f.id = .BOOT_STATUS → s.mboxReady.get f = s.get f := by
  unfold State.mboxReady
  split
  · exact ⟨.set .., RegsBut.set _ _ _ _ _ (.inr rfl), fun f hf => State.get_set_reg _ _ _ _ _ _ _ _ _ _ (by rw [hf]; decide)⟩
  · exact ⟨.refl s, .rfl, fun _ _ => rfl⟩

theorem bootDone_eq : s.bootDone = s.readied.mboxReady.logRec 0x008 0 (s.readied.mboxReady.pwrValue ⟨.BOOT_STATUS, 0, 0, 0⟩)
    (s.readied.mboxReady.rd .MCODE_VERSION) := (rfl)

/-- What the end of the sequence leaves (R111). -/
theorem bootDone_done : BootKeeps s s.bootDone ∧ RegsBut s s.bootDone bootRegs ∧ s.bootDone.get F.BOOT_STATUS_PHASE = 8
    ∧ s.bootDone.get F.BOOT_STATUS_READY = 1 ∧ s.bootDone.get F.BOOT_STATUS_DEGRADED = s.get F.BOOT_STATUS_DEGRADED := by
  obtain ⟨hkeeps, hregs, hget⟩ := mboxReady_keeps (s := s.readied)
  obtain ⟨hphase, hready, hdegraded⟩ := readied_fields (s := s)
  rw [bootDone_eq]
  refine ⟨(readied_step.keeps.trans hkeeps).trans (.logRec ..), RegsBut.trans (RegsBut.trans readied_step.bootRegs hregs) (RegsBut.of_regs (State.logRec_regs ..)), ?_, ?_, ?_⟩
  · rw [State.logRec_get, hget _ rfl, hphase]
  · rw [State.logRec_get, hget _ rfl, hready]
  · rw [State.logRec_get, hget _ rfl, hdegraded]

/-- The phase after the memories on a variant. -/
def Chip.afterMemory (c : Chip) : Nat := if c.plinth then 5 else 8

theorem afterMemory_goesOn : BootKeeps s s.afterMemory ∧ RegsBut s s.afterMemory bootRegs
    ∧ s.afterMemory.get F.BOOT_STATUS_PHASE = s.chip.afterMemory ∧ (s.chip.plinth = false → s.afterMemory.get F.BOOT_STATUS_READY = 1)
    ∧ s.afterMemory.get F.BOOT_STATUS_DEGRADED = s.get F.BOOT_STATUS_DEGRADED := by
  unfold State.afterMemory Chip.afterMemory
  by_cases hp : s.chip.plinth = true
  · simp only [if_pos hp]
    exact ⟨.set .., RegsBut.set _ _ _ _ _ (.inl rfl), State.get_set_same _ _ _ _ _ _ rfl, fun h => absurd hp (by simp [h]),
      bootStatus_set_other _ _ _ rfl rfl (by decide)⟩
  · simp only [if_neg hp]
    obtain ⟨hkeeps, hregs, hphase, hready, hdegraded⟩ := bootDone_done (s := s)
    exact ⟨hkeeps, hregs, hphase, fun _ => hready, hdegraded⟩

/-! The phases, where they run. -/

section
variable (hpor : s.boot.porDone = true) (hrst : s.boot.inReset = false) (hdeep : s.pwr.deep = 0)
include hpor hrst hdeep

theorem phaseFuses_idle {ok : Bool} (h : s.get F.BOOT_STATUS_PHASE ≠ 1) : exec (.phaseFuses ok) s = .next s := by
  have hx : exec (.phaseFuses ok) s = execPhaseFuses ok s := rfl
  exact hx.trans (if_pos (inPhase_idle hpor hrst hdeep h))

theorem phaseClocks_idle {ok : Bool} (h : s.get F.BOOT_STATUS_PHASE ≠ 2) : exec (.phaseClocks ok) s = .next s := by
  have hx : exec (.phaseClocks ok) s = execPhaseClocks ok s := rfl
  exact hx.trans (if_pos (inPhase_idle hpor hrst hdeep h))

theorem phaseSram_idle {ok : Bool} (h : s.get F.BOOT_STATUS_PHASE ≠ 3) : exec (.phaseSram ok) s = .next s := by
  have hx : exec (.phaseSram ok) s = execPhaseSram ok s := rfl
  exact hx.trans (if_pos (inPhase_idle hpor hrst hdeep h))

theorem phaseStackmem_idle {ok : Bool} (h : s.get F.BOOT_STATUS_PHASE ≠ 4) : exec (.phaseStackmem ok) s = .next s := by
  have hx : exec (.phaseStackmem ok) s = execPhaseStackmem ok s := rfl
  exact hx.trans (if_pos (inPhase_idle hpor hrst hdeep h))

theorem phaseFirmware_idle {src : Transfer} (h : s.get F.BOOT_STATUS_PHASE ≠ 5) :
    exec (.phaseFirmware src) s = .next s ∧ exec .bootImageTimeout s = .next s := by
  have hx : exec (.phaseFirmware src) s = execPhaseFirmware src s := rfl
  have hy : exec .bootImageTimeout s = execBootImageTimeout s := rfl
  exact ⟨hx.trans (if_pos (inPhase_idle hpor hrst hdeep h)), hy.trans (if_neg (by simp [inPhase_eq hpor hrst hdeep, h]))⟩

theorem phasePatch_idle {map cmd : Transfer} (h : s.get F.BOOT_STATUS_PHASE ≠ 7) : exec (.phasePatch map cmd) s = .next s := by
  have hx : exec (.phasePatch map cmd) s = execPhasePatch map cmd s := rfl
  exact hx.trans (if_pos (inPhase_idle hpor hrst hdeep h))

/-- FUSES. -/
theorem phaseFuses_runs (ok : Bool) (hphase : s.get F.BOOT_STATUS_PHASE = 1) :
    exec (.phaseFuses ok) s = .next (if ok then s.set F.BOOT_STATUS_PHASE 2 else s.phaseFatal 25) := by
  have hx : exec (.phaseFuses ok) s = execPhaseFuses ok s := rfl
  rw [hx]
  unfold execPhaseFuses
  rw [if_neg (inPhase_runs hpor hrst hdeep hphase)]
  cases ok <;> rfl

theorem phaseFuses_ends (ok : Bool) (hphase : s.get F.BOOT_STATUS_PHASE = 1) (hsafe : s.safe = false) :
    ∃ t, exec (.phaseFuses ok) s = .next t
      ∧ (ok = true → t = { s with regs := t.regs } ∧ t.get F.BOOT_STATUS_PHASE = 2 ∧ RegsBut s t (fun o => o = Reg.offset ⟨.BOOT_STATUS, 0, 0, 0⟩))
      ∧ (ok = false → EntersSafe s t ∧ t.get F.BOOT_STATUS_PHASE = 0xF) := by
  refine ⟨_, phaseFuses_runs hpor hrst hdeep ok hphase, fun h => ?_, fun h => ?_⟩
  · subst h
    exact ⟨only_regs_set (Eq.refl s) .., State.get_set_same _ _ _ _ _ _ rfl, RegsBut.set _ _ _ _ _ rfl⟩
  · subst h
    obtain ⟨henters, hfailed, -⟩ := phaseFatal_fails 25 hsafe
    exact ⟨henters, hfailed⟩

/-- Quoin 24 is READY and the next phase runs; then the clock does. -/
def State.clocked (s : State) : State := (s.setDomain 24 domREADY).set F.BOOT_STATUS_PHASE 3
def State.clockStarted (s : State) : State := { s.clocked with clk := { running := true, tb := 0 } }

omit hpor hrst hdeep in
theorem clockStarted_starts : s.clockStarted.domainState 24 = domREADY ∧ s.clockStarted.get F.BOOT_STATUS_PHASE = 3
    ∧ s.clockStarted = { s with regs := s.clockStarted.regs, clk := s.clockStarted.clk } := by
  have hready : (s.setDomain 24 domREADY).domainState 24 = domREADY :=
    (setDomain_domain s 24 domREADY 24 (by decide) (by decide) (by decide)).trans (if_pos rfl)
  have hclocked : s.clocked.domainState 24 = domREADY := ((StatusStep.set _ F.BOOT_STATUS_PHASE 3 rfl).domainState (by decide)).trans hready
  have hnext : s.clocked.get F.BOOT_STATUS_PHASE = 3 := State.get_set_same _ F.BOOT_STATUS_PHASE 3 0 0 0 rfl
  have honly : s.clocked = { s with regs := s.clocked.regs } := only_regs_set (setDomain_only ..) ..
  unfold State.clockStarted
  refine ⟨(domainState_same (by rfl) (by rfl) 24).trans hclocked, (get_same (by rfl) (by rfl) _ _ _ _).trans hnext, ?_⟩
  rw [honly]

/-- CLOCKS. -/
theorem phaseClocks_runs (hphase : s.get F.BOOT_STATUS_PHASE = 2) : exec (.phaseClocks true) s = .next s.clockStarted
    ∧ exec (.phaseClocks false) s = .next ((s.domainFailed 24 2).phaseFatal 24) := by
  have hx : ∀ ok, exec (.phaseClocks ok) s = execPhaseClocks ok s := fun _ => rfl
  rw [hx, hx]
  unfold execPhaseClocks
  have hin : ¬ (!s.inPhase 2) = true := inPhase_runs hpor hrst hdeep hphase
  rw [if_neg hin, if_pos rfl, if_neg hin, if_neg Bool.false_ne_true]
  dsimp only
  rw [if_neg (by rw [hdeep]; decide : ¬ s.pwr.deep = 3)]
  exact ⟨rfl, rfl⟩

theorem phaseClocks_ends (ok : Bool) (hphase : s.get F.BOOT_STATUS_PHASE = 2) (hsafe : s.safe = false) :
    ∃ t, exec (.phaseClocks ok) s = .next t
      ∧ (ok = true → t.clk = { running := true, tb := 0 } ∧ t.domainState 24 = domREADY ∧ t.get F.BOOT_STATUS_PHASE = 3
          ∧ t = { s with regs := t.regs, clk := t.clk })
      ∧ (ok = false → t.safe = true ∧ t.domainState 24 = domFAILED ∧ t.get F.BOOT_STATUS_PHASE = 0xF) := by
  obtain ⟨hstarts, hfails⟩ := phaseClocks_runs hpor hrst hdeep hphase
  cases ok with
  | true => exact ⟨_, hstarts, fun _ => ⟨rfl, clockStarted_starts⟩, nofun⟩
  | false => exact ⟨_, hfails, nofun, fun _ => failedPhase_fails 24 (by decide) hsafe⟩

/-- The mortar core and quoin 23 are READY, and the host reads the subsystem IDs. -/
def State.coreReady (s : State) : State := ((s.setDomain 0 domREADY).setDomain 23 domREADY).subsystem

omit hpor hrst hdeep in
theorem coreReady_keeps : BootKeeps s s.coreReady ∧ s.coreReady.pwr = s.pwr ∧ s.coreReady.domainState 0 = domREADY
    ∧ s.coreReady.domainState 23 = domREADY := by
  have hcore : ((s.setDomain 0 domREADY).setDomain 23 domREADY).domainState 0 = domREADY := by
    rw [setDomain_domain _ _ _ _ (by decide) (by decide) (by decide), if_neg (by decide),
      setDomain_domain _ _ _ _ (by decide) (by decide) (by decide), if_pos rfl]
  have hquoin : ((s.setDomain 0 domREADY).setDomain 23 domREADY).domainState 23 = domREADY := by
    rw [setDomain_domain _ _ _ _ (by decide) (by decide) (by decide), if_pos rfl]
  have honly : (s.setDomain 0 domREADY).setDomain 23 domREADY = { s with regs := ((s.setDomain 0 domREADY).setDomain 23 domREADY).regs } := by
    rw [setDomain_only (s.setDomain 0 domREADY), setDomain_only s]
  unfold State.coreReady
  generalize (s.setDomain 0 domREADY).setDomain 23 domREADY = u at hcore hquoin honly
  have hpwr : u.pwr = s.pwr := by rw [honly]
  have hhost : u.subsystem = { u with host := u.subsystem.host } := by
    unfold State.subsystem
    dsimp only
    split <;> rfl
  rw [hhost]
  exact ⟨(BootKeeps.of_regs honly).trans ⟨rfl, rfl, rfl, rfl, rfl⟩, hpwr, (domainState_same (by rfl) (by rfl) 0).trans hcore,
    (domainState_same (by rfl) (by rfl) 23).trans hquoin⟩

/-- The phase after SRAM. -/
def State.afterSram (s : State) : State := if s.chip.stackmem then s.set F.BOOT_STATUS_PHASE 4 else s.afterMemory

omit hpor hrst hdeep in
theorem afterSram_goesOn : BootKeeps s s.afterSram ∧ RegsBut s s.afterSram bootRegs
    ∧ s.afterSram.get F.BOOT_STATUS_PHASE = (if s.chip.stackmem then 4 else s.chip.afterMemory)
    ∧ (s.chip.stackmem = false → s.chip.plinth = false → s.afterSram.get F.BOOT_STATUS_READY = 1) := by
  unfold State.afterSram
  by_cases hm : s.chip.stackmem = true
  · simp only [if_pos hm]
    exact ⟨.set .., RegsBut.set _ _ _ _ _ (.inl rfl), State.get_set_same _ _ _ _ _ _ rfl, fun h => absurd hm (by simp [h])⟩
  · simp only [if_neg hm]
    obtain ⟨hkeeps, hregs, hnext, hready, -⟩ := afterMemory_goesOn (s := s)
    exact ⟨hkeeps, hregs, hnext, fun _ => hready⟩

/-- SRAM. -/
theorem phaseSram_runs (hphase : s.get F.BOOT_STATUS_PHASE = 3) : exec (.phaseSram true) s = .next s.coreReady.afterSram
    ∧ exec (.phaseSram false) s = .next ((s.domainFailed 0 2).phaseFatal 0) := by
  have hx : ∀ ok, exec (.phaseSram ok) s = execPhaseSram ok s := fun _ => rfl
  have hin : ¬ (!s.inPhase 3) = true := inPhase_runs hpor hrst hdeep hphase
  have hawake : ¬ s.coreReady.pwr.deep = 3 := by
    rw [(coreReady_keeps (s := s)).2.1, hdeep]
    decide
  unfold State.coreReady at hawake ⊢
  rw [hx, hx]
  unfold execPhaseSram
  rw [if_neg hin, if_pos rfl, if_neg hin, if_neg Bool.false_ne_true]
  dsimp only
  rw [if_neg hawake]
  exact ⟨rfl, rfl⟩

theorem phaseSram_ends (ok : Bool) (hphase : s.get F.BOOT_STATUS_PHASE = 3) (hsafe : s.safe = false) :
    ∃ t, exec (.phaseSram ok) s = .next t
      ∧ (ok = true → t.domainState 0 = domREADY ∧ t.domainState 23 = domREADY
          ∧ t.get F.BOOT_STATUS_PHASE = (if s.chip.stackmem then 4 else s.chip.afterMemory)
          ∧ (s.chip.stackmem = false → s.chip.plinth = false → t.get F.BOOT_STATUS_READY = 1) ∧ t.dp = s.dp ∧ t.tree = s.tree ∧ t.clk = s.clk)
      ∧ (ok = false → t.safe = true ∧ t.domainState 0 = domFAILED ∧ t.get F.BOOT_STATUS_PHASE = 0xF) := by
  obtain ⟨hready, hfails⟩ := phaseSram_runs hpor hrst hdeep hphase
  cases ok with
  | false => exact ⟨_, hfails, nofun, fun _ => failedPhase_fails 0 (by decide) hsafe⟩
  | true =>
    obtain ⟨hcore, -, h0, h23⟩ := coreReady_keeps (s := s)
    obtain ⟨hkeeps, hregs, hnext, hdone⟩ := afterSram_goesOn (s := s.coreReady)
    rw [hcore.chip] at hnext hdone
    have hall := hcore.trans hkeeps
    exact ⟨_, hready, fun _ => ⟨(hregs.domainState_of_boot hkeeps.chip (by decide)).trans h0,
      (hregs.domainState_of_boot hkeeps.chip (by decide)).trans h23, hnext, hdone, hall.dp, hall.tree, hall.clk⟩, nofun⟩

/-- Quoin 22 has failed, and the device is degraded. -/
def State.stackFailed (s : State) : State :=
  ((s.fresh.2.domainFailed 22 (1 + Config.freeNat s.free % 2)).phaseOpen).set F.BOOT_STATUS_DEGRADED 1

omit hpor hrst hdeep in
theorem openCause_lt (k : Nat) : 1 + k % 2 < 8 := Nat.lt_of_lt_of_le (Nat.add_lt_add_left (Nat.mod_lt k (by decide)) 1) (by decide)

omit hpor hrst hdeep in
theorem stackFailed_fails : BootKeeps s s.stackFailed ∧ s.stackFailed.domainState 22 = domFAILED ∧ s.stackFailed.get F.BOOT_STATUS_DEGRADED = 1 := by
  have hfailed := (domainFailed_fields (s := s.fresh.2) (n := 22) (cause := 1 + Config.freeNat s.free % 2) (openCause_lt _)).1
  have hkeeps := (StatusStep.fresh s).keeps.trans (.of_regs (domainFailed_only 22 (1 + Config.freeNat s.free % 2)))
  unfold State.stackFailed
  generalize s.fresh.2.domainFailed 22 (1 + Config.freeNat s.free % 2) = u at hfailed hkeeps
  have hstep := (StatusStep.phaseOpen u).trans (.set _ F.BOOT_STATUS_DEGRADED 1 rfl)
  exact ⟨hkeeps.trans hstep.keeps, (hstep.domainState (by decide)).trans hfailed, State.get_set_same _ F.BOOT_STATUS_DEGRADED 1 0 0 0 rfl⟩

/-- STACKMEM. -/
theorem phaseStackmem_runs (ok : Bool) (hphase : s.get F.BOOT_STATUS_PHASE = 4) : exec (.phaseStackmem ok) s
    = .next (if ok && s.domainState 22 ≠ domFAILED then (s.setDomain 22 domREADY).afterMemory else s.stackFailed.afterMemory) := by
  have hx : exec (.phaseStackmem ok) s = execPhaseStackmem ok s := rfl
  have hin : ¬ (!s.inPhase 4) = true := inPhase_runs hpor hrst hdeep hphase
  rw [hx]
  unfold execPhaseStackmem
  rw [if_neg hin]
  split
  · rfl
  · exact (rfl)

theorem phaseStackmem_ends (ok : Bool) (hphase : s.get F.BOOT_STATUS_PHASE = 4) :
    ∃ t, exec (.phaseStackmem ok) s = .next t ∧ t.get F.BOOT_STATUS_PHASE = s.chip.afterMemory ∧ t.dp = s.dp ∧ t.tree = s.tree
      ∧ (ok = true → s.domainState 22 ≠ domFAILED → t.domainState 22 = domREADY)
      ∧ (ok = false → t.domainState 22 = domFAILED ∧ t.get F.BOOT_STATUS_DEGRADED = 1) := by
  refine ⟨_, phaseStackmem_runs hpor hrst hdeep ok hphase, ?_⟩
  by_cases hgood : (ok && decide (s.domainState 22 ≠ domFAILED)) = true
  · rw [if_pos hgood]
    obtain ⟨hkeeps, hregs, hnext, -, -⟩ := afterMemory_goesOn (s := s.setDomain 22 domREADY)
    have hdomain := BootKeeps.of_regs (setDomain_only s 22 domREADY)
    have hready : (s.setDomain 22 domREADY).domainState 22 = domREADY :=
      (setDomain_domain s 22 domREADY 22 (by decide) (by decide) (by decide)).trans (if_pos rfl)
    rw [hdomain.chip] at hnext
    have hall := hdomain.trans hkeeps
    exact ⟨hnext, hall.dp, hall.tree, fun _ _ => (hregs.domainState_of_boot hkeeps.chip (by decide)).trans hready,
      fun h => absurd hgood (by simp [h])⟩
  · rw [if_neg hgood]
    obtain ⟨hkeeps, hregs, hnext, -, hdegraded⟩ := afterMemory_goesOn (s := s.stackFailed)
    obtain ⟨hstack, hfailed, hmark⟩ := stackFailed_fails (s := s)
    rw [hstack.chip] at hnext
    have hall := hstack.trans hkeeps
    exact ⟨hnext, hall.dp, hall.tree, fun h h22 => absurd (by simp [h, h22]) hgood,
      fun _ => ⟨(hregs.domainState_of_boot hkeeps.chip (by decide)).trans hfailed, hdegraded.trans hmark⟩⟩

/-- FIRMWARE from the host: the plinth waits for its image. -/
theorem phaseFirmware_waits {src : Transfer} (hphase : s.get F.BOOT_STATUS_PHASE = 5) (hsrc : s.bootSource = 1) :
    ∃ t, exec (.phaseFirmware src) s = .next t ∧ t.get F.BOOT_STATUS_PHASE = 6 ∧ t.get F.PLN_MBOX_CTRL_READY = 1 ∧ t = { s with regs := t.regs } := by
  have hx : exec (.phaseFirmware src) s = execPhaseFirmware src s := rfl
  have hrun : execPhaseFirmware src s = .next ((s.set F.BOOT_STATUS_PHASE 6).set F.PLN_MBOX_CTRL_READY 1) := by
    unfold execPhaseFirmware
    rw [if_neg (inPhase_runs hpor hrst hdeep hphase), if_pos hsrc]
  refine ⟨_, hx.trans hrun, ?_, State.get_set_same _ _ _ _ _ _ rfl, only_regs_set (only_regs_set (Eq.refl s) ..) ..⟩
  rw [State.get_set_reg _ F.PLN_MBOX_CTRL_READY F.BOOT_STATUS_PHASE _ _ _ _ _ _ _ (by decide), State.get_set_same _ _ _ _ _ _ rfl]
  rfl

/-- No image came over the management port in time (R112). -/
theorem bootImageTimeout_degrades (hphase : s.get F.BOOT_STATUS_PHASE = 5) (hsrc : s.bootSource = 2) :
    ∃ t, exec .bootImageTimeout s = .next t ∧ t.get F.BOOT_STATUS_PHASE = 7 ∧ t.get F.BOOT_STATUS_DEGRADED = 1
      ∧ (s.get F.BOOT_STATUS_STATUS = 0 → t.get F.BOOT_STATUS_STATUS = Status.etimeout.code) ∧ t = { s with regs := t.regs } := by
  have hx : exec .bootImageTimeout s = execBootImageTimeout s := rfl
  have hrun : execBootImageTimeout s = .next ((s.degrade .etimeout).set F.BOOT_STATUS_PHASE 7) :=
    if_pos (by simp [inPhase_eq hpor hrst hdeep, hphase, hsrc])
  refine ⟨_, hx.trans hrun, State.get_set_same _ _ _ _ _ _ rfl, ?_, fun hstat => ?_, only_regs_set (only_regs_set ?_ ..) ..⟩
  · rw [bootStatus_set_other F.BOOT_STATUS_PHASE F.BOOT_STATUS_DEGRADED 7 rfl rfl (by decide), degrade_degraded]
  · unfold State.degrade State.phaseStatus
    rw [bootStatus_set_other F.BOOT_STATUS_PHASE F.BOOT_STATUS_STATUS 7 rfl rfl (by decide),
      bootStatus_set_other F.BOOT_STATUS_DEGRADED F.BOOT_STATUS_STATUS 1 rfl rfl (by decide), if_pos hstat, State.get_set_same _ _ _ _ _ _ rfl]
    rfl
  · unfold State.phaseStatus
    split
    · exact only_regs_set (Eq.refl s) ..
    · rfl

end

/-! The plinth's image (R112, R529, R537). -/

section
variable {ws : List Word} {trial : Bool} {slot : Option (Fin 2)}

theorem storeRange_keepsPln (e : Eng) (a : Nat) (vs : List Word) : (s.storeRange e a vs).pln = s.pln := by
  induction vs generalizing s a with
  | nil => rfl
  | cons v vs ih =>
    rw [State.storeRange, ih, State.setMem_pln]

/-- An image is stored, and PLN_STATUS shows it: runPlinth before the plinth jumps. -/
def State.plinthLoaded (s : State) (ws : List Word) (trial : Bool) : State :=
  ((s.storeRange .plinth (piLoad ws) ((ws.drop 4).take (piWords ws))).set F.PLN_STATUS_STATE (if trial then 3 else 2)).set F.PLN_STATUS_FWVER (piVer ws)

theorem plinthLoaded_shows : (s.plinthLoaded ws trial).get F.PLN_STATUS_STATE = (if trial then 3 else 2)
    ∧ (s.plinthLoaded ws trial).get F.PLN_STATUS_FWVER = piVer ws ∧ (s.plinthLoaded ws trial).pln = s.pln := by
  have hver : piVer ws < 2 ^ 16 := Nat.mod_lt _ (by decide)
  unfold State.plinthLoaded
  refine ⟨?_, ?_, ?_⟩
  · rw [State.get_set_field _ F.PLN_STATUS_FWVER F.PLN_STATUS_STATE _ _ _ _ rfl rfl (by decide), State.get_set_same _ _ _ _ _ _ rfl]
    cases trial <;> rfl
  · rw [State.get_set_same _ _ _ _ _ _ rfl]
    exact Nat.mod_eq_of_lt hver
  · rw [State.set_pln, State.set_pln, storeRange_keepsPln]

theorem runPlinth_eq : s.runPlinth ws trial slot = { s.plinthLoaded ws trial with
    plinth := { (s.plinthLoaded ws trial).plinth with pc := piEntry ws }
    pln := { (s.plinthLoaded ws trial).pln with runSlot := slot } } := rfl

/-- An image runs, and the next phase with it. -/
theorem runPlinth_runs : let t := (s.runPlinth ws trial slot).set F.BOOT_STATUS_PHASE 7
    t.get F.BOOT_STATUS_PHASE = 7 ∧ t.plinth.pc = piEntry ws ∧ t.get F.PLN_STATUS_FWVER = piVer ws
      ∧ t.get F.PLN_STATUS_STATE = (if trial then 3 else 2) ∧ t.pln = { s.pln with runSlot := slot } := by
  obtain ⟨hstate, hver, hpln⟩ := plinthLoaded_shows (s := s) (ws := ws) (trial := trial)
  dsimp only
  refine ⟨State.get_set_same _ F.BOOT_STATUS_PHASE 7 0 0 0 rfl, ?_, ?_, ?_, ?_⟩
  · rw [State.set_plinth, runPlinth_eq]
  · rw [State.get_set_reg _ F.BOOT_STATUS_PHASE F.PLN_STATUS_FWVER _ _ _ _ _ _ _ (by decide), runPlinth_eq]
    exact (get_same (by rfl) (by rfl) _ _ _ _).trans hver
  · rw [State.get_set_reg _ F.BOOT_STATUS_PHASE F.PLN_STATUS_STATE _ _ _ _ _ _ _ (by decide), runPlinth_eq]
    exact (get_same (by rfl) (by rfl) _ _ _ _).trans hstate
  · rw [State.set_pln, runPlinth_eq]
    dsimp only
    rw [hpln]

/-- A new directory is the one in force (R534). -/
theorem putDir_dir (p : Pln) (active : Fin 2) (trial : Option (Fin 2)) :
    (p.putDir active trial).dir = { seq := p.dir.seq + 1, active, trial, valid := true } := by
  unfold Pln.putDir
  dsimp only
  split
  · next h =>
    have hforce : p.dir = p.dirA := if_pos h
    exact (if_neg (by simp [hforce])).trans (if_pos rfl)
  · next h =>
    have hforce : p.dirB.valid = true → p.dir = p.dirB := fun hb => (if_neg h).trans (if_pos hb)
    refine if_pos ?_
    cases hb : p.dirB.valid with
    | false => rfl
    | true => simp [hforce hb]

theorem endTrial_ends : s.endTrial.pln.dir.trial = none := by
  unfold State.endTrial
  rw [putDir_dir]

theorem logUpdate_keepsDir (origin fwver : Nat) : (s.logUpdate origin fwver).pln.dir = s.pln.dir ∧ (s.logUpdate origin fwver).regs = s.regs
    ∧ (s.logUpdate origin fwver).plinth = s.plinth ∧ (s.logUpdate origin fwver).chip = s.chip := by
  unfold State.logUpdate
  obtain ⟨-, ha, hb⟩ := State.logRec_keepsFlash s.fresh.2 0x009 origin (Config.freeWord s.free) (BitVec.ofNat 36 fwver)
  refine ⟨?_, State.logRec_regs .., State.logRec_plinth .., State.logRec_chip ..⟩
  show (s.fresh.2.logRec 0x009 origin (Config.freeWord s.free) (BitVec.ofNat 36 fwver)).pln.dir = s.pln.dir
  unfold Pln.dir
  rw [ha, hb]
  exact (rfl)

end

/-- The plinth waits for its image from the host. -/
def FirmwareAwaited (s t : State) : Prop :=
  t.get F.BOOT_STATUS_PHASE = 6 ∧ t.get F.PLN_MBOX_CTRL_READY = 1 ∧ t = { s with regs := t.regs }

/-- The image given runs, or the plinth keeps its ROM and the device is degraded. -/
def FirmwareBooted (s : State) (img : Status × List Word) (t : State) : Prop :=
  t.get F.BOOT_STATUS_PHASE = 7
    ∧ (img.1 = .ok → t.plinth.pc = piEntry img.2 ∧ t.get F.PLN_STATUS_FWVER = piVer img.2 ∧ t.get F.PLN_STATUS_STATE = 2)
    ∧ (¬ img.1 = .ok → t.get F.BOOT_STATUS_DEGRADED = 1 ∧ t.plinth = s.plinth)

/-- The trial slot is given up, and its image runs, or the phase goes on. -/
def FirmwareTried (s : State) (img : Status × List Word) (k : Fin 2) (t : State) : Prop :=
  t.pln.dir.trial = none
    ∧ (img.1 = .ok → t.get F.BOOT_STATUS_PHASE = 7 ∧ t.pln.runSlot = some k ∧ t.get F.PLN_STATUS_STATE = 3)
    ∧ (¬ img.1 = .ok → t.get F.BOOT_STATUS_PHASE = 5 ∧ t.plinth = s.plinth)

/-- What becomes of an image where no trial slot goes first. -/
def State.bootImage (s : State) (img : Status × List Word) : State :=
  if img.1 = .ok then (s.runPlinth img.2 false (if s.bootSource = 0 then some s.pln.dir.active else none)).set F.BOOT_STATUS_PHASE 7
  else (s.degrade img.1).set F.BOOT_STATUS_PHASE 7

theorem bootImage_boots (img : Status × List Word) : FirmwareBooted s img (s.bootImage img) := by
  unfold State.bootImage FirmwareBooted
  by_cases hgood : img.1 = .ok
  · rw [if_pos hgood]
    obtain ⟨hnext, hpc, hver, hstate, -⟩ := runPlinth_runs (s := s) (ws := img.2) (trial := false)
      (slot := if s.bootSource = 0 then some s.pln.dir.active else none)
    exact ⟨hnext, fun _ => ⟨hpc, hver, hstate⟩, fun h => absurd hgood h⟩
  · rw [if_neg hgood]
    refine ⟨State.get_set_same _ _ _ _ _ _ rfl, fun h => absurd h hgood, fun _ => ⟨?_, ?_⟩⟩
    · rw [bootStatus_set_other F.BOOT_STATUS_PHASE F.BOOT_STATUS_DEGRADED 7 rfl rfl (by decide), degrade_degraded]
    · rw [State.set_plinth, (StatusStep.degrade s _).keeps.plinth]

/-- What becomes of the trial slot's image. -/
def State.tryImage (s : State) (img : Status × List Word) (k : Fin 2) : State :=
  if img.1 = .ok then (s.endTrial.runPlinth img.2 true (some k)).set F.BOOT_STATUS_PHASE 7 else s.endTrial.logUpdate 0 0

theorem tryImage_tries (img : Status × List Word) (k : Fin 2) (hphase : s.get F.BOOT_STATUS_PHASE = 5) : FirmwareTried s img k (s.tryImage img k) := by
  unfold State.tryImage FirmwareTried
  by_cases hgood : img.1 = .ok
  · rw [if_pos hgood]
    obtain ⟨hnext, -, -, hstate, hpln⟩ := runPlinth_runs (s := s.endTrial) (ws := img.2) (trial := true) (slot := some k)
    rw [hpln]
    exact ⟨endTrial_ends, fun _ => ⟨hnext, rfl, hstate⟩, fun h => absurd hgood h⟩
  · rw [if_neg hgood]
    obtain ⟨hdir, hregs, hplinth, hchip⟩ := logUpdate_keepsDir (s := s.endTrial) 0 0
    rw [hdir]
    exact ⟨endTrial_ends, fun h => absurd h hgood, fun _ => ⟨(get_same (s := s) hregs hchip _ _ _ _).trans hphase, hplinth⟩⟩

section
variable (hpor : s.boot.porDone = true) (hrst : s.boot.inReset = false) (hdeep : s.pwr.deep = 0)
include hpor hrst hdeep

/-- FIRMWARE from a source other than the host. -/
theorem phaseFirmware_runs {src : Transfer} (hphase : s.get F.BOOT_STATUS_PHASE = 5) (hsrc : s.bootSource ≠ 1) :
    ((s.bootSource = 0 → s.pln.dir.trial = none) → exec (.phaseFirmware src) s = .next (s.bootImage (s.firmware src)))
      ∧ ∀ k, s.bootSource = 0 → s.pln.dir.trial = some k → exec (.phaseFirmware src) s = .next (s.tryImage (s.firmware src) k) := by
  have hx : exec (.phaseFirmware src) s = execPhaseFirmware src s := rfl
  rw [hx]
  unfold execPhaseFirmware State.bootImage State.tryImage
  rw [if_neg (inPhase_runs hpor hrst hdeep hphase), if_neg hsrc]
  dsimp only
  refine ⟨fun hnone => ?_, fun k hflash hk => ?_⟩
  · split
    · next h0 hk => cases (hnone h0).symm.trans hk
    · split <;> rfl
  · split
    · next j _ hj =>
      cases hk.symm.trans hj
      split <;> rfl
    · next hno => exact (hno k hflash hk).elim

/-- FIRMWARE. -/
theorem phaseFirmware_ends {src : Transfer} (hphase : s.get F.BOOT_STATUS_PHASE = 5) : ∃ t, exec (.phaseFirmware src) s = .next t
    ∧ (s.bootSource = 1 → FirmwareAwaited s t)
    ∧ (s.bootSource ≠ 1 → (s.bootSource = 0 → s.pln.dir.trial = none) → FirmwareBooted s (s.firmware src) t)
    ∧ (∀ k, s.bootSource = 0 → s.pln.dir.trial = some k → FirmwareTried s (s.firmware src) k t) := by
  by_cases hhost : s.bootSource = 1
  · obtain ⟨t, ht, hwaits⟩ := phaseFirmware_waits hpor hrst hdeep (src := src) hphase hhost
    exact ⟨t, ht, fun _ => hwaits, fun h => absurd hhost h, fun _ h => absurd (hhost.symm.trans h) (by decide)⟩
  obtain ⟨hboots, htries⟩ := phaseFirmware_runs hpor hrst hdeep (src := src) hphase hhost
  by_cases htrial : s.bootSource = 0 → s.pln.dir.trial = none
  · exact ⟨_, hboots htrial, fun h => absurd h hhost, fun _ _ => bootImage_boots _,
      fun k hsrc hk => nomatch (htrial hsrc).symm.trans hk⟩
  · obtain ⟨hsrc, hsome⟩ := Classical.not_imp.1 htrial
    obtain ⟨k, hk⟩ := Option.ne_none_iff_exists'.1 hsome
    refine ⟨_, htries k hsrc hk, fun h => absurd h hhost, fun _ h => absurd h htrial, fun j _ hj => ?_⟩
    cases hj.symm.trans hk
    exact tryImage_tries _ _ hphase

end

/-! The microcode (R111, R113, R233). -/

/-- Packets and trees are as they were. -/
def CoreSame (s t : State) : Prop := t.dp = s.dp ∧ t.tree = s.tree

theorem CoreSame.trans (h : CoreSame s t) (k : CoreSame t u) : CoreSame s u := ⟨k.1.trans h.1, k.2.trans h.2⟩

theorem CoreSame.foldl {f : State → Nat → State} (hf : ∀ s n, CoreSame s (f s n)) (l : List Nat) : CoreSame s (l.foldl f s) := by
  induction l generalizing s with
  | nil => exact ⟨rfl, rfl⟩
  | cons n l ih => exact (hf s n).trans ih

theorem install_core (p : Patch) (s : State) (n : Nat) : CoreSame s (State.install p s n) := by
  unfold State.install CoreSame
  rw [State.set_dp, State.set_dp, State.setEng_dp, State.set_tree, State.set_tree, State.setEng_tree]
  exact ⟨rfl, rfl⟩

theorem refusePatch_core (s : State) (n : Nat) : CoreSame s (s.refusePatch n) := by
  unfold State.refusePatch
  split
  · exact ⟨rfl, rfl⟩
  · exact ⟨State.set_dp .., State.set_tree ..⟩

theorem degrade_core (s : State) (st : Status) : CoreSame s (s.degrade st) :=
  ⟨(StatusStep.degrade s st).keeps.dp, (StatusStep.degrade s st).keeps.tree⟩

theorem bootPatch_core (img : Except Status (List Word)) (targets : List Nat) : CoreSame s (s.bootPatch img targets) := by
  unfold State.bootPatch
  split
  · exact degrade_core ..
  · split
    · exact CoreSame.foldl (install_core _) _
    · exact (CoreSame.foldl refusePatch_core _).trans (degrade_core ..)
    · exact degrade_core ..

theorem phasePatch_ends {map cmd : Transfer} (hpor : s.boot.porDone = true) (hrst : s.boot.inReset = false) (hdeep : s.pwr.deep = 0)
    (hphase : s.get F.BOOT_STATUS_PHASE = 7) : ∃ t, exec (.phasePatch map cmd) s = .next t ∧ t.get F.BOOT_STATUS_PHASE = 8
      ∧ t.get F.BOOT_STATUS_READY = 1 ∧ t.dp = s.dp ∧ t.tree = s.tree := by
  have hx : exec (.phasePatch map cmd) s = execPhasePatch map cmd s := rfl
  have hrun := hx.trans (if_neg (inPhase_runs hpor hrst hdeep hphase))
  have hmaps := bootPatch_core (s := s) (s.microcode map (s.chip.romver 0)) (s.chip.patchTargets 127)
  dsimp only at hrun
  generalize s.bootPatch (s.microcode map (s.chip.romver 0)) (s.chip.patchTargets 127) = u at hrun hmaps
  obtain ⟨hdp, htree⟩ := hmaps.trans (bootPatch_core (u.microcode cmd (u.chip.romver 64)) [64, 65])
  obtain ⟨hkeeps, -, hdone, hready, -⟩ := bootDone_done (s := u.bootPatch (u.microcode cmd (u.chip.romver 64)) [64, 65])
  exact ⟨_, hrun, hdone, hready, hkeeps.dp.trans hdp, hkeeps.tree.trans htree⟩

/-- Settles O33: each phase where it runs, and where it does not. -/
theorem startUpPhases : Obligations.StartUpPhases := by
  unfold Obligations.StartUpPhases
  intro s ok src map cmd hpor hrst hdeep hsafe
  exact ⟨fun h => phaseFuses_ends hpor hrst hdeep ok h hsafe, fun h => phaseClocks_ends hpor hrst hdeep ok h hsafe,
    fun h => phaseSram_ends hpor hrst hdeep ok h hsafe, fun h => phaseStackmem_ends hpor hrst hdeep ok h,
    fun h => phaseFirmware_ends hpor hrst hdeep h,
    fun h hsrc => bootImageTimeout_degrades hpor hrst hdeep h hsrc, fun h => phasePatch_ends hpor hrst hdeep h,
    fun h => phaseFuses_idle hpor hrst hdeep h, fun h => phaseClocks_idle hpor hrst hdeep h, fun h => phaseSram_idle hpor hrst hdeep h,
    fun h => phaseStackmem_idle hpor hrst hdeep h, fun h => phaseFirmware_idle hpor hrst hdeep h, fun h => phasePatch_idle hpor hrst hdeep h⟩

end Sys2Proof.Machine

end

section

/-! Table operations at their issue (O16): the checks every operation passes, and the operation that is then outstanding. -/

namespace Sys2Proof.Machine

variable {s : State} {e : Eng} {k : TKind} {tid n i : Nat}

/-! The checks of every table operation (R172, R191). -/

theorem tabChecks_byIndex (hunit : s.chip.tabAbsent tid = false) (hop : tabOp tid k = true) (hn : n = tabN tid)
    (hentry : s.chip.entryAbsent tid i = false) (hindex : tabIndex tid i = true) (go : Res) : s.tabChecks k tid n i true go = go := by
  simp [State.tabChecks, hunit, hop, hn, hentry, hindex]

theorem tabChecks_byKey (hunit : s.chip.tabAbsent tid = false) (hop : tabOp tid k = true) (hn : n = tabN tid) (go : Res) :
    s.tabChecks k tid n i false go = go := by
  simp [State.tabChecks, hunit, hop, hn]

theorem tabChecks_absent (hunit : s.chip.tabAbsent tid = true) (byIndex : Bool) (go : Res) :
    s.tabChecks k tid n i byIndex go = .fail .eabsent s := by
  simp [State.tabChecks, hunit]

theorem tabChecks_outOfRange {byIndex : Bool} (hunit : s.chip.tabAbsent tid = false)
    (hentry : byIndex = true → s.chip.entryAbsent tid i = false)
    (h : tabOp tid k = false ∨ n ≠ tabN tid ∨ byIndex = true ∧ tabIndex tid i = false) (go : Res) :
    s.tabChecks k tid n i byIndex go = .fail .erange s := by
  have hpresent : (s.chip.tabAbsent tid || (byIndex && tabOp tid k && s.chip.entryAbsent tid i)) = false := by
    cases byIndex <;> simp_all
  have hrange : (!tabOp tid k || n ≠ tabN tid || (byIndex && !tabIndex tid i)) = true := by
    rcases h with h | h | ⟨hby, h⟩ <;> simp [*]
  unfold State.tabChecks
  rw [hpresent, hrange]
  rfl

/-! The issue (R156, R178). -/

/-- The engine with one more operation outstanding. -/
def State.issued (s : State) (e : Eng) (o : TabOp) : State := s.setEng e { s.eng e with ops := (s.eng e).ops ++ [o] }

theorem issueOp_issues (h : s.atBound e = false) (image : List Word) (d : RegNo) (dst len : Nat) :
    s.issueOp e k tid i image d dst len = .ok (s.issued e ⟨k, (s.eng e).pc, tid, i, image, d, dst, len, s.tagOf e tid⟩) := by
  unfold State.issueOp
  rw [h]
  rfl

theorem issueOp_waits (h : s.atBound e = true) (image : List Word) (d : RegNo) (dst len : Nat) :
    s.issueOp e k tid i image d dst len = .wait s := if_pos h

/-- Only three tables hold a generation tag (R372). -/
theorem markOf_isNone : (markOf tid).isNone = true ↔ tid ≠ 0x10 ∧ tid ≠ 0x20 ∧ tid ≠ 0x21 := by
  unfold markOf
  split
  · simp_all
  · split
    · simp_all
    · split <;> simp_all

/-- TGEN's operands are in range: a tagged table, and a tag of 16 bits (R192, R372). -/
theorem tgen_range (v : Nat) :
    ((markOf tid).isNone || decide (2 ^ 16 ≤ v)) = true ↔ (tid ≠ 0x10 ∧ tid ≠ 0x20 ∧ tid ≠ 0x21) ∨ 2 ^ 16 ≤ v := by
  rw [Bool.or_eq_true, markOf_isNone, decide_eq_true_iff]

/-- Settles O16: each operation passes the checks of all, finds its words, and is issued or waits at the bound. -/
theorem tableOperationsIssue : Obligations.TableOperationsIssue := by
  unfold Obligations.TableOperationsIssue
  intro e f tid n b a words source dest good entry issue tag
  refine ⟨does_of (fun _ => rfl) ?twrite, does_of (fun _ => rfl) ?tread, does_of (fun _ => rfl) ?tinsert, does_of (fun _ => rfl) ?tdelete,
    does_of (fun _ => rfl) ?tlookup, does_of (fun _ => rfl) ?tgen, fun s htakes => ?bound, failsIf (fun _ => rfl) ?twriteAbsent,
    failsIf (fun _ => rfl) ?treadAbsent, failsIf (fun _ => rfl) ?tlookupRange, failsIf (fun _ => rfl) ?twriteRange,
    failsIf (fun _ => rfl) ?tgenRange⟩
  case twrite =>
    rintro s ⟨⟨hunit, hop, hn⟩, ⟨hentry, hindex⟩, ⟨hin, hpending, hgood⟩, himage, hbound⟩
    rw [tabChecks_byIndex hunit hop hn hentry hindex, image_ok hin hpending hgood, himage]
    exact issueOp_issues hbound ..
  case tread =>
    rintro s ⟨⟨hunit, hop, hn⟩, ⟨hentry, hindex⟩, ⟨hstorable, hpending⟩, hbound⟩
    rw [tabChecks_byIndex hunit hop hn hentry hindex, dest_ok hstorable hpending]
    exact issueOp_issues hbound ..
  case tinsert =>
    rintro s ⟨⟨hunit, hop, hn⟩, ⟨hin, hpending, hgood⟩, himage, hbound⟩
    rw [tabChecks_byKey hunit hop hn, image_ok hin hpending hgood, himage]
    exact issueOp_issues hbound ..
  case tdelete =>
    rintro s ⟨⟨hunit, hop, hn⟩, ⟨hin, hpending, hgood⟩, hbound⟩
    rw [tabChecks_byKey hunit hop hn, image_ok hin hpending hgood]
    exact issueOp_issues hbound ..
  case tlookup =>
    rintro s ⟨⟨hunit, hop, hn⟩, ⟨hstorable, -⟩, ⟨hin, hpending, hgood⟩, hbound⟩
    rw [tabChecks_byKey hunit hop hn, dest_ok hstorable hpending, image_ok hin hpending hgood]
    exact issueOp_issues hbound ..
  case tgen =>
    rintro s ⟨hunit, htag, ha⟩
    have hrange : ¬ ((markOf tid).isNone || decide (2 ^ 16 ≤ a s)) = true := by rw [tgen_range]; omega
    exact (if_neg (Bool.eq_false_iff.1 hunit)).trans (if_neg hrange)
  case bound =>
    rintro ⟨hunit, hop, hn⟩ ⟨hentry, hindex⟩ ⟨hin, hpending, hgood⟩ himage hbound
    refine instr_wait htakes ?_
    rw [tabChecks_byIndex hunit hop hn hentry hindex, image_ok hin hpending hgood, himage]
    exact issueOp_waits hbound ..
  case twriteAbsent => exact fun s hunit => tabChecks_absent hunit ..
  case treadAbsent => exact fun s hunit => tabChecks_absent hunit ..
  case tlookupRange =>
    rintro s ⟨hunit, h⟩
    exact tabChecks_outOfRange hunit (fun h => absurd h Bool.false_ne_true) (h.imp_right .inl) _
  case twriteRange =>
    rintro s ⟨hunit, hentry, h⟩
    exact tabChecks_outOfRange hunit (fun _ => hentry) (h.imp_right (.imp_right fun hindex => ⟨rfl, hindex⟩)) _
  case tgenRange =>
    rintro s ⟨hunit, h⟩
    exact (if_neg (Bool.eq_false_iff.1 hunit)).trans (if_pos ((tgen_range _).2 h))

end Sys2Proof.Machine

end

section

/-! Fragments (O30). What a completion sends comes from `complete_sends`, and what it leaves from `complete_only`; a descriptor that is
taken moves HEAD alone, and every other field of the fragment's end or start is read from the state it is written to. -/

namespace Sys2Proof.Machine

variable {s t u : State} {c : Fin 2} {r : Fin 16} {d : Desc} {desc frag : List (BitVec 64)} {err : HostErr}

/-! Signals (R132, R133, R159, R160). -/

/-- t is s but for the host's side and what is sent: it may write host memory as s may, and its rings hold what they held but for the
completions counted. -/
structure SignalsOnly (s t : State) : Prop where
  rest : t = { s with host := t.host, outs := t.outs }
  canWrite : t.canWrite = s.canWrite
  rings : ∀ k, { t.ring k with counted := (s.ring k).counted } = s.ring k

/-- t has sent ws, in order, and then at most n outputs more. -/
def Sends (s t : State) (ws : List Out) (n : Nat) : Prop := ∃ more, t.outs = s.outs ++ ws ++ more ∧ more.length ≤ n

theorem SignalsOnly.refl (s : State) : SignalsOnly s s := ⟨rfl, rfl, fun _ => rfl⟩

theorem SignalsOnly.outs (s : State) (l : List Out) : SignalsOnly s { s with outs := l } := ⟨rfl, rfl, fun _ => rfl⟩

theorem SignalsOnly.trans (h : SignalsOnly s t) (k : SignalsOnly t u) : SignalsOnly s u where
  rest := by rw [k.rest, h.rest]
  canWrite := k.canWrite.trans h.canWrite
  rings i := by rw [← h.rings i, ← k.rings i]

theorem SignalsOnly.regs (h : SignalsOnly s t) : t.regs = s.regs := by rw [h.rest]

theorem SignalsOnly.get (h : SignalsOnly s t) (f : Fld) (i j k : Nat) : t.get f i j k = s.get f i j k :=
  get_same h.regs (by rw [h.rest]) ..

theorem SignalsOnly.heldEnable (h : SignalsOnly s t) (k : Nat) : (t.ring k).heldEnable = (s.ring k).heldEnable := by
  rw [← h.rings k]

/-- Only registers, the host's side and what is sent differ. -/
def HostSide (s t : State) : Prop := t = { s with regs := t.regs, host := t.host, outs := t.outs }

theorem HostSide.trans (h : HostSide s t) (k : HostSide t u) : HostSide s u := by
  unfold HostSide at h k ⊢
  rw [k, h]

theorem HostSide.set (s : State) (f : Fld) (v i : Nat) : HostSide s (s.set f v i) := rfl

theorem SignalsOnly.hostSide (h : SignalsOnly s t) : HostSide s t := by
  unfold HostSide
  rw [h.rest]

theorem Sends.trans {ws : List Out} {m n : Nat} (h : Sends s t ws m) (k : Sends t u [] n) : Sends s u ws (m + n) := by
  obtain ⟨ms, hm, hml⟩ := h
  obtain ⟨ns, hn, hnl⟩ := k
  exact ⟨ms ++ ns, by rw [hn, hm]; simp, by rw [List.length_append]; omega⟩

theorem Sends.none (h : t.outs = s.outs) (n : Nat) : Sends s t [] n := ⟨[], by rw [h]; simp, Nat.zero_le n⟩

theorem Sends.mono {ws : List Out} {m n : Nat} (h : Sends s t ws m) (hmn : m ≤ n) : Sends s t ws n := by
  obtain ⟨ms, hm, hml⟩ := h
  exact ⟨ms, hm, hml.trans hmn⟩

theorem Sends.of_outs {ws : List Out} {n : Nat} (h : Sends s t ws n) (ho : u.outs = t.outs) : Sends s u ws n := by
  obtain ⟨more, hmore, hlen⟩ := h
  exact ⟨more, ho.trans hmore, hlen⟩

theorem canWrite_set (s : State) (f : Fld) (v i j k : Nat) : (s.set f v i j k).canWrite = s.canWrite := by
  unfold State.canWrite
  rw [State.set_host]

theorem post_emits (h : s.canWrite = true) (o : Out) : s.post o = s.emit o := if_pos h

theorem SignalsOnly.signal (s : State) (n : Nat) : SignalsOnly s (s.signal n) := by
  unfold State.signal State.signalVector State.post
  split
  · split
    · exact ⟨rfl, rfl, fun _ => rfl⟩
    · split <;> exact ⟨rfl, rfl, fun _ => rfl⟩
  · exact .refl s

theorem signal_sends (h : s.canWrite = true) (n : Nat) : Sends s (s.signal n) [] 1 := by
  unfold State.signal State.signalVector
  rw [post_emits h]
  split
  · split
    · exact .none rfl 1
    · exact ⟨[.msix (s.get F.HCI_INT_MAP_VECTOR n)], by simp [State.emit], Nat.le_refl 1⟩
  · exact .none rfl 1

/-- An enabled, unmasked vector is sent. -/
theorem signal_vector {n : Nat} (h : s.canWrite = true) (hen : s.flag F.HCI_INT_MAP_EN n = true)
    (hmask : (s.msixField (4 * s.get F.HCI_INT_MAP_VECTOR n + 3)).toNat % 2 = 0) :
    (s.signal n).outs = s.outs ++ [.msix (s.get F.HCI_INT_MAP_VECTOR n)] := by
  unfold State.signal State.signalVector
  rw [if_pos hen, if_neg (by omega), post_emits h]
  rfl

/-- A ring's count changes. -/
theorem SignalsOnly.recount (s : State) (i : Nat) (n : RingSt → Nat) : SignalsOnly s (s.modRing i fun x => { x with counted := n x }) where
  rest := by rw [State.modRing_eq]
  canWrite := by rw [State.modRing_eq]; rfl
  rings k := by rw [State.modRing_ring]; split <;> rfl

theorem modRing_outs (s : State) (i : Nat) (f : RingSt → RingSt) : (s.modRing i f).outs = s.outs := by rw [State.modRing_eq]

theorem SignalsOnly.ringSignal (s : State) (i : Nat) : SignalsOnly s (s.ringSignal i) := by
  unfold State.ringSignal
  exact (SignalsOnly.recount s i fun _ => 0).trans (.signal ..)

theorem ringSignal_sends (h : s.canWrite = true) (i : Nat) : Sends s (s.ringSignal i) [] 1 := by
  unfold State.ringSignal
  exact (Sends.none (modRing_outs ..) 0).trans (signal_sends ((SignalsOnly.recount s i fun _ => 0).canWrite.trans h) i)

theorem SignalsOnly.ringCount (s : State) (i : Nat) (st : Status) (noint : Bool) : SignalsOnly s (s.ringCount i st noint) := by
  have hm := SignalsOnly.recount s i fun x => x.counted + 1
  unfold State.ringCount
  split
  · exact .ringSignal ..
  · split
    · exact .refl s
    · dsimp only
      split
      · exact hm.trans (.ringSignal ..)
      · exact hm

theorem ringCount_sends (h : s.canWrite = true) (i : Nat) (st : Status) (noint : Bool) : Sends s (s.ringCount i st noint) [] 1 := by
  have hm := SignalsOnly.recount s i fun x => x.counted + 1
  unfold State.ringCount
  split
  · exact ringSignal_sends h i
  · split
    · exact .none rfl 1
    · dsimp only
      split
      · exact (Sends.none (modRing_outs ..) 0).trans (ringSignal_sends (hm.canWrite.trans h) i)
      · exact .none (modRing_outs ..) 1

/-! The completion entry (R136). -/

/-- The writes of a completion entry: slot 1, then slot 0. -/
def State.entryWrites (s : State) (i counter : Nat) (c : Fin 2) (st : Status) (index last results : Nat) : List Out :=
  [.hostWrite (BitVec.ofNat 64 (s.cplBase i + 16 * (counter % s.ringEntries i) + 8)) (hostSlot (cplSlot1 last results)),
    .hostWrite (BitVec.ofNat 64 (s.cplBase i + 16 * (counter % s.ringEntries i))) (hostSlot (cplSlot0 (s.ringEntries i) counter c st index))]

section
variable (h : s.canWrite = true) (i counter : Nat) (c : Fin 2) (st : Status) (index last results : Nat) (noint : Bool)
include h

theorem complete_eq : s.complete i counter c st index last results noint = { s with
    outs := s.outs ++ s.entryWrites i counter c st index last (if s.v10 then 0 else results) }.ringCount i st noint := by
  unfold State.complete
  dsimp only
  rw [post_emits h, post_emits (s := s.emit _) h]
  simp [State.emit, State.entryWrites]

theorem complete_only : SignalsOnly s (s.complete i counter c st index last results noint) := by
  rw [complete_eq h]
  exact (SignalsOnly.outs s _).trans (.ringCount ..)

theorem complete_sends :
    Sends s (s.complete i counter c st index last results noint) (s.entryWrites i counter c st index last (if s.v10 then 0 else results)) 1 := by
  rw [complete_eq h]
  obtain ⟨more, hmore, hlen⟩ := ringCount_sends (s := { s with
    outs := s.outs ++ s.entryWrites i counter c st index last (if s.v10 then 0 else results) }) h i st noint
  exact ⟨more, by rw [hmore]; simp, hlen⟩

end

/-! A descriptor is taken (R137, R147). -/

/-- HEAD of ring r has moved past its descriptor, and engine c has served the ring. -/
def State.taken (s : State) (c : Fin 2) (r : Fin 16) : State := (s.headNext r).served c r

/-- The registers that fetch and completion read or write beside HEAD. -/
def fetchRegs : List RegId := [.HCI_CPL_LO, .HCI_CPL_HI, .HCI_RING_CTRL, .HCI_RING_STATUS]

theorem fetchRegs_apart : ∀ r : Fin 16, ∀ id ∈ fetchRegs, Reg.offset ⟨id, r, 0, 0⟩ ≠ Reg.offset ⟨.HCI_RING_HEAD, r, 0, 0⟩ := by
  decide

theorem engStatus_apart : ∀ (c : Fin 2) (r : Fin 16), ∀ id ∈ ringRegs, Reg.offset ⟨id, r, 0, 0⟩ ≠ Reg.offset ⟨.CMD_ENG_STATUS, c, 0, 0⟩ := by
  decide

theorem taken_only : HostSide s (s.taken c r) := rfl

theorem taken_canWrite : (s.taken c r).canWrite = s.canWrite := rfl

theorem headNext_regs (i : Nat) : RegsBut s (s.headNext i) (fun o => o = Reg.offset ⟨.HCI_RING_HEAD, i, 0, 0⟩) := by
  unfold State.headNext
  exact RegsBut.set _ _ _ _ _ rfl

theorem taken_regs : RegsBut s (s.taken c r) (fun o => o = Reg.offset ⟨.HCI_RING_HEAD, r, 0, 0⟩) :=
  (headNext_regs r).trans (RegsBut.of_regs rfl)

theorem taken_head : (s.taken c r).get F.HCI_RING_HEAD_HEAD r = (s.get F.HCI_RING_HEAD_HEAD r + 1) % 8192 := by
  have h : (s.taken c r).get F.HCI_RING_HEAD_HEAD r = (s.headNext r).get F.HCI_RING_HEAD_HEAD r := get_same rfl rfl ..
  rw [h, State.headNext, State.get_set_same _ _ _ _ _ _ rfl]
  exact Nat.mod_mod ..

theorem taken_get {g : Fld} (hg : g.id ∈ fetchRegs) : (s.taken c r).get g r = s.get g r :=
  taken_regs.get rfl _ _ _ _ (fetchRegs_apart r _ hg)

/-- A field of a ring through a write to the engine's status. -/
theorem ring_get_engStatus {f g : Fld} (hf : f.id = .CMD_ENG_STATUS) (hg : g.id ∈ ringRegs) (n : Nat) :
    (s.set f n c).get g r = s.get g r :=
  State.get_set_reg _ _ _ _ _ _ _ _ _ _ (by rw [hf]; exact engStatus_apart c r _ hg)

/-- The engine's status through a write to a field of a ring. -/
theorem engStatus_get_ring {f g : Fld} (hf : f.id ∈ ringRegs) (hg : g.id = .CMD_ENG_STATUS) (n : Nat) :
    (s.set f n r).get g c = s.get g c :=
  State.get_set_reg _ _ _ _ _ _ _ _ _ _ (by rw [hg]; exact (engStatus_apart c r _ hf).symm)

theorem taken_entryWrites (counter : Nat) (c' : Fin 2) (st : Status) (index last results : Nat) :
    (s.taken c r).entryWrites r counter c' st index last results = s.entryWrites r counter c' st index last results := by
  unfold State.entryWrites State.cplBase State.ringEntries
  rw [taken_get (by decide), taken_get (by decide), taken_get (by decide)]

/-! A descriptor's own completion (R138, R153). -/

/-- Ring r's descriptor is taken and completed with st, no instruction of it having been executed. -/
def State.refused (s : State) (c : Fin 2) (r : Fin 16) (st : Status) (noint : Bool) : State :=
  (s.taken c r).complete r (s.get F.HCI_RING_HEAD_HEAD r) c st 0 0xFFF 0 noint

section
variable (h : s.canWrite = true) (st : Status) (noint : Bool)
include h

theorem refused_signals : SignalsOnly (s.taken c r) (s.refused c r st noint) :=
  complete_only (taken_canWrite.trans h) ..

theorem refused_only : HostSide s (s.refused c r st noint) := taken_only.trans (refused_signals h st noint).hostSide

theorem refused_head : (s.refused c r st noint).get F.HCI_RING_HEAD_HEAD r = (s.get F.HCI_RING_HEAD_HEAD r + 1) % 8192 :=
  ((refused_signals h st noint).get ..).trans taken_head

theorem refused_sends : Sends s (s.refused c r st noint) (s.entryWrites r (s.get F.HCI_RING_HEAD_HEAD r) c st 0 0xFFF 0) 1 := by
  have := complete_sends (taken_canWrite.trans h) (s := s.taken c r) r (s.get F.HCI_RING_HEAD_HEAD r) c st 0 0xFFF 0 noint
  rwa [ite_self, taken_entryWrites] at this

theorem refused_regs : RegsBut s (s.refused c r st noint) (fun o => o = Reg.offset ⟨.HCI_RING_HEAD, r, 0, 0⟩) :=
  RegsBut.trans taken_regs (RegsBut.of_regs (refused_signals h st noint).regs)

end

/-- Ring r is halted with a status, which source 16 signals (R143, R153). -/
def State.halted (s : State) (r : Fin 16) (st : Status) : State := (s.set F.HCI_RING_STATUS_HALTED 1 r).ringErr r st

theorem halted_shows (st : Status) : (s.halted r st).get F.HCI_RING_STATUS_HALTED r = 1
    ∧ (s.halted r st).get F.HCI_RING_STATUS_ERR r = st.code
    ∧ (s.halted r st).get F.HCI_RING_HEAD_HEAD r = s.get F.HCI_RING_HEAD_HEAD r := by
  unfold State.halted State.ringErr
  simp only [State.signal_get]
  refine ⟨?_, ?_, ?_⟩
  · rw [ring_get_set r rfl (by decide) (by decide) (by decide), State.get_set_same _ _ _ _ _ _ rfl]
    rfl
  · rw [State.get_set_same _ _ _ _ _ _ rfl]
    cases st <;> rfl
  · rw [ring_get_set r rfl (by decide) (by decide) (by decide), ring_get_set r rfl (by decide) (by decide) (by decide)]

theorem halted_only (st : Status) : HostSide s (s.halted r st) :=
  ((HostSide.set ..).trans (.set ..)).trans (SignalsOnly.signal ..).hostSide

theorem halted_sends (h : s.canWrite = true) (st : Status) : Sends s (s.halted r st) [] 1 := by
  have hset : Sends s ((s.set F.HCI_RING_STATUS_HALTED 1 r).set F.HCI_RING_STATUS_ERR st.code r) [] 0 :=
    .none (by rw [State.set_outs, State.set_outs]) 0
  exact hset.trans (signal_sends (by rw [canWrite_set, canWrite_set, h]) 16)

/-! Fetch (R137, R138, R147, R153). -/

theorem mayFetch_canWrite (h : s.mayFetch c = true) : s.canWrite = true := by
  simp only [State.mayFetch, Bool.and_eq_true] at h
  obtain ⟨⟨⟨-, hwrite⟩, -⟩, -⟩ := h
  exact hwrite

section
variable (hpick : s.pickRing (s.host.last.get c) = some r.val) (hmay : s.mayFetch c = true)
include hpick hmay

theorem descriptorFetch_runs : exec (.descriptorFetch c desc frag) s = .next (
    if s.barrierHolds (Desc.ofSlots desc) then s.modRing r (fun x => { x with barred := true })
    else if !(Desc.ofSlots desc).valid then s.badDesc c r (Desc.ofSlots desc).noint
    else s.startFragment c r (Desc.ofSlots desc) frag) := by
  have hx : exec (.descriptorFetch c desc frag) s = execDescriptorFetch c desc frag s := rfl
  rw [hx]
  unfold execDescriptorFetch
  rw [hpick]
  simp only [hmay, Bool.not_true, Bool.false_eq_true, if_false, Fin.ofNat_eq_cast, Fin.cast_val_eq_self]
  split_ifs <;> rfl

theorem hostMemoryError_runs (h : desc = [] ∨ s.barrierHolds (Desc.ofSlots desc) = false ∧ (Desc.ofSlots desc).valid = true) :
    exec (.hostMemoryError c desc err) s
      = .next ((s.refused c r (hostErrStatus err) (Desc.ofSlots desc).noint).halted r (hostErrStatus err)) := by
  have hx : exec (.hostMemoryError c desc err) s = execHostMemoryError c desc err s := rfl
  rw [hx]
  unfold execHostMemoryError
  rw [hpick]
  have hfree : ¬ (decide (desc ≠ []) && s.barrierHolds (Desc.ofSlots desc)) = true := by rcases h with rfl | ⟨hb, -⟩ <;> simp [*]
  have hvalid : ¬ (decide (desc ≠ []) && !(Desc.ofSlots desc).valid) = true := by rcases h with rfl | ⟨-, hv⟩ <;> simp [*]
  dsimp only
  rw [if_neg (by rw [hmay]; decide), if_neg hfree, if_neg hvalid]
  rfl

end

theorem descriptorFetch_idle (hmay : s.mayFetch c = false) : exec (.descriptorFetch c desc frag) s = .next s := by
  have hx : exec (.descriptorFetch c desc frag) s = execDescriptorFetch c desc frag s := rfl
  rw [hx]
  unfold execDescriptorFetch
  rw [hmay]
  split <;> rfl

theorem hostMemoryError_idle (hmay : s.mayFetch c = false) : exec (.hostMemoryError c desc err) s = .next s := by
  have hx : exec (.hostMemoryError c desc err) s = execHostMemoryError c desc err s := rfl
  rw [hx]
  unfold execHostMemoryError
  rw [hmay]
  split <;> rfl

/-! A fragment starts (R137, R170, R175). -/

/-- The words of a fragment, by its descriptor's length. -/
def Desc.words (d : Desc) (slots : List (BitVec 64)) : List (BitVec 64) := (range' 0 d.fragLen).map (nth 0 slots)

/-- The fragment of ring r's descriptor as it starts. -/
def State.fragOf (s : State) (r : Fin 16) (d : Desc) (slots : List (BitVec 64)) : Frag where
  ring := r
  counter := s.get F.HCI_RING_HEAD_HEAD r
  len := d.fragLen
  resAddr := BitVec.ofNat 64 d.resAddr
  resLen := d.resLen
  noint := d.noint
  illegal := fragIllegal 0 (d.words slots)

/-- Engine c runs the fragment of ring r's descriptor. -/
def State.started (s : State) (c : Fin 2) (r : Fin 16) (d : Desc) (slots : List (BitVec 64)) : State :=
  (((s.taken c r).setEng (.cmd c) ((s.cmd.get c).load (s.fragOf r d slots) (d.words slots))).set F.HCI_RING_STATUS_ACTIVE 1 r).set
    F.CMD_ENG_STATUS_STATE 2 c

theorem startFragment_eq (h : (s.cmd.get c).staged = none) : s.startFragment c r d frag = s.started c r d frag := by
  have hpatch : ((s.headNext r).served c r).fragPatch c = s.taken c r := by
    unfold State.fragPatch
    rw [show (((s.headNext r).served c r).cmd.get c).staged = none from h]
    rfl
  unfold State.startFragment
  dsimp only
  rw [hpatch]
  rfl

theorem fragMem_below {a k : Nat} (h : k < a) (ws : List Word) : sget 0 (fragMem a ws) k = 0 := by
  induction ws generalizing a with
  | nil => rfl
  | cons w ws ih =>
    unfold fragMem
    split
    · exact ih (by omega)
    · rw [sget, if_neg (by omega)]
      exact ih (by omega)

/-- Engine memory holds the words from a on. -/
theorem fragMem_at (a k : Nat) (ws : List Word) : sget 0 (fragMem a ws) (a + k) = nth 0 ws k := by
  induction ws generalizing a k with
  | nil => rfl
  | cons w ws ih =>
    unfold fragMem
    cases k with
    | zero =>
      split
      · next hw => exact (fragMem_below (Nat.lt_succ_self a) ws).trans hw.symm
      · exact if_pos rfl
    | succ k =>
      have hk : a + (k + 1) = a + 1 + k := by omega
      split
      · rw [hk, ih]; rfl
      · rw [sget, if_neg (by omega), hk, ih]; rfl

theorem nth_map_range' {α : Type} (x : α) (f : Nat → α) (a n k : Nat) :
    nth x ((range' a n).map f) k = if k < n then f (a + k) else x := by
  induction n generalizing a k with
  | zero => rfl
  | succ n ih =>
    cases k with
    | zero => rfl
    | succ k =>
      simp only [range', List.map_cons, nth, ih, Nat.add_lt_add_iff_right]
      rw [Nat.add_assoc, Nat.add_comm 1 k]

theorem words_mem (a : Nat) : sget 0 (fragMem 0 ((d.words frag).map (fun x => BitVec.ofNat 36 x.toNat))) a
    = if a < d.fragLen then BitVec.ofNat 36 (nth 0 frag a).toNat else 0 := by
  have h := fragMem_at 0 a ((d.words frag).map (fun x => BitVec.ofNat 36 x.toNat))
  rw [Nat.zero_add] at h
  rw [h, Desc.words, List.map_map, nth_map_range', Nat.zero_add]
  rfl

theorem load_reg (en : Engine) (f : Frag) (ws : List (BitVec 64)) (k : RegNo) : (en.load f ws).reg k = 0 := by
  unfold Engine.reg Engine.load
  simp [Vector.get_eq_getElem]

theorem started_eng : (s.started c r d frag).cmd.get c = (s.cmd.get c).load (s.fragOf r d frag) (d.words frag) :=
  vget_set_same ..

theorem started_eng_ne {c' : Fin 2} (h : c' ≠ c) : (s.started c r d frag).cmd.get c' = s.cmd.get c' := vget_set_ne _ _ _ _ h

theorem State.mem_cmd (s : State) (c : Fin 2) (a : Nat) : s.mem (.cmd c) a = sget 0 (s.cmd.get c).mem a := (rfl)

theorem started_only : let t := s.started c r d frag
    t = { s with regs := t.regs, host := t.host, cmd := t.cmd } := by
  unfold State.started State.taken State.served State.headNext
  apply State.ext' <;> simp

/-- The registers that the start of ring r's fragment on engine c writes. -/
def startRegs (c : Fin 2) (r : Fin 16) (o : Nat) : Prop :=
  o = Reg.offset ⟨.HCI_RING_HEAD, r, 0, 0⟩ ∨ o = Reg.offset ⟨.HCI_RING_STATUS, r, 0, 0⟩ ∨ o = Reg.offset ⟨.CMD_ENG_STATUS, c, 0, 0⟩

theorem started_regs : RegsBut s (s.started c r d frag) (startRegs c r) := by
  have htaken : RegsBut s (s.taken c r) (startRegs c r) := taken_regs.mono fun _ => .inl
  have heng (en : Engine) : RegsBut (s.taken c r) ((s.taken c r).setEng (.cmd c) en) (startRegs c r) := .of_regs (State.setEng_regs ..)
  have hactive (u : State) : RegsBut u (u.set F.HCI_RING_STATUS_ACTIVE 1 r) (startRegs c r) := .set _ _ _ _ _ (.inr (.inl rfl))
  have hstate (u : State) : RegsBut u (u.set F.CMD_ENG_STATUS_STATE 2 c) (startRegs c r) := .set _ _ _ _ _ (.inr (.inr rfl))
  exact ((htaken.trans (heng _)).trans (hactive _)).trans (hstate _)

theorem started_fields : (s.started c r d frag).get F.HCI_RING_HEAD_HEAD r = (s.get F.HCI_RING_HEAD_HEAD r + 1) % 8192
    ∧ (s.started c r d frag).get F.HCI_RING_STATUS_ACTIVE r = 1 ∧ (s.started c r d frag).get F.CMD_ENG_STATUS_STATE c = 2 := by
  unfold State.started
  refine ⟨?_, ?_, ?_⟩
  · rw [ring_get_engStatus rfl (by decide), ring_get_set r rfl (by decide) (by decide) (by decide),
      State.setEng_get, taken_head]
  · rw [ring_get_engStatus rfl (by decide), State.get_set_same _ _ _ _ _ _ rfl]
    rfl
  · rw [State.get_set_same _ _ _ _ _ _ rfl]
    rfl

/-! A fragment completes (R136, R144, R150, R151). -/

/-- Engine c is idle without a fragment, and no ring is passed over for a barrier. -/
def State.freed (u : State) (c : Fin 2) : State :=
  ((u.setEng (.cmd c) { u.cmd.get c with frag := none }).set F.CMD_ENG_STATUS_STATE 1 c).liftBarriers

theorem liftBarriers_ring (k : Nat) : u.liftBarriers.ring k = { u.ring k with barred := false } := by
  unfold State.ring State.liftBarriers
  rw [Vector.getElem?_map]
  cases u.host.rings[k]? <;> rfl

theorem liftBarriers_get (f : Fld) (i j k : Nat) : u.liftBarriers.get f i j k = u.get f i j k := get_same rfl rfl ..

theorem freed_ring (k : Nat) : (u.freed c).ring k = { u.ring k with barred := false } := by
  unfold State.freed
  rw [liftBarriers_ring, State.set_ring]
  rfl

theorem freed_get {g : Fld} (hg : g.id ∈ ringRegs) : (u.freed c).get g r = u.get g r := by
  unfold State.freed
  rw [liftBarriers_get, ring_get_engStatus rfl hg, State.setEng_get]

theorem freed_state : (u.freed c).get F.CMD_ENG_STATUS_STATE c = 1 := by
  unfold State.freed
  rw [liftBarriers_get, State.get_set_same _ _ _ _ _ _ rfl]
  rfl

theorem freed_eng : (u.freed c).cmd.get c = { u.cmd.get c with frag := none } := vget_set_same ..

theorem freed_core : (u.freed c).dp = u.dp ∧ (u.freed c).tree = u.tree ∧ (u.freed c).map = u.map ∧ (u.freed c).outs = u.outs := by
  unfold State.freed State.liftBarriers
  simp

/-- A ring that stays enabled is no longer active. -/
theorem afterFragment_stays (hheld : (u.ring r).heldEnable = false) (hen : u.get F.HCI_RING_CTRL_EN r = 1) :
    u.afterFragment r = u.set F.HCI_RING_STATUS_ACTIVE 0 r := by
  have hflag : (u.set F.HCI_RING_STATUS_ACTIVE 0 r).flag F.HCI_RING_CTRL_EN r = true := by
    rw [flag_get _ _ _ rfl, ring_get_set r rfl (by decide) (by decide) (by decide), hen]
    rfl
  unfold State.afterFragment
  dsimp only
  rw [hheld, hflag]
  simp

theorem fragmentCompletion_runs {f : Frag} {index : Nat} {st : Status} (hfrag : (s.cmd.get c).frag = some f)
    (hended : f.ended = some (index, st)) (hops : (s.cmd.get c).ops = []) (hlive : f.aborted = false) (hwrite : s.canWrite = true)
    (hstate : s.get F.CMD_ENG_STATUS_STATE c = 2) : exec (.fragmentCompletion c) s = .next
      (((s.complete f.ring f.counter c st index (f.last.getD 0xFFF) f.results f.noint).freed c).afterFragment f.ring) := by
  have hx : exec (.fragmentCompletion c) s = execFragmentCompletion c s := rfl
  rw [hx]
  unfold execFragmentCompletion
  have hget := (complete_only hwrite f.ring f.counter c st index (f.last.getD 0xFFF) f.results f.noint).get F.CMD_ENG_STATUS_STATE c 0 0
  simp only [hfrag, hended, hlive, Bool.false_eq_true, if_false]
  rw [if_neg (not_not.2 hops), if_pos (by rw [State.setEng_get, hget, hstate])]
  rfl

/-- The fragment's entry is written, its engine and ring are free, and no ring waits for a barrier. -/
theorem fragmentCompletion_completes {f : Frag} {index : Nat} {st : Status} (hfrag : (s.cmd.get c).frag = some f)
    (hended : f.ended = some (index, st)) (hops : (s.cmd.get c).ops = []) (hring : f.ring = r) (hlive : f.aborted = false)
    (hwrite : s.canWrite = true) (hstate : s.get F.CMD_ENG_STATUS_STATE c = 2) (hen : s.get F.HCI_RING_CTRL_EN r = 1)
    (hheld : (s.ring r).heldEnable = false) (hver : s.v10 = false) : ∃ t, exec (.fragmentCompletion c) s = .next t
      ∧ Sends s t (s.entryWrites r f.counter c st index (f.last.getD 0xFFF) f.results) 2 ∧ (t.cmd.get c).frag = none
      ∧ t.get F.CMD_ENG_STATUS_STATE c = 1 ∧ t.get F.HCI_RING_STATUS_ACTIVE r = 0 ∧ (∀ k, (t.ring k).barred = false)
      ∧ t.dp = s.dp ∧ t.tree = s.tree ∧ t.map = s.map := by
  subst hring
  refine ⟨_, fragmentCompletion_runs hfrag hended hops hlive hwrite hstate, ?_⟩
  have honly := complete_only hwrite f.ring f.counter c st index (f.last.getD 0xFFF) f.results f.noint
  have hsends := complete_sends hwrite f.ring f.counter c st index (f.last.getD 0xFFF) f.results f.noint
  rw [hver] at hsends
  generalize s.complete f.ring f.counter c st index (f.last.getD 0xFFF) f.results f.noint = u at honly hsends
  have hdone : (u.freed c).afterFragment f.ring = (u.freed c).set F.HCI_RING_STATUS_ACTIVE 0 f.ring :=
    afterFragment_stays (by rw [freed_ring]; exact (honly.heldEnable _).trans hheld)
      (by rw [freed_get (by decide), honly.get, hen])
  obtain ⟨hdp, htree, hmap, houts⟩ := freed_core (u := u) (c := c)
  rw [hdone]
  refine ⟨?_, ?_, ?_, ?_, fun k => ?_, ?_⟩
  · exact (hsends.mono (by decide)).of_outs (by rw [State.set_outs, houts])
  · rw [State.set_cmd, freed_eng]
  · rw [engStatus_get_ring (by decide) rfl, freed_state]
  · rw [State.get_set_same _ _ _ _ _ _ rfl]
    rfl
  · rw [State.set_ring, freed_ring]
  · rw [State.set_dp, State.set_tree, State.set_map, hdp, htree, hmap, honly.rest]
    exact ⟨rfl, rfl, rfl⟩

/-! LIMIT and ITIME pass (R152, R160). -/

theorem engRuns_frag (h : s.engRuns (.cmd c) = true) : ∃ f, (s.cmd.get c).frag = some f ∧ f.ended = none := by
  simp only [State.engRuns, Bool.and_eq_true] at h
  obtain ⟨-, h⟩ := h
  split at h
  · next f hf => exact ⟨f, hf, Option.isNone_iff_eq_none.1 h⟩
  · cases h

theorem fragmentTimeout_fails (hrun : s.engRuns (.cmd c) = true) (hwake : (s.cmd.get c).stall.isWake = false)
    (htop : s.topStalled c = false) : ∃ t, exec (.fragmentTimeout c) s = .next t ∧ Failed s t (.cmd c) .etimeout := by
  have hx : exec (.fragmentTimeout c) s = execFragmentTimeout c s := rfl
  refine ⟨_, hx.trans (if_pos (by simp [hrun, hwake, htop])), failInstr_failed fun c' hc => ?_⟩
  cases hc
  exact engRuns_frag hrun

theorem signal_ring (n k : Nat) : (s.signal n).ring k = s.ring k := by
  have h := congrArg HostIf.rings (State.signal_hostframe s n)
  unfold State.ring
  rw [show (s.signal n).host.rings = s.host.rings from h]

theorem ringInterrupt_signals (hmajor : s.get F.HCI_NEGOTIATE_MAJOR = 1) (hminor : s.get F.HCI_NEGOTIATE_MINOR = 1)
    (htime : s.get F.HCI_RING_CTRL_ITIME r ≠ 0) (hcount : 0 < (s.ring r).counted) : ∃ t, exec (.ringInterrupt r) s = .next t
      ∧ (t.ring r).counted = 0 ∧ t = { s with host := t.host, outs := t.outs }
      ∧ (s.flag F.HCI_INT_MAP_EN r = true → s.canWrite = true → (s.msixField (4 * s.get F.HCI_INT_MAP_VECTOR r + 3)).toNat % 2 = 0 →
          t.outs = s.outs ++ [.msix (s.get F.HCI_INT_MAP_VECTOR r)]) := by
  have hx : exec (.ringInterrupt r) s = execRingInterrupt r s := rfl
  refine ⟨s.ringSignal r, hx.trans (if_pos (by simp [State.v11, hmajor, hminor, htime, hcount])), ?_, (SignalsOnly.ringSignal s r).rest,
    fun hen hwrite hmask => ?_⟩
  · unfold State.ringSignal
    rw [signal_ring, State.ring_modRing _ _ _ r.isLt]
  · have hm : s.modRing r (fun x => { x with counted := 0 }) = { s with host := { s.host with rings := _ } } := State.modRing_eq ..
    unfold State.ringSignal
    rw [hm]
    exact signal_vector hwrite hen hmask

/-- Settles O30: an idle engine's descriptor by what it may do with it, then the end of its fragment. -/
theorem fragmentsFetchRunAndComplete : Obligations.FragmentsFetchRunAndComplete := by
  unfold Obligations.FragmentsFetchRunAndComplete
  intro s c r desc frag err d counter entry
  refine ⟨fun hpick hmay => ⟨fun hfree hvalid hstaged => ?_, fun hfree hvalid => ?_, fun hheld => ?_, fun h => ?_⟩,
    fun hmay => ⟨descriptorFetch_idle hmay, hostMemoryError_idle hmay⟩, ?_, fragmentTimeout_fails, ringInterrupt_signals⟩
  · refine ⟨s.started c r d frag, ?_, ?_⟩
    · rw [descriptorFetch_runs hpick hmay, if_neg (by rw [hfree]; decide), if_neg (by rw [hvalid]; decide), startFragment_eq hstaged]
    · obtain ⟨hhead, hactive, hstate⟩ := started_fields (s := s) (c := c) (r := r) (d := d) (frag := frag)
      have hreg : ∀ k, (s.started c r d frag).reg (.cmd c) k = 0 := fun k => by
        rw [State.reg_eq, State.eng_cmd, started_eng, load_reg]
      have hmem : ∀ a, (s.started c r d frag).mem (.cmd c) a = if a < d.fragLen then BitVec.ofNat 36 (nth 0 frag a).toNat else 0 := fun a => by
        rw [← words_mem, State.mem_cmd, started_eng]
        rfl
      refine ⟨hhead, hactive, hstate, hreg, ?_, ?_, hmem, ⟨s.fragOf r d frag, ?_, rfl, rfl, rfl, rfl, rfl⟩, fun c' => started_eng_ne,
        started_only, started_regs⟩ <;> rw [started_eng] <;> rfl
  · have hwrite := mayFetch_canWrite hmay
    refine ⟨s.refused c r .erange d.noint, ?_, refused_head hwrite .., (refused_sends hwrite ..).mono (by decide), refused_only hwrite ..,
      refused_regs hwrite _ _⟩
    rw [descriptorFetch_runs hpick hmay, if_neg (by rw [hfree]; decide), if_pos (by rw [hvalid]; rfl)]
    rfl
  · refine ⟨s.modRing r (fun x => { x with barred := true }), ?_, ?_, State.modRing_eq ..⟩
    · rw [descriptorFetch_runs hpick hmay, if_pos hheld]
    · rw [State.ring_modRing _ _ _ r.isLt]
  · have hwrite := mayFetch_canWrite hmay
    refine ⟨_, hostMemoryError_runs hpick hmay h, ?_⟩
    have hsends := refused_sends (c := c) (r := r) hwrite (hostErrStatus err) d.noint
    have hhead := refused_head (c := c) (r := r) hwrite (hostErrStatus err) d.noint
    have honly := refused_only (c := c) (r := r) hwrite (hostErrStatus err) d.noint
    have hw := (refused_signals (c := c) (r := r) hwrite (hostErrStatus err) d.noint).canWrite.trans hwrite
    generalize s.refused c r (hostErrStatus err) d.noint = u at hsends hhead honly hw ⊢
    obtain ⟨hhalted, herr, hkept⟩ := halted_shows (s := u) (r := r) (hostErrStatus err)
    exact ⟨hkept.trans hhead, hsends.trans (halted_sends hw _), hhalted, herr, honly.trans (halted_only _)⟩
  · intro f index st hfrag hended hops hring hcounter hlive hwrite hstate _ hen hheld hver
    have := fragmentCompletion_completes hfrag hended hops hring hlive hwrite hstate hen hheld hver
    rwa [hcounter] at this

end Sys2Proof.Machine

end

section

/-! Frames and telemetry (O50). A frame boundary ends with the stream's epoch, which may queue a frame of the device's own. Where that
frame's queue has no root the frame is dropped, and the return of its handle passes every fence that waits for the handle's number. So a
boundary does not leave the command engines as they were where an engine waits for a handle that no packet holds. -/

namespace Sys2Proof.Machine

variable {s t : State}

/-! The handle and buffer of a frame of the device's own (R379, R380, R386). -/

/-- What taking a handle and a buffer leaves: the command engines, the frames that wait in the staging ring, whether the stream stops,
and the queues. -/
def State.streamSide (s : State) : Vector Engine 2 × List (List Byte) × Bool × SMap Que :=
  (s.cmd, s.tel.staged, s.tel.stopping, s.dp.queues)

/-- The stream's side after handle h has returned: the fences of the command engines no longer wait for h (R195). -/
def State.fencesPassed (s : State) (h : Nat) : Vector Engine 2 × List (List Byte) × Bool × SMap Que :=
  (s.cmd.map (fun en => en.fencePassed h), s.streamSide.2)

theorem fencesPassed_congr (h : t.streamSide = s.streamSide) (k : Nat) : t.fencesPassed k = s.fencesPassed k := by
  have hcmd : t.cmd = s.cmd := congrArg Prod.fst h
  unfold State.fencesPassed
  rw [hcmd, h]

theorem streamSide_ite {c : Prop} [Decidable c] (ht : t.streamSide = s.streamSide) {u : State} (hu : u.streamSide = s.streamSide) :
    (if c then t else u).streamSide = s.streamSide := by
  split <;> assumption

theorem streamSide_foldl {α : Type} {f : State → α → State} (hf : ∀ s a, (f s a).streamSide = s.streamSide) (l : List α) (s : State) :
    (l.foldl f s).streamSide = s.streamSide := foldl_fld f State.streamSide hf l s

@[simp] theorem State.wr_streamSide (s : State) (id : RegId) (v : Word) (i j k : Nat) : (s.wr id v i j k).streamSide = s.streamSide := (rfl)
@[simp] theorem State.set_streamSide (s : State) (f : Fld) (v i j k : Nat) : (s.set f v i j k).streamSide = s.streamSide := (rfl)
@[simp] theorem State.inc_streamSide (s : State) (f : Fld) (n i j k : Nat) : (s.inc f n i j k).streamSide = s.streamSide := (rfl)
@[simp] theorem State.emit_streamSide (s : State) (o : Out) : (s.emit o).streamSide = s.streamSide := (rfl)
@[simp] theorem State.count_streamSide (s : State) (a b c n : Nat) : (s.count a b c n).streamSide = s.streamSide := by
  simp [State.streamSide, State.count]
@[simp] theorem State.modPort_streamSide (s : State) (p : Nat) (f : PAcc → PAcc) : (s.modPort p f).streamSide = s.streamSide := (rfl)
@[simp] theorem State.modQAcc_streamSide (s : State) (q : Nat) (f : QAcc → QAcc) : (s.modQAcc q f).streamSide = s.streamSide := (rfl)
@[simp] theorem State.setBuf_streamSide (s : State) (p i : Nat) (b : Buf) : (s.setBuf p i b).streamSide = s.streamSide := (rfl)
@[simp] theorem State.setHdl_streamSide (s : State) (h : Nat) (x : Option Hdl) : (s.setHdl h x).streamSide = s.streamSide := (rfl)
@[simp] theorem State.thresholds_streamSide (s : State) (p : Nat) : (s.thresholds p).streamSide = s.streamSide :=
  State.set_streamSide ..
@[simp] theorem State.queueDrop_streamSide (s : State) (q c : Nat) : (s.queueDrop q c).streamSide = s.streamSide := by
  simp [State.queueDrop]

@[simp] theorem State.faultWrite_streamSide (s : State) (source cause addr : Nat) (who : Who) (access status detail : Nat) :
    (s.faultWrite source cause addr who access status detail).streamSide = s.streamSide := by
  simp [State.streamSide]

@[simp] theorem State.dfreeCapture_streamSide (s : State) (kind p source i : Nat) :
    (s.dfreeCapture kind p source i).streamSide = s.streamSide := streamSide_ite rfl (State.wr_streamSide ..)

@[simp] theorem State.sendPause_streamSide (s : State) (l : Nat) (priority : Bool) (classes : Nat) :
    (s.sendPause l priority classes).streamSide = s.streamSide := streamSide_ite rfl rfl

@[simp] theorem State.pausePort_streamSide (s : State) (l : Nat) : (s.pausePort l).streamSide = s.streamSide :=
  streamSide_ite rfl (by simp)

@[simp] theorem State.setBnd_streamSide (s : State) (b : Nat) (x : Bond) : (s.setBnd b x).streamSide = s.streamSide := by
  unfold State.setBnd
  split <;> rfl

@[simp] theorem State.stopBond_streamSide (s : State) (b : Nat) : (s.stopBond b).streamSide = s.streamSide := by
  unfold State.stopBond
  dsimp only
  repeat' split
  all_goals simp

@[simp] theorem State.flow_streamSide (s : State) : s.flow.streamSide = s.streamSide :=
  (streamSide_foldl State.stopBond_streamSide ..).trans (streamSide_foldl State.pausePort_streamSide ..)

@[simp] theorem State.setInuse_streamSide (s : State) (p n : Nat) : (s.setInuse p n).streamSide = s.streamSide :=
  streamSide_ite rfl (streamSide_ite (by simp) (by simp))

@[simp] theorem State.dropRef_streamSide (s : State) (p i source : Nat) : (s.dropRef p i source).streamSide = s.streamSide :=
  streamSide_ite (by simp) (streamSide_ite (by simp) (by simp))

@[simp] theorem State.doubleAlloc_streamSide (s : State) (p i : Nat) : (s.doubleAlloc p i).streamSide = s.streamSide := by
  simp [State.doubleAlloc]

@[simp] theorem State.takeFrom_streamSide (s : State) (p n i : Nat) : (s.takeFrom p n i).1.streamSide = s.streamSide := by
  induction n generalizing s i with
  | zero => rfl
  | succ n ih =>
    unfold State.takeFrom
    dsimp only
    repeat' split
    all_goals simp [ih]

@[simp] theorem State.takeBuf_streamSide (s : State) (p : Nat) : (s.takeBuf p).1.streamSide = s.streamSide := by
  have hfresh : s.fresh.2.streamSide = s.streamSide := rfl
  unfold State.takeBuf
  dsimp only
  repeat' split
  all_goals simp [hfresh]

@[simp] theorem State.seekBuf_streamSide (s : State) (colour : Nat) (spilled : Bool) (n p : Nat) :
    (s.seekBuf colour spilled n p).state.streamSide = s.streamSide := by
  induction n generalizing s spilled p with
  | zero => rfl
  | succ n ih =>
    have hbuf := s.takeBuf_streamSide p
    unfold State.seekBuf
    split
    · rfl
    · generalize s.takeBuf p = a at hbuf
      obtain ⟨s1, _ | i⟩ := a
      · dsimp only
        split
        · exact (ih ..).trans hbuf
        · exact hbuf
      · dsimp only [BufRes.state_got]
        exact (streamSide_ite (State.inc_streamSide ..) rfl).trans hbuf

/-- A handle that is taken is the lowest free one (R378). -/
theorem takeHdl_some {s1 : State} {h : Nat} (ht : s.takeHdl = (s1, some h)) : h = firstGap 0 s.dp.hdls ∧ s1.streamSide = s.streamSide := by
  unfold State.takeHdl at ht
  split at ht
  · cases ht
  · cases ht
    exact ⟨rfl, State.setInuse_streamSide ..⟩

/-! A frame of the device's own that is dropped (R195, R379, R399, R559). -/

theorem State.hdl_setHdl (s : State) (h : Nat) (x : Option Hdl) : (s.setHdl h x).hdl h = x := sget_sput_same ..

/-- The state in which no fence waits for handle h any longer, and the switch core does not hold it. -/
def State.unfenced (s : State) (h : Nat) : State :=
  { s with cmd := s.cmd.map (fun en => en.fencePassed h), plinth := s.plinth.fencePassed h,
           dp := { s.dp with swc := s.dp.swc.filter (fun k => k ≠ h) } }

theorem State.unfenced_streamSide (s : State) (h : Nat) : (s.unfenced h).streamSide = s.fencesPassed h := (rfl)

theorem release_eq {h source : Nat} {x : Hdl} (hh : s.hdl h = some x) :
    s.release h source = (((s.setHdl h none).setInuse 4 (s.inuse 4 - 1)).unfenced h).dropRef x.pool x.index source := by
  unfold State.release
  rw [hh]
  rfl

/-- A handle that returns passes the fences that waited for it. -/
theorem release_streamSide {h source : Nat} {x : Hdl} (hh : s.hdl h = some x) : (s.release h source).streamSide = s.fencesPassed h := by
  rw [release_eq hh, State.dropRef_streamSide, State.unfenced_streamSide]
  exact fencesPassed_congr (by simp) h

/-- A packet for a queue without a root is dropped, and its handle returns. -/
theorem enqueue_unrooted {h q : Nat} {x : Hdl} (hh : s.hdl h = some x) (hroot : s.rootOf q = none) :
    (s.enqueue h q).streamSide = s.fencesPassed h := by
  unfold State.enqueue
  rw [hh]
  dsimp only
  rw [if_pos (by rw [hroot]; rfl), release_streamSide (x := x) (by simpa [State.hdl, State.queueDrop, State.modQAcc] using hh)]
  exact fencesPassed_congr (by simp) h

theorem rootOf_unconfigured {q : Nat} (hq : (s.que q).cfg = []) : s.rootOf q = none := if_pos hq

/-- Where its queue is not configured, a frame of the device's own takes the lowest free handle and returns it. -/
theorem ownPacket_unrooted {bs : List Byte} {q seq : Nat} (ho : s.ownPacket bs q seq = some t) (hq : (s.que q).cfg = []) :
    t.streamSide = s.fencesPassed (firstGap 0 s.dp.hdls) := by
  unfold State.ownPacket at ho
  split at ho
  · cases ho
  · next s1 h hhdl =>
    obtain ⟨hlow, hside1⟩ := takeHdl_some hhdl
    have hside2 := s1.seekBuf_streamSide 0 false 4 (s1.poolFor bs.length)
    split at ho
    · next s2 p i hbuf =>
      rw [hbuf] at hside2
      have hside : s2.streamSide = s.streamSide := hside2.trans hside1
      have hque : s2.dp.queues = s.dp.queues := congrArg (fun x => x.2.2.2) hside
      cases ho
      rw [enqueue_unrooted (State.hdl_setHdl ..) (rootOf_unconfigured (by simpa only [State.que, State.setHdl, hque] using hq)), ← hlow]
      exact fencesPassed_congr ((State.setHdl_streamSide ..).trans hside) h
    · cases ho

/-- With nothing in the staging ring nothing moves to the queue. -/
theorem sillagePump_empty (n : Nat) (h : s.tel.staged = []) : State.sillagePump n s = s := by
  cases n with
  | zero => rfl
  | succ n => unfold State.sillagePump; rw [h]

/-- The state with the staging ring empty. -/
def State.unstaged (s : State) : State := { s with tel := { s.tel with staged := [] } }

/-- The one frame in the staging ring is dropped where its queue is not configured. -/
theorem sillagePump_unrooted {bs : List Byte} (n : Nat) (hst : s.tel.staged = [bs]) (hfew : s.sillageQueued < 8)
    (hq : (s.que (s.get F.TEL_UPL_QUEUE)).cfg = [])
    (ho : (s.unstaged.ownPacket bs (s.get F.TEL_UPL_QUEUE) (s.tel.frameSeq + 1)).isSome = true) :
    (State.sillagePump (n + 1) s).streamSide = s.unstaged.fencesPassed (firstGap 0 s.dp.hdls) := by
  obtain ⟨t, ht⟩ := Option.isSome_iff_exists.1 ho
  have hside : t.streamSide = s.unstaged.fencesPassed (firstGap 0 s.dp.hdls) := ownPacket_unrooted ht hq
  have hempty : t.tel.staged = [] := congrArg (fun x => x.2.1) hside
  have hegress : s.egressOf (s.get F.TEL_UPL_QUEUE) = none := by
    unfold State.egressOf
    rw [rootOf_unconfigured hq]
    rfl
  unfold State.unstaged at ht
  unfold State.sillagePump
  simp only [hst, hegress, List.length_singleton, ht]
  rw [if_neg (by omega), sillagePump_empty n hempty]
  exact hside

/-! The stream's epoch (R557, R559). -/

/-- An epoch that ends an uplink stream moves staged frames to the queue and leaves the command engines as that leaves them. -/
theorem epoch_stops_cmd (hon : s.flag F.TEL_STATUS_ENABLED = true) (hup : s.telUplink = true)
    (hstop : (s.closeFrame.sillagePump 8).tel.stopping = true) : s.epoch.cmd = (s.closeFrame.sillagePump 8).cmd := by
  unfold State.epoch
  rw [if_neg (by rw [hon]; decide)]
  dsimp only
  rw [if_pos hup, if_pos hstop]
  rfl

/-- Where such an epoch finds one frame staged, none open, and the stream's queue not configured, the frame's handle passes the fences
of the command engines. -/
theorem epoch_unrooted_cmd {bs : List Byte} (hon : s.flag F.TEL_STATUS_ENABLED = true) (hup : s.telUplink = true)
    (hstop : s.tel.stopping = true) (hframe : s.tel.frame = []) (hst : s.tel.staged = [bs]) (hfew : s.sillageQueued < 8)
    (hq : (s.que (s.get F.TEL_UPL_QUEUE)).cfg = [])
    (ho : (s.unstaged.ownPacket bs (s.get F.TEL_UPL_QUEUE) (s.tel.frameSeq + 1)).isSome = true) :
    s.epoch.cmd = s.cmd.map (fun en => en.fencePassed (firstGap 0 s.dp.hdls)) := by
  have hclose : s.closeFrame = s := if_pos hframe
  have hside := sillagePump_unrooted 7 hst hfew hq ho
  have hstill : (s.sillagePump 8).tel.stopping = true := (congrArg (fun x => x.2.2.1) hside).trans hstop
  rw [epoch_stops_cmd hon hup (by rw [hclose]; exact hstill), hclose]
  exact congrArg Prod.fst hside

/-! The frame boundary up to the epoch (R211, R551). -/

/-- The state to which a frame boundary of a running clock applies the stream's epoch. -/
def State.beforeEpoch (s : State) : State :=
  let s1 := s.nextFrame.govBoundary
  let s2 := ((s1.capFrame (s1.get F.PWR_GOV_STATUS_CAPACITY) s1.loadDown).steer.todDrain 0).todDrain 1
  let s3 := (s2.trees.foldl State.treeBoundary s2).ageAllocs
  let s4 := if s3.pwr.deep = 1 then (range' 0 64).foldl State.haltEngine s3 else s3
  s4.countResidency

theorem frameBoundary_runs (hreset : s.boot.inReset = false) (hdeep : s.pwr.deep ≠ 2) (hclk : s.clk.running = true) :
    exec .frameBoundary s = .next s.beforeEpoch.epoch := by
  show execFrameBoundary s = _
  unfold execFrameBoundary
  rw [if_neg (by rw [hreset]; decide), if_neg hdeep, if_neg (by rw [hclk]; decide)]
  rfl

/-! The counterexample. -/

/-- A part of the smallest variant. -/
def fencedPart : Chip := { variant := .gk3210fe, stepping := .b0, serial := 0, keysPresent := 0, keysRevoked := 0, kcrm := 0 }

/-- A device with its clock running and no packets, whose command engines wait for handle 0 though no packet holds it. Its stream goes
to an uplink, has one frame staged, and stops at the end of the epoch; no queue is configured. -/
def fencedState : State :=
  { State.powerOn fencedPart with
    regs := [(Reg.offset ⟨.TEL_STATUS, 0, 0, 0⟩, 1), (Reg.offset ⟨.TEL_CTRL, 0, 0, 0⟩, BitVec.ofNat 36 (2 ^ 34 + 1500 * 2 ^ 16))]
    clk := { running := true }
    tel := { staged := [[]], stopping := true }
    cmd := Vector.replicate 2 { stall := .fence [0] } }

/-- What the boundary leaves of it up to the epoch, by running the model. -/
theorem fencedState_beforeEpoch : let u := fencedState.beforeEpoch
    u.cmd = fencedState.cmd ∧ u.flag F.TEL_STATUS_ENABLED = true ∧ u.telUplink = true ∧ u.tel.stopping = true ∧ u.tel.frame = []
      ∧ u.tel.staged = [[]] ∧ u.sillageQueued < 8 ∧ u.dp.hdls = [] ∧ (u.que (u.get F.TEL_UPL_QUEUE)).cfg = []
      ∧ (u.unstaged.ownPacket [] (u.get F.TEL_UPL_QUEUE) (u.tel.frameSeq + 1)).isSome = true := by
  decide +kernel

/-- The whole boundary takes handle 0 out of the fences of its command engines. -/
theorem fencedState_epoch_cmd : fencedState.beforeEpoch.epoch.cmd = fencedState.cmd.map (fun en => en.fencePassed 0) := by
  have hfacts := fencedState_beforeEpoch
  generalize fencedState.beforeEpoch = u at hfacts
  obtain ⟨hcmd, hon, hup, hstop, hframe, hst, hfew, hhdls, hq, ho⟩ := hfacts
  rw [epoch_unrooted_cmd hon hup hstop hframe hst hfew hq ho, hhdls, hcmd]
  rfl

/-- Refutes O50: a boundary of a running clock does not leave the command engines as they were in every state. Where an engine's fence
waits for a handle that no packet holds, the stream's epoch may take that handle for a frame of its own whose queue is not configured;
the frame is dropped, and the return of its handle takes the handle out of the fence. FENCE itself names only handles in use, but the
statement is of every state. -/
theorem not_framesAndTelemetry : ¬ Obligations.FramesAndTelemetry := by
  unfold Obligations.FramesAndTelemetry
  intro h
  obtain ⟨-, -, -, -, -, -, hframe, -⟩ := h fencedState 0 0 0 0
  obtain ⟨t, ht, -, -, -, -, hcmd, -⟩ := hframe rfl rfl rfl
  rw [frameBoundary_runs rfl (by decide) rfl] at ht
  rw [← Host.Outcome.next.inj ht, fencedState_epoch_cmd] at hcmd
  exact absurd hcmd (by decide +kernel)

end Sys2Proof.Machine

end

section

/-! Quiet windows and RSSI (O15): QUIET's operands and the windows that stand in its way, and the place of its structure. -/

namespace Sys2Proof.Machine

/-- QUIET's operands are out of range: its start, its length, a length within PRE, or a terminal (R278). -/
theorem quiet_outOfRange {start len pre term : Nat} {ranging : Prop} :
    (38880 ≤ start ∨ len = 0 ∨ 155520 < len ∨ 2 * len ≤ pre ∨ ranging ∧ 256 ≤ term)
      ↔ ¬ (start < 38880 ∧ len ≠ 0 ∧ len ≤ 155520 ∧ pre < 2 * len ∧ (ranging → term < 256)) := by
  simp only [not_and_or, Classical.not_imp, Nat.not_lt, Nat.not_le, not_not]

/-- A window of the frame, a held structure, or a terminal that is not RANGING stands in QUIET's way (R278, R313). -/
theorem quiet_refused {window : Option Window} {held : Option (Nat × Grant)} {state : Nat} {ranging : Prop} :
    (window.isSome = true ∨ held.isSome = true ∨ ranging ∧ state ≠ 1)
      ↔ ¬ (window = none ∧ held = none ∧ (ranging → state = 1)) := by
  simp only [not_and_or, Classical.not_imp, Option.isSome_iff_ne_none, ne_eq]

/-- Where the map has room, a structure is appended to it. -/
theorem appendGrant_room {s : State} {t : Fin 64} (h : (s.tr t).mapCount < 1024) (g : Grant) (k : Tree → Tree) :
    s.appendGrant t g k = s.modTree t (fun x => k { x with build := x.build ++ [g] }) := if_neg (Nat.not_le.2 h)

/-- Settles O15: QUIET by its operands, the windows there are and its start time; RSSI by the map and its newest burst. -/
theorem quietWindowAndRssi : Obligations.QuietWindowAndRssi := by
  unfold Obligations.QuietWindowAndRssi
  intro m f e ranging a b u pre start inRange free prof win g
  refine ⟨does_of (fun _ => rfl) ?opens, does_of (fun _ => rfl) ?holds, failsIf (fun _ => rfl) ?range, failsIf (fun _ => rfl) ?busy,
    does_of (fun _ => rfl) ?arms, failsIf (fun _ => rfl) ?long, failsIf (fun _ => rfl) ?empty⟩
  case opens =>
    rintro s ⟨hrange, hfree, hstart, hroom⟩
    exact (if_neg (mt quiet_outOfRange.1 (not_not.2 hrange))).trans ((if_neg (mt quiet_refused.1 (not_not.2 hfree))).trans
      ((if_pos hstart).trans (congrArg Res.ok (appendGrant_room hroom (g s) _))))
  case holds =>
    rintro s ⟨hrange, hfree, hstart⟩
    exact (if_neg (mt quiet_outOfRange.1 (not_not.2 hrange))).trans ((if_neg (mt quiet_refused.1 (not_not.2 hfree))).trans
      (if_neg (Nat.not_lt.2 hstart)))
  case range => exact fun s hrange => if_pos (quiet_outOfRange.2 hrange)
  case busy =>
    rintro s ⟨hrange, hfree⟩
    exact (if_neg (mt quiet_outOfRange.1 (not_not.2 hrange))).trans (if_pos (quiet_refused.2 hfree))
  case arms =>
    rintro s ⟨hmap, hlen⟩
    exact (if_neg fun h => absurd h.1 (Nat.not_lt.2 hlen)).trans (if_neg hmap)
  case long =>
    rintro s ⟨hmap, hlen⟩
    exact if_pos ⟨hlen, hmap⟩
  case empty =>
    rintro s hmap
    exact (if_neg fun h => h.2 hmap).trans (if_pos hmap)

end Sys2Proof.Machine

end

section

/-! The windows of the trees: where their registers lie, so that a field of one is not changed by a write of another, and what the
operations of the optical line leave as it was. -/

namespace Sys2Proof.Machine

/-! Places in a tree's window (R237, R273). -/

/-- A register of a tree's window that stands there once. -/
def RegId.ofTree (id : RegId) : Bool := id.desc.s1 = 0x4000 && 0x400000 ≤ id.desc.base && id.desc.base < 0x401000

/-- A register of a tree's window that stands there once for each terminal. -/
def RegId.ofTerm (id : RegId) : Bool :=
  id.desc.s1 = 0x4000 && id.desc.s2 = 0x20 && 0x401000 ≤ id.desc.base && id.desc.base < 0x401020

section
variable {id id' : RegId} {i i' u u' : Nat}

theorem RegId.ofTree_offset (h : id.ofTree = true) :
    ∃ p, p < 0x1000 ∧ id.desc.base = 0x400000 + p ∧ ∀ i, Reg.offset ⟨id, i, 0, 0⟩ = 0x400000 + i * 0x4000 + p := by
  simp only [RegId.ofTree, Bool.and_eq_true, decide_eq_true_eq] at h
  obtain ⟨⟨hs, hlo⟩, hhi⟩ := h
  refine ⟨id.desc.base - 0x400000, by omega, by omega, fun i => ?_⟩
  simp only [Reg.offset, hs]
  omega

theorem RegId.ofTerm_offset (h : id.ofTerm = true) :
    ∃ p, p < 0x20 ∧ id.desc.base = 0x401000 + p ∧ ∀ i u, Reg.offset ⟨id, i, u, 0⟩ = 0x401000 + i * 0x4000 + u * 0x20 + p := by
  simp only [RegId.ofTerm, Bool.and_eq_true, decide_eq_true_eq] at h
  obtain ⟨⟨⟨hs1, hs2⟩, hlo⟩, hhi⟩ := h
  refine ⟨id.desc.base - 0x401000, by omega, by omega, fun i u => ?_⟩
  simp only [Reg.offset, hs1, hs2]
  omega

theorem tree_offset_ne (h : id.ofTree = true) (h' : id'.ofTree = true) (hne : id'.desc.base ≠ id.desc.base) :
    Reg.offset ⟨id', i', 0, 0⟩ ≠ Reg.offset ⟨id, i, 0, 0⟩ := by
  obtain ⟨p, hp, hb, ho⟩ := RegId.ofTree_offset h
  obtain ⟨p', hp', hb', ho'⟩ := RegId.ofTree_offset h'
  rw [ho, ho']
  omega

theorem tree_offset_index_ne (h : id.ofTree = true) (hne : i' ≠ i) : Reg.offset ⟨id, i', 0, 0⟩ ≠ Reg.offset ⟨id, i, 0, 0⟩ := by
  obtain ⟨p, hp, hb, ho⟩ := RegId.ofTree_offset h
  rw [ho, ho]
  omega

theorem tree_term_offset_ne (h : id.ofTree = true) (h' : id'.ofTerm = true) (hu : u < 256) :
    Reg.offset ⟨id', i', u, 0⟩ ≠ Reg.offset ⟨id, i, 0, 0⟩ := by
  obtain ⟨p, hp, hb, ho⟩ := RegId.ofTree_offset h
  obtain ⟨p', hp', hb', ho'⟩ := RegId.ofTerm_offset h'
  rw [ho, ho']
  omega

theorem term_offset_ne (h : id.ofTerm = true) (h' : id'.ofTerm = true) (hne : id'.desc.base ≠ id.desc.base) :
    Reg.offset ⟨id', i', u', 0⟩ ≠ Reg.offset ⟨id, i, u, 0⟩ := by
  obtain ⟨p, hp, hb, ho⟩ := RegId.ofTerm_offset h
  obtain ⟨p', hp', hb', ho'⟩ := RegId.ofTerm_offset h'
  rw [ho, ho']
  omega

theorem term_offset_index_ne (h : id.ofTerm = true) (h' : id'.ofTerm = true) (hne : i' ≠ i ∨ u' ≠ u) (hu : u < 256) (hu' : u' < 256) :
    Reg.offset ⟨id', i', u', 0⟩ ≠ Reg.offset ⟨id, i, u, 0⟩ := by
  obtain ⟨p, hp, hb, ho⟩ := RegId.ofTerm_offset h
  obtain ⟨p', hp', hb', ho'⟩ := RegId.ofTerm_offset h'
  rw [ho, ho']
  omega

theorem tree_offset_below (h : id.ofTree = true) (hi : i < 64) : Reg.offset ⟨id, i, 0, 0⟩ < 0x500000 := by
  obtain ⟨p, hp, hb, ho⟩ := RegId.ofTree_offset h
  rw [ho]
  omega

theorem term_offset_below (h : id.ofTerm = true) (hi : i < 64) (hu : u < 256) : Reg.offset ⟨id, i, u, 0⟩ < 0x500000 := by
  obtain ⟨p, hp, hb, ho⟩ := RegId.ofTerm_offset h
  rw [ho]
  omega

end

/-! Fields through writes of other registers of the windows. -/

section
variable (s : State) {f g : Fld} {v i i' u u' : Nat}

/-- A field reads a value that fits it. -/
@[simp] theorem State.get_set_fits {j k : Nat} (hf : f.ok = true) (hv : v < 2 ^ (f.hi + 1 - f.lo)) : (s.set f v i j k).get f i j k = v := by
  rw [State.get_set_same _ _ _ _ _ _ hf, Nat.mod_eq_of_lt hv]

/-- A counter reads its sum, or its largest value. -/
@[simp] theorem State.get_inc_sat {n j k : Nat} (hf : f.ok = true) :
    (s.inc f n i j k).get f i j k = satAdd (2 ^ (f.hi + 1 - f.lo) - 1) (s.get f i j k) n := State.get_inc_same _ _ _ _ _ _ hf

/-- Another field of the same register. -/
@[simp] theorem State.get_set_sibling {j k : Nat} (hf : f.ok = true) (hid : g.id = f.id) (hd : g.hi < f.lo ∨ f.hi < g.lo) :
    (s.set f v i j k).get g i j k = s.get g i j k := State.get_set_field _ _ _ _ _ _ _ hf hid hd

@[simp] theorem State.get_set_tree (hf : f.id.ofTree = true) (hg : g.id.ofTree = true) (hne : g.id.desc.base ≠ f.id.desc.base) :
    (s.set f v i).get g i' = s.get g i' := State.get_set_reg _ _ _ _ _ _ _ _ _ _ (tree_offset_ne hf hg hne)

@[simp] theorem State.get_inc_tree {n : Nat} (hf : f.id.ofTree = true) (hg : g.id.ofTree = true) (hne : g.id.desc.base ≠ f.id.desc.base) :
    (s.inc f n i).get g i' = s.get g i' := State.get_inc_reg _ _ _ _ _ _ _ _ _ _ (tree_offset_ne hf hg hne)

theorem State.get_set_tree_index (hf : f.id.ofTree = true) (hid : g.id = f.id) (hne : i' ≠ i) : (s.set f v i).get g i' = s.get g i' :=
  State.get_set_reg _ _ _ _ _ _ _ _ _ _ (by rw [hid]; exact tree_offset_index_ne hf hne)

theorem State.get_set_tree_term (hu : u < 256) (hf : f.id.ofTree = true) (hg : g.id.ofTerm = true) :
    (s.set f v i).get g i' u = s.get g i' u := State.get_set_reg _ _ _ _ _ _ _ _ _ _ (tree_term_offset_ne hf hg hu)

theorem State.get_set_term_tree (hu : u < 256) (hf : f.id.ofTerm = true) (hg : g.id.ofTree = true) :
    (s.set f v i u).get g i' = s.get g i' := State.get_set_reg _ _ _ _ _ _ _ _ _ _ (tree_term_offset_ne hg hf hu).symm

theorem State.get_set_term (hf : f.id.ofTerm = true) (hg : g.id.ofTerm = true) (hne : g.id.desc.base ≠ f.id.desc.base) :
    (s.set f v i u).get g i' u' = s.get g i' u' := State.get_set_reg _ _ _ _ _ _ _ _ _ _ (term_offset_ne hf hg hne)

end

/-! Fields through what changes no register. -/

section
variable (s : State) (f : Fld) (i j k : Nat)
@[simp] theorem State.treeAcc_get (t : Nat) (a : TAcc → TAcc) : (s.treeAcc t a).get f i j k = s.get f i j k := (rfl)
@[simp] theorem State.treeMark_get (t n : Nat) : (s.treeMark t n).get f i j k = s.get f i j k := (rfl)
@[simp] theorem State.modPm_get (t : Fin 64) (n : Nat) (a : PmScope → PmScope) : (s.modPm t n a).get f i j k = s.get f i j k := (rfl)
@[simp] theorem State.putExpect_get (t : Fin 64) (n : Nat) (x : Expect) : (s.putExpect t n x).get f i j k = s.get f i j k := (rfl)
@[simp] theorem State.pmBurst_get (t : Fin 64) (u : Option Nat) (e : Bool) : (s.pmBurst t u e).get f i j k = s.get f i j k := by
  cases u <;> rfl
@[simp] theorem State.logLimited_get (n : Nat) (p q : Word) (h : Reg.offset ⟨f.id, i, j, k⟩ ≠ Reg.offset ⟨.PLN_LOG_CTRL, 0, 0, 0⟩) :
    (s.logLimited n p q).get f i j k = s.get f i j k := (RegsBut.logLimited n p q).get (State.logLimited_chip ..) f i j k h
end

/-! Trees through the operations of the line. -/

section
variable (s : State) (t t' : Fin 64)
@[simp] theorem State.set_tr (f : Fld) (v i j k : Nat) : (s.set f v i j k).tr t = s.tr t := (rfl)
@[simp] theorem State.inc_tr (f : Fld) (n i j k : Nat) : (s.inc f n i j k).tr t = s.tr t := (rfl)
@[simp] theorem State.emit_tr (o : Out) : (s.emit o).tr t = s.tr t := (rfl)
@[simp] theorem State.count_tr (a b c n : Nat) : (s.count a b c n).tr t = s.tr t := (rfl)
@[simp] theorem State.treeAcc_tr (n : Nat) (a : TAcc → TAcc) : (s.treeAcc n a).tr t = s.tr t := (rfl)
@[simp] theorem State.treeMark_tr (n b : Nat) : (s.treeMark n b).tr t = s.tr t := (rfl)
@[simp] theorem State.plainWrite_tr (r : Reg) (v : Word) : (s.plainWrite r v).tr t = s.tr t := (rfl)
@[simp] theorem State.logLimited_tr (n : Nat) (p q : Word) : (s.logLimited n p q).tr t = s.tr t := by
  rw [State.tr_eq, State.logLimited_tree, State.tr_eq]
@[simp] theorem State.laneSettle_tr (k : Nat) : (s.laneSettle k).tr t = s.tr t := by
  rw [State.tr_eq, (laneSettle_fr s k).2.1, State.tr_eq]
@[simp] theorem State.modTree_tr (f : Tree → Tree) : (s.modTree t f).tr t = f (s.tr t) := vget_set_same ..
theorem State.modTree_tr_ne (f : Tree → Tree) (h : t' ≠ t) : (s.modTree t f).tr t' = s.tr t' := vget_set_ne _ _ _ _ h

/-- A tree changed into itself. -/
theorem State.modTree_id (f : Tree → Tree) (h : f (s.tr t) = s.tr t) : s.modTree t f = s := by
  have htree : s.tree.set t (f (s.tree.get t)) = s.tree := by
    rw [← State.tr_eq, h, State.tr_eq]
    exact Vector.set_getElem_self t.isLt
  unfold State.modTree
  rw [htree]

end

/-! What the line leaves of the rest of the device. -/

/-- The rest of the device as the optical line leaves it: the commands that wait, the part, the engines, the boot, the clock and the
packet side. -/
def State.offLine (s : State) : List Instr × Chip × Vector Engine 2 × Vector Engine 64 × Boot × Clock × Dp :=
  (s.pending, s.chip, s.cmd, s.map, s.boot, s.clk, s.dp)

section
variable {s t : State}

theorem offLine_fields (h : t.offLine = s.offLine) : t.pending = s.pending ∧ t.chip = s.chip ∧ t.cmd = s.cmd ∧ t.map = s.map
    ∧ t.boot = s.boot ∧ t.clk = s.clk ∧ t.dp = s.dp :=
  ⟨congrArg (·.1) h, congrArg (·.2.1) h, congrArg (·.2.2.1) h, congrArg (·.2.2.2.1) h, congrArg (·.2.2.2.2.1) h, congrArg (·.2.2.2.2.2.1) h,
    congrArg (·.2.2.2.2.2.2) h⟩

theorem offLine_foldl {α : Type} {f : State → α → State} (hf : ∀ s a, (f s a).offLine = s.offLine) (l : List α) (s : State) :
    (l.foldl f s).offLine = s.offLine := foldl_fld f State.offLine hf l s

end

section
variable (s : State)
@[simp] theorem State.set_offLine (f : Fld) (v i j k : Nat) : (s.set f v i j k).offLine = s.offLine := (rfl)
@[simp] theorem State.inc_offLine (f : Fld) (n i j k : Nat) : (s.inc f n i j k).offLine = s.offLine := (rfl)
@[simp] theorem State.emit_offLine (o : Out) : (s.emit o).offLine = s.offLine := (rfl)
@[simp] theorem State.count_offLine (a b c n : Nat) : (s.count a b c n).offLine = s.offLine := (rfl)
@[simp] theorem State.treeAcc_offLine (t : Nat) (a : TAcc → TAcc) : (s.treeAcc t a).offLine = s.offLine := (rfl)
@[simp] theorem State.treeMark_offLine (t n : Nat) : (s.treeMark t n).offLine = s.offLine := (rfl)
@[simp] theorem State.plainWrite_offLine (r : Reg) (v : Word) : (s.plainWrite r v).offLine = s.offLine := (rfl)
@[simp] theorem State.modTree_offLine (t : Fin 64) (f : Tree → Tree) : (s.modTree t f).offLine = s.offLine := (rfl)
@[simp] theorem State.modPm_offLine (t : Fin 64) (k : Nat) (f : PmScope → PmScope) : (s.modPm t k f).offLine = s.offLine := (rfl)
@[simp] theorem State.putExpect_offLine (t : Fin 64) (i : Nat) (x : Expect) : (s.putExpect t i x).offLine = s.offLine := (rfl)
@[simp] theorem State.pmBurst_offLine (t : Fin 64) (u : Option Nat) (e : Bool) : (s.pmBurst t u e).offLine = s.offLine := by
  cases u <;> rfl
@[simp] theorem State.logLimited_offLine (n : Nat) (p q : Word) : (s.logLimited n p q).offLine = s.offLine := by
  simp [State.offLine]
@[simp] theorem State.laneSettle_offLine (k : Nat) : (s.laneSettle k).offLine = s.offLine := by
  unfold State.laneSettle
  dsimp only
  split
  · rfl
  · simp only [State.set_offLine]
end

end Sys2Proof.Machine

end

section

/-! Pulses and alignment (O48): the pulse before a burst and the armed one, the end of drift hold-off, and the alignment machine state by
state. -/

namespace Sys2Proof.Machine

variable {s : State} {t : Fin 64} {x : Expect} {xs : List Expect}

/-! Pulses (R256, R258). -/

theorem findIdx_head {α : Type} {p : α → Bool} {a : α} (h : p a = true) (l : List α) (i : Nat) : findIdx p (a :: l) i = some (i, a) :=
  if_pos h

/-- The first expectation replaced. -/
theorem putExpect_head (h : (s.tr t).expects = x :: xs) (y : Expect) : ((s.putExpect t 0 y).tr t).expects = y :: xs := by
  unfold State.putExpect
  rw [State.modTree_tr, h]
  rfl

/-- BURST_RST comes to a burst whose pulse is due: a pulse wide enough goes out, one that is not is skipped. -/
theorem burstRst_due (hr : s.receives t = true) (he : (s.tr t).expects = x :: xs) (hx : x.pulsed = false) :
    let o := (s.tr t).opt
    let start := max (x.s - fv o F.PON_OPT_CTRL_LEAD) (x.prevE + fv o F.PON_OPT_CTRL_HOLD)
    let stop := x.s - fv o F.PON_OPT_CTRL_LEAD + fv o F.PON_OPT_CTRL_WIDTH
    let u := s.putExpect t 0 { x with pulsed := true }
    exec (.burstRst t) s = if start + fv o F.PON_OPT_CTRL_MINW ≤ stop then .next (u.emit (.burstRst (s.portOf t) start stop))
      else .next (((u.set F.PON_TREE_STATUS_SKIP 1 t).inc F.PON_EVT_CNT_SKIPPED 1 t).treeMark t 6) := by
  intro o start stop u
  show execBurstRst t s = _
  unfold execBurstRst
  rw [hr, he, findIdx_head (by simp [hx])]
  rfl

/-- RSSI_TRIG comes to the burst it is armed for. -/
theorem rssiTrig_due {c : Nat} (hr : s.receives t = true) (he : (s.tr t).expects = x :: xs) (hx : x.rssi = some c) :
    exec (.rssiTrig t) s = .next ((s.putExpect t 0 { x with rssi := none }).emit
      (.rssiTrig (s.portOf t) c (s.get F.PON_RSSI_CTRL_WIDTH t))) := by
  obtain rfl : c = x.rssi.getD 0 := by rw [hx, Option.getD_some]
  show execRssiTrig t s = _
  unfold execRssiTrig
  rw [hr, he, findIdx_head (p := fun y : Expect => y.rssi.isSome) (Option.isSome_of_mem hx)]
  rfl

/-- No pulse goes out where the receiver handles no bursts, or none is expected. -/
theorem pulses_idle (h : s.receives t = false ∨ (s.tr t).expects = []) : exec (.burstRst t) s = .next s ∧ exec (.rssiTrig t) s = .next s := by
  have hrst : exec (.burstRst t) s = execBurstRst t s := rfl
  have hrssi : exec (.rssiTrig t) s = execRssiTrig t s := rfl
  rw [hrst, hrssi]
  unfold execBurstRst execRssiTrig
  rcases h with h | h
  · simp [h]
  · simp [h, findIdx]

/-- A skipped pulse shows in SKIP and in SKIPPED. -/
theorem pulse_skipped (s : State) (t : Fin 64) (y : Expect) :
    let w := (((s.putExpect t 0 y).set F.PON_TREE_STATUS_SKIP 1 t).inc F.PON_EVT_CNT_SKIPPED 1 t).treeMark t 6
    w.get F.PON_TREE_STATUS_SKIP t = 1 ∧ w.get F.PON_EVT_CNT_SKIPPED t = satAdd 511 (s.get F.PON_EVT_CNT_SKIPPED t) 1
      ∧ w.tr t = (s.putExpect t 0 y).tr t ∧ w.outs = s.outs ∧ w = { s with regs := w.regs, tree := w.tree, tel := w.tel } := by
  intro w
  refine ⟨?_, ?_, ?_, ?_, ?_⟩
  · simp (disch := decide) [w]
  · simp (disch := decide) only [w, State.treeMark_get, State.get_inc_sat, State.get_set_tree, State.putExpect_get]
    rfl
  · simp only [w, State.treeMark_tr, State.inc_tr, State.set_tr]
  · simp [w, State.treeMark, State.treeAcc, State.putExpect]
  · apply State.ext' <;> simp [w, State.treeMark, State.treeAcc, State.putExpect]

/-! The alignment machine (R261). -/

section
variable {pos errs count : Nat}

theorem alignCheck_runs {u : State} (h : s.alignCheck t pos errs count = u) : exec (.alignCheck t pos errs count) s = .next u := by
  rw [← h]
  rfl

theorem alignCheck_off (h : s.get F.PON_ALIGN_STATUS_STATE t = 0) : s.alignCheck t pos errs count = s := by
  simp [State.alignCheck, h, alHUNT, alPRESYNC, alSYNC]

/-- HUNT waits for the pattern without an error. -/
theorem alignCheck_hunt (h : s.get F.PON_ALIGN_STATUS_STATE t = 1) : s.alignCheck t pos errs count
    = if errs = 0 then (s.set F.PON_ALIGN_STATUS_STATE 2 t).modTree t (fun x => { x with cand := pos, conf := 0, count }) else s := by
  simp [State.alignCheck, h, alHUNT, alPRESYNC]

/-- Outside HUNT a position other than the one due is not looked at. -/
theorem alignCheck_elsewhere (h : s.get F.PON_ALIGN_STATUS_STATE t ≠ 1) (hp : pos ≠ (s.tr t).cand + s.frameBits t) :
    s.alignCheck t pos errs count = s := by
  simp [State.alignCheck, h, hp, alHUNT]

/-- The pattern is good: its errors are within the tolerance, and the superframe counter has advanced by one. -/
def State.patternOk (s : State) (t : Fin 64) (errs count : Nat) : Prop :=
  errs ≤ s.get F.PON_ALIGN_CTRL_TOL t ∧ count = (s.tr t).count + 1

theorem alignCheck_presync_rejects (h : s.get F.PON_ALIGN_STATUS_STATE t = 2) (hp : pos = (s.tr t).cand + s.frameBits t)
    (hk : ¬ s.patternOk t errs count) :
    s.alignCheck t pos errs count = (s.inc F.PON_ALIGN_STATUS_REJECT 1 t).set F.PON_ALIGN_STATUS_STATE 1 t := by
  unfold State.patternOk at hk
  simp [State.alignCheck, h, hp, hk, alHUNT, alPRESYNC]

theorem alignCheck_presync_confirms (h : s.get F.PON_ALIGN_STATUS_STATE t = 2) (hp : pos = (s.tr t).cand + s.frameBits t)
    (hk : s.patternOk t errs count) : let u := s.modTree t (fun x => { x with cand := pos, conf := x.conf + 1, count })
    s.alignCheck t pos errs count = if (s.tr t).conf + 1 = 2 then (u.set F.PON_ALIGN_STATUS_STATE 3 t).set F.PON_ALIGN_STATUS_MISSES 0 t else u := by
  unfold State.patternOk at hk
  simp [State.alignCheck, h, hp, hk, alHUNT, alPRESYNC, alSYNC]

theorem loopCodewords_tr (s : State) (t : Nat) (k : Fin 64) : (s.loopCodewords t).tr k = s.tr k := (rfl)

/-- SYNC at a position: the candidate moves on, codewords are counted, and misses in a row are. -/
def State.inSync (s : State) (t : Fin 64) (pos : Nat) : State :=
  (s.modTree t (fun x => { x with cand := pos, count := x.count + 1 })).loopCodewords t

theorem alignCheck_sync (h : s.get F.PON_ALIGN_STATUS_STATE t = 3) (hp : pos = (s.tr t).cand + s.frameBits t)
    {n : Nat} (hn : (s.patternOk t errs count ∧ n = 0) ∨ (¬ s.patternOk t errs count ∧ n = s.get F.PON_ALIGN_STATUS_MISSES t + 1)) :
    s.alignCheck t pos errs count = if n = 4 then ((((s.inSync t pos).set F.PON_TREE_STATUS_LOF 1 t).inc F.PON_ALIGN_STATUS_LOFCNT 1 t).set
        F.PON_ALIGN_STATUS_STATE 1 t).set F.PON_ALIGN_STATUS_MISSES 0 t
      else (s.inSync t pos).set F.PON_ALIGN_STATUS_MISSES n t := by
  unfold State.patternOk at hn
  rcases hn with ⟨hk, hn⟩ | ⟨hk, hn⟩ <;> simp [State.alignCheck, h, hp, hk, hn, alHUNT, alPRESYNC, alSYNC, State.inSync]

@[simp] theorem State.inSync_get (f : Fld) (i j k : Nat) : (s.inSync t pos).get f i j k = s.get f i j k := (rfl)
@[simp] theorem State.inSync_offLine : (s.inSync t pos).offLine = s.offLine := (rfl)
theorem State.inSync_tr : (s.inSync t pos).tr t = { s.tr t with cand := pos, count := (s.tr t).count + 1 } :=
  (loopCodewords_tr _ t t).trans (State.modTree_tr ..)
theorem State.inSync_tr_ne {k : Fin 64} (h : k ≠ t) : (s.inSync t pos).tr k = s.tr k :=
  (loopCodewords_tr _ t k).trans (State.modTree_tr_ne _ _ _ _ h)

end

/-- A position of the machine that is judged leaves the machine in state n, and nothing outside the tree t. -/
structure Aligned (s u : State) (t : Fin 64) (n : Nat) : Prop where
  state : u.get F.PON_ALIGN_STATUS_STATE t = n
  pending : u.pending = s.pending
  cmd : u.cmd = s.cmd
  map : u.map = s.map
  dp : u.dp = s.dp
  others : ∀ k : Fin 64, k ≠ t → u.tr k = s.tr k

theorem Aligned.conj {u : State} {n : Nat} (h : Aligned s u t n) : u.get F.PON_ALIGN_STATUS_STATE t = n ∧ u.pending = s.pending
    ∧ u.cmd = s.cmd ∧ u.map = s.map ∧ u.dp = s.dp ∧ (∀ k : Fin 64, k ≠ t → u.tr k = s.tr k) :=
  ⟨h.state, h.pending, h.cmd, h.map, h.dp, h.others⟩

theorem aligned_of {u : State} {n : Nat} (hstate : u.get F.PON_ALIGN_STATUS_STATE t = n) (hrest : u.offLine = s.offLine)
    (hothers : ∀ k : Fin 64, k ≠ t → u.tr k = s.tr k) : Aligned s u t n := by
  obtain ⟨hpending, -, hcmd, hmap, -, -, hdp⟩ := offLine_fields hrest
  exact ⟨hstate, hpending, hcmd, hmap, hdp, hothers⟩

/-- Settles O48: the pulses by the first burst that is expected, hold-off by the list of terminals, alignment by the machine's state. -/
theorem pulsesAndAlignment : Obligations.PulsesAndAlignment := by
  unfold Obligations.PulsesAndAlignment
  intro s t u x xs pos errs count o start stop y at_ ok machine check
  refine ⟨fun hr he hx => ⟨fun hwide => ?pulse, fun hnarrow => ?skip⟩, fun c hr he hx => ?rssi, pulses_idle, ?holdoff, fun h => ?off,
    fun h => ⟨fun herr => ?hunting, fun herr => ?found⟩, fun h hat => ?elsewhere, fun h hat => ⟨fun hk => ?rejected, fun hk hc => ?once, fun hk hc => ?twice⟩,
    fun h hat => ⟨fun hk => ?kept, fun hk hm => ?missed, fun hk hm => ?lost⟩⟩
  case pulse =>
    exact ⟨_, (burstRst_due hr he hx).trans (if_pos hwide), rfl, putExpect_head he _, rfl⟩
  case skip =>
    obtain ⟨hskip, hcount, htree, houts, honly⟩ := pulse_skipped s t { x with pulsed := true }
    exact ⟨_, (burstRst_due hr he hx).trans (if_neg (Nat.not_le.2 hnarrow)), houts, hskip, hcount,
      (congrArg Tree.expects htree).trans (putExpect_head he _), honly⟩
  case rssi => exact ⟨_, rssiTrig_due hr he hx, rfl, putExpect_head he _, rfl⟩
  case holdoff =>
    have htr := State.modTree_tr s t (fun x => { x with holdoff := x.holdoff.filter (fun v => v ≠ u.val) })
    refine ⟨_, rfl, ?_, fun v hv => ?_, rfl, fun k hk => State.modTree_tr_ne _ _ _ _ hk⟩
    · rw [htr]; simp
    · rw [htr]; simp [hv, y]
  case off => exact alignCheck_runs (alignCheck_off h)
  case hunting => exact alignCheck_runs ((alignCheck_hunt h).trans (if_neg herr))
  case found =>
    have htr := State.modTree_tr (s.set F.PON_ALIGN_STATUS_STATE 2 t) t (fun x => { x with cand := pos, conf := 0, count })
    refine ⟨_, alignCheck_runs ((alignCheck_hunt h).trans (if_pos herr)), Aligned.conj (aligned_of ?_ ?_ fun k hk => ?_), ?_, ?_, ?_⟩
    · simp (disch := decide)
    · simp only [State.modTree_offLine, State.set_offLine]
    · rw [State.modTree_tr_ne _ _ _ _ hk, State.set_tr]
    all_goals rw [htr]
  case elsewhere => exact alignCheck_runs (alignCheck_elsewhere h hat)
  case rejected =>
    refine ⟨_, alignCheck_runs (alignCheck_presync_rejects h hat hk), Aligned.conj (aligned_of ?_ ?_ fun k hk => ?_), ?_⟩
    · simp (disch := decide)
    · simp only [State.set_offLine, State.inc_offLine]
    · simp only [State.set_tr, State.inc_tr]
    · simp (disch := decide) only [State.get_set_sibling, State.get_inc_sat]
      rfl
  case once =>
    have htr := State.modTree_tr s t (fun x => { x with cand := pos, conf := x.conf + 1, count })
    have hone : ¬ (s.tr t).conf + 1 = 2 := by change (s.tr t).conf = 0 at hc; omega
    refine ⟨_, alignCheck_runs ((alignCheck_presync_confirms h hat hk).trans (if_neg hone)),
      Aligned.conj (aligned_of h rfl fun k hk => State.modTree_tr_ne _ _ _ _ hk), ?_, ?_, ?_⟩
    all_goals rw [htr]
    exact congrArg (· + 1) hc
  case twice =>
    have htwo : (s.tr t).conf + 1 = 2 := congrArg (· + 1) hc
    refine ⟨_, alignCheck_runs ((alignCheck_presync_confirms h hat hk).trans (if_pos htwo)), Aligned.conj (aligned_of ?_ ?_ fun k hk => ?_), ?_⟩
    · simp (disch := decide)
    · simp only [State.set_offLine, State.modTree_offLine]
    · rw [State.set_tr, State.set_tr, State.modTree_tr_ne _ _ _ _ hk]
    · simp (disch := decide)
  case kept =>
    refine ⟨_, alignCheck_runs ((alignCheck_sync h hat (.inl ⟨hk, rfl⟩)).trans (if_neg (by decide))),
      Aligned.conj (aligned_of ?_ ?_ fun k hk => ?_), ?_, ?_, ?_⟩
    · simp (disch := decide) [h]
    · simp only [State.set_offLine, State.inSync_offLine]
    · rw [State.set_tr, State.inSync_tr_ne hk]
    · simp (disch := decide)
    all_goals rw [State.set_tr, State.inSync_tr]
  case missed =>
    have hfits : s.get F.PON_ALIGN_STATUS_MISSES t + 1 < 2 ^ 2 := Nat.succ_lt_succ hm
    refine ⟨_, alignCheck_runs ((alignCheck_sync h hat (.inr ⟨hk, rfl⟩)).trans (if_neg (Nat.ne_of_lt hfits))),
      Aligned.conj (aligned_of ?_ ?_ fun k hk => ?_), ?_, ?_⟩
    · simp (disch := decide) [h]
    · simp only [State.set_offLine, State.inSync_offLine]
    · rw [State.set_tr, State.inSync_tr_ne hk]
    · exact State.get_set_fits _ rfl hfits
    · simp (disch := decide)
  case lost =>
    refine ⟨_, alignCheck_runs ((alignCheck_sync h hat (.inr ⟨hk, rfl⟩)).trans (if_pos (congrArg (· + 1) hm))),
      Aligned.conj (aligned_of ?_ ?_ fun k hk => ?_), ?_, ?_⟩
    · simp (disch := decide)
    · simp only [State.set_offLine, State.inc_offLine, State.inSync_offLine]
    · simp only [State.set_tr, State.inc_tr, State.inSync_tr_ne hk]
    · simp (disch := decide)
    · simp (disch := decide) only [State.get_set_sibling, State.get_inc_sat, State.get_set_tree, State.inSync_get]
      rfl

end Sys2Proof.Machine

end

section

/-! Bursts and light (O47). Where nothing is due and no light is astray, an event of the line comes to the first expectation that waits for
an outcome; what it does then is the outcome's own. -/

namespace Sys2Proof.Machine

variable {s : State} {t : Fin 64} {x : Expect} {u : Nat} {b : Burst}

/-! What has passed, and light astray (R259, R281). -/

/-- Nothing passes while no window, and no burst with an outcome, has ended. -/
theorem closeDue_nothing (h : ∀ x ∈ (s.tr t).expects, x.quiet = true ∨ x.heard = true → s.rxNow ≤ x.e) : s.closeDue t = s := by
  have hgone : (s.tr t).expects.filter (fun x => x.quiet && x.e < s.rxNow && !x.heard && x.term.isSome) = [] := by
    refine List.filter_eq_nil_iff.2 fun x hx => ?_
    by_cases hq : x.quiet = true
    · simp [Nat.not_lt.2 (h x hx (.inl hq))]
    · simp [hq]
  have hkept : (s.tr t).expects.filter (fun x => !((x.quiet || x.heard) && x.e + x.dwin < s.rxNow)) = (s.tr t).expects := by
    refine List.filter_eq_self.2 fun x hx => ?_
    by_cases hq : x.quiet = true ∨ x.heard = true
    · simp [Nat.not_lt.2 (Nat.le_add_right_of_le (h x hx hq))]
    · simp [not_or.1 hq]
  unfold State.closeDue
  dsimp only
  rw [hgone, List.foldl_nil]
  exact State.modTree_id _ _ _ (by rw [hkept])

/-- No high level of SD is found outside what is expected, or it has been counted. -/
theorem strayCheck_calm (h : s.receives t = false ∨ s.get F.SER_LANE_STATUS_SIGDET (s.portOf t) = 0 ∨ (s.tr t).strayed = true) :
    s.strayCheck t = s := by
  unfold State.strayCheck
  rw [flag_get _ _ _ rfl]
  rcases h with h | h | h <;> simp [h]

/-! Bonding groups of a tree that leads none (R266). -/

theorem leaderOf_congr {v : State} (hen : ∀ k, v.get F.PON_BOND_CTRL_EN k = s.get F.PON_BOND_CTRL_EN k)
    (hmask : ∀ k, v.get F.PON_BOND_CTRL_MASK k = s.get F.PON_BOND_CTRL_MASK k) (k : Nat) : v.leaderOf k = s.leaderOf k := by
  simp only [State.leaderOf, State.bondMember, State.flag, hen, hmask]

/-- The tree's data is merged with no other tree's: its leader has formed no group. -/
def State.unbonded (s : State) (t : Nat) : Prop := s.get F.PON_BOND_CTRL_EN (s.leaderOf t) = 0

theorem unbonded_congr {v : State} (hen : ∀ k, v.get F.PON_BOND_CTRL_EN k = s.get F.PON_BOND_CTRL_EN k)
    (hmask : ∀ k, v.get F.PON_BOND_CTRL_MASK k = s.get F.PON_BOND_CTRL_MASK k) {k : Nat} (h : s.unbonded k) : v.unbonded k := by
  unfold State.unbonded
  rw [leaderOf_congr hen hmask, hen, h]

theorem unbonded_flag {k : Nat} (h : s.unbonded k) : s.flag F.PON_BOND_CTRL_EN (s.leaderOf k) = false := by
  rw [flag_get _ _ _ rfl, h]
  rfl

theorem bondDegClear_unbonded {k : Nat} (h : s.unbonded k) : s.bondDegClear k = s := by
  simp [State.bondDegClear, unbonded_flag h]

theorem bondDegSet_unbonded {k : Nat} (h : s.unbonded k) : s.bondDegSet k = s := by
  simp [State.bondDegSet, unbonded_flag h]

theorem noteSkew_unbonded (h : s.unbonded t) (u : Nat) (off : Int) : s.noteSkew t u off = (s, true) := by
  simp [State.noteSkew, unbonded_flag h]

theorem unbonded_setLos {v : Nat} (h : s.unbonded t) : (s.set F.PON_TREE_STATUS_LOS v t).unbonded t :=
  unbonded_congr (fun _ => State.get_set_tree _ rfl rfl (by decide)) (fun _ => State.get_set_tree _ rfl rfl (by decide)) h

/-! Drift and confirmation, where they do not touch a terminal (R284, R296). -/

theorem drift_untracked (h : s.flag F.PON_DRIFT_CTRL_EN t = false) (u : Nat) (off : Int) : s.drift t u off = s := by
  simp [State.drift, h]

theorem confirm_operating (h : s.termState t u = tmOPERATING) (off : Int) : s.confirm t u off = s := by
  simp [State.confirm, h, tmOPERATING, tmRESTORED]

/-! A burst of a terminal (R253, R259, R267). -/

section
variable (hu : u < 256) (hterm : x.term = some u) (hgroup : s.unbonded t) 
include hu hterm hgroup

/-- What every received burst clears: LOS of the tree, and LOSI and the run of MISSING bursts of the terminal. -/
theorem burstSeen_clears : (s.burstSeen t x b).get F.PON_TREE_STATUS_LOS t = 0 ∧ (s.burstSeen t x b).get F.PON_TERM_STATE_LOSI t u = 0
    ∧ (s.burstSeen t x b).tr t = { s.tr t with missRun := sput 0 (s.tr t).missRun u 0 } := by
  unfold State.burstSeen
  rw [hterm, bondDegClear_unbonded (unbonded_setLos hgroup)]
  dsimp only
  refine ⟨?_, ?_, ?_⟩
  · cases b.headerOk <;> simp (disch := decide) [State.get_set_term_tree _ hu]
  · cases b.headerOk <;> simp (disch := decide)
  · cases b.headerOk <;> simp

/-- Registers of the tree that it leaves: all but PON_TREE_STATUS. -/
theorem burstSeen_get {g : Fld} (hg : g.id.ofTree = true) (hne : g.id.desc.base ≠ F.PON_TREE_STATUS_LOS.id.desc.base) (i : Nat) :
    (s.burstSeen t x b).get g i = s.get g i := by
  unfold State.burstSeen
  rw [hterm, bondDegClear_unbonded (unbonded_setLos hgroup)]
  dsimp only
  cases b.headerOk <;> simp [State.get_set_term_tree (f := F.PON_TERM_STATE_LOSI) _ hu rfl hg, State.get_set_tree (f := F.PON_TREE_STATUS_LOS) _ rfl hg hne]

/-- Fields of the terminal that it leaves: all but LOSI. -/
theorem burstSeen_get_term {g : Fld} (hg : g.id.ofTerm = true) (hne : g.id.desc.base ≠ F.PON_TERM_STATE_LOSI.id.desc.base
    ∨ g.id = F.PON_TERM_STATE_LOSI.id ∧ (g.hi < 30 ∨ 30 < g.lo)) : (s.burstSeen t x b).get g t u = s.get g t u := by
  have hlosi : ∀ v : State, (v.set F.PON_TERM_STATE_LOSI 0 t u).get g t u = v.get g t u := by
    intro v
    rcases hne with hne | ⟨hid, hd⟩
    · exact State.get_set_term _ rfl hg hne
    · exact State.get_set_sibling _ rfl hid hd
  unfold State.burstSeen
  rw [hterm, bondDegClear_unbonded (unbonded_setLos hgroup)]
  dsimp only
  cases b.headerOk <;> simp [hlosi, State.get_set_tree_term (f := F.PON_TREE_STATUS_LOS) _ hu rfl hg]

omit hu in
theorem burstSeen_offLine : (s.burstSeen t x b).offLine = s.offLine := by
  unfold State.burstSeen
  rw [hterm, bondDegClear_unbonded (unbonded_setLos hgroup)]
  dsimp only
  cases b.headerOk <;> simp

end

/-- A burst counts as granted, and perhaps as errored, in the scopes of performance alone (R267, R541). -/
@[simp] theorem State.burstJudged_get (s : State) (f : Fld) (i j k : Nat) : (s.burstJudged t x b).get f i j k = s.get f i j k := by
  unfold State.burstJudged
  dsimp only
  repeat' split
  all_goals simp

@[simp] theorem State.burstJudged_offLine (s : State) : (s.burstJudged t x b).offLine = s.offLine := by
  unfold State.burstJudged
  dsimp only
  repeat' split
  all_goals simp

/-- The tree as performance counting leaves it. -/
def Tree.sansPm (y : Tree) : Tree := { y with pm := [] }

theorem modPm_sansPm (s : State) (k : Nat) (f : PmScope → PmScope) : ((s.modPm t k f).tr t).sansPm = (s.tr t).sansPm := by
  unfold State.modPm
  rw [State.modTree_tr]
  rfl

@[simp] theorem pmBurst_sansPm (s : State) (o : Option Nat) (e : Bool) : ((s.pmBurst t o e).tr t).sansPm = (s.tr t).sansPm := by
  cases o with
  | none => exact modPm_sansPm ..
  | some u => exact (modPm_sansPm ..).trans (modPm_sansPm ..)

@[simp] theorem burstJudged_sansPm (s : State) : ((s.burstJudged t x b).tr t).sansPm = (s.tr t).sansPm := by
  unfold State.burstJudged
  dsimp only
  repeat' split
  all_goals simp

/-- A burst that is found has its outcome: it is seen and judged. -/
def State.burstFound (s : State) (t : Fin 64) (x : Expect) (b : Burst) : State :=
  ((s.putExpect t 0 { x with heard := true }).burstSeen t x b).burstJudged t x b

section
variable (hu : u < 256) (hterm : x.term = some u) (hgroup : s.unbonded t)
include hterm hgroup

theorem burstFound_offLine : (s.burstFound t x b).offLine = s.offLine := by
  unfold State.burstFound
  rw [State.burstJudged_offLine]
  exact burstSeen_offLine (s := s.putExpect t 0 { x with heard := true }) hterm hgroup

include hu

theorem burstFound_clears : (s.burstFound t x b).get F.PON_TREE_STATUS_LOS t = 0 ∧ (s.burstFound t x b).get F.PON_TERM_STATE_LOSI t u = 0 := by
  obtain ⟨hlos, hlosi, -⟩ := burstSeen_clears (s := s.putExpect t 0 { x with heard := true }) (b := b) hu hterm hgroup
  unfold State.burstFound
  rw [State.burstJudged_get, State.burstJudged_get]
  exact ⟨hlos, hlosi⟩

/-- Of its tree, the run of MISSING bursts ends and the expectation has its outcome; performance counts apart. -/
theorem burstFound_tree (hexpects : (s.tr t).expects = [x]) : ((s.burstFound t x b).tr t).sansPm
    = { (s.tr t).sansPm with missRun := sput 0 (s.tr t).missRun u 0, expects := [{ x with heard := true }] } := by
  obtain ⟨-, -, htree⟩ := burstSeen_clears (s := s.putExpect t 0 { x with heard := true }) (b := b) hu hterm hgroup
  unfold State.burstFound
  rw [burstJudged_sansPm, htree, State.putExpect, State.modTree_tr, hexpects]
  rfl

theorem burstFound_get {g : Fld} (hg : g.id.ofTree = true) (hne : g.id.desc.base ≠ F.PON_TREE_STATUS_LOS.id.desc.base) (i : Nat) :
    (s.burstFound t x b).get g i = s.get g i := by
  unfold State.burstFound
  rw [State.burstJudged_get]
  exact burstSeen_get (s := s.putExpect t 0 { x with heard := true }) hu hterm hgroup hg hne i

theorem burstFound_get_term {g : Fld} (hg : g.id.ofTerm = true) (hne : g.id.desc.base ≠ F.PON_TERM_STATE_LOSI.id.desc.base
    ∨ g.id = F.PON_TERM_STATE_LOSI.id ∧ (g.hi < 30 ∨ 30 < g.lo)) : (s.burstFound t x b).get g t u = s.get g t u := by
  unfold State.burstFound
  rw [State.burstJudged_get]
  exact burstSeen_get_term (s := s.putExpect t 0 { x with heard := true }) hu hterm hgroup hg hne

theorem burstFound_unbonded : (s.burstFound t x b).unbonded t :=
  unbonded_congr (fun _ => burstFound_get hu hterm hgroup rfl (by decide) _) (fun _ => burstFound_get hu hterm hgroup rfl (by decide) _) hgroup

/-- The burst of an OPERATING terminal whose drift is not tracked: it is found, and its content is taken (R253, R310, R312). -/
theorem grantBurst_found (hdrift : s.get F.PON_DRIFT_CTRL_EN t = 0) (hstate : s.termState t u = tmOPERATING)
    (hid : b.headerOk = true → b.onuId.toNat = u) : s.grantBurst t 0 x b = if b.headerOk = true then
      b.frames.foldl (State.takeFrame t u true) (b.reports.foldl (State.takeReport t) (b.ploams.foldl (State.takePloam t x b) (s.burstFound t x b)))
      else s.burstFound t x b := by
  have hdriftEn : (s.burstFound t x b).flag F.PON_DRIFT_CTRL_EN t = false := by
    rw [flag_get _ _ _ rfl, burstFound_get hu hterm hgroup rfl (by decide), hdrift]
    rfl
  have hoper : (s.burstFound t x b).termState t u = tmOPERATING :=
    (burstFound_get_term (g := F.PON_TERM_STATE_STATE) hu hterm hgroup rfl (.inr ⟨rfl, .inr (by decide)⟩)).trans hstate
  have hstray : ¬ (b.headerOk = true ∧ b.onuId.toNat ≠ u) := fun h => h.2 (hid h.1)
  have hfound : ((s.putExpect t 0 { x with heard := true }).burstSeen t x b).burstJudged t x b = s.burstFound t x b := rfl
  have hgetD : x.term.getD 0 = u := by rw [hterm, Option.getD_some]
  unfold State.grantBurst
  dsimp only
  rw [hfound, hgetD, if_neg hstray, drift_untracked hdriftEn, confirm_operating hoper, noteSkew_unbonded (burstFound_unbonded hu hterm hgroup)]

end

/-- A message whose integrity code holds joins the queue while there is room (R279, R280). -/
theorem takePloam_queued {m : List Byte} (hterm : x.term = some u) (hmic : micOk (s.ploamKey t u) m = true)
    (hroom : (s.tr t).ploamRx.length < 64) : State.takePloam t x b s m = s.modTree t (fun y => { y with ploamRx := y.ploamRx
      ++ [⟨u, BitVec.ofNat 36 (rateCode x.rate * 2 ^ 32 + x.frame % 2 ^ 24), BitVec.ofNat 36 (unsignedOf 26 b.offset), m⟩] }) := by
  unfold State.takePloam
  simp [hterm, hmic, Nat.not_le.2 hroom, b2n]

/-! Events that come to an expectation. -/

section
variable (hcalm : s.receives t = true ∧ (s.get F.SER_LANE_STATUS_SIGDET (s.portOf t) = 0 ∨ (s.tr t).strayed = true))
  (hdue : ∀ x ∈ (s.tr t).expects, x.quiet = true ∨ x.heard = true → s.rxNow ≤ x.e)
include hcalm hdue

/-- Nothing has passed, and no light is astray. -/
theorem line_settled : (s.closeDue t).strayCheck t = s := by
  rw [closeDue_nothing hdue, strayCheck_calm (.inr hcalm.2)]

theorem burstReceived_found {i : Nat} (hfront : (s.tr t).front = some (i, x)) (hfind : x.finds b.offset = true) :
    exec (.burstReceived t b) s = .next (if x.quiet = true then s.quietBurst t i x b else s.grantBurst t i x b) := by
  show execBurstReceived t b s = _
  unfold execBurstReceived
  rw [line_settled hcalm hdue]
  simp [hcalm.1, hfront, hfind]

theorem burstReceived_between (hfront : (s.tr t).front = none) : exec (.burstReceived t b) s = .next (s.foundBetween t b) := by
  show execBurstReceived t b s = _
  unfold execBurstReceived
  rw [line_settled hcalm hdue]
  simp [hcalm.1, hfront]

theorem burstMissing_grant {i : Nat} (hfront : (s.tr t).front = some (i, x)) (hquiet : x.quiet = false) :
    exec (.burstMissing t) s = .next ((s.putExpect t i { x with heard := true }).burstMissed t x) := by
  show execBurstMissing t s = _
  unfold execBurstMissing
  rw [line_settled hcalm hdue]
  simp [hcalm.1, hfront, hquiet]

theorem burstMissing_discovery {i : Nat} (hfront : (s.tr t).front = some (i, x)) (hquiet : x.quiet = true) (hterm : x.term = none) :
    exec (.burstMissing t) s = .next (s.modTree t (fun y => { y with expects := y.expects.eraseIdx i })) := by
  show execBurstMissing t s = _
  unfold execBurstMissing
  rw [line_settled hcalm hdue]
  simp [hcalm.1, hfront, hquiet, hterm]

end

theorem front_single (hexpects : (s.tr t).expects = [x]) (h : (x.quiet || !x.heard) = true) : (s.tr t).front = some (0, x) := by
  unfold Tree.front
  rw [hexpects]
  exact findIdx_head (p := fun y : Expect => y.quiet || !y.heard) h [] 0

/-- What is due of one expectation. -/
theorem due_single (hexpects : (s.tr t).expects = [x]) (h : x.quiet = true ∨ x.heard = true → s.rxNow ≤ x.e) :
    ∀ x ∈ (s.tr t).expects, x.quiet = true ∨ x.heard = true → s.rxNow ≤ x.e := by
  rw [hexpects]
  intro y hy
  rwa [List.mem_singleton.1 hy]

theorem due_none (hexpects : (s.tr t).expects = []) : ∀ x ∈ (s.tr t).expects, x.quiet = true ∨ x.heard = true → s.rxNow ≤ x.e := by
  rw [hexpects]
  intro y hy
  cases hy

end Sys2Proof.Machine

end

section

/-! Outcomes of bursts, and light (O47): a ranging window, a missing burst, a stray light, light for a whole frame, and dark frames. -/

namespace Sys2Proof.Machine

variable {s : State} {t : Fin 64} {x : Expect} {u : Nat} {b : Burst}

/-! A ranging window (R281). -/

theorem eqdFits_iff {v : Int} : s.eqdFits t v = true ↔ 0 ≤ v ∧ v ≤ s.get F.PON_RNG_LIMIT_EQDLIM t := by
  simp [State.eqdFits]

/-- A delay that fits lies within EQD. -/
theorem eqdFits_lt {v : Int} (h : s.eqdFits t v = true) : v.toNat < 2 ^ 25 := by
  have hlim : s.get F.PON_RNG_LIMIT_EQDLIM t < 2 ^ 25 := State.get_lt ..
  obtain ⟨h0, h1⟩ := eqdFits_iff.1 h
  omega

theorem measureRange_fits {v : State} {off : Int} (hstate : v.termState t u = tmRANGING) (h : v.eqdFits t (-off) = true) :
    v.measureRange t u off = (v.set F.PON_TERM_EQD_EQD (-off).toNat t u).set F.PON_TERM_STATE_RANGED 1 t u :=
  (if_neg (not_not.2 hstate)).trans (if_pos h)

theorem measureRange_beyond {v : State} {off : Int} (hstate : v.termState t u = tmRANGING) (h : v.eqdFits t (-off) = false) :
    v.measureRange t u off = v.set F.PON_TERM_STATE_REACH 1 t u :=
  (if_neg (not_not.2 hstate)).trans (if_neg (Bool.eq_false_iff.1 h))

theorem measureRange_get {v : State} {off : Int} (hu : u < 256) {g : Fld} (hg : g.id.ofTree = true) (i : Nat) :
    (v.measureRange t u off).get g i = v.get g i := by
  unfold State.measureRange
  split
  · rfl
  · split
    · rw [State.get_set_term_tree _ hu rfl hg, State.get_set_term_tree _ hu rfl hg]
    · rw [State.get_set_term_tree _ hu rfl hg]

@[simp] theorem measureRange_offLine {v : State} {off : Int} : (v.measureRange t u off).offLine = v.offLine := by
  unfold State.measureRange
  split
  · rfl
  · split <;> simp only [State.set_offLine]

/-- The first burst in a ranging window is found and measured; one whose header fails its check counts as a collision (R279, R281). -/
theorem quietBurst_ranging (hterm : x.term = some u) (hheard : x.heard = false) (hploams : b.ploams = []) :
    s.quietBurst t 0 x b = if b.headerOk = true then (s.burstFound t x b).measureRange t u b.offset
      else ((s.burstFound t x b).measureRange t u b.offset).inc F.PON_ACT_CNT_DISCCOLL 1 t := by
  unfold State.quietBurst State.burstFound
  simp [hterm, hheard, hploams]

/-! A missing burst (R253, R273). -/

theorem pmBurst_expects (s : State) (o : Option Nat) (e : Bool) : ((s.pmBurst t o e).tr t).expects = (s.tr t).expects := by
  show (((s.pmBurst t o e).tr t).sansPm).expects = ((s.tr t).sansPm).expects
  rw [pmBurst_sansPm]

theorem burstMissed_operating (hu : u < 256) (hterm : x.term = some u) (hstate : s.termState t u = tmOPERATING) :
    let w := s.burstMissed t x
    let n := sget 0 (s.tr t).missRun u + 1
    w.get F.PON_TREE_STATUS_MISS t = 1 ∧ w.get F.PON_EVT_CNT_MISSING t = satAdd 511 (s.get F.PON_EVT_CNT_MISSING t) 1
      ∧ sget 0 (w.tr t).missRun u = n ∧ (w.tr t).expects = (s.tr t).expects ∧ w.offLine = s.offLine
      ∧ w.get F.PON_TERM_STATE_LOSI t u = if s.get F.PON_RNG_CTRL_LOSIN t ≤ n then 1 else s.get F.PON_TERM_STATE_LOSI t u := by
  intro w n
  have hplain : ¬ (s.termState t u = tmFREE ∨ s.termState t u = tmRESTORED ∧ s.switching t = true) := by
    rw [hstate]
    simp [tmOPERATING, tmFREE, tmRESTORED]
  have hw : w = s.burstMissed t x := rfl
  unfold State.burstMissed at hw
  rw [hterm] at hw
  dsimp only at hw
  rw [if_neg hplain] at hw
  rw [hw]
  refine ⟨?_, ?_, ?_, ?_, ?_, ?_⟩
  · split <;> simp (disch := decide) [State.get_set_term_tree _ hu]
  · split <;> (simp (disch := decide) only [State.get_set_term_tree _ hu, State.modTree_get, State.count_get, State.pmBurst_get, State.treeAcc_get,
      State.treeMark_get, State.get_set_tree, State.get_inc_sat]; rfl)
  · split <;> simp [n]
  · split <;> simp [pmBurst_expects]
  · split <;> simp
  · split <;> simp (disch := decide) [State.get_set_tree_term _ hu, State.inc]

/-! Light (R259, R289). -/

/-- A level of SD leaves the registers of the trees. -/
theorem get_set_sigdet (s : State) {g : Fld} (hg : g.id.ofTree = true) {k v i : Nat} (hi : i < 64) :
    (s.set F.SER_LANE_STATUS_SIGDET v k).get g i = s.get g i :=
  State.get_set_reg _ _ _ _ _ _ _ _ _ _ (Nat.ne_of_lt (Nat.lt_of_lt_of_le (tree_offset_below hg hi)
    (offset_ge (id := .SER_LANE_STATUS) k (by decide))))

theorem portOf_lt (s : State) (k : Nat) : s.portOf k < 64 := State.get_lt s F.PON_PROT_STATUS_PORT k 0 0

/-- What SD_CHANGE finds where nothing is expected: the new level, which has not been counted. -/
theorem sdChange_finds (hexpects : (s.tr t).expects = []) (level : Bool) :
    exec (.sdChange t level) s = .next (((s.set F.SER_LANE_STATUS_SIGDET (b2n level) (s.portOf t)).modTree t
      (fun x => { x with strayed := false })).strayCheck t) := by
  show execSdChange t level s = _
  unfold execSdChange
  dsimp only
  rw [closeDue_nothing (due_none (by rw [State.modTree_tr, State.set_tr, hexpects]))]

section
variable (s t) (level : Bool)

/-- The line as SD_CHANGE finds it. -/
def State.sdChanged : State := (s.set F.SER_LANE_STATUS_SIGDET (b2n level) (s.portOf t)).modTree t (fun x => { x with strayed := false })

theorem sdChanged_get {g : Fld} (hg : g.id.ofTree = true) : (s.sdChanged t level).get g t = s.get g t := by
  unfold State.sdChanged
  rw [State.modTree_get, get_set_sigdet s hg t.isLt]

theorem sdChanged_sigdet : (s.sdChanged t level).get F.SER_LANE_STATUS_SIGDET (s.portOf t) = b2n level := by
  unfold State.sdChanged
  rw [State.modTree_get]
  exact State.get_set_fits _ rfl (by cases level <;> decide)

theorem sdChanged_safe : (s.sdChanged t level).safe = s.safe := by
  have hk := portOf_lt s t
  have hget : (s.set F.SER_LANE_STATUS_SIGDET (b2n level) (s.portOf t)).get F.FLT_STATUS_SAFE = s.get F.FLT_STATUS_SAFE := by
    refine State.get_set_reg _ _ _ _ _ _ _ _ _ _ ?_
    simp only [Reg.offset, RegId.desc, F.FLT_STATUS_SAFE, F.SER_LANE_STATUS_SIGDET]
    omega
  unfold State.safe State.flag State.sdChanged
  rw [State.modTree_get, hget]

theorem sdChanged_receives : (s.sdChanged t level).receives t = s.receives t := by
  unfold State.receives State.flag
  rw [sdChanged_get s t level rfl, sdChanged_get s t level rfl, sdChanged_safe]

theorem sdChanged_portOf : (s.sdChanged t level).portOf t = s.portOf t := by
  unfold State.portOf
  exact sdChanged_get s t level rfl

theorem sdChanged_tr : (s.sdChanged t level).tr t = { s.tr t with strayed := false } := by
  unfold State.sdChanged
  rw [State.modTree_tr, State.set_tr]

end

/-- A high level outside all that is expected is counted once. -/
theorem strayCheck_strays (hr : s.receives t = true) (hsd : s.get F.SER_LANE_STATUS_SIGDET (s.portOf t) = 1) (hnew : (s.tr t).strayed = false)
    (hexpects : (s.tr t).expects = []) : s.strayCheck t = (s.modTree t (fun x => { x with strayed := true })).strayEvent t := by
  unfold State.strayCheck
  rw [flag_get _ _ _ rfl]
  simp [hr, hsd, hnew, hexpects]

/-- A STRAY event where rogue detection does not run. -/
theorem strayEvent_unwatched (h : s.rogueOn t = false) :
    s.strayEvent t = ((s.set F.PON_TREE_STATUS_STRAY 1 t).inc F.PON_EVT_CNT_STRAYS 1 t).treeMark t 7 := by
  unfold State.strayEvent
  simp only [h, Bool.not_false, if_true]

/-- A write of the log's own counter leaves the registers of the trees. -/
theorem logLimited_get_tree (s : State) {g : Fld} (hg : g.id.ofTree = true) (n : Nat) (p q : Word) :
    (s.logLimited n p q).get g t = s.get g t :=
  State.logLimited_get _ _ _ _ _ _ _ _ (Nat.ne_of_lt (Nat.lt_of_lt_of_le (tree_offset_below hg t.isLt) (offset_ge 0 (by decide))))

/-- A sign of a rogue terminal that shows already is only marked. -/
theorem setRogue_again {f : Fld} {mark : Nat} (h : s.flag f t = true) : s.setRogue t f mark = s.treeMark t mark := if_pos h

/-- Light for a whole frame shows in CONT, and in ONSET where it is the first sign (R289). -/
theorem setRogue_cont : (s.setRogue t F.PON_ROGUE_STATUS_CONT 2).offLine = s.offLine
    ∧ (s.setRogue t F.PON_ROGUE_STATUS_CONT 2).get F.PON_ROGUE_STATUS_CONT t = 1
    ∧ (s.get F.PON_ROGUE_STATUS_ROGUE t = 0 → s.get F.PON_ROGUE_STATUS_CONT t = 0 →
        (s.setRogue t F.PON_ROGUE_STATUS_CONT 2).get F.PON_ROGUE_STATUS_ONSET t = s.clk.frame % 2 ^ 24) := by
  have hframe : s.clk.frame % 2 ^ 24 < 2 ^ 24 := Nat.mod_lt _ (by decide)
  by_cases hcont : s.get F.PON_ROGUE_STATUS_CONT t = 1
  · rw [setRogue_again (by rw [flag_get _ _ _ rfl, hcont]; rfl)]
    exact ⟨rfl, hcont, fun _ h => absurd (hcont.symm.trans h) (by decide)⟩
  · have hflag : s.flag F.PON_ROGUE_STATUS_CONT t = false := by rw [flag_get _ _ _ rfl]; exact decide_eq_false hcont
    unfold State.setRogue
    rw [hflag, Bool.or_false]
    simp only [Bool.false_eq_true, if_false]
    refine ⟨?_, ?_, fun hrogue _ => ?_⟩
    · simp only [State.logLimited_offLine, State.treeMark_offLine, State.set_offLine]
      split <;> simp only [State.set_offLine]
    · rw [logLimited_get_tree _ rfl, State.treeMark_get, State.get_set_fits _ rfl (by decide)]
    · have hfirst : s.flag F.PON_ROGUE_STATUS_ROGUE t = false := by rw [flag_get _ _ _ rfl, hrogue]; rfl
      rw [logLimited_get_tree _ rfl, State.treeMark_get, State.get_set_sibling (f := F.PON_ROGUE_STATUS_CONT) (g := F.PON_ROGUE_STATUS_ONSET) _ rfl rfl (by decide),
        hfirst]
      exact State.get_set_fits _ rfl hframe

/-- Dark frames set LOS, and the present second of the tree's scope has one (R259, R267). -/
theorem los_sets (hcalm : s.receives t = true ∧ (s.get F.SER_LANE_STATUS_SIGDET (s.portOf t) = 0 ∨ (s.tr t).strayed = true))
    (hgroup : s.unbonded t) (hpair : s.get F.PON_PROT_CTRL_EN t = 0) (hlos : s.get F.PON_TREE_STATUS_LOS t = 0) :
    exec (.los t) s = .next ((s.set F.PON_TREE_STATUS_LOS 1 t).modPm t pmTREE (fun p => { p with los := true })) := by
  have hflag : s.flag F.PON_TREE_STATUS_LOS t = false := by rw [flag_get _ _ _ rfl, hlos]; rfl
  have hprot : ((s.set F.PON_TREE_STATUS_LOS 1 t).modPm t pmTREE (fun p => { p with los := true })).flag F.PON_PROT_CTRL_EN t = false := by
    rw [flag_get _ _ _ rfl, State.modPm_get, State.get_set_tree _ rfl rfl (by decide), hpair]
    rfl
  have hpairFlag : s.flag F.PON_PROT_CTRL_EN t = false := by rw [flag_get _ _ _ rfl, hpair]; rfl
  show execLos t s = _
  unfold execLos
  dsimp only
  rw [hcalm.1, hflag, strayCheck_calm (.inr hcalm.2), bondDegSet_unbonded (unbonded_setLos hgroup), hpairFlag]
  rfl

end Sys2Proof.Machine

end

section

/-! Bursts and light (O47): the events of the line, each with its outcome. -/

namespace Sys2Proof.Machine

variable {s : State} {t : Fin 64} {x : Expect} {u : Nat} {b : Burst}

/-! A burst found where its grant is expected (R253, R279, R280). -/

section
variable (hu : u < 256) (hterm : x.term = some u) (hgroup : s.unbonded t)
include hu hterm hgroup

theorem burstFound_missRun (hexpects : (s.tr t).expects = [x]) : sget 0 ((s.burstFound t x b).tr t).missRun u = 0 := by
  have h : ((s.burstFound t x b).tr t).missRun = sput 0 (s.tr t).missRun u 0 := congrArg Tree.missRun (burstFound_tree hu hterm hgroup hexpects)
  rw [h, sget_sput_same]

theorem burstFound_expects (hexpects : (s.tr t).expects = [x]) : ((s.burstFound t x b).tr t).expects = [{ x with heard := true }] :=
  congrArg Tree.expects (burstFound_tree (b := b) hu hterm hgroup hexpects)

theorem burstFound_ploamRx (hexpects : (s.tr t).expects = [x]) : ((s.burstFound t x b).tr t).ploamRx = (s.tr t).ploamRx := by
  have h := congrArg Tree.ploamRx (burstFound_tree (b := b) hu hterm hgroup hexpects)
  exact h

/-- The key of the terminal's messages is the same after its burst was found. -/
theorem burstFound_ploamKey : (s.burstFound t x b).ploamKey t u = s.ploamKey t u := by
  obtain ⟨-, -, -, -, -, -, hdp⟩ := offLine_fields (burstFound_offLine (b := b) hterm hgroup)
  unfold State.ploamKey
  rw [burstFound_get_term (g := F.PON_TERM_STATE_PIKSLOT) hu hterm hgroup rfl (.inr ⟨rfl, .inl (by decide)⟩), State.slot, State.slot, hdp]

end

/-! A ranging window (R281). -/

/-- A counter of the tree's window leaves the terminals' registers. -/
theorem get_inc_tree_term (s : State) {f g : Fld} {n i i' : Nat} (hu : u < 256) (hf : f.id.ofTree = true) (hg : g.id.ofTerm = true) :
    (s.inc f n i).get g i' u = s.get g i' u := State.get_set_tree_term s hu hf hg

/-- The measured delay is stored, or is beyond REACH. -/
theorem measureRange_result {v : State} {off : Int} (hstate : v.termState t u = tmRANGING) :
    (v.eqdFits t (-off) = true → (v.measureRange t u off).get F.PON_TERM_EQD_EQD t u = (-off).toNat
      ∧ (v.measureRange t u off).get F.PON_TERM_STATE_RANGED t u = 1)
    ∧ (v.eqdFits t (-off) = false → (v.measureRange t u off).get F.PON_TERM_EQD_EQD t u = v.get F.PON_TERM_EQD_EQD t u
      ∧ (v.measureRange t u off).get F.PON_TERM_STATE_REACH t u = 1) := by
  refine ⟨fun h => ?_, fun h => ?_⟩
  · rw [measureRange_fits hstate h, State.get_set_term (f := F.PON_TERM_STATE_RANGED) (g := F.PON_TERM_EQD_EQD) _ rfl rfl (by decide)]
    exact ⟨State.get_set_fits _ rfl (eqdFits_lt h), State.get_set_fits _ rfl (by decide)⟩
  · rw [measureRange_beyond hstate h]
    exact ⟨State.get_set_term _ rfl rfl (by decide), State.get_set_fits _ rfl (by decide)⟩

/-- A burst in a ranging window: its delay is measured, and one whose header fails counts as a collision (R279, R281). -/
theorem quietBurst_measures (hu : u < 256) (hterm : x.term = some u) (hgroup : s.unbonded t) (hheard : x.heard = false)
    (hploams : b.ploams = []) (hstate : s.termState t u = tmRANGING) :
    (s.quietBurst t 0 x b).offLine = s.offLine
    ∧ (s.eqdFits t (-b.offset) = true → (s.quietBurst t 0 x b).get F.PON_TERM_EQD_EQD t u = (-b.offset).toNat
        ∧ (s.quietBurst t 0 x b).get F.PON_TERM_STATE_RANGED t u = 1)
    ∧ (s.eqdFits t (-b.offset) = false → (s.quietBurst t 0 x b).get F.PON_TERM_EQD_EQD t u = s.get F.PON_TERM_EQD_EQD t u
        ∧ (s.quietBurst t 0 x b).get F.PON_TERM_STATE_REACH t u = 1)
    ∧ (s.quietBurst t 0 x b).get F.PON_ACT_CNT_DISCCOLL t = (if b.headerOk then s.get F.PON_ACT_CNT_DISCCOLL t
        else satAdd 511 (s.get F.PON_ACT_CNT_DISCCOLL t) 1) := by
  have hranging : (s.burstFound t x b).termState t u = tmRANGING :=
    (burstFound_get_term (g := F.PON_TERM_STATE_STATE) hu hterm hgroup rfl (.inr ⟨rfl, .inr (by decide)⟩)).trans hstate
  have hfits : (s.burstFound t x b).eqdFits t (-b.offset) = s.eqdFits t (-b.offset) := by
    unfold State.eqdFits
    rw [burstFound_get hu hterm hgroup rfl (by decide)]
  have heqd : (s.burstFound t x b).get F.PON_TERM_EQD_EQD t u = s.get F.PON_TERM_EQD_EQD t u :=
    burstFound_get_term hu hterm hgroup rfl (.inl (by decide))
  have hcoll : ((s.burstFound t x b).measureRange t u b.offset).get F.PON_ACT_CNT_DISCCOLL t = s.get F.PON_ACT_CNT_DISCCOLL t :=
    (measureRange_get hu rfl _).trans (burstFound_get hu hterm hgroup rfl (by decide) _)
  obtain ⟨hin, hbeyond⟩ := measureRange_result (off := b.offset) hranging
  rw [hfits] at hin hbeyond
  rw [heqd] at hbeyond
  have hline : ((s.burstFound t x b).measureRange t u b.offset).offLine = s.offLine :=
    measureRange_offLine.trans (burstFound_offLine hterm hgroup)
  rw [quietBurst_ranging hterm hheard hploams]
  cases b.headerOk with
  | true =>
    simp only [if_true]
    exact ⟨hline, hin, hbeyond, hcoll⟩
  | false =>
    simp only [Bool.false_eq_true, if_false]
    refine ⟨(State.inc_offLine ..).trans hline, ?_, ?_, ?_⟩
    · rwa [get_inc_tree_term _ hu rfl rfl, get_inc_tree_term _ hu rfl rfl]
    · rwa [get_inc_tree_term _ hu rfl rfl, get_inc_tree_term _ hu rfl rfl]
    · rw [State.get_inc_sat _ rfl, hcoll]
      rfl

/-! Rogue light (R289). -/

theorem foundBetween_suspect (hrogue : s.rogueOn t = true) (hheader : b.headerOk = true) (hid : b.onuId.toNat < 256) :
    (s.foundBetween t b).offLine = s.offLine ∧ (s.foundBetween t b).get F.PON_ROGUE_STATUS_SUSPECT t = b.onuId.toNat
      ∧ (s.foundBetween t b).get F.PON_ROGUE_STATUS_SUSPV t = 1 := by
  unfold State.foundBetween
  rw [hrogue, hheader, decide_eq_true hid]
  simp only [Bool.and_self, if_true, State.set_offLine]
  refine ⟨trivial, ?_, State.get_set_fits _ rfl (by decide)⟩
  rw [State.get_set_sibling (f := F.PON_ROGUE_STATUS_SUSPV) (g := F.PON_ROGUE_STATUS_SUSPECT) _ rfl rfl (by decide)]
  exact State.get_set_fits _ rfl hid

/-- A level of SD where no burst is expected and none is handled, or where it falls (R259). -/
theorem sdChange_calm {level : Bool} (hexpects : (s.tr t).expects = []) (h : level = false ∨ s.receives t = false) :
    exec (.sdChange t level) s = .next (s.sdChanged t level) := by
  refine (sdChange_finds hexpects level).trans (congrArg _ (strayCheck_calm (s := s.sdChanged t level) ?_))
  rcases h with rfl | h
  · right
    left
    rw [sdChanged_portOf, sdChanged_sigdet]
    rfl
  · exact .inl ((sdChanged_receives ..).trans h)

/-- A high level of SD where no burst is expected is a STRAY (R259). -/
theorem sdChange_strays (hexpects : (s.tr t).expects = []) (hr : s.receives t = true) (hrogue : s.rogueOn t = false) :
    exec (.sdChange t true) s = .next (((((s.sdChanged t true).modTree t (fun x => { x with strayed := true })).set F.PON_TREE_STATUS_STRAY 1 t).inc
      F.PON_EVT_CNT_STRAYS 1 t).treeMark t 7) := by
  have hunwatched : ((s.sdChanged t true).modTree t (fun x => { x with strayed := true })).rogueOn t = false := by
    unfold State.rogueOn State.flag State.switching at *
    rwa [State.modTree_get, State.modTree_get, sdChanged_get s t true rfl, sdChanged_get s t true rfl]
  refine (sdChange_finds hexpects true).trans (congrArg _ ?_)
  refine (strayCheck_strays (s := s.sdChanged t true) ((sdChanged_receives ..).trans hr) ?_ ?_ ?_).trans (strayEvent_unwatched hunwatched)
  · rw [sdChanged_portOf, sdChanged_sigdet]
    rfl
  · rw [sdChanged_tr]
  · rw [sdChanged_tr, hexpects]

theorem sdChanged_offLine (s : State) (t : Fin 64) (level : Bool) : (s.sdChanged t level).offLine = s.offLine := by
  unfold State.sdChanged
  rw [State.modTree_offLine, State.set_offLine]

/-- A register of a tree's window leaves the level of SD at every port. -/
theorem get_set_tree_lane (s : State) {f : Fld} {v k : Nat} (hf : f.id.ofTree = true) :
    (s.set f v t).get F.SER_LANE_STATUS_SIGDET k = s.get F.SER_LANE_STATUS_SIGDET k :=
  State.get_set_reg _ _ _ _ _ _ _ _ _ _ (Nat.ne_of_lt (Nat.lt_of_lt_of_le (tree_offset_below hf t.isLt)
    (offset_ge (id := .SER_LANE_STATUS) k (by decide)))).symm

theorem get_inc_tree_lane (s : State) {f : Fld} {n k : Nat} (hf : f.id.ofTree = true) :
    (s.inc f n t).get F.SER_LANE_STATUS_SIGDET k = s.get F.SER_LANE_STATUS_SIGDET k := get_set_tree_lane s hf

theorem cont_sets (hr : s.receives t = true) (hrogue : s.rogueOn t = true) (hsd : s.get F.SER_LANE_STATUS_SIGDET (s.portOf t) = 1) :
    exec (.cont t) s = .next (s.setRogue t F.PON_ROGUE_STATUS_CONT 2) := by
  show execCont t s = _
  unfold execCont
  rw [hr, hrogue, flag_get _ _ _ rfl, hsd]
  rfl

/-- Where the receiver of the tree handles no bursts, no event of the line does anything. -/
theorem line_idle (hr : s.receives t = false) : exec (.burstReceived t b) s = .next s ∧ exec (.burstMissing t) s = .next s
    ∧ exec (.cont t) s = .next s ∧ exec (.los t) s = .next s := by
  refine ⟨?_, ?_, ?_, ?_⟩
  · show execBurstReceived t b s = _
    exact if_pos (by rw [hr]; rfl)
  · show execBurstMissing t s = _
    exact if_pos (by rw [hr]; rfl)
  · show execCont t s = _
    exact if_neg (by rw [hr]; simp)
  · show execLos t s = _
    exact if_pos (by rw [hr]; rfl)

/-- Settles O47: each event of the line comes to the expectation that waits, or finds that none does, and its outcome is read off. -/
theorem burstsAndLight : Obligations.BurstsAndLight := by
  unfold Obligations.BurstsAndLight
  intro s t b x u m level
  have hkeeps : ∀ s' : State, s'.offLine = s.offLine → s'.pending = s.pending ∧ s'.cmd = s.cmd ∧ s'.map = s.map ∧ s'.boot = s.boot
      ∧ s'.clk = s.clk ∧ s'.dp = s.dp := by
    intro s' h
    obtain ⟨hpending, -, hcmd, hmap, hboot, hclk, hdp⟩ := offLine_fields h
    exact ⟨hpending, hcmd, hmap, hboot, hclk, hdp⟩
  intro keeps calm waits single plain n seen
  have hseen : ∀ (f : Tree → Tree), (∀ y, (f y).missRun = y.missRun ∧ (f y).expects = y.expects) → single → (s.tr t).expects = [x] → x.term = some u
      → u < 256 → seen ((s.burstFound t x b).modTree t f) := by
    intro f hf hsingle hexpects hterm hu
    obtain ⟨hlos, hlosi⟩ := burstFound_clears (b := b) hu hterm hsingle
    obtain ⟨hrun, hexp⟩ := hf ((s.burstFound t x b).tr t)
    refine ⟨hkeeps _ ((State.modTree_offLine ..).trans (burstFound_offLine hterm hsingle)), hlos, hlosi, ?_, ?_⟩
    · rw [State.modTree_tr, hrun]
      exact burstFound_missRun hu hterm hsingle hexpects
    · rw [State.modTree_tr, hexp]
      exact burstFound_expects hu hterm hsingle hexpects
  refine ⟨?_, ?_, ?_, ?_, ?_, ?_, ?_, ?_, ?_, line_idle⟩
  · rintro ⟨hcalm, hexpects, hheard, hterm, hu⟩ ⟨hsingle, hdrift, hstate⟩ hquiet hfinds
    have hrun := burstReceived_found hcalm (due_single hexpects (by simp [hquiet, hheard])) (front_single hexpects (by simp [hheard])) hfinds
    rw [hquiet, if_neg (by decide)] at hrun
    have hsame := hseen id (fun _ => ⟨rfl, rfl⟩) hsingle hexpects hterm hu
    rw [State.modTree_id _ _ _ rfl] at hsame
    refine ⟨fun hbad => ?_, fun hok hid hreports hframes => ?_⟩
    · rw [grantBurst_found hu hterm hsingle hdrift hstate (by simp [hbad]), if_neg (by simp [hbad])] at hrun
      exact ⟨_, hrun, hsame, burstFound_ploamRx hu hterm hsingle hexpects⟩
    · rw [grantBurst_found hu hterm hsingle hdrift hstate (fun _ => hid), if_pos hok, hreports, hframes, List.foldl_nil, List.foldl_nil] at hrun
      refine ⟨fun hnone => ?_, fun hone hroom hmic => ?_⟩
      · rw [hnone, List.foldl_nil] at hrun
        exact ⟨_, hrun, hsame, burstFound_ploamRx hu hterm hsingle hexpects⟩
      · rw [hone, List.foldl_cons, List.foldl_nil, takePloam_queued hterm (by rwa [burstFound_ploamKey hu hterm hsingle])
          (by rwa [burstFound_ploamRx hu hterm hsingle hexpects])] at hrun
        refine ⟨_, hrun, hseen _ (fun _ => ⟨rfl, rfl⟩) hsingle hexpects hterm hu, ?_⟩
        rw [State.modTree_tr, burstFound_ploamRx hu hterm hsingle hexpects]
  · rintro ⟨hcalm, hexpects, hheard, hterm, hu⟩ hquiet hnow hfinds hploams hstate hsingle
    have hrun := burstReceived_found hcalm (due_single hexpects fun _ => hnow) (front_single hexpects (by simp [hheard])) hfinds
    rw [if_pos hquiet] at hrun
    obtain ⟨hline, hin, hbeyond, hcoll⟩ := quietBurst_measures hu hterm hsingle hheard hploams hstate
    exact ⟨_, hrun, hkeeps _ hline, hin, hbeyond, hcoll⟩
  · intro hcalm hexpects hrogue hheader hid
    obtain ⟨hline, hsuspect, hvalid⟩ := foundBetween_suspect hrogue hheader hid
    exact ⟨_, burstReceived_between hcalm (due_none hexpects) (by rw [Tree.front, hexpects]; rfl), hkeeps _ hline, hsuspect, hvalid⟩
  · rintro ⟨hcalm, hexpects, hheard, hterm, hu⟩ hquiet hstate
    obtain ⟨hmiss, hcount, hrun, hexp, hline, hlosi⟩ := burstMissed_operating (s := s.putExpect t 0 { x with heard := true }) hu hterm hstate
    have hput : (s.putExpect t 0 { x with heard := true }).tr t = { s.tr t with expects := [{ x with heard := true }] } := by
      rw [State.putExpect, State.modTree_tr, hexpects]
      rfl
    rw [hput] at hrun hexp hlosi
    exact ⟨_, burstMissing_grant hcalm (due_single hexpects (by simp [hquiet, hheard])) (front_single hexpects (by simp [hheard])) hquiet,
      hkeeps _ hline, hmiss, hcount, hrun, hlosi, hexp⟩
  · intro hcalm hexpects hquiet hterm hnow
    refine ⟨_, burstMissing_discovery hcalm (due_single hexpects fun _ => hnow) (front_single hexpects (by simp [hquiet])) hquiet hterm,
      hkeeps _ (State.modTree_offLine ..), ?_, rfl⟩
    rw [State.modTree_tr, hexpects]
    rfl
  · intro hexpects h
    refine ⟨_, sdChange_calm hexpects h, hkeeps _ (sdChanged_offLine ..), sdChanged_sigdet .., ?_⟩
    rw [sdChanged_tr]
  · intro hexpects hr hrogue
    have hsd : (s.sdChanged t true).get F.SER_LANE_STATUS_SIGDET (s.portOf t) = 1 := sdChanged_sigdet ..
    refine ⟨_, sdChange_strays hexpects hr hrogue, hkeeps _ ?_, ?_, ?_, ?_, ?_⟩
    · simp only [State.treeMark_offLine, State.inc_offLine, State.set_offLine, State.modTree_offLine, sdChanged_offLine]
    · rw [State.treeMark_get, get_inc_tree_lane _ rfl, get_set_tree_lane _ rfl, State.modTree_get, hsd]
    · rw [State.treeMark_tr, State.inc_tr, State.set_tr, State.modTree_tr]
    · rw [State.treeMark_get, State.get_inc_tree (g := F.PON_TREE_STATUS_STRAY) _ rfl rfl (by decide)]
      exact State.get_set_fits _ rfl (by decide)
    · rw [State.treeMark_get, State.get_inc_sat _ rfl, State.get_set_tree (g := F.PON_EVT_CNT_STRAYS) _ rfl rfl (by decide), State.modTree_get,
        sdChanged_get s t true rfl]
      rfl
  · intro hr hrogue hsd
    obtain ⟨hline, hcont, honset⟩ := setRogue_cont (s := s) (t := t)
    exact ⟨_, cont_sets hr hrogue hsd, hkeeps _ hline, hcont, honset⟩
  · intro hcalm hsingle hpair hlos
    refine ⟨_, los_sets hcalm hsingle hpair hlos, hkeeps _ (by rw [State.modPm_offLine, State.set_offLine]), ?_, ?_⟩
    · rw [State.modPm_get, State.get_set_fits _ rfl (by decide)]
    · rw [State.modPm, State.modTree_tr]
      dsimp only
      rw [sget_smod_same]

end Sys2Proof.Machine

end

section

/-! Writes of a tree's registers (O49): which of them are judged, that a rejection leaves its status in the tree's own ERR, and what a
write that is carried out leaves. -/

namespace Sys2Proof.Machine

variable {s : State} {t : Fin 64} {u : Nat} {v : Word}

/-! A host write of a register of the window. -/

/-- The registers of a tree whose writes are judged by the state of the trees. -/
def treeJudged : List RegId := [.PON_DS_CTRL, .PON_BOND_CTRL, .PON_PM_CTRL, .PON_PM_SEL, .PON_PROT_CTRL]

theorem treeJudged_plain : ∀ id ∈ treeJudged, ∀ t : Fin 64, Reg.plain ⟨id, t, 0, 0⟩ = true := by decide

theorem treeJudged_ofTree : ∀ id ∈ treeJudged, id.ofTree = true := by decide

theorem treeJudged_block {id : RegId} (hid : id ∈ treeJudged) : Reg.block ⟨id, t, 0, 0⟩ = 4 := by
  have hlo := tree_offset_below (treeJudged_ofTree id hid) t.isLt
  obtain ⟨p, hp, hb, ho⟩ := RegId.ofTree_offset (treeJudged_ofTree id hid)
  unfold Reg.block
  have := ho t
  omega

theorem Status.code_lt (st : Status) : st.code < 2 ^ 8 := by cases st <;> decide

/-- No rejection is kept in the window of a tree. -/
theorem tree_not_reject {id : RegId} (h : id.ofTree = true) {i : Nat} (hi : i < 64) : ¬ rejectRegs (Reg.offset ⟨id, i, 0, 0⟩) := by
  obtain ⟨p, hp, -, ho⟩ := RegId.ofTree_offset h
  rw [ho]
  rintro (⟨n, hn, h⟩ | h | h) <;> simp only [Reg.offset, RegId.desc] at h <;> omega

theorem treeWrite_done {id : RegId} {s' : State} (hid : id ∈ treeJudged) (h : WriteReaches s ⟨id, t, 0, 0⟩ v)
    (hb : s.ponWrite ⟨id, t, 0, 0⟩ v = .done s') : s.writeOf id t 0 v = .next s' :=
  write_done h (treeJudged_plain id hid t) ((State.blockWrite_4 _ _ _ _ (treeJudged_block hid)).trans hb)

theorem treeWrite_rejected {id : RegId} {st : Status} (hid : id ∈ treeJudged) (h : WriteReaches s ⟨id, t, 0, 0⟩ v)
    (hb : s.ponWrite ⟨id, t, 0, 0⟩ v = .reject st) : ∃ s', s.writeOf id t 0 v = .next s' ∧ Rejected s s' F.PON_TREE_STATUS_ERR t st :=
  write_rejected h (treeJudged_plain id hid t) ((State.blockWrite_4 _ _ _ _ (treeJudged_block hid)).trans hb)
    (if_pos (treeJudged_block hid)) rfl (tree_not_reject (by decide) t.isLt) st.code_lt

theorem judge_eabsent {range refused : Bool} {k : WriteRes} : judge true range refused k = .reject .eabsent := (rfl)

theorem ofNat_tree (t : Fin 64) : Fin.ofNat 64 t.val = t := Fin.ext (Nat.mod_eq_of_lt t.isLt)

/-! Fields through a write, and through the lanes' settling. -/

@[simp] theorem plainWrite_get_tree (s : State) {id : RegId} {g : Fld} (hid : id.ofTree = true) (hg : g.id.ofTree = true)
    (hne : g.id.desc.base ≠ id.desc.base) (k i : Nat) : (s.plainWrite ⟨id, k, 0, 0⟩ v).get g i = s.get g i :=
  get_plain_ne _ _ _ _ _ _ _ (tree_offset_ne hid hg hne)

/-- A read-write field of the register written. -/
theorem plainWrite_get_same (s : State) {f : Fld} (hok : f.ok = true) (hm : f.within f.id.desc.rw = true) (i : Nat) :
    (s.plainWrite ⟨f.id, i, 0, 0⟩ v).get f i = fv v f := get_plain_rw s ⟨f.id, i, 0, 0⟩ v f rfl hok hm

@[simp] theorem laneSettle_get_tree (s : State) (k : Nat) {g : Fld} (hg : g.id.ofTree = true) {i : Nat} (hi : i < 64) :
    (s.laneSettle k).get g i = s.get g i :=
  laneSettle_get_below _ (Nat.lt_of_lt_of_le (tree_offset_below hg hi) (by decide))

/-! Steps of which one matters. -/

section
variable {α β : Type} {R : α → α → Prop} {f : α → β → α}

/-- What relates a state to itself and to every step of a run relates it to the run's end. -/
theorem foldl_rel (hrefl : ∀ s, R s s) (htrans : ∀ {s u v}, R s u → R u v → R s v) {l : List β} (h : ∀ s, ∀ b ∈ l, R s (f s b)) (s : α) :
    R s (l.foldl f s) := by
  induction l generalizing s with
  | nil => exact hrefl s
  | cons b l ih =>
    exact htrans (h s b List.mem_cons_self) (ih (fun s b hb => h s b (List.mem_cons_of_mem _ hb)) _)

/-- In a run that meets a once, R leads to the step at a, and from it to the end, where R relates every other step. -/
theorem foldl_once (hrefl : ∀ s, R s s) (htrans : ∀ {s u v}, R s u → R u v → R s v) {l : List β} {a : β} (hnd : l.Nodup) (ha : a ∈ l)
    (h : ∀ s, ∀ b ∈ l, b ≠ a → R s (f s b)) (s : α) : ∃ s1, R s s1 ∧ R (f s1 a) (l.foldl f s) := by
  induction l generalizing s with
  | nil => cases ha
  | cons b l ih =>
    obtain ⟨hb, hnd⟩ := List.nodup_cons.1 hnd
    rw [List.foldl_cons]
    by_cases hab : b = a
    · subst hab
      refine ⟨s, hrefl s, foldl_rel hrefl htrans (fun s c hc => h s c (List.mem_cons_of_mem _ hc) ?_) _⟩
      rintro rfl
      exact hb hc
    · obtain ⟨s1, h1, h2⟩ := ih hnd (List.mem_of_ne_of_mem (Ne.symm hab) ha) (fun s c hc => h s c (List.mem_cons_of_mem _ hc)) (f s b)
      exact ⟨s1, htrans (h s b List.mem_cons_self hab) h1, h2⟩

end

/-! A tree's mode and loopback (R238, R239, R260). -/

/-- A burst profile that no longer is one. -/
def State.profileOff (s : State) (k : Nat) : State :=
  s.tabPut 0x41 k (setW (s.tabGet 0x41 k) 0 (BitVec.ofNat 36 (ent (s.tabGet 0x41 k) 0 % 2 ^ 35)))

theorem setW_invalid (ws : List Word) : entValid (setW ws 0 (BitVec.ofNat 36 (ent ws 0 % 2 ^ 35))) = false := by
  cases ws with
  | nil => rfl
  | cons w ws =>
    have hlt : (ent (w :: ws) 0 % 2 ^ 35) % 2 ^ 36 < 2 ^ 35 := by omega
    simpa [entValid, ent, setW, setNth, nth] using hlt

theorem profileOff_same (s : State) (k : Nat) : entValid ((s.profileOff k).tabGet 0x41 k) = false := by
  unfold State.profileOff State.tabPut State.tabGet
  dsimp only
  rw [sget_sput_same]
  split
  · rfl
  · exact setW_invalid _

theorem profileOff_ne (s : State) {k k' : Nat} (h : k' ≠ k) : (s.profileOff k).tabGet 0x41 k' = s.tabGet 0x41 k' := by
  unfold State.profileOff State.tabPut State.tabGet
  exact sget_sput_ne _ _ _ _ (fun hk => h (Nat.add_left_cancel hk))

/-- A tree without its four burst profiles. -/
def State.profilesOff (s : State) (t : Nat) : State := (range' 0 4).foldl (fun s p => s.profileOff (t * 4 + p)) s

theorem profilesOff_invalid (s : State) (t : Nat) (p : Fin 4) : entValid ((s.profilesOff t).tabGet 0x41 (t * 4 + p)) = false := by
  have hnd : (range' 0 4).Nodup := by decide
  have hp := p.isLt
  obtain ⟨s1, -, h⟩ := foldl_once (R := fun s u : State => u.tabGet 0x41 (t * 4 + p) = s.tabGet 0x41 (t * 4 + p))
    (f := fun s p => s.profileOff (t * 4 + p)) (fun _ => rfl) (fun h1 h2 => h2.trans h1) hnd (mem_range'.2 ⟨Nat.zero_le _, by omega⟩)
    (fun s b _ hb => profileOff_ne s (by omega)) s
  exact (congrArg entValid h).trans (profileOff_same ..)

@[simp] theorem profilesOff_get (s : State) (t : Nat) (g : Fld) (i j k : Nat) : (s.profilesOff t).get g i j k = s.get g i j k :=
  foldl_fld (fun s p => State.profileOff s (t * 4 + p)) (fun s => s.get g i j k) (fun _ _ => rfl) _ _

@[simp] theorem profilesOff_tr (s : State) (k : Nat) : (s.profilesOff k).tr t = s.tr t :=
  foldl_fld (fun s p => State.profileOff s (k * 4 + p)) (fun s => s.tr t) (fun _ _ => rfl) _ _

theorem profilesOff_engines (s : State) (t : Nat) :
    ((s.profilesOff t).pending, (s.profilesOff t).cmd, (s.profilesOff t).map) = (s.pending, s.cmd, s.map) :=
  foldl_fld (fun s p => State.profileOff s (t * 4 + p)) (fun s => (s.pending, s.cmd, s.map)) (fun _ _ => rfl) _ _

/-- The alignment machine of a tree whose loopback goes from one mode to another: it starts with loopback and ends with it (R260). -/
def State.realigned (s : State) (t : Fin 64) (lb was : Nat) : State :=
  if lb ≠ 0 ∧ was = 0 then
    (s.set F.PON_ALIGN_STATUS_STATE alHUNT t).modTree t (fun x => { x with expects := [], cand := 0, conf := 0, count := 0 })
  else if lb = 0 then (s.set F.PON_ALIGN_STATUS_STATE alOFF t).set F.PON_ALIGN_STATUS_MISSES 0 t
  else s

theorem realigned_starts (s : State) {lb : Nat} (hlb : lb ≠ 0) :
    (s.realigned t lb 0).get F.PON_ALIGN_STATUS_STATE t = 1 ∧ ((s.realigned t lb 0).tr t).expects = [] := by
  unfold State.realigned
  rw [if_pos ⟨hlb, rfl⟩, State.modTree_get, State.modTree_tr]
  exact ⟨State.get_set_fits _ rfl (by decide), rfl⟩

theorem realigned_ends (s : State) (was : Nat) :
    (s.realigned t 0 was).get F.PON_ALIGN_STATUS_STATE t = 0 ∧ (s.realigned t 0 was).get F.PON_ALIGN_STATUS_MISSES t = 0 := by
  unfold State.realigned
  rw [if_neg (by simp), if_pos rfl]
  refine ⟨?_, State.get_set_fits _ rfl (by decide)⟩
  rw [State.get_set_sibling (f := F.PON_ALIGN_STATUS_MISSES) (g := F.PON_ALIGN_STATUS_STATE) _ rfl rfl (by decide)]
  exact State.get_set_fits _ rfl (by decide)

theorem realigned_get (s : State) (lb was : Nat) {g : Fld} (hg : g.id.ofTree = true) (hne : g.id.desc.base ≠ F.PON_ALIGN_STATUS_STATE.id.desc.base) (i : Nat) :
    (s.realigned t lb was).get g i = s.get g i := by
  unfold State.realigned
  split
  · rw [State.modTree_get, State.get_set_tree (f := F.PON_ALIGN_STATUS_STATE) _ rfl hg hne]
  · split
    · rw [State.get_set_tree (f := F.PON_ALIGN_STATUS_MISSES) _ rfl hg hne, State.get_set_tree (f := F.PON_ALIGN_STATUS_STATE) _ rfl hg hne]
    · rfl

theorem realigned_offLine (s : State) (lb was : Nat) : (s.realigned t lb was).offLine = s.offLine := by
  unfold State.realigned
  split
  · rw [State.modTree_offLine, State.set_offLine]
  · split
    · rw [State.set_offLine, State.set_offLine]
    · rfl

theorem realigned_tr_ne (s : State) (lb was : Nat) {w : Fin 64} (h : w ≠ t) : (s.realigned t lb was).tr w = s.tr w := by
  unfold State.realigned
  split
  · rw [State.modTree_tr_ne _ _ _ _ h, State.set_tr]
  · split
    · rw [State.set_tr, State.set_tr]
    · rfl

/-- What a write of PON_DS_CTRL that is carried out leaves. -/
def State.dsCtrlWritten (s : State) (t : Fin 64) (v : Word) : State :=
  let s1 := s.plainWrite ⟨.PON_DS_CTRL, t, 0, 0⟩ v
  let s2 := if fv v F.PON_DS_CTRL_MODE ≠ s.get F.PON_DS_CTRL_MODE t then s1.profilesOff t else s1
  (s2.realigned t (fv v F.PON_DS_CTRL_LBMODE) (s.get F.PON_DS_CTRL_LBMODE t)).laneSettle (s.portOf t)

/-- Whether the state of the tree refuses a mode or a loopback. -/
def State.dsCtrlRefused (s : State) (t : Fin 64) (v : Word) : Bool :=
  (fv v F.PON_DS_CTRL_MODE ≠ s.get F.PON_DS_CTRL_MODE t && (s.flag F.PON_TREE_STATUS_ENABLED t || s.inGroup t || s.inProtPair t none))
    || (fv v F.PON_DS_CTRL_LBMODE ≠ 0 && s.flag F.PON_TREE_STATUS_ENABLED t && s.get F.MAP_ENG_STATUS_STATE t = engSTARTED)

theorem dsCtrlWrite_judged : s.ponWrite ⟨.PON_DS_CTRL, t, 0, 0⟩ v = judge (fv v F.PON_DS_CTRL_MODE = 1 && !s.chip.pon50)
    (fv v F.PON_DS_CTRL_LBMODE = 3) (s.dsCtrlRefused t v) (.done (s.dsCtrlWritten t v)) := by
  show s.dsCtrlWrite ⟨.PON_DS_CTRL, t, 0, 0⟩ v = _
  unfold State.dsCtrlWrite
  dsimp only
  rw [ofNat_tree]
  rfl

/-- Fields outside its own register and the alignment machine's. -/
theorem dsCtrlWritten_get {g : Fld} (hg : g.id = .PON_DS_CTRL) (i : Nat) (hi : i < 64) :
    (s.dsCtrlWritten t v).get g i = (s.plainWrite ⟨.PON_DS_CTRL, t, 0, 0⟩ v).get g i := by
  have htree : g.id.ofTree = true := by rw [hg]; rfl
  unfold State.dsCtrlWritten
  dsimp only
  rw [laneSettle_get_tree _ _ htree hi, realigned_get _ _ _ htree (by rw [hg]; decide)]
  split
  · rw [profilesOff_get]
  · rfl

theorem dsCtrlWritten_aligns (hlb : fv v F.PON_DS_CTRL_LBMODE ≠ 0) (hwas : s.get F.PON_DS_CTRL_LBMODE t = 0) :
    (s.dsCtrlWritten t v).get F.PON_ALIGN_STATUS_STATE t = 1 ∧ ((s.dsCtrlWritten t v).tr t).expects = [] := by
  unfold State.dsCtrlWritten
  dsimp only
  rw [laneSettle_get_tree _ _ rfl t.isLt, State.laneSettle_tr, hwas]
  exact realigned_starts _ hlb

theorem dsCtrlWritten_stops (hlb : fv v F.PON_DS_CTRL_LBMODE = 0) :
    (s.dsCtrlWritten t v).get F.PON_ALIGN_STATUS_STATE t = 0 ∧ (s.dsCtrlWritten t v).get F.PON_ALIGN_STATUS_MISSES t = 0 := by
  unfold State.dsCtrlWritten
  dsimp only
  rw [laneSettle_get_tree _ _ rfl t.isLt, laneSettle_get_tree _ _ rfl t.isLt, hlb]
  exact realigned_ends _ _

/-- A change of mode invalidates the tree's profiles (R239). -/
theorem dsCtrlWritten_profiles (hmode : fv v F.PON_DS_CTRL_MODE ≠ s.get F.PON_DS_CTRL_MODE t) (p : Fin 4) :
    entValid ((s.dsCtrlWritten t v).tabGet 0x41 (t * 4 + p)) = false := by
  have hdp : (s.dsCtrlWritten t v).dp = ((s.plainWrite ⟨.PON_DS_CTRL, t, 0, 0⟩ v).profilesOff t).dp := by
    unfold State.dsCtrlWritten
    dsimp only
    rw [if_pos hmode]
    obtain ⟨-, -, hsettled⟩ := laneSettle_fr (((s.plainWrite ⟨.PON_DS_CTRL, t, 0, 0⟩ v).profilesOff t).realigned t (fv v F.PON_DS_CTRL_LBMODE)
      (s.get F.PON_DS_CTRL_LBMODE t)) (s.portOf t)
    obtain ⟨-, -, -, -, -, -, hdp⟩ := offLine_fields (realigned_offLine (t := t) ((s.plainWrite ⟨.PON_DS_CTRL, t, 0, 0⟩ v).profilesOff t)
      (fv v F.PON_DS_CTRL_LBMODE) (s.get F.PON_DS_CTRL_LBMODE t))
    exact hsettled.trans hdp
  unfold State.tabGet
  rw [hdp]
  exact profilesOff_invalid _ t p

theorem dsCtrlWritten_engines : (s.dsCtrlWritten t v).pending = s.pending ∧ (s.dsCtrlWritten t v).cmd = s.cmd ∧ (s.dsCtrlWritten t v).map = s.map := by
  have hoff : ∀ u : State,
      ((u.realigned t (fv v F.PON_DS_CTRL_LBMODE) (s.get F.PON_DS_CTRL_LBMODE t)).laneSettle (s.portOf t)).offLine = u.offLine :=
    fun u => (State.laneSettle_offLine ..).trans (realigned_offLine ..)
  unfold State.dsCtrlWritten
  dsimp only
  obtain ⟨hpending, -, hcmd, hmap, -⟩ := offLine_fields (hoff (if fv v F.PON_DS_CTRL_MODE ≠ s.get F.PON_DS_CTRL_MODE t
    then (s.plainWrite ⟨.PON_DS_CTRL, t, 0, 0⟩ v).profilesOff t else s.plainWrite ⟨.PON_DS_CTRL, t, 0, 0⟩ v))
  rw [hpending, hcmd, hmap]
  split
  · have h := profilesOff_engines (s.plainWrite ⟨.PON_DS_CTRL, t, 0, 0⟩ v) t
    simp only [Prod.mk.injEq] at h
    exact h
  · exact ⟨rfl, rfl, rfl⟩

theorem dsCtrlWritten_tr {w : Fin 64} (h : w ≠ t) : (s.dsCtrlWritten t v).tr w = s.tr w := by
  unfold State.dsCtrlWritten
  dsimp only
  rw [State.laneSettle_tr, realigned_tr_ne _ _ _ h]
  split
  · rw [profilesOff_tr, State.plainWrite_tr]
  · rw [State.plainWrite_tr]

theorem inGroup_iff (s : State) (k : Nat) : s.inGroup k = true ↔ s.get F.PON_BOND_CTRL_EN k = 1 ∨ s.bondMember k ≠ none := by
  unfold State.inGroup
  rw [flag_get _ _ _ rfl]
  simp [Option.isSome_iff_ne_none]

theorem dsCtrlRefused_iff : s.dsCtrlRefused t v = true ↔
    (fv v F.PON_DS_CTRL_MODE ≠ s.get F.PON_DS_CTRL_MODE t
      ∧ (s.get F.PON_TREE_STATUS_ENABLED t = 1 ∨ s.inGroup t = true ∨ s.inProtPair t none = true))
    ∨ (fv v F.PON_DS_CTRL_LBMODE ≠ 0 ∧ s.get F.PON_TREE_STATUS_ENABLED t = 1 ∧ s.get F.MAP_ENG_STATUS_STATE t = engSTARTED) := by
  unfold State.dsCtrlRefused
  rw [flag_get _ _ _ rfl]
  simp only [Bool.or_eq_true, Bool.and_eq_true, decide_eq_true_eq, or_assoc, and_assoc]

/-- PON_DS_CTRL: a mode the part has no light for is absent, a loopback that is not one out of range, and a tree at work or bound to
another keeps its mode (R239, R260, R292). -/
theorem dsCtrl_settled (h : WriteReaches s ⟨.PON_DS_CTRL, t, 0, 0⟩ v) :
    let err (st : Status) := ∃ s', exec (.ponDsCtrl t v) s = .next s' ∧ Rejected s s' F.PON_TREE_STATUS_ERR t st
    let mode := fv v F.PON_DS_CTRL_MODE
    let lb := fv v F.PON_DS_CTRL_LBMODE
    let on := s.get F.PON_TREE_STATUS_ENABLED t = 1
    let alone := s.get F.PON_BOND_CTRL_EN t = 0 ∧ s.bondMember t = none ∧ s.inProtPair t none = false
    (mode = 1 → s.chip.pon50 = false → err .eabsent)
    ∧ ((mode = 0 ∨ s.chip.pon50 = true) → (lb = 3 → err .erange)
      ∧ (lb ≠ 3 → (mode ≠ s.get F.PON_DS_CTRL_MODE t ∧ (on ∨ s.get F.PON_BOND_CTRL_EN t = 1 ∨ s.bondMember t ≠ none))
          ∨ (lb ≠ 0 ∧ on ∧ s.get F.MAP_ENG_STATUS_STATE t = engSTARTED) → err .estate)
      ∧ (lb ≠ 3 → (mode = s.get F.PON_DS_CTRL_MODE t ∨ (¬ on ∧ alone)) → (lb = 0 ∨ ¬ on ∨ s.get F.MAP_ENG_STATUS_STATE t ≠ engSTARTED) →
          exec (.ponDsCtrl t v) s = .next (s.dsCtrlWritten t v))) := by
  intro err mode lb on alone
  refine ⟨fun hmode hpart => ?_, fun hpresent => ?_⟩
  · refine treeWrite_rejected (by decide) h (dsCtrlWrite_judged.trans ?_)
    rw [decide_eq_true hmode, hpart]
    rfl
  · have hjudge := dsCtrlWrite_judged (s := s) (t := t) (v := v)
    have habsent : (decide (fv v F.PON_DS_CTRL_MODE = 1) && !s.chip.pon50) = false := by
      rcases hpresent with hm | hp
      · rw [show fv v F.PON_DS_CTRL_MODE = 0 from hm]
        rfl
      · simp [hp]
    rw [habsent] at hjudge
    refine ⟨fun hlb => ?_, fun hlb hrefused => ?_, fun hlb hmode hlight => ?_⟩
    · exact treeWrite_rejected (by decide) h (hjudge.trans (judge_erange (decide_eq_true hlb)))
    · refine treeWrite_rejected (by decide) h (hjudge.trans (judge_estate (decide_eq_false hlb) (dsCtrlRefused_iff.2 ?_)))
      rw [inGroup_iff]
      exact hrefused.imp_left (And.imp_right (Or.imp_right Or.inl))
    · refine treeWrite_done (by decide) h (hjudge.trans (judge_ok (decide_eq_false hlb) (Bool.eq_false_iff.2 fun hrefused => ?_)))
      rcases dsCtrlRefused_iff.1 hrefused with ⟨hchange, hbound⟩ | ⟨hlit, hon, hstarted⟩
      · obtain ⟨hoff, hlead, hmember, hpair⟩ := hmode.resolve_left hchange
        rw [inGroup_iff, hlead, hmember, hpair] at hbound
        simp [on] at hoff
        simp [hoff] at hbound
      · exact hlight.elim hlit fun hlight => hlight.elim (fun hoff => hoff hon) fun hidle => hidle hstarted

end Sys2Proof.Machine

end

section

/-! Bonding groups (O49): who the members of a mask are, and a write of PON_BOND_CTRL. -/

namespace Sys2Proof.Machine

variable {s : State} {t : Fin 64} {v : Word}

theorem flag_iff (s : State) (f : Fld) (k : Nat) (h : f.hi = f.lo) : s.flag f k = true ↔ s.get f k = 1 := by
  rw [flag_get _ _ _ h, decide_eq_true_iff]

/-! The members a mask names (R263). -/

/-- The trees of the octet of t that a mask names. -/
def bondMembers (t mask : Nat) : List Nat := (List.range' (t / 8 * 8) 8).filter (fun k => mask.testBit (k % 8))

theorem mem_bondMembers {mask k : Nat} : k ∈ bondMembers t mask ↔ (t.val / 8 * 8 ≤ k ∧ k < t.val / 8 * 8 + 8) ∧ mask.testBit (k % 8) = true := by
  rw [bondMembers, List.mem_filter, List.mem_range'_1]

theorem self_mem_bondMembers {mask : Nat} (h : mask.testBit (t % 8) = true) : t.val ∈ bondMembers t mask :=
  mem_bondMembers.2 ⟨by omega, h⟩

/-- The lowest bit of a mask lies below j where some bit does. -/
theorem lowestBit_lt_iff {n j : Nat} (m : Nat) (hj : j ≤ n) : lowestBit n m < j ↔ ∃ k < j, m.testBit k = true := by
  induction n generalizing m j with
  | zero =>
    obtain rfl := Nat.le_zero.1 hj
    simp
  | succ n ih =>
    cases j with
    | zero => simp
    | succ j =>
      rw [lowestBit]
      split
      · next hodd => exact iff_of_true (Nat.succ_pos _) ⟨0, Nat.succ_pos _, by rw [Nat.testBit_zero, hodd]; rfl⟩
      · next heven =>
        have ih := ih (m / 2) (Nat.le_of_succ_le_succ hj)
        constructor
        · intro h
          obtain ⟨k, hk, hbit⟩ := ih.1 (by omega)
          exact ⟨k + 1, Nat.succ_lt_succ hk, by rwa [Nat.testBit_succ]⟩
        · rintro ⟨k, hk, hbit⟩
          cases k with
          | zero => simp [heven] at hbit
          | succ k =>
            have := ih.2 ⟨k, Nat.lt_of_succ_lt_succ hk, by rwa [Nat.testBit_succ] at hbit⟩
            omega

/-! A write of PON_BOND_CTRL. -/

/-- A group the mask cannot form: of one tree or of five, without its leader or led by another, of two modes, or with a tree of a group. -/
def State.bondBad (s : State) (t : Nat) (mask : Nat) : Bool :=
  (bondMembers t mask).length < 2 || 4 < (bondMembers t mask).length || !bit mask (t % 8) || lowestBit 8 mask < t % 8
    || (bondMembers t mask).any (fun k => s.get F.PON_DS_CTRL_MODE k ≠ s.get F.PON_DS_CTRL_MODE t
      || (k ≠ t && s.flag F.PON_BOND_CTRL_EN k) || (match s.bondMember k with | some l => l ≠ t | none => false))

/-- Whether a change of a group meets a tree at work. -/
def State.bondBusy (s : State) (t : Nat) (v : Word) : Bool :=
  let en := decide (fv v F.PON_BOND_CTRL_EN = 1)
  let was := s.flag F.PON_BOND_CTRL_EN t
  (!decide (fv v F.PON_BOND_CTRL_EN = 1 ↔ was = true) || fv v F.PON_BOND_CTRL_MASK ≠ s.get F.PON_BOND_CTRL_MASK t) && (en || was)
    && (bondMembers t (fv v F.PON_BOND_CTRL_MASK) ++ (if was then s.groupOf t else [])).any (fun k => s.flag F.PON_TREE_STATUS_ENABLED k)

/-- A tree that forgets its offsets to the others of a group. -/
def State.offsetsOff (s : State) (k : Nat) : State := s.modTree (Fin.ofNat 64 k) (fun x => { x with offsets := [] })

/-- The trees of a list forget their offsets. -/
def State.offsetsForgotten (s : State) (l : List Nat) : State := l.foldl State.offsetsOff s

/-- What a write of PON_BOND_CTRL that is carried out leaves. -/
def State.bondWritten (s : State) (t : Fin 64) (v : Word) : State :=
  let s1 := s.plainWrite ⟨.PON_BOND_CTRL, t, 0, 0⟩ v
  let s2 := if s.flag F.PON_BOND_CTRL_EN t && !decide (fv v F.PON_BOND_CTRL_EN = 1)
    then (s.groupOf t).foldl (fun s k => s.set F.PON_TREE_STATUS_BONDDEG 0 k) s1 else s1
  s2.offsetsForgotten (bondMembers t (fv v F.PON_BOND_CTRL_MASK))

theorem bondCtrlWrite_judged : s.ponWrite ⟨.PON_BOND_CTRL, t, 0, 0⟩ v =
    judge (decide (fv v F.PON_BOND_CTRL_EN = 1) && !s.flag F.PON_BOND_CTRL_EN t
        && (bondMembers t (fv v F.PON_BOND_CTRL_MASK)).any (fun k => s.chip.trees ≤ k))
      (decide (fv v F.PON_BOND_CTRL_EN = 1) && s.bondBad t (fv v F.PON_BOND_CTRL_MASK))
      ((s.bondMember t).isSome || s.bondBusy t v) (.done (s.bondWritten t v)) := by
  show s.bondCtrlWrite ⟨.PON_BOND_CTRL, t, 0, 0⟩ v = _
  unfold State.bondCtrlWrite State.bondBad State.bondBusy State.bondWritten State.offsetsForgotten bondMembers
  simp only [range'_eq, bit, ne_eq, decide_not, eq_iff_iff]
  rfl

/-- A tree that leads no group changes one only by forming it. -/
theorem bondBusy_off (hoff : s.flag F.PON_BOND_CTRL_EN t = false) : s.bondBusy t v = (decide (fv v F.PON_BOND_CTRL_EN = 1)
    && (bondMembers t (fv v F.PON_BOND_CTRL_MASK)).any (fun k => s.flag F.PON_TREE_STATUS_ENABLED k)) := by
  unfold State.bondBusy
  rw [hoff]
  by_cases hen : fv v F.PON_BOND_CTRL_EN = 1 <;> simp [hen]

theorem bondWritten_off (hoff : s.flag F.PON_BOND_CTRL_EN t = false) : s.bondWritten t v
    = (s.plainWrite ⟨.PON_BOND_CTRL, t, 0, 0⟩ v).offsetsForgotten (bondMembers t (fv v F.PON_BOND_CTRL_MASK)) := by
  unfold State.bondWritten
  rw [hoff]
  rfl

theorem offsetsForgotten_get (s : State) (l : List Nat) (g : Fld) (i : Nat) : (s.offsetsForgotten l).get g i = s.get g i :=
  foldl_get State.offsetsOff g i (fun _ _ => rfl) l s

theorem offsetsForgotten_offLine (s : State) (l : List Nat) : (s.offsetsForgotten l).offLine = s.offLine :=
  offLine_foldl (fun _ _ => State.modTree_offLine ..) l s

theorem offsetsOff_same (s : State) (w : Fin 64) : ((s.offsetsOff w).tr w).offsets = [] := by
  rw [State.offsetsOff, ofNat_tree, State.modTree_tr]

theorem offsetsOff_keeps (s : State) {w : Fin 64} (k : Nat) (h : (s.tr w).offsets = []) : ((s.offsetsOff k).tr w).offsets = [] := by
  unfold State.offsetsOff
  by_cases hk : w = Fin.ofNat 64 k
  · subst hk
    rw [State.modTree_tr]
  · rwa [State.modTree_tr_ne _ _ _ _ hk]

theorem offsetsForgotten_tr (s : State) {l : List Nat} {w : Fin 64} (h : w.val ∈ l) : ((s.offsetsForgotten l).tr w).offsets = [] := by
  unfold State.offsetsForgotten
  induction l generalizing s with
  | nil => cases h
  | cons k l ih =>
    rw [List.foldl_cons]
    rcases List.mem_cons.1 h with rfl | hl
    · exact foldl_rel (R := fun s u : State => (s.tr w).offsets = [] → (u.tr w).offsets = []) (fun _ h => h) (fun h1 h2 h => h2 (h1 h))
        (fun s b _ => offsetsOff_keeps s b) _ (offsetsOff_same s w)
    · exact ih _ hl

/-- A group the mask cannot form: its size, its leader, or a tree that cannot join. -/
theorem bondBad_iff {mask : Nat} : s.bondBad t mask = true ↔ ¬ (2 ≤ (bondMembers t mask).length ∧ (bondMembers t mask).length ≤ 4
      ∧ mask.testBit (t % 8) = true ∧ ∀ k, k < t.val % 8 → mask.testBit k = false)
    ∨ ∃ k ∈ bondMembers t mask, (s.get F.PON_DS_CTRL_MODE k ≠ s.get F.PON_DS_CTRL_MODE t ∨ (k ≠ t ∧ s.get F.PON_BOND_CTRL_EN k = 1))
      ∨ ∃ l, s.bondMember k = some l ∧ l ≠ t := by
  have hlow : lowestBit 8 mask < t % 8 ↔ ¬ ∀ k, k < t.val % 8 → mask.testBit k = false := by
    rw [lowestBit_lt_iff mask (Nat.le_of_lt (Nat.mod_lt _ (by decide)))]
    simp
  have hjoin : ∀ k, (match s.bondMember k with | some l => decide (l ≠ t) | none => false) = true ↔ ∃ l, s.bondMember k = some l ∧ l ≠ t := by
    intro k
    cases s.bondMember k <;> simp
  unfold State.bondBad
  simp only [Bool.or_eq_true, Bool.and_eq_true, List.any_eq_true, decide_eq_true_eq, hlow, hjoin, bit, Bool.not_eq_true',
    fun k => flag_iff s F.PON_BOND_CTRL_EN k rfl]
  refine or_congr ?_ Iff.rfl
  simp only [not_and_or, Nat.not_le, Bool.not_eq_true, or_assoc]

/-- A mask of a lawful size and leader, whose trees have the leader's mode and are in no group. -/
theorem bondBad_free {mask : Nat} (hlegal : 2 ≤ (bondMembers t mask).length ∧ (bondMembers t mask).length ≤ 4
    ∧ mask.testBit (t % 8) = true ∧ ∀ k, k < t.val % 8 → mask.testBit k = false)
    (hfree : ∀ k ∈ bondMembers t mask, s.get F.PON_DS_CTRL_MODE k = s.get F.PON_DS_CTRL_MODE t ∧ s.bondMember k = none
      ∧ (k ≠ t → s.get F.PON_BOND_CTRL_EN k = 0)) : s.bondBad t mask = false := by
  refine Bool.eq_false_iff.2 fun hbad => ?_
  rcases bondBad_iff.1 hbad with hillegal | ⟨k, hk, hjoin⟩
  · exact hillegal hlegal
  · obtain ⟨hmode, hmember, hlead⟩ := hfree k hk
    rcases hjoin with (hjoin | ⟨hkt, hjoin⟩) | ⟨l, hjoin, -⟩
    · exact hjoin hmode
    · exact absurd ((hlead hkt).symm.trans hjoin) (by decide)
    · exact absurd (hmember.symm.trans hjoin) (by simp)

/-- A write of PON_BOND_CTRL (R263). -/
theorem bondCtrl_settled (h : WriteReaches s ⟨.PON_BOND_CTRL, t, 0, 0⟩ v) :
    let err (st : Status) := ∃ s', exec (.ponBondCtrl t v) s = .next s' ∧ Rejected s s' F.PON_TREE_STATUS_ERR t st
    let mask := fv v F.PON_BOND_CTRL_MASK
    let members := bondMembers t mask
    let en := fv v F.PON_BOND_CTRL_EN = 1
    let off := s.get F.PON_BOND_CTRL_EN t = 0
    (en → off → (∃ k ∈ members, s.chip.trees ≤ k) → err .eabsent)
    ∧ (en → (∀ k ∈ members, k < s.chip.trees) → s.bondBad t mask = true → err .erange)
    ∧ (en → off → (∀ k ∈ members, k < s.chip.trees) → s.bondBad t mask = false → s.bondMember t = none →
        ((∃ k ∈ members, s.get F.PON_TREE_STATUS_ENABLED k = 1) → err .estate)
        ∧ ((∀ k ∈ members, s.get F.PON_TREE_STATUS_ENABLED k = 0) → exec (.ponBondCtrl t v) s = .next (s.bondWritten t v)))
    ∧ (¬ en → (s.bondMember t ≠ none → err .estate)
        ∧ (s.bondMember t = none → off → exec (.ponBondCtrl t v) s = .next (s.bondWritten t v))) := by
  intro err mask members en off
  have hjudge := bondCtrlWrite_judged (s := s) (t := t) (v := v)
  have hflag : off → s.flag F.PON_BOND_CTRL_EN t = false := fun hoff => by
    rw [flag_get _ _ _ rfl, show s.get F.PON_BOND_CTRL_EN t = 0 from hoff]
    rfl
  have hpresent : (∀ k ∈ members, k < s.chip.trees) → members.any (fun k => s.chip.trees ≤ k) = false := fun hall =>
    List.any_eq_false.2 fun k hk => by simpa using hall k hk
  refine ⟨fun hen hoff hmem => ?_, fun hen hall hbad => ?_, fun hen hoff hall hgood hnone => ?_, fun hen => ?_⟩
  · have hany : members.any (fun k => s.chip.trees ≤ k) = true := by simpa using hmem
    rw [decide_eq_true hen, hflag hoff, show (bondMembers _ _).any _ = true from hany] at hjudge
    exact treeWrite_rejected (by decide) h (hjudge.trans judge_eabsent)
  · rw [show (bondMembers _ _).any _ = false from hpresent hall, Bool.and_false, decide_eq_true hen, Bool.true_and] at hjudge
    exact treeWrite_rejected (by decide) h (hjudge.trans (judge_erange hbad))
  · rw [show (bondMembers _ _).any _ = false from hpresent hall, Bool.and_false, decide_eq_true hen, Bool.true_and, hnone,
      bondBusy_off (hflag hoff), decide_eq_true hen] at hjudge
    refine ⟨fun hon => ?_, fun hidle => ?_⟩
    · refine treeWrite_rejected (by decide) h (hjudge.trans (judge_estate hgood ?_))
      simpa [fun k => flag_iff s F.PON_TREE_STATUS_ENABLED k rfl] using hon
    · refine treeWrite_done (by decide) h (hjudge.trans (judge_ok hgood ?_))
      simpa [fun k => Bool.eq_false_iff.trans (not_congr (flag_iff s F.PON_TREE_STATUS_ENABLED k rfl))] using fun k hk => (hidle k hk).trans_ne (by decide)
  · rw [decide_eq_false hen, Bool.false_and, Bool.false_and, Bool.false_and] at hjudge
    refine ⟨fun hmember => ?_, fun hnone hoff => ?_⟩
    · refine treeWrite_rejected (by decide) h (hjudge.trans (judge_estate rfl ?_))
      rw [Option.isSome_iff_ne_none.2 hmember, Bool.true_or]
    · refine treeWrite_done (by decide) h (hjudge.trans (judge_ok rfl ?_))
      rw [hnone, bondBusy_off (hflag hoff), decide_eq_false hen]
      rfl

/-- What a write by a tree that leads no group leaves: the mask, and the members without offsets. -/
theorem bondWritten_leaves (hoff : s.get F.PON_BOND_CTRL_EN t = 0) : (s.bondWritten t v).offLine = s.offLine
    ∧ (s.bondWritten t v).get F.PON_BOND_CTRL_EN t = fv v F.PON_BOND_CTRL_EN ∧ (s.bondWritten t v).get F.PON_BOND_CTRL_MASK t = fv v F.PON_BOND_CTRL_MASK
    ∧ ∀ w : Fin 64, w.val ∈ bondMembers t (fv v F.PON_BOND_CTRL_MASK) → ((s.bondWritten t v).tr w).offsets = [] := by
  rw [bondWritten_off (by rw [flag_get _ _ _ rfl, hoff]; rfl)]
  refine ⟨(offsetsForgotten_offLine ..).trans (State.plainWrite_offLine ..), ?_, ?_, fun w hw => offsetsForgotten_tr _ hw⟩
  · rw [offsetsForgotten_get]
    exact plainWrite_get_same (f := F.PON_BOND_CTRL_EN) s rfl rfl t
  · rw [offsetsForgotten_get]
    exact plainWrite_get_same (f := F.PON_BOND_CTRL_MASK) s rfl rfl t

end Sys2Proof.Machine

end

section

/-! Performance of trees and terminals (O49): writes of PON_PM_CTRL and PON_PM_SEL, and the second that ends. -/

namespace Sys2Proof.Machine

variable {s : State} {t : Fin 64} {v : Word}

/-! Scopes of performance in sparse data. -/

/-- A read finds the default, or a value that is listed. -/
theorem sget_listed {α : Type} (d : α) (m : SMap α) (k : Nat) : sget d m k = d ∨ ∃ e ∈ m, sget d m k = e.2 := by
  induction m with
  | nil => exact .inl rfl
  | cons e m ih =>
    obtain ⟨k', x⟩ := e
    rw [sget]
    split
    · exact .inr ⟨_, List.mem_cons_self, rfl⟩
    · exact ih.imp_right fun ⟨e, he, h⟩ => ⟨e, List.mem_cons_of_mem _ he, h⟩

/-- The scope k of a tree. -/
def State.pmScope (s : State) (t : Fin 64) (k : Nat) : PmScope := sget {} (s.tr t).pm k

theorem modPm_scope_same (s : State) (t : Fin 64) (k : Nat) (f : PmScope → PmScope) : (s.modPm t k f).pmScope t k = f (s.pmScope t k) := by
  unfold State.modPm State.pmScope
  rw [State.modTree_tr]
  exact sget_smod_same ..

theorem modPm_scope_ne (s : State) (t : Fin 64) {k k' : Nat} (f : PmScope → PmScope) (h : k' ≠ k) :
    (s.modPm t k f).pmScope t k' = s.pmScope t k' := by
  unfold State.modPm State.pmScope
  rw [State.modTree_tr]
  exact sget_smod_ne _ _ _ h

/-- A run over scopes changes each of them once, by its own function. -/
def State.overScopes (s : State) (t : Fin 64) (l : List Nat) (f : Nat → PmScope → PmScope) : State := l.foldl (fun s k => s.modPm t k (f k)) s

section
variable (s : State) (t : Fin 64) {l : List Nat} {k : Nat} (f : Nat → PmScope → PmScope)

theorem overScopes_ne (hk : k ∉ l) : (s.overScopes t l f).pmScope t k = s.pmScope t k :=
  foldl_rel (R := fun s u : State => u.pmScope t k = s.pmScope t k) (fun _ => rfl) (fun h1 h2 => h2.trans h1)
    (fun s b hb => modPm_scope_ne s t (f b) (fun h => hk (h ▸ hb))) s

theorem overScopes_same (hnd : l.Nodup) (hk : k ∈ l) : (s.overScopes t l f).pmScope t k = f k (s.pmScope t k) := by
  obtain ⟨s1, h1, h2⟩ := foldl_once (R := fun s u : State => u.pmScope t k = s.pmScope t k) (f := fun s k => s.modPm t k (f k)) (fun _ => rfl)
    (fun h1 h2 => h2.trans h1) hnd hk (fun s b _ hb => modPm_scope_ne s t (f b) (Ne.symm hb)) s
  exact (h2.trans (modPm_scope_same ..)).trans (congrArg (f k) h1)

theorem overScopes_get (l : List Nat) (g : Fld) (i : Nat) : (s.overScopes t l f).get g i = s.get g i :=
  foldl_get (fun s k => State.modPm s t k (f k)) g i (fun _ _ => rfl) l s

theorem overScopes_offLine (l : List Nat) : (s.overScopes t l f).offLine = s.offLine := offLine_foldl (fun _ _ => State.modPm_offLine ..) l s

theorem overScopes_only (l : List Nat) : s.overScopes t l f = { s with tree := (s.overScopes t l f).tree } :=
  foldl_rel (R := fun s u : State => u = { s with tree := u.tree }) (fun _ => rfl) (fun h1 h2 => by rw [h2, h1]) (fun _ _ _ => rfl) s

theorem overScopes_tr_ne (l : List Nat) {w : Fin 64} (h : w ≠ t) : (s.overScopes t l f).tr w = s.tr w :=
  foldl_fld (fun s k => State.modPm s t k (f k)) (fun s => s.tr w) (fun _ _ => State.modTree_tr_ne _ _ _ _ h) l s

end

theorem mem_pmScopes {k : Nat} : k ∈ s.pmScopes t ↔ k = pmTREE ∨ (k < 256 ∧ s.termState t k ≠ tmFREE) := by
  unfold State.pmScopes
  rw [List.mem_cons, List.mem_filter, mem_range']
  simp [State.termState, tmFREE]

theorem pmScopes_nodup (s : State) (t : Fin 64) : (s.pmScopes t).Nodup := by
  unfold State.pmScopes
  rw [range'_eq]
  refine List.nodup_cons.2 ⟨fun h => ?_, List.Nodup.filter _ List.nodup_range'⟩
  have := List.mem_range'_1.1 (List.mem_filter.1 h).1
  simp [pmTREE] at this

/-! A write of PON_PM_CTRL (R269). -/

/-- The bits of a field. -/
theorem wbits_testBit (v : Word) (hi lo j : Nat) : (wbits v hi lo).testBit j = (decide (j < hi + 1 - lo) && v.getLsbD (lo + j)) := by
  unfold wbits bits
  rw [Nat.testBit_mod_two_pow, Nat.testBit_shiftRight]
  rfl

theorem getLsbD_of_wbits {x y : Word} {hi lo i : Nat} (h : wbits x hi lo = wbits y hi lo) (hlo : lo ≤ i) (hhi : i ≤ hi) :
    x.getLsbD i = y.getLsbD i := by
  have hbit := congrArg (fun n => n.testBit (i - lo)) h
  simpa [wbits_testBit, show i - lo < hi + 1 - lo by omega, show lo + (i - lo) = i by omega] using hbit

/-- The fields of PON_PM_CTRL. -/
def State.pmCtrlSame (s : State) (t : Nat) (v : Word) : Prop := fv v F.PON_PM_CTRL_OFFSET = s.get F.PON_PM_CTRL_OFFSET t
  ∧ fv v F.PON_PM_CTRL_EN15 = s.get F.PON_PM_CTRL_EN15 t ∧ fv v F.PON_PM_CTRL_EN24 = s.get F.PON_PM_CTRL_EN24 t

theorem pmCtrl_unchanged_iff : (s.plainWrite ⟨.PON_PM_CTRL, t, 0, 0⟩ v).rd .PON_PM_CTRL t = s.rd .PON_PM_CTRL t ↔ s.pmCtrlSame t v := by
  constructor
  · intro h
    have hfield : ∀ {f : Fld}, f.id = .PON_PM_CTRL → f.ok = true → f.within f.id.desc.rw = true → fv v f = s.get f t := by
      intro f hid hok hm
      rw [← plainWrite_get_same s hok hm t, hid]
      unfold State.get
      rw [hid, h]
    exact ⟨hfield rfl rfl rfl, hfield rfl rfl rfl, hfield rfl rfl rfl⟩
  · rintro ⟨hoffset, h15, h24⟩
    have hmask : ∀ i < 36, (BitVec.ofNat 36 (RegId.desc .PON_PM_CTRL).rw).getLsbD i = true → i ≤ 16 ∨ i = 34 ∨ i = 35 := by decide
    refine (plain_rd s ⟨.PON_PM_CTRL, t, 0, 0⟩ v).trans (BitVec.eq_of_getLsbD_eq fun i hi => ?_)
    simp only [BitVec.getLsbD_or, BitVec.getLsbD_and, BitVec.getLsbD_not, hi, decide_true, Bool.true_and]
    have hw1c : (BitVec.ofNat 36 (RegId.desc .PON_PM_CTRL).w1c).getLsbD i = false := BitVec.getLsbD_zero
    rw [hw1c]
    cases hrw : (BitVec.ofNat 36 (RegId.desc .PON_PM_CTRL).rw).getLsbD i with
    | false => simp
    | true =>
      have hbit : v.getLsbD i = (s.rd .PON_PM_CTRL t).getLsbD i := by
        rcases hmask i hi hrw with hi | rfl | rfl
        · exact getLsbD_of_wbits hoffset (Nat.zero_le _) hi
        · exact getLsbD_of_wbits h24 (Nat.le_refl _) (Nat.le_refl _)
        · exact getLsbD_of_wbits h15 (Nat.le_refl _) (Nat.le_refl _)
      simp [hbit]

/-- The bins that a change of PON_PM_CTRL begins. -/
def State.pmFirstBins (s : State) (v : Word) (on day : Bool) : List PmBin :=
  if on then [{ index := pmIndex (fv v F.PON_PM_CTRL_OFFSET) day s.seconds, suspect := true }] else []

/-- Every scope without bins, and without seconds that are not decided. -/
def State.pmCleared (s : State) (t : Fin 64) : State :=
  s.modTree t (fun x => { x with pm := (x.pm.map (fun e => (e.1, e.2.bare))).filter (fun e => e.2 ≠ {}) })

theorem pmCleared_hist (s : State) (t : Fin 64) (k : Nat) : ((s.pmCleared t).pmScope t k).hist = [] := by
  unfold State.pmCleared State.pmScope
  rw [State.modTree_tr]
  rcases sget_listed {} ((((s.tr t).pm.map (fun e => (e.1, e.2.bare))).filter (fun e => e.2 ≠ ({} : PmScope)))) k with h | ⟨e, he, h⟩
  · exact congrArg PmScope.hist h
  · obtain ⟨e', -, rfl⟩ := List.mem_map.1 (List.mem_filter.1 he).1
    exact congrArg PmScope.hist h

/-- What a write of PON_PM_CTRL that changes it leaves. -/
def State.pmCtrlWritten (s : State) (t : Fin 64) (v : Word) : State :=
  let s1 := s.plainWrite ⟨.PON_PM_CTRL, t, 0, 0⟩ v
  (s1.pmCleared t).overScopes t (s1.pmScopes t) (fun _ p => { p with bins15 := s.pmFirstBins v (s1.flag F.PON_PM_CTRL_EN15 t) false,
                                                                      bins24 := s.pmFirstBins v (s1.flag F.PON_PM_CTRL_EN24 t) true })

theorem pmCtrlWrite_erange (h : 86399 < fv v F.PON_PM_CTRL_OFFSET) : s.ponWrite ⟨.PON_PM_CTRL, t, 0, 0⟩ v = .reject .erange := if_pos h

theorem pmCtrlWrite_same (h : fv v F.PON_PM_CTRL_OFFSET ≤ 86399) (hsame : s.pmCtrlSame t v) :
    s.ponWrite ⟨.PON_PM_CTRL, t, 0, 0⟩ v = .done (s.plainWrite ⟨.PON_PM_CTRL, t, 0, 0⟩ v) :=
  (if_neg (Nat.not_lt.2 h)).trans (if_pos (pmCtrl_unchanged_iff.2 hsame))

theorem pmCtrlWrite_change (h : fv v F.PON_PM_CTRL_OFFSET ≤ 86399) (hnew : ¬ s.pmCtrlSame t v) :
    s.ponWrite ⟨.PON_PM_CTRL, t, 0, 0⟩ v = .done (s.pmCtrlWritten t v) := by
  show s.pmCtrlWrite ⟨.PON_PM_CTRL, t, 0, 0⟩ v = _
  unfold State.pmCtrlWrite
  rw [if_neg (Nat.not_lt.2 h), if_neg (mt pmCtrl_unchanged_iff.1 hnew)]
  dsimp only
  rw [ofNat_tree]
  rfl

theorem pmCtrlWritten_get (s : State) (t : Fin 64) (v : Word) (g : Fld) (i : Nat) :
    (s.pmCtrlWritten t v).get g i = (s.plainWrite ⟨.PON_PM_CTRL, t, 0, 0⟩ v).get g i := by
  unfold State.pmCtrlWritten
  rw [overScopes_get]
  rfl

theorem pmCtrlWritten_offLine (s : State) (t : Fin 64) (v : Word) : (s.pmCtrlWritten t v).offLine = s.offLine :=
  (overScopes_offLine ..).trans ((State.modTree_offLine ..).trans (State.plainWrite_offLine ..))

/-- The tree's own scope begins new bins. -/
theorem pmCtrlWritten_tree (s : State) (t : Fin 64) (v : Word) : let p := (s.pmCtrlWritten t v).pmScope t pmTREE
    p.hist = [] ∧ p.bins15 = s.pmFirstBins v (fv v F.PON_PM_CTRL_EN15 = 1) false ∧ p.bins24 = s.pmFirstBins v (fv v F.PON_PM_CTRL_EN24 = 1) true := by
  have h15 : (s.plainWrite ⟨.PON_PM_CTRL, t, 0, 0⟩ v).flag F.PON_PM_CTRL_EN15 t = decide (fv v F.PON_PM_CTRL_EN15 = 1) := by
    rw [flag_get _ _ _ rfl, ← plainWrite_get_same (f := F.PON_PM_CTRL_EN15) s rfl rfl t]
    rfl
  have h24 : (s.plainWrite ⟨.PON_PM_CTRL, t, 0, 0⟩ v).flag F.PON_PM_CTRL_EN24 t = decide (fv v F.PON_PM_CTRL_EN24 = 1) := by
    rw [flag_get _ _ _ rfl, ← plainWrite_get_same (f := F.PON_PM_CTRL_EN24) s rfl rfl t]
    rfl
  unfold State.pmCtrlWritten
  dsimp only
  rw [overScopes_same _ t _ (pmScopes_nodup _ t) (mem_pmScopes.2 (.inl rfl)), h15, h24]
  exact ⟨pmCleared_hist .., rfl, rfl⟩

/-- A write of PON_PM_CTRL that is carried out: what it changes begins the bins anew. -/
theorem pmCtrl_done (h : WriteReaches s ⟨.PON_PM_CTRL, t, 0, 0⟩ v) (hfits : fv v F.PON_PM_CTRL_OFFSET ≤ 86399) :
    ∃ s', exec (.ponPmCtrl t v) s = .next s' ∧ s'.offLine = s.offLine ∧ s'.get F.PON_PM_CTRL_OFFSET t = fv v F.PON_PM_CTRL_OFFSET
      ∧ s'.get F.PON_PM_CTRL_EN15 t = fv v F.PON_PM_CTRL_EN15 ∧ s'.get F.PON_PM_CTRL_EN24 t = fv v F.PON_PM_CTRL_EN24
      ∧ (s.pmCtrlSame t v → s'.tree = s.tree)
      ∧ (¬ s.pmCtrlSame t v → (s'.pmScope t pmTREE).hist = []
          ∧ (s'.pmScope t pmTREE).bins15 = s.pmFirstBins v (fv v F.PON_PM_CTRL_EN15 = 1) false
          ∧ (s'.pmScope t pmTREE).bins24 = s.pmFirstBins v (fv v F.PON_PM_CTRL_EN24 = 1) true) := by
  have hoffset := plainWrite_get_same (v := v) (f := F.PON_PM_CTRL_OFFSET) s rfl rfl t
  have h15 := plainWrite_get_same (v := v) (f := F.PON_PM_CTRL_EN15) s rfl rfl t
  have h24 := plainWrite_get_same (v := v) (f := F.PON_PM_CTRL_EN24) s rfl rfl t
  by_cases hsame : s.pmCtrlSame t v
  · exact ⟨_, treeWrite_done (by decide) h (pmCtrlWrite_same hfits hsame), State.plainWrite_offLine .., hoffset, h15, h24,
      fun _ => by simp only [State.plainWrite, State.wr_tree], fun hnew => absurd hsame hnew⟩
  · exact ⟨_, treeWrite_done (by decide) h (pmCtrlWrite_change hfits hsame), pmCtrlWritten_offLine .., (pmCtrlWritten_get ..).trans hoffset,
      (pmCtrlWritten_get ..).trans h15, (pmCtrlWritten_get ..).trans h24, fun hkept => absurd hkept hsame, fun _ => pmCtrlWritten_tree s t v⟩

/-! A write of PON_PM_SEL (R270). -/

/-- The bins that PON_PM_SEL names. -/
def State.pmNamed (s : State) (t : Fin 64) (v : Word) : List PmBin :=
  if fv v F.PON_PM_SEL_KIND = 1 then (s.pmScope t (fv v F.PON_PM_SEL_TERM)).bins24 else (s.pmScope t (fv v F.PON_PM_SEL_TERM)).bins15

/-- The state that shows two words of a bin. -/
def State.pmShown (s : State) (t : Fin 64) (v : Word) (d0 d1 : Nat) : State :=
  ((s.plainWrite ⟨.PON_PM_SEL, t, 0, 0⟩ v).wr .PON_PM_DATA0 (BitVec.ofNat 36 d0) t).wr .PON_PM_DATA1 (BitVec.ofNat 36 d1) t

/-- Whether a bin had ended, and its last second was decided. -/
def State.pmEnded (s : State) (t : Fin 64) (day : Bool) (b : PmBin) : Bool :=
  (b.index + 1) * pmLen day + s.get F.PON_PM_CTRL_OFFSET t + 10 ≤ s.seconds + 86400

section
variable (hright : ¬ (256 < fv v F.PON_PM_SEL_TERM ∨ (if fv v F.PON_PM_SEL_KIND = 1 then 7 else 96) < fv v F.PON_PM_SEL_AGE))
include hright

theorem pmSelWrite_none (h : (s.pmNamed t v)[fv v F.PON_PM_SEL_AGE]? = none) :
    s.ponWrite ⟨.PON_PM_SEL, t, 0, 0⟩ v = .done (s.pmShown t v 0 0) := by
  unfold State.pmNamed State.pmScope at h
  show s.pmSelWrite ⟨.PON_PM_SEL, t, 0, 0⟩ v = _
  unfold State.pmSelWrite
  rw [if_neg hright]
  simp only [ofNat_tree, h]
  rfl

theorem pmSelWrite_some {b : PmBin} (h : (s.pmNamed t v)[fv v F.PON_PM_SEL_AGE]? = some b) : s.ponWrite ⟨.PON_PM_SEL, t, 0, 0⟩ v
    = .done (s.pmShown t v (2 ^ 35 + b2n b.suspect * 2 ^ 34 + b.ses % 2 ^ 17 * 2 ^ 17 + b.es % 2 ^ 17)
        (b2n (s.pmEnded t (fv v F.PON_PM_SEL_KIND = 1) b) * 2 ^ 35 + b.uas % 2 ^ 17)) := by
  unfold State.pmNamed State.pmScope at h
  show s.pmSelWrite ⟨.PON_PM_SEL, t, 0, 0⟩ v = _
  unfold State.pmSelWrite
  rw [if_neg hright]
  simp only [ofNat_tree, h]
  rfl

end

theorem pmShown_only (s : State) (t : Fin 64) (v : Word) (d0 d1 : Nat) : s.pmShown t v d0 d1 = { s with regs := (s.pmShown t v d0 d1).regs } := (rfl)

theorem pmShown_data0 (s : State) (t : Fin 64) (v : Word) (d0 d1 : Nat) : (s.pmShown t v d0 d1).rd .PON_PM_DATA0 t = BitVec.ofNat 36 d0 := by
  unfold State.pmShown
  rw [State.rd_wr_ne _ _ _ _ _ _ _ _ _ _ (tree_offset_ne (id := .PON_PM_DATA1) rfl rfl (by decide)), State.rd_wr_same]

theorem pmShown_data1 (s : State) (t : Fin 64) (v : Word) (d0 d1 : Nat) : (s.pmShown t v d0 d1).rd .PON_PM_DATA1 t = BitVec.ofNat 36 d1 :=
  State.rd_wr_same ..

/-- The fields of the bin that is shown. -/
theorem pmShown_fields {b : PmBin} {ended : Bool} (hes : b.es < 2 ^ 17) (hses : b.ses < 2 ^ 17) (huas : b.uas < 2 ^ 17) :
    let w := s.pmShown t v (2 ^ 35 + b2n b.suspect * 2 ^ 34 + b.ses % 2 ^ 17 * 2 ^ 17 + b.es % 2 ^ 17) (b2n ended * 2 ^ 35 + b.uas % 2 ^ 17)
    w.get F.PON_PM_DATA0_VALID t = 1 ∧ w.get F.PON_PM_DATA0_SUSPECT t = b2n b.suspect ∧ w.get F.PON_PM_DATA0_SES t = b.ses
      ∧ w.get F.PON_PM_DATA0_ES t = b.es ∧ w.get F.PON_PM_DATA1_UAS t = b.uas ∧ w.get F.PON_PM_DATA1_COMPLETE t = b2n ended := by
  intro w
  have hsus : b2n b.suspect < 2 := by cases b.suspect <;> decide
  have hend : b2n ended < 2 := by cases ended <;> decide
  have h0 : ∀ hi lo, w.get ⟨.PON_PM_DATA0, hi, lo⟩ t = _ := fun hi lo => (congrArg (wbits · hi lo) (pmShown_data0 ..)).trans (wbits_ofNat ..)
  have h1 : ∀ hi lo, w.get ⟨.PON_PM_DATA1, hi, lo⟩ t = _ := fun hi lo => (congrArg (wbits · hi lo) (pmShown_data1 ..)).trans (wbits_ofNat ..)
  refine ⟨(h0 35 35).trans ?_, (h0 34 34).trans ?_, (h0 33 17).trans ?_, (h0 16 0).trans ?_, (h1 16 0).trans ?_, (h1 35 35).trans ?_⟩ <;> omega

/-! The second that ends (R267, R268). -/

/-- What is judged of a second that ends: errored, and severely errored. -/
def PmScope.judged (p : PmScope) (sec : Nat) : Nat × Bool × Bool :=
  (sec, decide (0 < p.errored ∨ p.los = true), decide ((0 < p.granted ∧ 15 * p.granted ≤ 100 * p.errored) ∨ p.los = true))

/-- While fewer than ten seconds wait, none is decided, and availability stays. -/
theorem PmScope.second_waits {p : PmScope} {offset sec : Nat} {en15 en24 losNow : Bool} (h : p.hist.length < 9) :
    let q := p.second offset en15 en24 losNow sec
    q.granted = 0 ∧ q.errored = 0 ∧ q.los = losNow ∧ q.unavail = p.unavail ∧ q.hist = p.hist ++ [p.judged sec] := by
  have hdecide : ∀ q : PmScope, q.hist.length < 10 → q.decide_ offset = q := by
    intro q hq
    unfold PmScope.decide_
    split
    · rfl
    · exact if_pos hq
  unfold PmScope.second
  dsimp only
  rw [hdecide _ (by simp; omega)]
  refine ⟨rfl, rfl, rfl, rfl, ?_⟩
  simp [PmScope.judged, Bool.decide_or, Bool.decide_and, Nat.mul_comm]

/-- The second of one scope of a tree. -/
def State.pmSecondOf (s : State) (t : Fin 64) (sec k : Nat) (p : PmScope) : PmScope :=
  p.second (s.get F.PON_PM_CTRL_OFFSET t) (s.flag F.PON_PM_CTRL_EN15 t) (s.flag F.PON_PM_CTRL_EN24 t) (k = pmTREE && s.flag F.PON_TREE_STATUS_LOS t) sec

theorem mem_trees : t ∈ s.trees ↔ t.val < s.chip.trees := by
  have hle : s.chip.trees ≤ 64 := by
    unfold Chip.trees
    split <;> decide
  unfold State.trees
  simp only [List.mem_map, mem_range']
  constructor
  · rintro ⟨k, ⟨-, hk⟩, rfl⟩
    have := Nat.mod_le k 64
    exact Nat.lt_of_le_of_lt this (by omega)
  · exact fun h => ⟨t, ⟨Nat.zero_le _, by omega⟩, ofNat_tree t⟩

theorem trees_nodup (s : State) : s.trees.Nodup := by
  have hle : s.chip.trees ≤ 64 := by
    unfold Chip.trees
    split <;> decide
  unfold State.trees
  rw [range'_eq]
  refine List.Nodup.map_on (fun a ha b hb hab => ?_) List.nodup_range'
  have ha := List.mem_range'_1.1 ha
  have hb := List.mem_range'_1.1 hb
  have hval := congrArg Fin.val hab
  rwa [Fin.val_ofNat, Fin.val_ofNat, Nat.mod_eq_of_lt (by omega), Nat.mod_eq_of_lt (by omega)] at hval

/-- A state after the seconds of other trees. -/
def State.SecondElsewhere (t : Fin 64) (s u : State) : Prop := u = { s with tree := u.tree } ∧ u.tr t = s.tr t

theorem secondElsewhere_trans {u w : State} (h1 : s.SecondElsewhere t u) (h2 : u.SecondElsewhere t w) : s.SecondElsewhere t w :=
  ⟨by rw [h2.1, h1.1], h2.2.trans h1.2⟩

theorem pmTree_elsewhere {w : Fin 64} (sec : Nat) (s : State) (h : w ≠ t) : s.SecondElsewhere t (State.pmTree sec s w) :=
  ⟨overScopes_only .., overScopes_tr_ne _ _ _ _ (Ne.symm h)⟩

/-- The state after PM_SECOND. -/
def State.pmSeconded (s : State) : State := s.trees.foldl (State.pmTree (s.seconds - 1)) s

theorem pmSeconded_only (s : State) : s.pmSeconded = { s with tree := s.pmSeconded.tree } :=
  foldl_rel (R := fun s u : State => u = { s with tree := u.tree }) (fun _ => rfl) (fun h1 h2 => by rw [h2, h1]) (fun _ _ _ => overScopes_only ..) s

theorem pmSeconded_absent (h : s.chip.trees ≤ t) : s.pmSeconded.tr t = s.tr t :=
  foldl_rel (R := fun s u : State => u.tr t = s.tr t) (fun _ => rfl) (fun h1 h2 => h2.trans h1)
    (fun u _ hw => (pmTree_elsewhere _ u (fun hwt => absurd (mem_trees.1 (hwt ▸ hw)) (Nat.not_lt.2 h))).2) s

/-- A tree that is present has its own second alone. -/
theorem pmSeconded_present (h : t.val < s.chip.trees) :
    ∀ k, s.pmSeconded.pmScope t k = (s.overScopes t (s.pmScopes t) (s.pmSecondOf t (s.seconds - 1))).pmScope t k := by
  intro k
  obtain ⟨s1, ⟨honly, hsame⟩, -, hlast⟩ := foldl_once (R := State.SecondElsewhere t) (f := State.pmTree (s.seconds - 1)) (fun _ => ⟨rfl, rfl⟩)
    secondElsewhere_trans (trees_nodup s) (mem_trees.2 h) (fun u w _ hw => pmTree_elsewhere _ u hw) s
  have hscope : s1.pmScope t = s.pmScope t := by
    unfold State.pmScope
    rw [hsame]
  have hscopes : s1.pmScopes t = s.pmScopes t := by
    rw [honly]
    rfl
  have hof : s1.pmSecondOf t (s.seconds - 1) = s.pmSecondOf t (s.seconds - 1) := by
    rw [honly]
    rfl
  have hpm : s.pmSeconded.pmScope t k = (s1.overScopes t (s1.pmScopes t) (s1.pmSecondOf t (s.seconds - 1))).pmScope t k := by
    unfold State.pmScope
    exact congrArg (fun y : Tree => sget {} y.pm k) hlast
  rw [hpm, hscopes, hof]
  by_cases hk : k ∈ s.pmScopes t
  · rw [overScopes_same _ _ _ (pmScopes_nodup s t) hk, overScopes_same _ _ _ (pmScopes_nodup s t) hk, hscope]
  · rw [overScopes_ne _ _ _ hk, overScopes_ne _ _ _ hk, hscope]

/-- A scope that is judged has its second, and while fewer than ten wait, none is decided. -/
theorem pmSeconded_scope {k : Nat} (hpresent : t.val < s.chip.trees) (hk : k ∈ s.pmScopes t) (hlen : (s.pmScope t k).hist.length < 9) :
    let p := s.pmScope t k
    let q := s.pmSeconded.pmScope t k
    q.granted = 0 ∧ q.errored = 0 ∧ q.los = decide (k = pmTREE ∧ s.get F.PON_TREE_STATUS_LOS t = 1) ∧ q.unavail = p.unavail
      ∧ q.hist = p.hist ++ [p.judged (s.seconds - 1)] := by
  have hdark : (decide (k = pmTREE) && s.flag F.PON_TREE_STATUS_LOS t) = decide (k = pmTREE ∧ s.get F.PON_TREE_STATUS_LOS t = 1) := by
    rw [flag_get _ _ _ rfl, Bool.decide_and]
  have hscope : s.pmSeconded.pmScope t k = s.pmSecondOf t (s.seconds - 1) k (s.pmScope t k) :=
    (pmSeconded_present hpresent k).trans (overScopes_same _ _ _ (pmScopes_nodup s t) hk)
  dsimp only
  rw [hscope, ← hdark]
  exact PmScope.second_waits hlen

/-- A terminal that is FREE has no second. -/
theorem pmSeconded_free {u : Nat} (hu : u < 256) (hfree : s.termState t u = tmFREE) : s.pmSeconded.pmScope t u = s.pmScope t u := by
  rcases Nat.lt_or_ge t.val s.chip.trees with hpresent | habsent
  · refine (pmSeconded_present hpresent u).trans (overScopes_ne _ _ _ fun hmem => ?_)
    rcases mem_pmScopes.1 hmem with htree | ⟨-, hstate⟩
    · exact absurd htree (Nat.ne_of_lt hu)
    · exact hstate hfree
  · unfold State.pmScope
    rw [pmSeconded_absent habsent]

end Sys2Proof.Machine

end

section

/-! Protection (O49): writes of PON_PROT_CTRL, the start and the end of a switchover, and what runs out while it lasts. -/

namespace Sys2Proof.Machine

variable {s : State} {t : Fin 64} {v : Word}

/-! Values that are at least 1. -/

theorem fv_atLeast1_same (v : Word) {f : Fld} (hok : f.ok = true) : fv (atLeast1 v f) f = max 1 (fv v f) := by
  simp only [Fld.ok, Bool.and_eq_true, decide_eq_true_eq] at hok
  have hone : 1 % 2 ^ (f.hi + 1 - f.lo) = 1 := Nat.mod_eq_of_lt (Nat.one_lt_two_pow (by omega))
  unfold atLeast1
  split
  · next h0 => exact (wbits_wput_same v f.hi f.lo 1 hok.1 hok.2).trans (by rw [hone, h0]; rfl)
  · next h0 => omega

theorem fv_atLeast1_ne (v : Word) {f g : Fld} (hok : f.ok = true) (hd : g.hi < f.lo ∨ f.hi < g.lo) : fv (atLeast1 v f) g = fv v g := by
  simp only [Fld.ok, Bool.and_eq_true, decide_eq_true_eq] at hok
  unfold atLeast1
  split
  · exact wbits_wput_ne v f.hi f.lo g.hi g.lo 1 hok.1 hok.2 hd
  · rfl

/-! Fields of a terminal through the lanes' settling and a write of PON_PROT_CTRL. -/

theorem laneSettle_get_term (s : State) (k : Nat) {g : Fld} (hg : g.id.ofTerm = true) {i u : Nat} (hi : i < 64) (hu : u < 256) :
    (s.laneSettle k).get g i u = s.get g i u := by
  have hbelow := term_offset_below hg hi hu
  have hne : ∀ id : RegId, 0x500000 ≤ id.desc.base → Reg.offset ⟨g.id, i, u, 0⟩ ≠ Reg.offset ⟨id, k, 0, 0⟩ := fun id hid =>
    Nat.ne_of_lt (Nat.lt_of_lt_of_le hbelow (offset_ge k hid))
  unfold State.laneSettle
  dsimp only
  split
  · rfl
  · rw [State.get_set_reg _ _ _ _ _ _ _ _ _ _ (hne _ (by decide)), State.get_set_reg _ _ _ _ _ _ _ _ _ _ (hne _ (by decide)),
      State.get_set_reg _ _ _ _ _ _ _ _ _ _ (hne _ (by decide))]

/-! The start of a switchover (R296). -/

theorem switchStart_offLine (s : State) (t : Fin 64) : (s.switchStart t).offLine = s.offLine := by
  unfold State.switchStart
  simp only [State.modTree_offLine, State.set_offLine]

theorem switchStart_leaves (s : State) (t : Fin 64) : let w := s.switchStart t
    w.get F.PON_PROT_STATUS_STATE t = ppSWITCHING ∧ w.get F.PON_PROT_CTRL_AUTO t = 0 ∧ w.get F.PON_PROT_STATUS_NOK t = 0
      ∧ w.get F.PON_PROT_STATUS_PORT t = s.get F.PON_PROT_STATUS_PORT t
      ∧ (w.tr t).swFrame = s.clk.frame ∧ (w.tr t).swMoved = false ∧ (w.tr t).swDone = false := by
  unfold State.switchStart
  dsimp only
  simp only [State.modTree_get, State.modTree_tr]
  refine ⟨?_, ?_, ?_, ?_, trivial, trivial, trivial⟩ <;> simp (disch := decide)

/-! The end of a switchover (R294, R296). -/

/-- The tree after its switchover: ARMED, with the frames it took and the mean of the offsets it measured. -/
def State.switchEnded (s : State) (t : Fin 64) : State :=
  ((s.set F.PON_PROT_STATUS_STATE ppARMED t).set F.PON_PROT_STATUS_TIME (min 511 (s.clk.frame - (s.tr t).swFrame)) t).set
    F.PON_PROT_MEAS_MEAN (unsignedOf 26 (meanOffset (s.tr t).swOffsets)) t

theorem noneRestored_iff : (range' 0 256).any (fun u => s.termState t u = tmRESTORED) = false ↔ ∀ u : Fin 256, s.termState t u ≠ tmRESTORED := by
  rw [List.any_eq_false]
  constructor
  · intro h u
    simpa using h u (mem_range'.2 ⟨Nat.zero_le _, by omega⟩)
  · intro h u hu
    simpa using h ⟨u, by have := mem_range'.1 hu; omega⟩

theorem switchEnd_cases (s : State) (t : Fin 64) : s.switchEnd t = s ∨ s.switchEnd t = s.switchEnded t := by
  unfold State.switchEnd
  dsimp only
  split
  · exact .inr rfl
  · exact .inl rfl

/-- It does not end before the ports are exchanged. -/
theorem switchEnd_waits (h : (s.tr t).swMoved = false) : s.switchEnd t = s := if_neg (by simp [h])

theorem switchEnd_ends (hsw : s.switching t = true) (hmoved : (s.tr t).swMoved = true) (hnone : ∀ u : Fin 256, s.termState t u ≠ tmRESTORED)
    (hdone : s.get F.PON_PROT_CTRL_SLOT t < 4 ∨ (s.tr t).swDone = true) : s.switchEnd t = s.switchEnded t :=
  if_pos (by rw [hsw, hmoved, noneRestored_iff.2 hnone]; simpa using hdone)

theorem unsignedOf_lt (n : Nat) (v : Int) : unsignedOf n v < 2 ^ n := by
  have h := Int.emod_lt_of_pos v (Int.natCast_pos.2 (Nat.two_pow_pos n))
  have h0 := Int.emod_nonneg v (Int.natCast_ne_zero.2 (Nat.two_pow_pos n).ne')
  unfold unsignedOf
  omega

theorem switchEnded_leaves (s : State) (t : Fin 64) : let w := s.switchEnded t
    w.get F.PON_PROT_STATUS_STATE t = ppARMED ∧ w.get F.PON_PROT_STATUS_TIME t = min 511 (s.clk.frame - (s.tr t).swFrame)
      ∧ w.get F.PON_PROT_MEAS_MEAN t = unsignedOf 26 (meanOffset (s.tr t).swOffsets) := by
  unfold State.switchEnded
  dsimp only
  refine ⟨?_, ?_, ?_⟩
  · simp (disch := decide)
  · rw [State.get_set_tree (f := F.PON_PROT_MEAS_MEAN) _ rfl rfl (by decide)]
    exact State.get_set_fits _ rfl (Nat.lt_of_le_of_lt (Nat.min_le_left _ _) (by decide))
  · exact State.get_set_fits _ rfl (unsignedOf_lt ..)

section
variable (s : State) (t : Fin 64)

theorem switchEnd_only : s.switchEnd t = { s with regs := (s.switchEnd t).regs } := by
  rcases switchEnd_cases s t with h | h <;> rw [h]
  exact only_regs_set (only_regs_set (only_regs_set rfl _ _ _ _ _) _ _ _ _ _) _ _ _ _ _

@[simp] theorem switchEnd_tr (w : Fin 64) : (s.switchEnd t).tr w = s.tr w := by
  rw [switchEnd_only]
  rfl

@[simp] theorem switchEnd_offLine : (s.switchEnd t).offLine = s.offLine := by
  rw [switchEnd_only]
  rfl

/-- Fields of a terminal. -/
theorem switchEnd_get_term {g : Fld} (hg : g.id.ofTerm = true) {u : Nat} (hu : u < 256) (i : Nat) : (s.switchEnd t).get g i u = s.get g i u := by
  rcases switchEnd_cases s t with h | h <;> rw [h]
  unfold State.switchEnded
  rw [State.get_set_tree_term _ hu rfl hg, State.get_set_tree_term _ hu rfl hg, State.get_set_tree_term _ hu rfl hg]

/-- Fields of PON_PROT_STATUS other than STATE and TIME. -/
theorem switchEnd_status {g : Fld} (hg : g.id = .PON_PROT_STATUS) (hlo : 8 < g.lo) (hhi : g.hi < 32) (i : Nat) :
    (s.switchEnd t).get g i = s.get g i := by
  rcases switchEnd_cases s t with h | h <;> rw [h]
  have htree : g.id.ofTree = true := by rw [hg]; rfl
  unfold State.switchEnded
  rw [State.get_set_tree (f := F.PON_PROT_MEAS_MEAN) _ rfl htree (by rw [hg]; decide)]
  by_cases hi : i = t
  · subst hi
    rw [State.get_set_sibling (f := F.PON_PROT_STATUS_TIME) _ rfl hg (.inr hlo), State.get_set_sibling (f := F.PON_PROT_STATUS_STATE) _ rfl hg (.inl hhi)]
  · rw [State.get_set_tree_index (f := F.PON_PROT_STATUS_TIME) _ rfl hg hi, State.get_set_tree_index (f := F.PON_PROT_STATUS_STATE) _ rfl hg hi]

end

/-! A write of PON_PROT_CTRL (R292, R294, R296, R297). -/

/-- A write that forms a pair. -/
def State.protForms (s : State) (t : Nat) (v : Word) : Bool := decide (fv v F.PON_PROT_CTRL_EN = 1) && !s.flag F.PON_PROT_CTRL_EN t

/-- A slot that is none, or a tree that cannot be the standby. -/
def State.protBad (s : State) (t : Nat) (v : Word) : Bool :=
  let peer := fv v F.PON_PROT_CTRL_PEER
  let slot := fv v F.PON_PROT_CTRL_SLOT
  4 < slot || (s.protForms t v && (peer = t || peer / 8 ≠ t / 8 || s.get F.PON_DS_CTRL_MODE peer ≠ s.get F.PON_DS_CTRL_MODE t
    || s.inGroup t || s.inGroup peer || s.inProtPair t none || s.inProtPair peer none
    || (slot < 4 && (range' 0 64).any (fun w => w ≠ t && s.flag F.PON_PROT_CTRL_EN w && s.get F.PON_PROT_CTRL_SLOT w = slot))))

/-- A write that the state of the pair refuses. -/
def State.protRefused (s : State) (t : Nat) (v : Word) : Bool :=
  let en := decide (fv v F.PON_PROT_CTRL_EN = 1)
  let switch := decide (fv v F.PON_PROT_CTRL_SWITCH = 1)
  (s.protForms t v && s.flag F.PON_TREE_STATUS_ENABLED (fv v F.PON_PROT_CTRL_PEER))
    || (s.flag F.PON_PROT_CTRL_EN t && (fv v F.PON_PROT_CTRL_PEER ≠ s.get F.PON_PROT_CTRL_PEER t || fv v F.PON_PROT_CTRL_SLOT ≠ s.get F.PON_PROT_CTRL_SLOT t))
    || (s.switching t && (!en || switch)) || (switch && !en)

/-- The register stored, and the pair formed or dissolved. -/
def State.protStored (s : State) (t : Fin 64) (v : Word) : State :=
  let s1 := s.plainWrite ⟨.PON_PROT_CTRL, t, 0, 0⟩ (atLeast1 v F.PON_PROT_CTRL_RWAIT)
  let s2 := if s.protForms t v then s1.set F.PON_PROT_STATUS_STATE ppARMED t
    else if s.flag F.PON_PROT_CTRL_EN t && !decide (fv v F.PON_PROT_CTRL_EN = 1) then s1.set F.PON_PROT_STATUS_STATE ppOFF t else s1
  s2.laneSettle (s.portOf (fv v F.PON_PROT_CTRL_PEER))

/-- The host has restored the terminals of a switchover. -/
def State.hostRestored (s : State) (t : Fin 64) : State := s.modTree t (fun x => { x with swDone := true })

/-- What DONE does: a switchover that waited for it ends. -/
def State.hostDone (s : State) (t : Fin 64) : State := (s.hostRestored t).switchEnd t

/-- What a write of PON_PROT_CTRL that is carried out leaves. -/
def State.protWritten (s : State) (t : Fin 64) (v : Word) : State :=
  let s4 := if fv v F.PON_PROT_CTRL_SWITCH = 1 then (s.protStored t v).switchStart t else s.protStored t v
  if fv v F.PON_PROT_CTRL_DONE = 1 then s4.hostDone t else s4

theorem fv_atLeast1_rwait (v : Word) {g : Fld} (hd : g.hi < 16 ∨ 23 < g.lo) : fv (atLeast1 v F.PON_PROT_CTRL_RWAIT) g = fv v g :=
  fv_atLeast1_ne v rfl hd

theorem protWrite_judged : s.ponWrite ⟨.PON_PROT_CTRL, t, 0, 0⟩ v = judge (s.protForms t v && s.chip.trees ≤ fv v F.PON_PROT_CTRL_PEER)
    (s.protBad t v) (s.protRefused t v) (.done (s.protWritten t v)) := by
  show s.protWrite ⟨.PON_PROT_CTRL, t, 0, 0⟩ v = _
  unfold State.protWrite
  dsimp only
  rw [ofNat_tree, fv_atLeast1_rwait (g := F.PON_PROT_CTRL_EN) v (by decide), fv_atLeast1_rwait (g := F.PON_PROT_CTRL_PEER) v (by decide),
    fv_atLeast1_rwait (g := F.PON_PROT_CTRL_SLOT) v (by decide), fv_atLeast1_rwait (g := F.PON_PROT_CTRL_SWITCH) v (by decide),
    fv_atLeast1_rwait (g := F.PON_PROT_CTRL_DONE) v (by decide)]
  unfold State.protWritten State.hostDone State.hostRestored State.protStored State.protRefused State.protBad State.protForms
  split <;> rfl

theorem protForms_iff : s.protForms t v = true ↔ fv v F.PON_PROT_CTRL_EN = 1 ∧ s.get F.PON_PROT_CTRL_EN t ≠ 1 := by
  unfold State.protForms
  rw [flag_get _ _ _ rfl]
  simp

/-- A standby that is one of the part, of the octet, of the tree's mode, and bound to no other tree. -/
def State.protFit (s : State) (t : Fin 64) (peer slot : Nat) : Prop :=
  peer ≠ t ∧ peer / 8 = t.val / 8 ∧ s.get F.PON_DS_CTRL_MODE peer = s.get F.PON_DS_CTRL_MODE t ∧ s.inGroup t = false ∧ s.inGroup peer = false
    ∧ s.inProtPair t none = false ∧ s.inProtPair peer none = false
    ∧ ∀ w : Fin 64, w ≠ t → slot < 4 → s.get F.PON_PROT_CTRL_EN w = 1 → s.get F.PON_PROT_CTRL_SLOT w ≠ slot

/-- Whether another pair has the slot. -/
theorem slotTaken_iff {slot : Nat} : (slot < 4 && (range' 0 64).any (fun w => w ≠ t.val && s.flag F.PON_PROT_CTRL_EN w && s.get F.PON_PROT_CTRL_SLOT w = slot))
    = true ↔ ∃ w : Fin 64, w ≠ t ∧ slot < 4 ∧ s.get F.PON_PROT_CTRL_EN w = 1 ∧ s.get F.PON_PROT_CTRL_SLOT w = slot := by
  simp only [Bool.and_eq_true, List.any_eq_true, decide_eq_true_eq, fun k => flag_iff s F.PON_PROT_CTRL_EN k rfl, mem_range']
  constructor
  · rintro ⟨hslot, k, ⟨-, hk⟩, ⟨hne, hen⟩, hsame⟩
    exact ⟨⟨k, by omega⟩, fun h => hne (congrArg Fin.val h), hslot, hen, hsame⟩
  · rintro ⟨w, hne, hslot, hen, hsame⟩
    exact ⟨hslot, w, ⟨Nat.zero_le _, by omega⟩, ⟨fun h => hne (Fin.ext h), hen⟩, hsame⟩

theorem protBad_iff : s.protBad t v = true ↔ 4 < fv v F.PON_PROT_CTRL_SLOT
    ∨ (s.protForms t v = true ∧ ¬ s.protFit t (fv v F.PON_PROT_CTRL_PEER) (fv v F.PON_PROT_CTRL_SLOT)) := by
  have hfit : ∀ a b : Prop, (¬ a ↔ b) → (a ↔ ¬ b) := fun _ _ h => by rw [← h, not_not]
  unfold State.protBad
  dsimp only
  rw [Bool.or_eq_true, Bool.and_eq_true, decide_eq_true_iff]
  refine or_congr Iff.rfl (and_congr_right fun _ => hfit _ _ ?_)
  simp only [Bool.or_eq_true, slotTaken_iff, decide_eq_true_eq, not_or, not_exists, not_and, Bool.not_eq_true, ne_eq, not_not, and_assoc]
  rfl

/-- Who is refused: a standby at work, a pair that keeps neither its standby nor its slot, a pair that is switching over and is to end or
to start again, and a switchover of no pair. -/
theorem protRefused_iff : s.protRefused t v = true ↔
    (s.protForms t v = true ∧ s.get F.PON_TREE_STATUS_ENABLED (fv v F.PON_PROT_CTRL_PEER) = 1)
    ∨ (s.get F.PON_PROT_CTRL_EN t = 1 ∧ (fv v F.PON_PROT_CTRL_PEER ≠ s.get F.PON_PROT_CTRL_PEER t ∨ fv v F.PON_PROT_CTRL_SLOT ≠ s.get F.PON_PROT_CTRL_SLOT t))
    ∨ (s.switching t = true ∧ (fv v F.PON_PROT_CTRL_EN ≠ 1 ∨ fv v F.PON_PROT_CTRL_SWITCH = 1))
    ∨ (fv v F.PON_PROT_CTRL_SWITCH = 1 ∧ fv v F.PON_PROT_CTRL_EN ≠ 1) := by
  unfold State.protRefused
  simp only [Bool.or_eq_true, Bool.and_eq_true, decide_eq_true_eq, Bool.not_eq_true', decide_eq_false_iff_not, or_assoc, ne_eq,
    flag_iff s F.PON_PROT_CTRL_EN t rfl, flag_iff s F.PON_TREE_STATUS_ENABLED _ rfl]

/-! What the write stores. -/

section
variable (s : State) (t : Fin 64) (v : Word)

@[simp] theorem protStored_offLine : (s.protStored t v).offLine = s.offLine := by
  unfold State.protStored
  simp only [State.laneSettle_offLine]
  repeat' split
  all_goals simp only [State.set_offLine, State.plainWrite_offLine]

@[simp] theorem protStored_tree : (s.protStored t v).tree = s.tree := by
  unfold State.protStored
  simp only [(laneSettle_fr _ _).2.1]
  repeat' split
  all_goals simp only [State.set_tree, State.plainWrite, State.wr_tree]

/-- Fields of PON_PROT_CTRL as they are written, and PORT and the like as they were. -/
theorem protStored_ctrl {f : Fld} (hid : f.id = .PON_PROT_CTRL) (hok : f.ok = true) (hm : f.within f.id.desc.rw = true) :
    (s.protStored t v).get f t = fv (atLeast1 v F.PON_PROT_CTRL_RWAIT) f := by
  have htree : f.id.ofTree = true := by rw [hid]; rfl
  have hplain := plainWrite_get_same (v := atLeast1 v F.PON_PROT_CTRL_RWAIT) s hok hm t
  rw [hid] at hplain
  have hset : ∀ (u : State) (n : Nat), (u.set F.PON_PROT_STATUS_STATE n t).get f t = u.get f t := fun u n =>
    State.get_set_tree _ rfl htree (by rw [hid]; decide)
  unfold State.protStored
  dsimp only
  rw [laneSettle_get_tree _ _ htree t.isLt]
  repeat' split
  all_goals simp only [hset, hplain]

theorem protStored_status {f : Fld} (hid : f.id = .PON_PROT_STATUS) (hhi : f.hi < 32) : (s.protStored t v).get f t = s.get f t := by
  have htree : f.id.ofTree = true := by rw [hid]; rfl
  have hset : ∀ (u : State) (n : Nat), (u.set F.PON_PROT_STATUS_STATE n t).get f t = u.get f t := fun u n =>
    State.get_set_sibling _ rfl hid (.inl hhi)
  have hplain := plainWrite_get_tree (v := atLeast1 v F.PON_PROT_CTRL_RWAIT) s (id := .PON_PROT_CTRL) rfl htree (by rw [hid]; decide) t t
  unfold State.protStored
  dsimp only
  rw [laneSettle_get_tree _ _ htree t.isLt]
  repeat' split
  all_goals simp only [hset, hplain]

end

theorem protStored_get_term (s : State) (t : Fin 64) (v : Word) {g : Fld} (hg : g.id.ofTerm = true) {u : Nat} (hu : u < 256) :
    (s.protStored t v).get g t u = s.get g t u := by
  have hset : ∀ (w : State) (n : Nat), (w.set F.PON_PROT_STATUS_STATE n t).get g t u = w.get g t u := fun w n =>
    State.get_set_tree_term _ hu rfl hg
  have hplain : (s.plainWrite ⟨.PON_PROT_CTRL, t, 0, 0⟩ (atLeast1 v F.PON_PROT_CTRL_RWAIT)).get g t u = s.get g t u :=
    get_plain_ne _ _ _ _ _ _ _ (tree_term_offset_ne rfl hg hu)
  unfold State.protStored
  dsimp only
  rw [laneSettle_get_term _ _ hg t.isLt hu]
  repeat' split
  all_goals simp only [hset, hplain]

theorem protStored_tr (s : State) (t : Fin 64) (v : Word) (w : Fin 64) : (s.protStored t v).tr w = s.tr w := by
  rw [State.tr_eq, protStored_tree, State.tr_eq]

theorem protStored_formed (h : s.protForms t v = true) : (s.protStored t v).get F.PON_PROT_STATUS_STATE t = ppARMED := by
  unfold State.protStored
  dsimp only
  rw [laneSettle_get_tree _ _ rfl t.isLt, if_pos h]
  exact State.get_set_fits _ rfl (by decide)

theorem protStored_dissolved (hen : fv v F.PON_PROT_CTRL_EN ≠ 1) (hwas : s.get F.PON_PROT_CTRL_EN t = 1) :
    (s.protStored t v).get F.PON_PROT_STATUS_STATE t = ppOFF := by
  unfold State.protStored
  dsimp only
  rw [laneSettle_get_tree _ _ rfl t.isLt, if_neg (mt protForms_iff.1 (fun h => hen h.1)), if_pos]
  · exact State.get_set_fits _ rfl (by decide)
  · simp [(flag_iff s F.PON_PROT_CTRL_EN t rfl).2 hwas, hen]

theorem protStored_stays (hen : fv v F.PON_PROT_CTRL_EN = 1) (hwas : s.get F.PON_PROT_CTRL_EN t = 1) :
    (s.protStored t v).get F.PON_PROT_STATUS_STATE t = s.get F.PON_PROT_STATUS_STATE t := by
  unfold State.protStored
  dsimp only
  rw [laneSettle_get_tree _ _ rfl t.isLt, if_neg (mt protForms_iff.1 (fun h => h.2 hwas)), if_neg (by simp [hen])]
  exact plainWrite_get_tree s rfl rfl (by decide) t t

/-! The pair (R292, R297). -/

section
variable (h : WriteReaches s ⟨.PON_PROT_CTRL, t, 0, 0⟩ v)
include h

theorem prot_eabsent (hforms : s.protForms t v = true) (hpeer : s.chip.trees ≤ fv v F.PON_PROT_CTRL_PEER) :
    ∃ s', s.writeOf .PON_PROT_CTRL t 0 v = .next s' ∧ Rejected s s' F.PON_TREE_STATUS_ERR t .eabsent :=
  treeWrite_rejected (by decide) h (protWrite_judged.trans (by rw [hforms, decide_eq_true hpeer]; exact judge_eabsent))

variable (hpresent : s.protForms t v = true → fv v F.PON_PROT_CTRL_PEER < s.chip.trees)
include hpresent

omit h in
theorem prot_present : s.ponWrite ⟨.PON_PROT_CTRL, t, 0, 0⟩ v = judge false (s.protBad t v) (s.protRefused t v) (.done (s.protWritten t v)) := by
  have habsent : (s.protForms t v && decide (s.chip.trees ≤ fv v F.PON_PROT_CTRL_PEER)) = false := by
    cases hforms : s.protForms t v with
    | false => rfl
    | true => simpa using hpresent hforms
  rw [protWrite_judged, habsent]

theorem prot_erange (hbad : s.protBad t v = true) : ∃ s', s.writeOf .PON_PROT_CTRL t 0 v = .next s' ∧ Rejected s s' F.PON_TREE_STATUS_ERR t .erange :=
  treeWrite_rejected (by decide) h ((prot_present hpresent).trans (judge_erange hbad))

theorem prot_estate (hbad : s.protBad t v ≠ true) (hrefused : s.protRefused t v = true) :
    ∃ s', s.writeOf .PON_PROT_CTRL t 0 v = .next s' ∧ Rejected s s' F.PON_TREE_STATUS_ERR t .estate :=
  treeWrite_rejected (by decide) h ((prot_present hpresent).trans (judge_estate (Bool.eq_false_iff.2 hbad) hrefused))

theorem prot_done (hbad : s.protBad t v ≠ true) (hrefused : s.protRefused t v ≠ true) : s.writeOf .PON_PROT_CTRL t 0 v = .next (s.protWritten t v) :=
  treeWrite_done (by decide) h ((prot_present hpresent).trans (judge_ok (Bool.eq_false_iff.2 hbad) (Bool.eq_false_iff.2 hrefused)))

end

/-! What is left of the commands. -/

theorem protWritten_plain (hswitch : fv v F.PON_PROT_CTRL_SWITCH = 0) (hdone : fv v F.PON_PROT_CTRL_DONE = 0) : s.protWritten t v = s.protStored t v := by
  unfold State.protWritten
  rw [if_neg (by rw [hdone]; decide), if_neg (by rw [hswitch]; decide)]

theorem protWritten_switch (hswitch : fv v F.PON_PROT_CTRL_SWITCH = 1) (hdone : fv v F.PON_PROT_CTRL_DONE = 0) :
    s.protWritten t v = (s.protStored t v).switchStart t := by
  unfold State.protWritten
  rw [if_neg (by rw [hdone]; decide), if_pos hswitch]

theorem protWritten_done (hswitch : fv v F.PON_PROT_CTRL_SWITCH = 0) (hdone : fv v F.PON_PROT_CTRL_DONE = 1) :
    s.protWritten t v = (s.protStored t v).hostDone t := by
  unfold State.protWritten
  rw [if_pos hdone, if_neg (by rw [hswitch]; decide)]

theorem hostRestored_tr (s : State) (t : Fin 64) : (s.hostRestored t).tr t = { s.tr t with swDone := true } := by
  unfold State.hostRestored
  rw [State.modTree_tr]

theorem hostRestored_get (s : State) (t : Fin 64) (f : Fld) (i j k : Nat) : (s.hostRestored t).get f i j k = s.get f i j k := by
  unfold State.hostRestored
  rw [State.modTree_get]

theorem hostRestored_offLine (s : State) (t : Fin 64) : (s.hostRestored t).offLine = s.offLine := State.modTree_offLine ..

theorem hostDone_offLine (s : State) (t : Fin 64) : (s.hostDone t).offLine = s.offLine := (switchEnd_offLine ..).trans (hostRestored_offLine ..)

theorem hostDone_swDone (s : State) (t : Fin 64) : ((s.hostDone t).tr t).swDone = true := by
  unfold State.hostDone
  rw [switchEnd_tr, hostRestored_tr]

/-- DONE before the ports are exchanged. -/
theorem hostDone_early (hmoved : (s.tr t).swMoved = false) : (s.hostDone t).get F.PON_PROT_STATUS_STATE t = s.get F.PON_PROT_STATUS_STATE t := by
  unfold State.hostDone
  rw [switchEnd_waits (by rwa [hostRestored_tr]), hostRestored_get]

/-- DONE ends a switchover once no terminal is RESTORED. -/
theorem hostDone_ends (hsw : s.switching t = true) (hmoved : (s.tr t).swMoved = true) (hnone : ∀ u : Fin 256, s.termState t u ≠ tmRESTORED) :
    (s.hostDone t).get F.PON_PROT_STATUS_STATE t = ppARMED
      ∧ (s.hostDone t).get F.PON_PROT_STATUS_TIME t = min 511 (s.clk.frame - (s.tr t).swFrame)
      ∧ (s.hostDone t).get F.PON_PROT_MEAS_MEAN t = unsignedOf 26 (meanOffset (s.tr t).swOffsets) := by
  obtain ⟨hstate, htime, hmean⟩ := switchEnded_leaves (s.hostRestored t) t
  obtain ⟨-, -, -, -, -, hclk, -⟩ := offLine_fields (hostRestored_offLine s t)
  have hsw' : (s.hostRestored t).switching t = true := by
    unfold State.switching at *
    rwa [hostRestored_get]
  have hnone' : ∀ u : Fin 256, (s.hostRestored t).termState t u ≠ tmRESTORED := fun u => by
    unfold State.termState at *
    rw [hostRestored_get]
    exact hnone u
  rw [hostRestored_tr, hclk] at htime
  rw [hostRestored_tr] at hmean
  unfold State.hostDone
  rw [switchEnd_ends hsw' (by rwa [hostRestored_tr]) hnone' (.inr (by rw [hostRestored_tr]))]
  exact ⟨hstate, htime, hmean⟩

/-- A write of PON_PROT_CTRL: a pair is formed, held and dissolved, and SWITCH and DONE are its commands (R292, R294, R296, R297). -/
theorem protCtrl_settled (h : WriteReaches s ⟨.PON_PROT_CTRL, t, 0, 0⟩ v) :
    let write := s.writeOf .PON_PROT_CTRL t 0 v
    let keeps (s' : State) := s'.pending = s.pending ∧ s'.cmd = s.cmd ∧ s'.map = s.map ∧ s'.dp = s.dp ∧ s'.clk = s.clk ∧ s'.boot = s.boot
    let err (st : Status) := ∃ s', write = .next s' ∧ Rejected s s' F.PON_TREE_STATUS_ERR t st
    let same (f : Fld) := fv v f = s.get f t
    let peer := fv v F.PON_PROT_CTRL_PEER
    let slot := fv v F.PON_PROT_CTRL_SLOT
    let was := s.get F.PON_PROT_STATUS_PORT t
    let held := s.get F.PON_PROT_CTRL_EN t = 1 ∧ same F.PON_PROT_CTRL_PEER ∧ same F.PON_PROT_CTRL_SLOT ∧ slot ≤ 4
    let en := fv v F.PON_PROT_CTRL_EN = 1
    let off := s.get F.PON_PROT_CTRL_EN t = 0
    let cmds := fv v F.PON_PROT_CTRL_SWITCH = 0 ∧ fv v F.PON_PROT_CTRL_DONE = 0
    (en → off → s.chip.trees ≤ peer → err .eabsent)
    ∧ (en → off → peer < s.chip.trees → 4 < slot ∨ peer = t ∨ peer / 8 ≠ t / 8 ∨ s.get F.PON_DS_CTRL_MODE peer ≠ s.get F.PON_DS_CTRL_MODE t
        ∨ s.inGroup t = true ∨ s.inGroup peer = true ∨ s.inProtPair t none = true ∨ s.inProtPair peer none = true → err .erange)
    ∧ (en → off → peer < s.chip.trees → slot ≤ 4 → peer ≠ t → peer / 8 = t / 8 → s.get F.PON_DS_CTRL_MODE peer = s.get F.PON_DS_CTRL_MODE t →
        s.inGroup t = false → s.inGroup peer = false → s.inProtPair t none = false → s.inProtPair peer none = false →
        (∀ w : Fin 64, w ≠ t → slot < 4 → s.get F.PON_PROT_CTRL_EN w = 1 → s.get F.PON_PROT_CTRL_SLOT w ≠ slot) →
        (s.get F.PON_TREE_STATUS_ENABLED peer = 1 → err .estate)
        ∧ (s.get F.PON_TREE_STATUS_ENABLED peer = 0 → s.switching t = false → cmds → ∃ s', write = .next s' ∧ keeps s'
            ∧ s'.get F.PON_PROT_CTRL_EN t = 1 ∧ s'.get F.PON_PROT_CTRL_PEER t = peer ∧ s'.get F.PON_PROT_CTRL_SLOT t = slot
            ∧ s'.get F.PON_PROT_CTRL_RWAIT t = max 1 (fv v F.PON_PROT_CTRL_RWAIT) ∧ s'.get F.PON_PROT_STATUS_STATE t = ppARMED ∧ s'.tree = s.tree))
    ∧ (¬ en → held → s.switching t = false → cmds → ∃ s', write = .next s' ∧ keeps s' ∧ s'.get F.PON_PROT_CTRL_EN t = 0
        ∧ s'.get F.PON_PROT_STATUS_STATE t = ppOFF ∧ s'.tree = s.tree)
    ∧ (fv v F.PON_PROT_CTRL_SWITCH = 1 → slot ≤ 4 → ¬ en ∨ (¬ off ∧ s.switching t = true) → err .estate)
    ∧ (fv v F.PON_PROT_CTRL_SWITCH = 1 → fv v F.PON_PROT_CTRL_DONE = 0 → en → held → s.switching t = false → ∃ s', write = .next s' ∧ keeps s'
        ∧ s'.get F.PON_PROT_STATUS_STATE t = ppSWITCHING ∧ s'.get F.PON_PROT_CTRL_AUTO t = 0 ∧ s'.get F.PON_PROT_STATUS_NOK t = 0
        ∧ s'.get F.PON_PROT_STATUS_PORT t = was ∧ (s'.tr t).swFrame = s.clk.frame ∧ (s'.tr t).swMoved = false ∧ (s'.tr t).swDone = false)
    ∧ (fv v F.PON_PROT_CTRL_DONE = 1 → fv v F.PON_PROT_CTRL_SWITCH = 0 → en → held → slot = 4 → s.switching t = true →
        ∃ s', write = .next s' ∧ keeps s' ∧ (s'.tr t).swDone = true
        ∧ ((s.tr t).swMoved = false → s'.get F.PON_PROT_STATUS_STATE t = ppSWITCHING)
        ∧ ((s.tr t).swMoved = true → (∀ w : Fin 256, s.termState t w ≠ tmRESTORED) → s'.get F.PON_PROT_STATUS_STATE t = ppARMED
            ∧ s'.get F.PON_PROT_STATUS_TIME t = min 511 (s.clk.frame - (s.tr t).swFrame)
            ∧ s'.get F.PON_PROT_MEAS_MEAN t = unsignedOf 26 (meanOffset (s.tr t).swOffsets))) := by
  intro write keeps err same peer slot was held en off cmds
  have hkeeps : ∀ s' : State, s'.offLine = s.offLine → keeps s' := by
    intro s' h
    obtain ⟨hpending, -, hcmd, hmap, hboot, hclk, hdp⟩ := offLine_fields h
    exact ⟨hpending, hcmd, hmap, hdp, hclk, hboot⟩
  have hforms : en → off → s.protForms t v = true := fun hen hoff => protForms_iff.2 ⟨hen, by rw [show s.get _ _ = 0 from hoff]; decide⟩
  have hheld : s.get F.PON_PROT_CTRL_EN t = 1 ∨ ¬ en → s.protForms t v ≠ true := fun hwas hforms => by
    obtain ⟨hen, hnew⟩ := protForms_iff.1 hforms
    exact hwas.elim hnew fun hno => hno hen
  have hgood : slot ≤ 4 → s.protForms t v ≠ true → s.protBad t v ≠ true := fun hslot hno hbad => by
    rcases protBad_iff.1 hbad with hbig | ⟨hyes, -⟩
    · exact absurd hbig (Nat.not_lt.2 hslot)
    · exact hno hyes
  have hcarried : held → ¬ ((s.switching t = true ∧ (fv v F.PON_PROT_CTRL_EN ≠ 1 ∨ fv v F.PON_PROT_CTRL_SWITCH = 1))
      ∨ (fv v F.PON_PROT_CTRL_SWITCH = 1 ∧ fv v F.PON_PROT_CTRL_EN ≠ 1)) → s.protForms t v ≠ true ∧ write = .next (s.protWritten t v) := by
    rintro ⟨hwas, hpeer, hslot, hle⟩ hfree
    have hno := hheld (.inl hwas)
    refine ⟨hno, prot_done h (fun hforms => absurd hforms hno) (hgood hle hno) fun hrefused => ?_⟩
    rcases protRefused_iff.1 hrefused with ⟨hforms, -⟩ | ⟨-, hpeer' | hslot'⟩ | hrest
    · exact hno hforms
    · exact hpeer' hpeer
    · exact hslot' hslot
    · exact hfree hrest
  refine ⟨fun hen hoff hpeer => ?_, fun hen hoff hpeer hbad => ?_,
    fun hen hoff hpeer hslot hself hoctet hmode hgroup hgroup' hpair hpair' hfree => ?_, fun hen hheld' hsw hcmds => ?_,
    fun hswitch hslot hno => ?_, fun hswitch hdone hen hheld' hsw => ?_, fun hdone hswitch hen hheld' hslot hsw => ?_⟩
  · exact prot_eabsent h (hforms hen hoff) hpeer
  · refine prot_erange h (fun _ => hpeer) (protBad_iff.2 (hbad.imp_right fun hbad => ⟨hforms hen hoff, fun hfit => ?_⟩))
    obtain ⟨hself, hoctet, hmode, hgroup, hgroup', hpair, hpair', -⟩ := hfit
    rcases hbad with hbad | hbad | hbad | hbad | hbad | hbad | hbad
    · exact hself hbad
    · exact hbad hoctet
    · exact hbad hmode
    · exact absurd (hbad.symm.trans hgroup) (by decide)
    · exact absurd (hbad.symm.trans hgroup') (by decide)
    · exact absurd (hbad.symm.trans hpair) (by decide)
    · exact absurd (hbad.symm.trans hpair') (by decide)
  · have hbad : s.protBad t v ≠ true := fun hbad => (protBad_iff.1 hbad).elim (Nat.not_lt.2 hslot) fun hunfit =>
      hunfit.2 ⟨hself, hoctet, hmode, hgroup, hgroup', hpair, hpair', hfree⟩
    refine ⟨fun hon => prot_estate h (fun _ => hpeer) hbad (protRefused_iff.2 (.inl ⟨hforms hen hoff, hon⟩)), fun hidle hsw hcmds => ?_⟩
    have hallowed : s.protRefused t v ≠ true := fun hrefused => by
      rcases protRefused_iff.1 hrefused with ⟨-, hon⟩ | ⟨hwas, -⟩ | ⟨hsw', -⟩ | ⟨hswitch, -⟩
      · exact absurd (hidle.symm.trans hon) (by decide)
      · exact absurd (hwas.symm.trans hoff) (by decide)
      · exact absurd (hsw'.symm.trans hsw) (by decide)
      · exact absurd (hswitch.symm.trans hcmds.1) (by decide)
    refine ⟨_, prot_done h (fun _ => hpeer) hbad hallowed, ?_⟩
    rw [protWritten_plain hcmds.1 hcmds.2, protStored_ctrl s t v (f := F.PON_PROT_CTRL_EN) rfl rfl rfl, protStored_ctrl s t v (f := F.PON_PROT_CTRL_PEER) rfl rfl rfl,
      protStored_ctrl s t v (f := F.PON_PROT_CTRL_SLOT) rfl rfl rfl, protStored_ctrl s t v (f := F.PON_PROT_CTRL_RWAIT) rfl rfl rfl,
      fv_atLeast1_same v rfl]
    exact ⟨hkeeps _ (protStored_offLine ..), (fv_atLeast1_rwait v (by decide)).trans hen, fv_atLeast1_rwait v (by decide), fv_atLeast1_rwait v (by decide),
      rfl, protStored_formed (hforms hen hoff), protStored_tree ..⟩
  · have hzero : fv v F.PON_PROT_CTRL_EN = 0 := by
      have hlt : fv v F.PON_PROT_CTRL_EN < 2 := bits_lt ..
      have hne : fv v F.PON_PROT_CTRL_EN ≠ 1 := hen
      omega
    obtain ⟨hno, hdone⟩ := hcarried hheld' (fun hrefused => by
      rcases hrefused with ⟨hsw', -⟩ | ⟨hswitch, -⟩
      · exact absurd (hsw'.symm.trans hsw) (by decide)
      · exact absurd (hswitch.symm.trans hcmds.1) (by decide))
    refine ⟨_, hdone, ?_⟩
    rw [protWritten_plain hcmds.1 hcmds.2, protStored_ctrl s t v (f := F.PON_PROT_CTRL_EN) rfl rfl rfl]
    exact ⟨hkeeps _ (protStored_offLine ..), (fv_atLeast1_rwait v (by decide)).trans hzero, protStored_dissolved hen hheld'.1, protStored_tree ..⟩
  · have hno' : s.protForms t v ≠ true := by
      refine hheld (hno.symm.imp_left fun hno => ?_)
      have hlt : s.get F.PON_PROT_CTRL_EN t < 2 := State.get_lt ..
      have hne : s.get F.PON_PROT_CTRL_EN t ≠ 0 := hno.1
      omega
    refine prot_estate h (fun hforms => absurd hforms hno') (hgood hslot hno') (protRefused_iff.2 (.inr (.inr ?_)))
    exact hno.elim (fun hen => .inr ⟨hswitch, hen⟩) fun hsw => .inl ⟨hsw.2, .inr hswitch⟩
  · obtain ⟨hno, hcarry⟩ := hcarried hheld' (fun hrefused => by
      rcases hrefused with ⟨hsw', -⟩ | ⟨-, hdown⟩
      · exact absurd (hsw'.symm.trans hsw) (by decide)
      · exact hdown hen)
    obtain ⟨hstate, hauto, hnok, hport, hframe, hmoved, hleft⟩ := switchStart_leaves (s.protStored t v) t
    obtain ⟨-, -, -, -, -, hclk, -⟩ := offLine_fields (protStored_offLine s t v)
    refine ⟨_, hcarry, ?_⟩
    rw [protWritten_switch hswitch hdone]
    exact ⟨hkeeps _ ((switchStart_offLine ..).trans (protStored_offLine ..)), hstate, hauto, hnok,
      hport.trans (protStored_status s t v rfl (by decide)), hframe.trans (by rw [hclk]), hmoved, hleft⟩
  · obtain ⟨hno, hcarry⟩ := hcarried hheld' (fun hrefused => by
      rcases hrefused with ⟨-, hdown | hagain⟩ | ⟨hagain, -⟩
      · exact hdown hen
      · exact absurd (hagain.symm.trans hswitch) (by decide)
      · exact absurd (hagain.symm.trans hswitch) (by decide))
    obtain ⟨-, -, -, -, -, hclk, -⟩ := offLine_fields (protStored_offLine s t v)
    have hstays : (s.protStored t v).get F.PON_PROT_STATUS_STATE t = ppSWITCHING :=
      (protStored_stays hen hheld'.1).trans (decide_eq_true_iff.1 hsw)
    refine ⟨_, hcarry, ?_⟩
    rw [protWritten_done hswitch hdone]
    refine ⟨hkeeps _ ((hostDone_offLine ..).trans (protStored_offLine ..)), hostDone_swDone .., fun hmoved => ?_, fun hmoved hnone => ?_⟩
    · rw [hostDone_early (by rwa [protStored_tr]), hstays]
    · obtain ⟨hstate, htime, hmean⟩ := hostDone_ends (s := s.protStored t v) (t := t) (decide_eq_true hstays) (by rwa [protStored_tr])
        (fun w => by
          unfold State.termState at *
          rw [protStored_get_term s t v rfl w.isLt]
          exact hnone w)
      rw [protStored_tr, hclk] at htime
      rw [protStored_tr] at hmean
      exact ⟨hstate, htime, hmean⟩

end Sys2Proof.Machine

end

section

/-! Line contexts (O49): a context written, a terminal that returns to RANGING, and the contexts that move at the port exchange. -/

namespace Sys2Proof.Machine

variable {s : State} {t : Fin 64} {u : Nat} {c : LineCtx}

/-! A context written (R275, R295). -/

/-- The registers of a terminal's context. -/
def ctxRegs (i u o : Nat) : Prop := ∃ id : RegId, id.ofTerm = true ∧ o = Reg.offset ⟨id, i, u, 0⟩

theorem ctxRegs_of {id : RegId} (h : id.ofTerm = true) (i u : Nat) : ctxRegs i u (Reg.offset ⟨id, i, u, 0⟩) := ⟨id, h, rfl⟩

theorem ctxRegs_not_tree {id : RegId} (h : id.ofTree = true) (i i' : Nat) (hu : u < 256) : ¬ ctxRegs i' u (Reg.offset ⟨id, i, 0, 0⟩) := by
  rintro ⟨id', h', ho⟩
  exact tree_term_offset_ne h h' hu ho.symm

theorem ctxRegs_not_term {id : RegId} (h : id.ofTerm = true) {i i' u' : Nat} (hne : i ≠ i' ∨ u ≠ u') (hu : u < 256) (hu' : u' < 256) :
    ¬ ctxRegs i' u' (Reg.offset ⟨id, i, u, 0⟩) := by
  rintro ⟨id', h', ho⟩
  exact term_offset_index_ne h' h hne hu' hu ho

theorem zeroTerm_regs (s : State) (i u : Nat) : RegsBut s (s.zeroTerm i u) (ctxRegs i u) :=
  (((RegsBut.wr _ _ _ _ _ (ctxRegs_of rfl _ _)).trans (RegsBut.wr _ _ _ _ _ (ctxRegs_of rfl _ _))).trans
    (RegsBut.wr _ _ _ _ _ (ctxRegs_of rfl _ _))).trans (RegsBut.wr _ _ _ _ _ (ctxRegs_of rfl _ _))

theorem putCtx_regs (s : State) (i u : Nat) (c : LineCtx) : RegsBut s (s.putCtx i u c) (ctxRegs i u) :=
  ((((zeroTerm_regs s i u).trans (RegsBut.wr _ _ _ _ _ (ctxRegs_of rfl _ _))).trans (RegsBut.set _ _ _ _ _ (ctxRegs_of rfl _ _))).trans
    (RegsBut.set _ _ _ _ _ (ctxRegs_of rfl _ _))).trans (RegsBut.set _ _ _ _ _ (ctxRegs_of rfl _ _))

theorem zeroTerm_only (s : State) (i u : Nat) : s.zeroTerm i u = { s with regs := (s.zeroTerm i u).regs } := (rfl)

theorem putCtx_only (s : State) (i u : Nat) (c : LineCtx) : s.putCtx i u c = { s with regs := (s.putCtx i u c).regs } :=
  only_regs_set (only_regs_set (only_regs_set rfl _ _ _ _ _) _ _ _ _ _) _ _ _ _ _

theorem zeroTerm_free (s : State) (i u : Nat) : (s.zeroTerm i u).termState i u = tmFREE ∧ (s.zeroTerm i u).get F.PON_TERM_EQD_EQD i u = 0 := by
  have hne : ∀ (v : State) (id : RegId) (w : Word), id.ofTerm = true → id.desc.base ≠ F.PON_TERM_STATE_STATE.id.desc.base →
      (v.wr id w i u).get F.PON_TERM_STATE_STATE i u = v.get F.PON_TERM_STATE_STATE i u := fun v id w hid hb =>
    State.get_wr_ne _ _ _ _ _ _ _ _ _ _ (term_offset_ne hid rfl (Ne.symm hb))
  refine ⟨?_, (State.get_wr_same ..).trans rfl⟩
  unfold State.termState State.zeroTerm
  rw [hne _ _ _ rfl (by decide), hne _ _ _ rfl (by decide), hne _ _ _ rfl (by decide)]
  exact (State.get_wr_same ..).trans rfl

/-- What fits the registers of a context. -/
def LineCtx.fits (c : LineCtx) : Prop := c.state < 16 ∧ c.prof < 4 ∧ c.pik < 2 ^ 15 ∧ c.eqd < 2 ^ 25

theorem LineCtx.fits_unranged (h : c.fits) : ({ c with eqd := 0 } : LineCtx).fits := by
  obtain ⟨hstate, hprof, hpik, -⟩ := h
  exact ⟨hstate, hprof, hpik, (by decide : 0 < 2 ^ 25)⟩

theorem LineCtx.fits_ranging (h : c.fits) : ({ c with state := tmRANGING, eqd := 0 } : LineCtx).fits :=
  by
  obtain ⟨-, hprof, hpik, -⟩ := h
  exact ⟨(by decide : tmRANGING < 16), hprof, hpik, (by decide : 0 < 2 ^ 25)⟩

theorem lineCtx_fits (s : State) (i u : Nat) : (s.lineCtx i u).fits :=
  ⟨State.get_lt .., State.get_lt .., State.get_lt .., State.get_lt ..⟩

theorem putCtx_leaves (s : State) (i u : Nat) (h : c.fits) :
    (s.putCtx i u c).termState i u = c.state ∧ (s.putCtx i u c).get F.PON_TERM_EQD_EQD i u = c.eqd := by
  obtain ⟨hstate, hprof, hpik, heqd⟩ := h
  refine ⟨?_, State.get_set_fits _ rfl heqd⟩
  unfold State.termState State.putCtx
  dsimp only
  rw [State.get_set_term (f := F.PON_TERM_EQD_EQD) _ rfl rfl (by decide), State.get_set_term (f := F.PON_TERM_VSSN_VSSN) _ rfl rfl (by decide),
    State.get_set_term (f := F.PON_TERM_VID_VID) _ rfl rfl (by decide)]
  refine (get_wr_word _ F.PON_TERM_STATE_STATE _ _ _ _ _ rfl).trans ?_
  simp only [F.PON_TERM_STATE_STATE]
  omega

/-! A terminal that returns to RANGING (R295, R296). -/

theorem switchLost_regs (s : State) (i : Nat) : RegsBut s (s.switchLost i) (fun o => o = Reg.offset ⟨.PON_PROT_STATUS, i, 0, 0⟩) :=
  RegsBut.set _ _ _ _ _ rfl

theorem switchLost_nok (s : State) (i : Nat) : (s.switchLost i).get F.PON_PROT_STATUS_NOK i = min 256 (s.get F.PON_PROT_STATUS_NOK i + 1) :=
  State.get_set_fits _ rfl (Nat.lt_of_le_of_lt (Nat.min_le_left _ _) (by decide))

theorem switchLost_status (s : State) (i : Nat) {g : Fld} (hg : g.id = .PON_PROT_STATUS) (hd : g.hi < 9 ∨ 17 < g.lo) :
    (s.switchLost i).get g i = s.get g i := State.get_set_sibling _ rfl hg hd

theorem switchLost_get_term (s : State) (i : Nat) {g : Fld} (hg : g.id.ofTerm = true) (hu : u < 256) (i' : Nat) :
    (s.switchLost i).get g i' u = s.get g i' u := State.get_set_tree_term _ hu rfl hg

theorem putCtx_get_tree (s : State) (i : Nat) (c : LineCtx) {g : Fld} (hg : g.id.ofTree = true) (hu : u < 256) (i' : Nat) :
    (s.putCtx i u c).get g i' = s.get g i' :=
  (putCtx_regs s i u c).get (by rw [putCtx_only]) _ _ _ _ (ctxRegs_not_tree hg i' i hu)

theorem putCtx_get_term (s : State) (i : Nat) (c : LineCtx) {g : Fld} (hg : g.id.ofTerm = true) {u' i' : Nat} (hne : i' ≠ i ∨ u' ≠ u) (hu : u < 256)
    (hu' : u' < 256) : (s.putCtx i u c).get g i' u' = s.get g i' u' :=
  (putCtx_regs s i u c).get (by rw [putCtx_only]) _ _ _ _ (ctxRegs_not_term hg hne hu' hu)

/-- A terminal of a switchover back in RANGING. -/
def State.toRanging (s : State) (t u : Nat) : State := (s.putCtx t u { s.lineCtx t u with state := tmRANGING, eqd := 0 }).switchLost t

theorem toRanging_only (s : State) (i u : Nat) : s.toRanging i u = { s with regs := (s.toRanging i u).regs } :=
  only_regs_set (putCtx_only ..) _ _ _ _ _

theorem toRanging_leaves (hu : u < 256) : (s.toRanging t u).termState t u = tmRANGING ∧ (s.toRanging t u).get F.PON_TERM_EQD_EQD t u = 0
    ∧ (s.toRanging t u).get F.PON_PROT_STATUS_NOK t = min 256 (s.get F.PON_PROT_STATUS_NOK t + 1) := by
  obtain ⟨hstate, heqd⟩ := putCtx_leaves s t u (LineCtx.fits_ranging (lineCtx_fits s t u))
  refine ⟨(switchLost_get_term _ _ rfl hu _).trans hstate, (switchLost_get_term _ _ rfl hu _).trans heqd, ?_⟩
  unfold State.toRanging
  rw [switchLost_nok, putCtx_get_tree s t _ rfl hu]

theorem toRanging_state (hu : u < 256) : (s.toRanging t u).get F.PON_PROT_STATUS_STATE t = s.get F.PON_PROT_STATUS_STATE t := by
  unfold State.toRanging
  rw [switchLost_status (g := F.PON_PROT_STATUS_STATE) _ _ rfl (by decide), putCtx_get_tree s t _ rfl hu]

theorem toRanging_slot (hu : u < 256) : (s.toRanging t u).get F.PON_PROT_CTRL_SLOT t = s.get F.PON_PROT_CTRL_SLOT t := by
  have hlost : ∀ v : State, (v.switchLost t).get F.PON_PROT_CTRL_SLOT t = v.get F.PON_PROT_CTRL_SLOT t := fun v =>
    State.get_set_tree v rfl rfl (by decide)
  unfold State.toRanging
  rw [hlost, putCtx_get_tree s t _ rfl hu]

theorem toRanging_others {u' : Nat} (hne : u' ≠ u) (hu : u < 256) (hu' : u' < 256) : (s.toRanging t u).termState t u' = s.termState t u' :=
  (switchLost_get_term _ _ rfl hu' _).trans (putCtx_get_term _ _ _ rfl (.inr hne) hu hu')

theorem only_regs_switchEnd {v : State} (h : v = { s with regs := v.regs }) (t : Fin 64) :
    v.switchEnd t = { s with regs := (v.switchEnd t).regs } := by
  rcases switchEnd_cases v t with he | he <;> rw [he]
  · exact h
  · exact only_regs_set (only_regs_set (only_regs_set h _ _ _ _ _) _ _ _ _ _) _ _ _ _ _

/-- RWAIT_EXPIRY (R296). -/
theorem rwaitExpiry_runs {w : Fin 256} (hsw : s.switching t = true) (hstate : s.termState t w = tmRESTORED) :
    exec (.rwaitExpiry t w) s = .next ((s.toRanging t w).switchEnd t) := if_pos (by rw [hsw, decide_eq_true hstate]; rfl)

/-- A switchover waits no more for a terminal whose time has run out. -/
theorem rwaitExpiry_leaves {w : Fin 256} (hsw : s.switching t = true) :
    let s' := (s.toRanging t w).switchEnd t
    s' = { s with regs := s'.regs } ∧ s'.termState t w = tmRANGING ∧ s'.get F.PON_TERM_EQD_EQD t w = 0
      ∧ s'.get F.PON_PROT_STATUS_NOK t = min 256 (s.get F.PON_PROT_STATUS_NOK t + 1)
      ∧ ((s.tr t).swMoved = true → s.get F.PON_PROT_CTRL_SLOT t < 4 ∨ (s.tr t).swDone = true →
          (∀ k : Fin 256, some k ≠ some w → s.termState t k ≠ tmRESTORED) → s'.get F.PON_PROT_STATUS_STATE t = ppARMED)
      ∧ ((s.tr t).swMoved = false → s'.get F.PON_PROT_STATUS_STATE t = ppSWITCHING) := by
  have hw := w.isLt
  have honly := toRanging_only s t w
  have htr : (s.toRanging t w).tr t = s.tr t := by
    rw [State.tr_eq, honly, State.tr_eq]
  have hsw' : (s.toRanging t w).get F.PON_PROT_STATUS_STATE t = ppSWITCHING := (toRanging_state hw).trans (decide_eq_true_iff.1 hsw)
  obtain ⟨hstate, heqd, hnok⟩ := toRanging_leaves (s := s) (t := t) hw
  refine ⟨?_, (switchEnd_get_term _ _ rfl hw _).trans hstate, (switchEnd_get_term _ _ rfl hw _).trans heqd,
    (switchEnd_status _ _ rfl (by decide) (by decide) _).trans hnok, fun hmoved hdone hnone => ?_, fun hmoved => ?_⟩
  · exact only_regs_switchEnd honly t
  · have hnone' : ∀ k : Fin 256, (s.toRanging t w).termState t k ≠ tmRESTORED := fun k => by
      by_cases hk : k = w
      · rw [hk, hstate]
        decide
      · rw [toRanging_others (fun h => hk (Fin.ext h)) hw k.isLt]
        exact hnone k (by simpa using hk)
    rw [switchEnd_ends (decide_eq_true hsw') (by rwa [htr]) hnone' (by rwa [toRanging_slot hw, htr])]
    exact (switchEnded_leaves _ t).1
  · rw [switchEnd_waits (by rwa [htr]), hsw']

/-! A standby lane that is not ready (R296). -/

section
variable (hsw : s.switching t = true) (hmoved : (s.tr t).swMoved = false)
include hsw hmoved

theorem protLaneTimeout_fails (hlane : s.laneState (s.get F.PON_PROT_STATUS_PORT (s.get F.PON_PROT_CTRL_PEER t)) ≠ lnACTIVE) :
    exec (.portExchange t) s = .next s
    ∧ exec (.protLaneTimeout t) s = .next ((s.set F.PON_PROT_STATUS_STATE ppFAILED t).set F.PON_PROT_STATUS_STATUS Status.ewake.code t) :=
  ⟨if_pos (by simp [hlane]), if_pos (by simp [hsw, hmoved, hlane])⟩

omit hsw hmoved in
theorem protLaneTimeout_ready (hlane : s.laneState (s.get F.PON_PROT_STATUS_PORT (s.get F.PON_PROT_CTRL_PEER t)) = lnACTIVE) :
    exec (.protLaneTimeout t) s = .next s := if_neg (by simp [hlane])

end

theorem switchover_idle {w : Fin 256} (hsw : s.switching t = false) :
    exec (.portExchange t) s = .next s ∧ exec (.protLaneTimeout t) s = .next s ∧ exec (.rwaitExpiry t w) s = .next s :=
  ⟨if_pos (by simp [hsw]), if_neg (by simp [hsw]), if_neg (by simp [hsw])⟩

theorem protFailed_leaves (s : State) (t : Fin 64) :
    let s' := (s.set F.PON_PROT_STATUS_STATE ppFAILED t).set F.PON_PROT_STATUS_STATUS Status.ewake.code t
    s'.get F.PON_PROT_STATUS_STATE t = ppFAILED ∧ s'.get F.PON_PROT_STATUS_STATUS t = Status.ewake.code
      ∧ s'.get F.PON_PROT_STATUS_PORT t = s.get F.PON_PROT_STATUS_PORT t := by
  intro s'
  refine ⟨?_, State.get_set_fits _ rfl (by decide), ?_⟩ <;> simp (disch := decide) [s']

end Sys2Proof.Machine

end

section

/-! The port exchange (O49): the contexts of the working port go to the standby's number, and the tree's own come from its slot. -/

namespace Sys2Proof.Machine

variable {s : State} {t : Fin 64} {m slot u : Nat}

/-! What a step of the exchange leaves. -/

/-- From s to v, registers change at P alone, the ports and the status of the exchange stay, and so do the rest of the device, the slots,
the other trees, and that the ports are exchanged. -/
structure CtxSteps (t : Fin 64) (P : Nat → Prop) (s v : State) : Prop where
  regs : RegsBut s v P
  port : v.get F.PON_PROT_STATUS_PORT t = s.get F.PON_PROT_STATUS_PORT t
  status : v.get F.PON_PROT_STATUS_STATUS t = s.get F.PON_PROT_STATUS_STATUS t
  offLine : v.offLine = s.offLine
  slots : v.slots = s.slots
  slotsBad : v.slotsBad = s.slotsBad
  trees : ∀ w, w ≠ t → v.tr w = s.tr w
  moved : (v.tr t).swMoved = (s.tr t).swMoved

namespace CtxSteps
variable {v w : State} {P Q : Nat → Prop}

theorem refl : CtxSteps t P s s := ⟨RegsBut.rfl, rfl, rfl, rfl, rfl, rfl, fun _ _ => rfl, rfl⟩

theorem trans (h : CtxSteps t P s v) (h' : CtxSteps t P v w) : CtxSteps t P s w :=
  ⟨h.regs.trans h'.regs, h'.port.trans h.port, h'.status.trans h.status, h'.offLine.trans h.offLine, h'.slots.trans h.slots,
    h'.slotsBad.trans h.slotsBad, fun k hk => (h'.trees k hk).trans (h.trees k hk), h'.moved.trans h.moved⟩

theorem mono (h : CtxSteps t P s v) (hpq : ∀ o, P o → Q o) : CtxSteps t Q s v :=
  { h with regs := h.regs.mono hpq }

/-- A change of registers of one terminal. -/
theorem of_term {i : Nat} (hregs : RegsBut s v (ctxRegs i u)) (honly : v = { s with regs := v.regs }) (hu : u < 256) : CtxSteps t (ctxRegs i u) s v := by
  have hchip : v.chip = s.chip := by rw [honly]
  have htr : ∀ k, v.tr k = s.tr k := fun k => by rw [State.tr_eq, honly, State.tr_eq]
  exact ⟨hregs, hregs.get hchip _ _ _ _ (ctxRegs_not_tree rfl _ _ hu), hregs.get hchip _ _ _ _ (ctxRegs_not_tree rfl _ _ hu),
    by rw [honly]; rfl, by rw [honly], by rw [honly], fun k _ => htr k, by rw [htr]⟩

theorem putCtx (s : State) (c : LineCtx) (hu : u < 256) : CtxSteps t (ctxRegs t u) s (s.putCtx t u c) :=
  of_term (putCtx_regs s t u c) (putCtx_only s t u c) hu

theorem switchLost (s : State) : CtxSteps t (fun o => o = Reg.offset ⟨.PON_PROT_STATUS, t, 0, 0⟩) s (s.switchLost t) :=
  ⟨switchLost_regs s t, switchLost_status _ _ rfl (by decide), switchLost_status _ _ rfl (by decide), rfl, rfl, rfl, fun _ _ => rfl, rfl⟩

theorem rangingTime (s : State) (eqd : Nat) : CtxSteps t (fun _ => False) s (s.rangingTime t u eqd) := by
  refine ⟨RegsBut.of_regs rfl, rfl, rfl, rfl, rfl, rfl, fun k hk => State.modTree_tr_ne _ _ _ _ hk, ?_⟩
  unfold State.rangingTime
  rw [State.modTree_tr]

end CtxSteps

/-- What the exchange may change at a terminal of the tree itself. -/
def ownRegs (t u o : Nat) : Prop := o = Reg.offset ⟨.PON_PROT_STATUS, t, 0, 0⟩ ∨ ctxRegs t u o

/-- A terminal restored changes its own context, and counts among the lost where it is. -/
theorem restore_steps (s : State) (c : LineCtx) (hu : u < 256) : CtxSteps t (ownRegs t u) s (s.restore t u c) := by
  have hput : ∀ c, CtxSteps t (ownRegs t u) s (s.putCtx t u c) := fun c => (CtxSteps.putCtx s c hu).mono fun _ => .inr
  unfold State.restore
  dsimp only
  split
  · split
    · exact hput _
    · exact (hput _).trans ((CtxSteps.rangingTime _ _).mono fun _ h => h.elim)
  · exact (hput _).trans ((CtxSteps.switchLost _).mono fun _ => .inl)

/-! One context. -/

/-- The context of the tree goes to the standby's number, and the tree's own is zeroed. -/
def State.ctxPassed (s : State) (t m u : Nat) : State :=
  ((((s.wr .PON_TERM_STATE (s.rd .PON_TERM_STATE t u) m u).wr .PON_TERM_VID (s.rd .PON_TERM_VID t u) m u).wr
    .PON_TERM_VSSN (s.rd .PON_TERM_VSSN t u) m u).wr .PON_TERM_EQD (s.rd .PON_TERM_EQD t u) m u).zeroTerm t u

/-- The tree's own context as the exchange leaves it: FREE, or what its slot has. -/
def State.ctxBack (t : Fin 64) (slot : Nat) (s : State) (u : Nat) : State :=
  if 4 ≤ slot then s
  else if s.slotsBad.contains (slot * 256 + u) then
    (((s.switchLost t).set F.PON_PROT_STATUS_STATUS Status.eparity.code t).faultWrite (receiverQuoin t) 0x19 (slot * 256 + u) .device 1
      Status.eparity.code slot)
  else
    let c := sget {} s.slots (slot * 256 + u)
    if c.state = tmFREE then s
    else if c.state = tmRANGING then s.putCtx t u { c with eqd := 0 }
    else s.restore t u c

theorem moveCtx_eq (t : Fin 64) (m slot : Nat) (s : State) (u : Nat) : State.moveCtx t m slot s u = State.ctxBack t slot (s.ctxPassed t m u) u := (rfl)

theorem ctxBack_freed (h : 4 ≤ slot) : State.ctxBack t slot s u = s := if_pos h

/-- With no slot spoiled, the tree's context is what its slot has. -/
theorem ctxBack_restored (h : slot < 4) (hbad : s.slotsBad = []) : State.ctxBack t slot s u =
    if (sget {} s.slots (slot * 256 + u)).state = tmFREE then s
    else if (sget {} s.slots (slot * 256 + u)).state = tmRANGING then s.putCtx t u { sget {} s.slots (slot * 256 + u) with eqd := 0 }
    else s.restore t u (sget {} s.slots (slot * 256 + u)) :=
  (if_neg (Nat.not_le.2 h)).trans (if_neg (by rw [hbad]; exact Bool.false_ne_true))

theorem ctxBack_steps (slot : Nat) (hbad : s.slotsBad = []) (hu : u < 256) : CtxSteps t (ownRegs t u) s (State.ctxBack t slot s u) := by
  rcases Nat.lt_or_ge slot 4 with h | h
  · rw [ctxBack_restored h hbad]
    split
    · exact CtxSteps.refl
    · split
      · exact (CtxSteps.putCtx _ _ hu).mono fun _ => .inr
      · exact restore_steps _ _ hu
  · rw [ctxBack_freed h]
    exact CtxSteps.refl

theorem ctxPassed_steps (s : State) (hu : u < 256) : CtxSteps t (fun o => ctxRegs t u o ∨ ctxRegs m u o) s (s.ctxPassed t m u) := by
  have hcopy : CtxSteps t (ctxRegs m u) s ((((s.wr .PON_TERM_STATE (s.rd .PON_TERM_STATE t u) m u).wr .PON_TERM_VID (s.rd .PON_TERM_VID t u) m u).wr
      .PON_TERM_VSSN (s.rd .PON_TERM_VSSN t u) m u).wr .PON_TERM_EQD (s.rd .PON_TERM_EQD t u) m u) := by
    refine CtxSteps.of_term ?_ rfl hu
    exact (((RegsBut.wr _ _ _ _ _ (ctxRegs_of rfl _ _)).trans (RegsBut.wr _ _ _ _ _ (ctxRegs_of rfl _ _))).trans
      (RegsBut.wr _ _ _ _ _ (ctxRegs_of rfl _ _))).trans (RegsBut.wr _ _ _ _ _ (ctxRegs_of rfl _ _))
  exact (hcopy.mono fun _ => .inr).trans ((CtxSteps.of_term (zeroTerm_regs _ t u) (zeroTerm_only _ t u) hu).mono fun _ => .inl)

theorem ctxPassed_own (s : State) (t m u : Nat) :
    (s.ctxPassed t m u).termState t u = tmFREE ∧ (s.ctxPassed t m u).get F.PON_TERM_EQD_EQD t u = 0 := zeroTerm_free ..

theorem ctxPassed_standby (s : State) {i : Nat} (hne : m ≠ i) (hu : u < 256) :
    (s.ctxPassed i m u).termState m u = s.termState i u ∧ (s.ctxPassed i m u).get F.PON_TERM_EQD_EQD m u = s.get F.PON_TERM_EQD_EQD i u := by
  have hzero : ∀ (v : State) {g : Fld}, g.id.ofTerm = true → (v.zeroTerm i u).get g m u = v.get g m u := fun v g hg =>
    (zeroTerm_regs v i u).get rfl _ _ _ _ (ctxRegs_not_term hg (.inl hne) hu hu)
  have hwr : ∀ (v : State) (id : RegId) (x : Word), id.ofTerm = true → id.desc.base ≠ F.PON_TERM_STATE_STATE.id.desc.base →
      (v.wr id x m u).get F.PON_TERM_STATE_STATE m u = v.get F.PON_TERM_STATE_STATE m u := fun v id x hid hb =>
    State.get_wr_ne _ _ _ _ _ _ _ _ _ _ (term_offset_ne hid rfl (Ne.symm hb))
  unfold State.ctxPassed State.termState
  rw [hzero _ rfl, hzero _ rfl, hwr _ _ _ rfl (by decide), hwr _ _ _ rfl (by decide), hwr _ _ _ rfl (by decide)]
  exact ⟨State.get_wr_same .., State.get_wr_same ..⟩

/-- What the move of one context may change. -/
def moveRegs (t m u o : Nat) : Prop := ownRegs t u o ∨ ctxRegs m u o

theorem moveCtx_steps (m slot : Nat) (hbad : s.slotsBad = []) (hu : u < 256) : CtxSteps t (moveRegs t m u) s (State.moveCtx t m slot s u) := by
  have hpass := ctxPassed_steps (t := t) (m := m) s hu
  rw [moveCtx_eq]
  exact (hpass.mono fun _ h => h.imp_left .inr).trans ((ctxBack_steps slot (hpass.slotsBad.trans hbad) hu).mono fun _ => .inl)

theorem ownRegs_not_term {id : RegId} (h : id.ofTerm = true) {i : Nat} {w : Nat} (hne : i ≠ t ∨ w ≠ u) (hu : u < 256) (hw : w < 256) :
    ¬ ownRegs t u (Reg.offset ⟨id, i, w, 0⟩) := by
  rintro (ho | hctx)
  · exact tree_term_offset_ne (id := .PON_PROT_STATUS) rfl h hw ho
  · exact ctxRegs_not_term h hne hw hu hctx

theorem CtxSteps.chip {P : Nat → Prop} {v : State} (h : CtxSteps t P s v) : v.chip = s.chip := by
  obtain ⟨-, hchip, -⟩ := offLine_fields h.offLine
  exact hchip

/-- The standby's number has the tree's context. -/
theorem moveCtx_standby (slot : Nat) (hbad : s.slotsBad = []) (hne : m ≠ t) (hu : u < 256) :
    (State.moveCtx t m slot s u).termState m u = s.termState t u
      ∧ (State.moveCtx t m slot s u).get F.PON_TERM_EQD_EQD m u = s.get F.PON_TERM_EQD_EQD t u := by
  have hpass := ctxPassed_steps (t := t) (m := m) s hu
  have hback := ctxBack_steps (t := t) slot (hpass.slotsBad.trans hbad) hu
  obtain ⟨hstate, heqd⟩ := ctxPassed_standby s hne hu
  rw [moveCtx_eq]
  exact ⟨(hback.regs.get hback.chip _ _ _ _ (ownRegs_not_term rfl (.inl hne) hu hu)).trans hstate,
    (hback.regs.get hback.chip _ _ _ _ (ownRegs_not_term rfl (.inl hne) hu hu)).trans heqd⟩

/-- The tree's own context: FREE for host restoration, and else what its slot has. -/
theorem moveCtx_freed (m : Nat) (h : 4 ≤ slot) : (State.moveCtx t m slot s u).termState t u = tmFREE
    ∧ (State.moveCtx t m slot s u).get F.PON_TERM_EQD_EQD t u = 0 := by
  rw [moveCtx_eq, ctxBack_freed h]
  exact ctxPassed_own ..

/-- A delay less DELTA. -/
def State.lessDelta (s : State) (t eqd : Nat) : Int := eqd - signed 26 (s.get F.PON_PROT_DELTA_DELTA t)

theorem rangingTime_get (s : State) (t : Fin 64) (u eqd : Nat) (f : Fld) (i j k : Nat) : (s.rangingTime t u eqd).get f i j k = s.get f i j k := by
  unfold State.rangingTime
  rw [State.modTree_get]

theorem restore_fits (s : State) {c : LineCtx} (hc : c.fits) (hfits : s.eqdFits t (s.lessDelta t c.eqd) = true) :
    (s.restore t u c).termState t u = tmRESTORED ∧ ((s.restore t u c).get F.PON_TERM_EQD_EQD t u : Int) = s.lessDelta t c.eqd := by
  have hlt := eqdFits_lt hfits
  have h0 := (eqdFits_iff.1 hfits).1
  obtain ⟨-, hprof, hpik, -⟩ := hc
  obtain ⟨hstate, heqd⟩ := putCtx_leaves (c := { c with state := tmRESTORED, eqd := (s.lessDelta t c.eqd).toNat }) s t u
    ⟨(by decide : tmRESTORED < 16), hprof, hpik, hlt⟩
  have hrun : s.restore t u c = s.putCtx t u { c with state := tmRESTORED, eqd := (s.lessDelta t c.eqd).toNat }
      ∨ s.restore t u c = (s.putCtx t u { c with state := tmRESTORED, eqd := (s.lessDelta t c.eqd).toNat }).rangingTime t u (s.lessDelta t c.eqd).toNat := by
    unfold State.lessDelta at hfits ⊢
    unfold State.restore
    dsimp only
    rw [if_pos hfits]
    split
    · exact .inl rfl
    · exact .inr rfl
  have hnat : (((s.lessDelta t c.eqd).toNat : Nat) : Int) = s.lessDelta t c.eqd := Int.toNat_of_nonneg h0
  unfold State.termState at *
  rcases hrun with h | h <;> rw [h]
  · exact ⟨hstate, (congrArg Int.ofNat heqd).trans hnat⟩
  · rw [rangingTime_get, rangingTime_get]
    exact ⟨hstate, (congrArg Int.ofNat heqd).trans hnat⟩

theorem restore_beyond (s : State) (hu : u < 256) {c : LineCtx} (hc : c.fits) (hfits : s.eqdFits t (s.lessDelta t c.eqd) = false) :
    (s.restore t u c).termState t u = tmRANGING ∧ (s.restore t u c).get F.PON_TERM_EQD_EQD t u = 0 := by
  obtain ⟨hstate, heqd⟩ := putCtx_leaves s t u (LineCtx.fits_ranging hc)
  have hrun : s.restore t u c = (s.putCtx t u { c with state := tmRANGING, eqd := 0 }).switchLost t := by
    unfold State.lessDelta at hfits
    unfold State.restore
    dsimp only
    rw [if_neg (Bool.eq_false_iff.1 hfits)]
  rw [hrun]
  exact ⟨(switchLost_get_term _ _ rfl hu _).trans hstate, (switchLost_get_term _ _ rfl hu _).trans heqd⟩

end Sys2Proof.Machine

end

section

/-! The port exchange (O49): from the slot saved, over the contexts moved one by one, to the end of the switchover. -/

namespace Sys2Proof.Machine

variable {s : State} {t : Fin 64} {m slot u : Nat}

theorem ctxPassed_get (s : State) (t : Fin 64) (m : Nat) {g : Fld} (hg : g.id.ofTree = true) (hu : u < 256) (i : Nat) :
    (s.ctxPassed t m u).get g i = s.get g i := by
  have hpass := ctxPassed_steps (t := t) (m := m) s hu
  exact hpass.regs.get hpass.chip _ _ _ _ fun h => h.elim (ctxRegs_not_tree hg i t hu) (ctxRegs_not_tree hg i m hu)

/-- The tree's own context as its slot restores it. -/
theorem moveCtx_slot (m : Nat) (h : slot < 4) (hbad : s.slotsBad = []) (hu : u < 256) {c : LineCtx} (hslot : sget {} s.slots (slot * 256 + u) = c)
    (hc : c.fits) : let w := State.moveCtx t m slot s u
    (c.state = tmFREE → w.termState t u = tmFREE)
      ∧ (c.state = tmRANGING → w.termState t u = tmRANGING ∧ w.get F.PON_TERM_EQD_EQD t u = 0)
      ∧ (c.state = tmOPERATING →
          (s.eqdFits t (s.lessDelta t c.eqd) = true → w.termState t u = tmRESTORED ∧ (w.get F.PON_TERM_EQD_EQD t u : Int) = s.lessDelta t c.eqd)
          ∧ (s.eqdFits t (s.lessDelta t c.eqd) = false → w.termState t u = tmRANGING ∧ w.get F.PON_TERM_EQD_EQD t u = 0)) := by
  have hpass := ctxPassed_steps (t := t) (m := m) s hu
  have hdelta : ∀ e, (s.ctxPassed t m u).lessDelta t e = s.lessDelta t e := fun e => by
    unfold State.lessDelta
    rw [ctxPassed_get s t m rfl hu]
  have hfit : ∀ e, (s.ctxPassed t m u).eqdFits t e = s.eqdFits t e := fun e => by
    unfold State.eqdFits
    rw [ctxPassed_get s t m rfl hu]
  have hrun := ctxBack_restored (t := t) (u := u) h (hpass.slotsBad.trans hbad)
  rw [hpass.slots, hslot] at hrun
  rw [moveCtx_eq, hrun]
  refine ⟨fun hfree => ?_, fun hranging => ?_, fun hoper => ?_⟩
  · rw [if_pos hfree]
    exact (ctxPassed_own ..).1
  · rw [if_neg (by rw [hranging]; decide), if_pos hranging]
    obtain ⟨hstate, heqd⟩ := putCtx_leaves (s.ctxPassed t m u) t u (LineCtx.fits_unranged hc)
    exact ⟨hstate.trans hranging, heqd⟩
  · rw [if_neg (by rw [hoper]; decide), if_neg (by rw [hoper]; decide), ← hfit, ← hdelta]
    exact ⟨restore_fits _ hc, restore_beyond _ hu hc⟩

/-! The slot saved (R295). -/

/-- One context saved. -/
def State.saveCtx (s : State) (t k u : Nat) : State := { s with slots := sput {} s.slots (k * 256 + u) (s.lineCtx t u) }

theorem saveSlot_saves (hen : s.get F.PON_PROT_CTRL_EN t = 1) (hslot : s.get F.PON_PROT_CTRL_SLOT t < 4) (hmoved : (s.tr t).swMoved = false) :
    s.saveSlot t = (range' 0 256).foldl (fun v u => v.saveCtx t (s.get F.PON_PROT_CTRL_SLOT t) u) s :=
  if_pos (by rw [(flag_iff s F.PON_PROT_CTRL_EN t rfl).2 hen, hmoved]; simpa using hslot)

theorem saveSlot_only (s : State) (t : Fin 64) : s.saveSlot t = { s with slots := (s.saveSlot t).slots } := by
  unfold State.saveSlot
  dsimp only
  split
  · exact foldl_rel (R := fun s v : State => v = { s with slots := v.slots }) (fun _ => rfl) (fun h1 h2 => by rw [h2, h1]) (fun _ _ _ => rfl) s
  · rfl

/-- Each terminal has its context in the slot. -/
theorem saveSlot_has (hen : s.get F.PON_PROT_CTRL_EN t = 1) (hslot : s.get F.PON_PROT_CTRL_SLOT t < 4) (hmoved : (s.tr t).swMoved = false)
    (hu : u < 256) : sget {} (s.saveSlot t).slots (s.get F.PON_PROT_CTRL_SLOT t * 256 + u) = s.lineCtx t u := by
  rw [saveSlot_saves hen hslot hmoved]
  have hnd : (range' 0 256).Nodup := by
    rw [range'_eq]
    exact List.nodup_range'
  obtain ⟨s1, ⟨honly, -⟩, -, hlast⟩ := foldl_once
    (R := fun s1 v : State => v = { s1 with slots := v.slots } ∧ sget {} v.slots (s.get F.PON_PROT_CTRL_SLOT t * 256 + u)
      = sget {} s1.slots (s.get F.PON_PROT_CTRL_SLOT t * 256 + u))
    (f := fun v u => v.saveCtx t (s.get F.PON_PROT_CTRL_SLOT t) u) (fun _ => ⟨rfl, rfl⟩) (fun h1 h2 => ⟨by rw [h2.1, h1.1], h2.2.trans h1.2⟩) hnd
    (mem_range'.2 ⟨Nat.zero_le _, by omega⟩) (fun v b _ hb => ⟨rfl, sget_sput_ne _ _ _ _ (by omega)⟩) s
  rw [hlast]
  have hctx : s1.lineCtx t u = s.lineCtx t u := by
    rw [honly]
    rfl
  exact (sget_sput_same ..).trans hctx

/-! The contexts moved, one after another. -/

/-- The run over all contexts. -/
def State.ctxsMoved (s : State) (t : Fin 64) (m slot : Nat) : State := (range' 0 256).foldl (State.moveCtx t m slot) s

/-- A part of the run, which leaves the slots good. -/
def CtxRun (t : Fin 64) (P : Nat → Prop) (s v : State) : Prop := s.slotsBad = [] → CtxSteps t P s v

theorem CtxRun.trans {P : Nat → Prop} {v w : State} (h : CtxRun t P s v) (h' : CtxRun t P v w) : CtxRun t P s w := fun hbad =>
  (h hbad).trans (h' ((h hbad).slotsBad.trans hbad))

/-- What the run may change. -/
def runRegs (t m o : Nat) : Prop := ∃ b, b < 256 ∧ moveRegs t m b o

theorem ctxsMoved_steps (m slot : Nat) (hbad : s.slotsBad = []) : CtxSteps t (runRegs t m) s (s.ctxsMoved t m slot) :=
  foldl_rel (R := CtxRun t (runRegs t m)) (fun _ _ => CtxSteps.refl) CtxRun.trans
    (fun v b hb hgood => by
      have hlt : b < 256 := by
        have := mem_range'.1 hb
        omega
      exact (moveCtx_steps m slot hgood hlt).mono fun o ho => ⟨b, hlt, ho⟩) s hbad

/-- What the run may change before and after it comes to a terminal. -/
def restRegs (t m u o : Nat) : Prop := ∃ b, b < 256 ∧ b ≠ u ∧ moveRegs t m b o

/-- The run comes to a terminal once: before and after, its contexts stay. -/
theorem ctxsMoved_at (m slot : Nat) (hbad : s.slotsBad = []) (hu : u < 256) :
    ∃ v, CtxSteps t (restRegs t m u) s v ∧ CtxSteps t (restRegs t m u) (State.moveCtx t m slot v u) (s.ctxsMoved t m slot) := by
  have hnd : (range' 0 256).Nodup := by
    rw [range'_eq]
    exact List.nodup_range'
  obtain ⟨v, hv, hlast⟩ := foldl_once (R := CtxRun t (restRegs t m u)) (f := State.moveCtx t m slot) (fun _ _ => CtxSteps.refl) CtxRun.trans hnd
    (mem_range'.2 ⟨Nat.zero_le u, by omega⟩)
    (fun v b hb hne hgood => by
      have hlt : b < 256 := by
        have := mem_range'.1 hb
        omega
      exact (moveCtx_steps m slot hgood hlt).mono fun o ho => ⟨b, hlt, hne, ho⟩) s
  have hvgood := (hv hbad).slotsBad.trans hbad
  exact ⟨v, hv hbad, hlast ((moveCtx_steps m slot hvgood hu).slotsBad.trans hvgood)⟩

theorem moveRegs_not_term {id : RegId} (h : id.ofTerm = true) {i w b : Nat} (hne : (i ≠ t ∧ i ≠ m) ∨ w ≠ b) (hb : b < 256) (hw : w < 256) :
    ¬ moveRegs t m b (Reg.offset ⟨id, i, w, 0⟩) := by
  rintro (hown | hctx)
  · exact ownRegs_not_term h (hne.imp_left And.left) hb hw hown
  · exact ctxRegs_not_term h (hne.imp_left And.right) hw hb hctx

theorem moveRegs_not_tree {id : RegId} (h : id.ofTree = true) (hne : id.desc.base ≠ F.PON_PROT_STATUS_STATE.id.desc.base) {b : Nat} (hb : b < 256) (i : Nat) :
    ¬ moveRegs t m b (Reg.offset ⟨id, i, 0, 0⟩) := by
  rintro ((ho | hctx) | hctx)
  · exact tree_offset_ne (id := .PON_PROT_STATUS) rfl h hne ho
  · exact ctxRegs_not_tree h _ _ hb hctx
  · exact ctxRegs_not_tree h _ _ hb hctx

section
variable {v : State} (h : CtxSteps t (restRegs t m u) s v)
include h

/-- The terminal's own contexts, and registers of the trees other than PON_PROT_STATUS, through the rest of the run. -/
theorem restRegs_get_term {g : Fld} (hg : g.id.ofTerm = true) (hu : u < 256) (i : Nat) : v.get g i u = s.get g i u :=
  h.regs.get h.chip _ _ _ _ fun ⟨_, hb, hne, ho⟩ => moveRegs_not_term hg (.inr hne.symm) hb hu ho

theorem restRegs_get_tree {g : Fld} (hg : g.id.ofTree = true) (hne : g.id.desc.base ≠ F.PON_PROT_STATUS_STATE.id.desc.base) (i : Nat) :
    v.get g i = s.get g i :=
  h.regs.get h.chip _ _ _ _ fun ⟨_, hb, _, ho⟩ => moveRegs_not_tree hg hne hb i ho

end

/-- Contexts of other trees, and the standby's port. -/
theorem ctxsMoved_others (slot : Nat) (hbad : s.slotsBad = []) {i : Nat} (hi : i ≠ t) (hm : i ≠ m) (hu : u < 256) {g : Fld} (hg : g.id.ofTerm = true) :
    (s.ctxsMoved t m slot).get g i u = s.get g i u := by
  have h := ctxsMoved_steps (t := t) m slot hbad
  exact h.regs.get h.chip _ _ _ _ fun ⟨_, hb, ho⟩ => moveRegs_not_term hg (.inl ⟨hi, hm⟩) hb hu ho

theorem ctxsMoved_standbyPort (slot : Nat) (hbad : s.slotsBad = []) (hm : m ≠ t) :
    (s.ctxsMoved t m slot).get F.PON_PROT_STATUS_PORT m = s.get F.PON_PROT_STATUS_PORT m := by
  have h := ctxsMoved_steps (t := t) m slot hbad
  refine h.regs.get h.chip _ _ _ _ ?_
  rintro ⟨b, hb, (ho | hctx) | hctx⟩
  · exact tree_offset_index_ne (id := .PON_PROT_STATUS) rfl hm ho
  · exact ctxRegs_not_tree rfl _ _ hb hctx
  · exact ctxRegs_not_tree rfl _ _ hb hctx

/-- The standby's number has the tree's contexts. -/
theorem ctxsMoved_standby (slot : Nat) (hbad : s.slotsBad = []) (hm : m ≠ t) (hu : u < 256) :
    (s.ctxsMoved t m slot).termState m u = s.termState t u ∧ (s.ctxsMoved t m slot).get F.PON_TERM_EQD_EQD m u = s.get F.PON_TERM_EQD_EQD t u := by
  obtain ⟨v, hv, hlast⟩ := ctxsMoved_at (t := t) m slot hbad hu
  obtain ⟨hstate, heqd⟩ := moveCtx_standby slot (hv.slotsBad.trans hbad) hm hu
  exact ⟨((restRegs_get_term hlast rfl hu m).trans hstate).trans (restRegs_get_term hv rfl hu t),
    ((restRegs_get_term hlast rfl hu m).trans heqd).trans (restRegs_get_term hv rfl hu t)⟩

/-- The tree's own, for host restoration. -/
theorem ctxsMoved_freed (m : Nat) (hbad : s.slotsBad = []) (hu : u < 256) (h : 4 ≤ slot) :
    (s.ctxsMoved t m slot).termState t u = tmFREE ∧ (s.ctxsMoved t m slot).get F.PON_TERM_EQD_EQD t u = 0 := by
  obtain ⟨v, hv, hlast⟩ := ctxsMoved_at (t := t) m slot hbad hu
  obtain ⟨hstate, heqd⟩ := moveCtx_freed (s := v) (t := t) (u := u) m h
  exact ⟨(restRegs_get_term hlast rfl hu t).trans hstate, (restRegs_get_term hlast rfl hu t).trans heqd⟩

/-- The tree's own, from its slot. -/
theorem ctxsMoved_slot (m : Nat) (hbad : s.slotsBad = []) (hu : u < 256) (h : slot < 4) {c : LineCtx} (hslot : sget {} s.slots (slot * 256 + u) = c)
    (hc : c.fits) : let w := s.ctxsMoved t m slot
    (c.state = tmFREE → w.termState t u = tmFREE)
      ∧ (c.state = tmRANGING → w.termState t u = tmRANGING ∧ w.get F.PON_TERM_EQD_EQD t u = 0)
      ∧ (c.state = tmOPERATING →
          (s.eqdFits t (s.lessDelta t c.eqd) = true → w.termState t u = tmRESTORED ∧ (w.get F.PON_TERM_EQD_EQD t u : Int) = s.lessDelta t c.eqd)
          ∧ (s.eqdFits t (s.lessDelta t c.eqd) = false → w.termState t u = tmRANGING ∧ w.get F.PON_TERM_EQD_EQD t u = 0)) := by
  obtain ⟨v, hv, hlast⟩ := ctxsMoved_at (t := t) m slot hbad hu
  have hmove := moveCtx_slot (s := v) (t := t) m h (hv.slotsBad.trans hbad) hu (by rw [hv.slots, hslot]) hc
  have hdelta : ∀ e, v.lessDelta t e = s.lessDelta t e := fun e => by
    unfold State.lessDelta
    rw [restRegs_get_tree hv rfl (by decide)]
  have hfit : ∀ e, v.eqdFits t e = s.eqdFits t e := fun e => by
    unfold State.eqdFits
    rw [restRegs_get_tree hv rfl (by decide)]
  unfold State.termState at *
  simp only [hdelta, hfit, ← restRegs_get_term hlast (g := F.PON_TERM_STATE_STATE) rfl hu, ← restRegs_get_term hlast (g := F.PON_TERM_EQD_EQD) rfl hu] at hmove
  exact hmove

end Sys2Proof.Machine

end

section

/-! The switchover's exchange as a whole, and the writes and events of a tree's registers and protection (O49). -/

namespace Sys2Proof.Machine

variable {s : State} {t : Fin 64} {u : Nat} {v : Word}

/-! PORT_EXCHANGE (R291, R295, R296). -/

/-- The standby of a tree's pair. -/
def State.mate (s : State) (t : Nat) : Nat := s.get F.PON_PROT_CTRL_PEER t

theorem mate_lt (s : State) (t : Nat) : s.mate t < 64 := State.get_lt s F.PON_PROT_CTRL_PEER t 0 0

/-- The ports exchanged, before the contexts move. -/
def State.portsExchanged (s : State) (t : Fin 64) : State :=
  ((((s.saveSlot t).set F.PON_PROT_STATUS_PORT (s.portOf (s.mate t)) t).set F.PON_PROT_STATUS_PORT (s.portOf t) (s.mate t)).set
    F.PON_PROT_STATUS_STATUS Status.ok.code t).modTree t (fun x => { x with swMoved := true, missRun := [], holdoff := [] })

/-- The tree on its new port, once the lanes have settled. -/
def State.exchanged (s : State) (t : Fin 64) : State :=
  ((((s.portsExchanged t).ctxsMoved t (s.mate t) (s.get F.PON_PROT_CTRL_SLOT t)).laneSettle (s.portOf t)).laneSettle (s.portOf (s.mate t))).switchEnd t

theorem portExchange_runs (hsw : s.switching t = true) (hmoved : (s.tr t).swMoved = false) (hlane : s.laneState (s.portOf (s.mate t)) = lnACTIVE) :
    exec (.portExchange t) s = .next (s.exchanged t) := by
  unfold State.portOf State.mate at hlane
  exact if_neg (by simp [hsw, hmoved, hlane])

section
variable (s : State) (t : Fin 64)

theorem portsExchanged_offLine : (s.portsExchanged t).offLine = s.offLine := by
  unfold State.portsExchanged
  rw [State.modTree_offLine, State.set_offLine, State.set_offLine, State.set_offLine, saveSlot_only]
  simp only [State.offLine]

theorem portsExchanged_slotsBad : (s.portsExchanged t).slotsBad = s.slotsBad := by
  unfold State.portsExchanged State.modTree
  simp only [State.set_slotsBad]
  rw [saveSlot_only]

theorem portsExchanged_slots : (s.portsExchanged t).slots = (s.saveSlot t).slots := by
  unfold State.portsExchanged State.modTree
  simp only [State.set_slots]

theorem saveSlot_get (f : Fld) (i j k : Nat) : (s.saveSlot t).get f i j k = s.get f i j k := by
  rw [saveSlot_only]
  rfl

theorem portsExchanged_get {g : Fld} (hg : g.id.ofTree = true) (hne : g.id.desc.base ≠ F.PON_PROT_STATUS_STATE.id.desc.base) (i : Nat) :
    (s.portsExchanged t).get g i = s.get g i := by
  unfold State.portsExchanged
  rw [State.modTree_get, State.get_set_tree (f := F.PON_PROT_STATUS_STATUS) _ rfl hg hne, State.get_set_tree (f := F.PON_PROT_STATUS_PORT) _ rfl hg hne,
    State.get_set_tree (f := F.PON_PROT_STATUS_PORT) _ rfl hg hne, saveSlot_get]

theorem portsExchanged_get_term {g : Fld} (hg : g.id.ofTerm = true) (hu : u < 256) (i : Nat) : (s.portsExchanged t).get g i u = s.get g i u := by
  unfold State.portsExchanged
  rw [State.modTree_get, State.get_set_tree_term _ hu rfl hg, State.get_set_tree_term _ hu rfl hg, State.get_set_tree_term _ hu rfl hg, saveSlot_get]

theorem portsExchanged_moved : ((s.portsExchanged t).tr t).swMoved = true := by
  unfold State.portsExchanged
  rw [State.modTree_tr]

theorem portsExchanged_tr_ne {w : Fin 64} (h : w ≠ t) : (s.portsExchanged t).tr w = s.tr w := by
  unfold State.portsExchanged
  rw [State.modTree_tr_ne _ _ _ _ h, State.set_tr, State.set_tr, State.set_tr, State.tr_eq, saveSlot_only, State.tr_eq]

theorem portsExchanged_ports (hne : s.mate t ≠ t) : (s.portsExchanged t).portOf t = s.portOf (s.mate t)
    ∧ (s.portsExchanged t).portOf (s.mate t) = s.portOf t ∧ (s.portsExchanged t).get F.PON_PROT_STATUS_STATUS t = Status.ok.code := by
  have hstatus : ∀ (w : State) (n : Nat), (w.set F.PON_PROT_STATUS_STATUS n t).get F.PON_PROT_STATUS_PORT t = w.get F.PON_PROT_STATUS_PORT t := fun w n =>
    State.get_set_sibling w rfl rfl (by decide)
  unfold State.portsExchanged
  refine ⟨?_, ?_, ?_⟩
  · unfold State.portOf
    rw [State.modTree_get, hstatus, State.get_set_tree_index (f := F.PON_PROT_STATUS_PORT) _ rfl rfl (Ne.symm hne)]
    exact State.get_set_fits _ rfl (portOf_lt ..)
  · unfold State.portOf
    rw [State.modTree_get, State.get_set_tree_index (f := F.PON_PROT_STATUS_STATUS) (g := F.PON_PROT_STATUS_PORT) _ rfl rfl hne]
    exact State.get_set_fits _ rfl (portOf_lt ..)
  · rw [State.modTree_get]
    exact State.get_set_fits _ rfl (by decide)

end

/-! What the end of the exchange keeps of the contexts moved. -/

section
variable (s : State) (t : Fin 64)

/-- The contexts moved. -/
def State.exchangedCtxs (s : State) (t : Fin 64) : State := (s.portsExchanged t).ctxsMoved t (s.mate t) (s.get F.PON_PROT_CTRL_SLOT t)

theorem exchanged_get_term {g : Fld} (hg : g.id.ofTerm = true) (hu : u < 256) {i : Nat} (hi : i < 64) :
    (s.exchanged t).get g i u = (s.exchangedCtxs t).get g i u := by
  unfold State.exchanged
  rw [switchEnd_get_term _ _ hg hu, laneSettle_get_term _ _ hg hi hu, laneSettle_get_term _ _ hg hi hu]
  rfl

theorem exchanged_status {g : Fld} (hg : g.id = .PON_PROT_STATUS) (hlo : 8 < g.lo) (hhi : g.hi < 32) {i : Nat} (hi : i < 64) :
    (s.exchanged t).get g i = (s.exchangedCtxs t).get g i := by
  have htree : g.id.ofTree = true := by rw [hg]; rfl
  unfold State.exchanged
  rw [switchEnd_status _ _ hg hlo hhi, laneSettle_get_tree _ _ htree hi, laneSettle_get_tree _ _ htree hi]
  rfl

theorem exchanged_tr (w : Fin 64) : (s.exchanged t).tr w = (s.exchangedCtxs t).tr w := by
  unfold State.exchanged
  rw [switchEnd_tr, State.laneSettle_tr, State.laneSettle_tr]
  rfl

theorem exchanged_offLine : (s.exchanged t).offLine = (s.exchangedCtxs t).offLine := by
  unfold State.exchanged
  rw [switchEnd_offLine, State.laneSettle_offLine, State.laneSettle_offLine]
  rfl

end

/-- What the exchange leaves while no slot is spoiled. -/
theorem exchanged_steps (hbad : s.slotsBad = []) :
    CtxSteps t (runRegs t (s.mate t)) (s.portsExchanged t) (s.exchangedCtxs t) :=
  ctxsMoved_steps _ _ ((portsExchanged_slotsBad s t).trans hbad)

section
variable (hbad : s.slotsBad = []) (hne : s.mate t ≠ t)
include hbad

theorem exchanged_keeps : (s.exchanged t).offLine = s.offLine :=
  (exchanged_offLine s t).trans ((exchanged_steps hbad).offLine.trans (portsExchanged_offLine s t))

theorem exchanged_moved : ((s.exchanged t).tr t).swMoved = true := by
  rw [exchanged_tr]
  exact (exchanged_steps hbad).moved.trans (portsExchanged_moved s t)

/-- Trees that are neither of the pair. -/
theorem exchanged_others {w : Fin 64} (hw : w ≠ t) (hm : w.val ≠ s.mate t) (hu : u < 256) :
    (s.exchanged t).termState w u = s.termState w u ∧ (s.exchanged t).tr w = s.tr w := by
  refine ⟨?_, ?_⟩
  · unfold State.termState
    rw [exchanged_get_term s t rfl hu w.isLt]
    exact (ctxsMoved_others _ ((portsExchanged_slotsBad s t).trans hbad) (fun h => hw (Fin.ext h)) hm hu rfl).trans (portsExchanged_get_term s t rfl hu w)
  · rw [exchanged_tr]
    exact ((exchanged_steps hbad).trees w hw).trans (portsExchanged_tr_ne s t hw)

/-- The tree's own contexts, for host restoration. -/
theorem exchanged_freed (hslot : 4 ≤ s.get F.PON_PROT_CTRL_SLOT t) (hu : u < 256) :
    (s.exchanged t).termState t u = tmFREE ∧ (s.exchanged t).get F.PON_TERM_EQD_EQD t u = 0 := by
  unfold State.termState
  rw [exchanged_get_term s t rfl hu t.isLt, exchanged_get_term s t rfl hu t.isLt]
  exact ctxsMoved_freed _ ((portsExchanged_slotsBad s t).trans hbad) hu hslot

/-- The tree's own contexts, as they were when they were saved, and with its delays less DELTA. -/
theorem exchanged_restored (hmoved : (s.tr t).swMoved = false) (hen : s.get F.PON_PROT_CTRL_EN t = 1) (hslot : s.get F.PON_PROT_CTRL_SLOT t < 4)
    (hu : u < 256) : let s' := s.exchanged t
    let eqd := s.lessDelta t (s.get F.PON_TERM_EQD_EQD t u)
    (s.termState t u = tmFREE → s'.termState t u = tmFREE)
      ∧ (s.termState t u = tmRANGING → s'.termState t u = tmRANGING ∧ s'.get F.PON_TERM_EQD_EQD t u = 0)
      ∧ (s.termState t u = tmOPERATING →
          (s.eqdFits t eqd = true → s'.termState t u = tmRESTORED ∧ (s'.get F.PON_TERM_EQD_EQD t u : Int) = eqd)
          ∧ (s.eqdFits t eqd = false → s'.termState t u = tmRANGING ∧ s'.get F.PON_TERM_EQD_EQD t u = 0)) := by
  have hsaved := (congrArg (fun m => sget {} m (s.get F.PON_PROT_CTRL_SLOT t * 256 + u)) (portsExchanged_slots s t)).trans
    (saveSlot_has hen hslot hmoved hu)
  have hmove := ctxsMoved_slot (t := t) (s.mate t) ((portsExchanged_slotsBad s t).trans hbad) hu hslot hsaved (lineCtx_fits s t u)
  have hdelta : ∀ e, (s.portsExchanged t).lessDelta t e = s.lessDelta t e := fun e => by
    unfold State.lessDelta
    rw [portsExchanged_get s t rfl (by decide)]
  have hfit : ∀ e, (s.portsExchanged t).eqdFits t e = s.eqdFits t e := fun e => by
    unfold State.eqdFits
    rw [portsExchanged_get s t rfl (by decide)]
  simp only [hdelta, hfit] at hmove
  intro s' eqd
  have hstate : s'.termState t u = (s.exchangedCtxs t).termState t u := exchanged_get_term s t rfl hu t.isLt
  have heqd : s'.get F.PON_TERM_EQD_EQD t u = (s.exchangedCtxs t).get F.PON_TERM_EQD_EQD t u := exchanged_get_term s t rfl hu t.isLt
  rw [hstate, heqd]
  exact hmove

include hne

theorem exchanged_ports : (s.exchanged t).portOf t = s.portOf (s.mate t) ∧ (s.exchanged t).portOf (s.mate t) = s.portOf t
    ∧ (s.exchanged t).get F.PON_PROT_STATUS_STATUS t = Status.ok.code := by
  obtain ⟨hport, hmate, hstatus⟩ := portsExchanged_ports s t hne
  have hsteps := exchanged_steps (t := t) hbad
  unfold State.portOf at *
  rw [exchanged_status s t rfl (by decide) (by decide) t.isLt, exchanged_status s t rfl (by decide) (by decide) (mate_lt s t),
    exchanged_status s t rfl (by decide) (by decide) t.isLt]
  exact ⟨hsteps.port.trans hport, (ctxsMoved_standbyPort _ ((portsExchanged_slotsBad s t).trans hbad) hne).trans hmate, hsteps.status.trans hstatus⟩

/-- The standby's number has the contexts of the port that worked. -/
theorem exchanged_standby (hu : u < 256) : (s.exchanged t).termState (s.mate t) u = s.termState t u
    ∧ (s.exchanged t).get F.PON_TERM_EQD_EQD (s.mate t) u = s.get F.PON_TERM_EQD_EQD t u := by
  obtain ⟨hstate, heqd⟩ := ctxsMoved_standby (u := u) (s.get F.PON_PROT_CTRL_SLOT t) ((portsExchanged_slotsBad s t).trans hbad) hne hu
  unfold State.termState at *
  rw [exchanged_get_term s t rfl hu (mate_lt s t), exchanged_get_term s t rfl hu (mate_lt s t)]
  exact ⟨hstate.trans (portsExchanged_get_term s t rfl hu t), heqd.trans (portsExchanged_get_term s t rfl hu t)⟩

end

/-! The tree's registers, settled. -/

/-- Settles O49: each write is judged and what it stores is read off, a second goes over the trees and their scopes, and a switchover goes
over the contexts, each of which the run meets once. -/
theorem treeRegistersAndProtection : Obligations.TreeRegistersAndProtection := by
  unfold Obligations.TreeRegistersAndProtection
  intro s t u v keeps err same offset bin mask members scope bins length peer slot was mate next delta alone noneRestored held
  have hkeeps : ∀ s' : State, s'.offLine = s.offLine → keeps s' := by
    intro s' h
    obtain ⟨hpending, -, hcmd, hmap, hboot, hclk, hdp⟩ := offLine_fields h
    exact ⟨hpending, hcmd, hmap, hdp, hclk, hboot⟩
  have hu := u.isLt
  refine ⟨fun h => ?_, fun h => ?_, fun h => ?_, fun h => ?_, ?_, fun h => protCtrl_settled h, fun hsw hmoved hmate => ?_, fun hsw hstate => ?_,
    switchover_idle⟩
  · obtain ⟨habsent, hpresent⟩ := dsCtrl_settled h
    refine ⟨habsent, fun hpart => ?_⟩
    obtain ⟨hrange, hstate, hdone⟩ := hpresent hpart
    refine ⟨hrange, hstate, fun hlb hmode hlight => ⟨_, hdone hlb hmode hlight, ?_⟩⟩
    obtain ⟨hpending, hcmd, hmap⟩ := dsCtrlWritten_engines (s := s) (t := t) (v := v)
    exact ⟨(dsCtrlWritten_get rfl t t.isLt).trans (plainWrite_get_same (f := F.PON_DS_CTRL_MODE) s rfl rfl t),
      (dsCtrlWritten_get rfl t t.isLt).trans (plainWrite_get_same (f := F.PON_DS_CTRL_LBMODE) s rfl rfl t),
      dsCtrlWritten_aligns, dsCtrlWritten_stops, dsCtrlWritten_profiles, hpending, hcmd, hmap, fun w hw => dsCtrlWritten_tr hw⟩
  · obtain ⟨habsent, hrange, hform, hdrop⟩ := bondCtrl_settled h
    refine ⟨habsent, fun hen hall hbad => hrange hen hall (bondBad_iff.2 (hbad.imp_right fun ⟨k, hk, hmode⟩ => ⟨k, hk, .inl (.inl hmode)⟩)),
      fun hen hoff hmem hlegal => ?_, fun hen => ⟨(hdrop hen).1, fun hnone hoff => ?_⟩⟩
    · obtain ⟨-, -, hnamed, -⟩ := id hlegal
      obtain ⟨-, -, hself, -⟩ := hmem t (self_mem_bondMembers hnamed)
      obtain ⟨hbusy, hdone⟩ := hform hen hoff (fun k hk => (hmem k hk).1) (bondBad_free hlegal fun k hk => (hmem k hk).2) hself
      obtain ⟨hline, hlead, hmask, hoffsets⟩ := bondWritten_leaves (v := v) hoff
      exact ⟨hbusy, fun hidle => ⟨_, hdone hidle, hkeeps _ hline, hlead.trans hen, hmask, hoffsets⟩⟩
    · obtain ⟨hline, hlead, hmask, -⟩ := bondWritten_leaves (v := v) hoff
      have hlt : fv v F.PON_BOND_CTRL_EN < 2 := bits_lt ..
      have hno : fv v F.PON_BOND_CTRL_EN ≠ 1 := hen
      exact ⟨_, (hdrop hen).2 hnone hoff, hkeeps _ hline, hlead.trans (by omega), hmask⟩
  · refine ⟨fun hbig => treeWrite_rejected (by decide) h (pmCtrlWrite_erange hbig), fun hfits => ?_⟩
    obtain ⟨s', hrun, hline, hoffset, h15, h24, hkept, hbegun⟩ := pmCtrl_done h hfits
    refine ⟨s', hrun, hkeeps _ hline, hoffset, h15, h24, fun ho h15 h24 => hkept ⟨ho, h15, h24⟩, fun hnew => ?_⟩
    obtain ⟨hhist, hbins15, hbins24⟩ := hbegun hnew
    exact ⟨hhist, hbins15.trans (by simp only [State.pmFirstBins, decide_eq_true_eq, bin, offset]),
      hbins24.trans (by simp only [State.pmFirstBins, decide_eq_true_eq, bin, offset])⟩
  · refine ⟨fun hwrong => treeWrite_rejected (by decide) h (if_pos hwrong), fun hright hnone => ?_, fun b hright hsome hes hses huas => ?_⟩
    · exact ⟨_, treeWrite_done (by decide) h (pmSelWrite_none hright hnone), pmShown_only .., pmShown_data0 .., pmShown_data1 ..⟩
    · have hended : s.pmEnded t (fv v F.PON_PM_SEL_KIND = 1) b
          = decide ((b.index + 1) * length + s.get F.PON_PM_CTRL_OFFSET t + 10 ≤ s.seconds + 86400) := by
        simp only [State.pmEnded, pmLen, decide_eq_true_eq, length]
      obtain ⟨hvalid, hsuspect, hshownSes, hshownEs, hshownUas, hcomplete⟩ := pmShown_fields (s := s) (t := t) (v := v)
        (ended := s.pmEnded t (fv v F.PON_PM_SEL_KIND = 1) b) hes hses huas
      exact ⟨_, treeWrite_done (by decide) h (pmSelWrite_some hright hsome), pmShown_only .., hvalid, hsuspect, hshownSes, hshownEs, hshownUas,
        hcomplete.trans (congrArg b2n hended)⟩
  · refine ⟨s.pmSeconded, rfl, pmSeconded_only s, fun k hk hpresent hlen => ?_, fun hfree => ?_, pmSeconded_absent⟩
    · exact pmSeconded_scope hpresent (mem_pmScopes.2 (hk.imp_right fun ⟨hku, hstate⟩ => ⟨hku ▸ hu, hku ▸ hstate⟩)) hlen
    · exact pmSeconded_free hu hfree
  · refine ⟨fun hlane => ?_, fun hlane => ⟨protLaneTimeout_ready hlane, fun hbad => ?_⟩⟩
    · obtain ⟨hstays, hfails⟩ := protLaneTimeout_fails hsw hmoved hlane
      obtain ⟨hstate, hstatus, hport⟩ := protFailed_leaves s t
      exact ⟨hstays, _, hfails, hstate, hstatus, hport, only_regs_set (only_regs_set rfl _ _ _ _ _) _ _ _ _ _⟩
    · obtain ⟨hpending, -, hcmd, hmap, -, -, hdp⟩ := offLine_fields (exchanged_keeps (t := t) hbad)
      obtain ⟨hport, hport', hstatus⟩ := exchanged_ports (t := t) hbad hmate
      obtain ⟨hstate, heqd⟩ := exchanged_standby (t := t) hbad hmate hu
      exact ⟨_, portExchange_runs hsw hmoved hlane, hpending, hcmd, hmap, hdp, hport, hport', hstatus, exchanged_moved hbad, hstate, heqd,
        fun hslot => exchanged_freed hbad hslot hu, fun hslot hen => exchanged_restored hbad hmoved hen hslot hu,
        fun w hw hm => exchanged_others hbad hw hm hu⟩
  · exact ⟨_, rwaitExpiry_runs hsw hstate, rwaitExpiry_leaves hsw⟩

end Sys2Proof.Machine

end
